-- ==== Sys2Proof/Word.lean ====
section
/-! DEFINITION. The word types of the block: what the manual numbers as bits. -/

namespace Sys2Proof

/-- A control-space register word (R6). -/
abbrev Word := BitVec 32

/-- One line of 64 bytes, byte `b` in bits `8b+7 .. 8b` (Table 0.1, R272). -/
abbrev LineData := BitVec 512

/-- One `DAT` flit's 32 data bytes. -/
abbrev HalfData := BitVec 256

/-- A physical byte address `[47:0]`. -/
abbrev Addr := BitVec 48

abbrev SliceId := Fin 8
abbrev PortId := Fin 24
abbrev ChanId := Fin 16
abbrev UnitId := Fin 27
abbrev RouterId := Fin 24

end Sys2Proof
end

