-- ==== Sys2Proof/Syntax.lean ====
section
/-! DEFINITION. The commands of the block: one constructor per row of the table of operations and
events. An operand is what comes from outside the block (a pin level, a flit, a TLP, a word, the
outcome of a measurement), or names which unit, port, entry or timer the step belongs to. -/

namespace Sys2Proof

/-- The strap inputs, sampled once at a reset release (R19, R54). -/
structure Straps where
  portEn : BitVec 24
  chPop : BitVec 8
  vid : BitVec 16
  did : BitVec 16
  ssvid : BitVec 16
  ssid : BitVec 16
  sn : BitVec 64
  deriving DecidableEq, Repr

/-- The excursions of the supplies (R20, R21, R28); `dramSupplyLost` is the loss of `VDDQ_PHY` or of the DRAM devices' own
supply (R43). -/
inductive SupplyCause where
  | railOutOfRange
  | slewTooFast
  | dramSupplyLost
  | coreRiseReleased
  deriving DecidableEq, Repr

/-- The two command mailboxes (R444). -/
inductive Mailbox where
  | host
  | partner
  deriving DecidableEq, Repr

/-- The paths that keep a copy of every counter `HI` register (R421). -/
inductive ReadPath where
  | control
  | agent (n : PortId)
  deriving DecidableEq, Repr

/-- A counter of a set: the elapsed counter or programmable counter `i` (R418). -/
inductive CounterSel where
  | elapsed
  | cnt (i : Fin 8)
  deriving DecidableEq, Repr

/-- What `PMU_CLEAR` clears (Table 17.12, Table 17.13). -/
inductive ClearSel where
  | all
  | one (set : Fin 24) (i : Fin 8)
  deriving DecidableEq, Repr

/-- The state of an error-correcting code as its checker receives the word: the check equations of
the header and filter codes are not given, so the number of wrong bits is the operand (R152, R230). -/
inductive CodeErr where
  | clean
  | single (syndrome : BitVec 9)
  | multi (syndrome : BitVec 9)
  deriving DecidableEq, Repr

/-- What a read of a filter set finds (R152, R155, R156): an error of one way, of one slot of the bank's victim buffer, which
a lookup compares, or of the parity of the not-recently-used bits. -/
inductive SetErr where
  | clean
  | entry (way : Fin 12) (e : CodeErr)
  | victim (slot : Fin 4) (e : CodeErr)
  | nruParity
  deriving DecidableEq, Repr

/-- A take-up: the number of the tracker entry, and what the read of its filter set finds. -/
structure TakeUp where
  entry : BitVec 8
  err : SetErr
  deriving DecidableEq, Repr

/-- A slice whose step takes up a waiting request, and what the read of that request's filter set finds. -/
structure SliceLookup where
  slice : SliceId
  err : SetErr
  deriving DecidableEq, Repr

/-- The line whose hold window ends, and what the read of its filter set finds for the request that is taken up next. -/
structure LineLookup where
  pa : Addr
  err : SetErr
  deriving DecidableEq, Repr

/-- A read of an inspected filter entry: the word of it that is read, and the bits of the entry that stand wrong in the array. -/
structure InspectWord where
  word : Fin 3
  flip : BitVec 72
  deriving DecidableEq, Repr

/-- What a hop finds in each flit of a packet; the second is of no account in a packet of one flit. -/
structure PerFlit (α : Type) where
  first : α
  second : α
  deriving DecidableEq, Repr

/-- The writer whose packet a `DROP_REST` drops (R430). -/
inductive DropSel where
  | firmware
  | agents (mask : BitVec 24)
  deriving DecidableEq, Repr

/-- The outcome of one channel's training (Table 10.5) and what it found. -/
structure TrainResult where
  pass : BitVec 6
  ranks2 : Bool
  density : BitVec 2
  rate : BitVec 3
  rfm : Bool
  flight : BitVec 12
  deriving DecidableEq, Repr

/-- The return arbiters (R318): one per port egress, one per channel in Accord. -/
inductive ArbiterId where
  | port (n : PortId)
  | chan (c : ChanId)
  deriving DecidableEq, Repr

/-- The pace monitors (R63): one per slice, channel and router column. -/
inductive Monitor where
  | slice (n : SliceId)
  | chan (c : ChanId)
  | column (x : Fin 6)
  deriving DecidableEq, Repr

/-- An inbound memory TLP to BAR4, as its header and payload arrive (R328, R330). `bytes` and `en`
are empty for a read; for a write `en` holds one byte enable per payload byte. -/
structure MemTlp where
  off : BitVec 40
  len : Nat
  bytes : List (BitVec 8)
  en : List Bool
  tag : BitVec 10
  rid : BitVec 16
  relaxed : Bool
  ep : Bool
  deriving DecidableEq, Repr

/-- The inbound TLPs that are not simply accepted (R323, R338). `unsupported` is an AtomicOp, an I/O or a locked request, or
where `posted` a message of a feature that the endpoint lacks. -/
inductive TlpError where
  | poisoned (t : MemTlp)
  | unsupported (posted : Bool) (tag : BitVec 10) (rid : BitVec 16)
  | malformed (tag : BitVec 8) (rid : BitVec 16)
  | ecrc (tag : BitVec 8) (rid : BitVec 16)
  deriving DecidableEq, Repr

/-- A completion received for a mastered read (R337); `refused` has status CA where `abort`, otherwise UR. -/
inductive CplStatus where
  | ok (data : LineData) (poisoned : Bool)
  | refused (abort : Bool)
  deriving DecidableEq, Repr

/-- The commands, in the order of the table. -/
inductive Instr where
  -- resets, supplies and clocks
  | resetAssert (brst : Bool)
  | resetRelease (brst : Bool) (straps : Straps) (fuse : BitVec 16) (heldLong refclkOk : Bool)
  | alwaysOnPowerOn
  | supplyExcursion (cause : SupplyCause)
  | vddCoreRemove
  | perstAssert
  | perstRelease
  | agentResetAssert (n : PortId)
  | agentResetRelease (n : PortId)
  | timebaseLock
  | timebaseLoss
  | refclkReturn
  | calendarLoss
  | calendarSecond
  | tempUpd (temp : BitVec 9)
  | tempStale
  | overTemperature
  | fuseSample (fuse : BitVec 16)
  | lcAdvDone
  | lifecycleAdvanceTimeout
  | keyBeat (slot : Fin 2) (beat : BitVec 2) (data : BitVec 64)
  -- control-port accesses
  | registerWrite (addr : BitVec 22) (data : Word)
  | cpReqRelease
  | tbLoRead
  | probeCntLoRead (r : RouterId)
  | counterLoRead (path : ReadPath) (set : Fin 24) (sel : CounterSel)
  | hazCntRead (n : SliceId)
  | filterInspectRead (n : SliceId) (word : InspectWord)
  | twnWCommit (mask : BitVec 16)
  | linkEn (en : Bool)
  | pwrReq (req : Bool)
  | pmuClear (sel : ClearSel)
  | probeClear (r : RouterId)
  | dumpEnable
  | trcEnable (en : Bool)
  | trcWrHi (word : Word)
  | dropRest (sel : DropSel)
  | trcLogPop
  | cmdWr (word : Word)
  | cmdRd
  | flush
  | partnerMailboxWrite (word : Word)
  | partnerMailboxRead (off : BitVec 14)
  | replyMove (mb : Mailbox)
  -- command packets of the sequencer
  | getInfo (mb : Mailbox)
  | setMode (mb : Mailbox)
  | getMode (mb : Mailbox)
  | trainChannel (mb : Mailbox)
  | initMemory (mb : Mailbox)
  | scrubCtl (mb : Mailbox)
  | regionSet (mb : Mailbox)
  | regionGet (mb : Mailbox)
  | realmOpen (mb : Mailbox)
  | realmRetire (mb : Mailbox)
  | mirrorCfg (mb : Mailbox)
  | failover (mb : Mailbox)
  | slicePower (mb : Mailbox)
  | accordCfg (mb : Mailbox)
  | ledgerExport (mb : Mailbox)
  | ledgerImport (mb : Mailbox)
  | calendarSet (mb : Mailbox)
  | lifecycleAdvance (mb : Mailbox)
  | wipe (mb : Mailbox)
  | blotterArm (mb : Mailbox)
  | faultClear (mb : Mailbox)
  | slotTableLoad (mb : Mailbox)
  | agentFence (mb : Mailbox)
  | agentRevive (mb : Mailbox)
  | agentReviveComplete
  | commandTimeout
  | patchApply
  | patchVerifyComplete (sigOk : Bool)
  -- agent ports
  | reqFlit (n : PortId) (dl : Bool) (flit : BitVec 128)
  | rspInboundFlit (n : PortId) (dl : Bool) (flit : BitVec 128)
  | datInboundFlit (n : PortId) (dl : Bool) (flit : BitVec 352)
  | creditReturn (n : PortId) (chan : Fin 3) (dl : Bool)
  | egressPresent (n : PortId) (chan : Fin 3) (dl : Bool)
  | wdogEgress (n : PortId) (chan : Fin 3) (dl : Bool)
  | wdogData (n : PortId) (txn : BitVec 8)
  | wdogGrantack (n : PortId) (home : BitVec 3) (entry : BitVec 8)
  | wdogCredit (n : PortId) (txn : BitVec 8)
  -- spine
  | routerHop (r : RouterId) (input : Fin 6) (hdr : PerFlit CodeErr) (crc : PerFlit (BitVec 16))
  | outputArbitration (r : RouterId) (out : Fin 6)
  -- slices
  | requestIngress (n : SliceId)
  | rdShared (n : SliceId) (entry : TakeUp)
  | rdUnique (n : SliceId) (entry : TakeUp)
  | rdOnce (n : SliceId) (entry : TakeUp)
  | upgrade (n : SliceId) (entry : TakeUp)
  | rdWalk (n : SliceId) (entry : TakeUp)
  | wbDirty (n : SliceId)
  | evClean (n : SliceId)
  | wrInvFull (n : SliceId) (entry : TakeUp)
  | wrInvPartial (n : SliceId) (entry : TakeUp)
  | atomic (n : SliceId) (entry : TakeUp)
  | wbKeep (n : SliceId) (entry : TakeUp)
  | wbDrop (n : SliceId) (entry : TakeUp)
  | discard (n : SliceId) (entry : TakeUp)
  | xlatInv (n : SliceId)
  | xlatSync (n : SliceId)
  | apRead (n : PortId)
  | apWrite (n : PortId)
  | snpAck (n : SliceId)
  | xlatDone (n : SliceId)
  | grantAck (n : SliceLookup)
  | dataWb (n : SliceId)
  | lineReadComplete (c : ChanId) (errData errCheck : LineData) (badNode : Option (Fin 10))
  | holdWindowExpire (n : SliceId) (line : LineLookup)
  | snoopTimeout (n : SliceId) (entry : BitVec 8)
  | reclaimScan (n : SliceId)
  | creditGrant (n : SliceId)
  | hazardWatchExpire (n : SliceId) (slot : Fin 8)
  | xlatSyncSignal (n : SliceId)
  | filterScrub (n : SliceId) (err : SetErr)
  | epochBoundary
  | commandSlot (c : ChanId)
  -- channels
  | schedulerDecision (c : ChanId)
  | refreshInterval (c : ChanId) (rank : Fin 2)
  | rowIdleTimeout (c : ChanId) (rank : Fin 2) (bank : Fin 16)
  | mr4Read (c : ChanId) (rank : Fin 2) (mult : BitVec 2) (outOfRange : Bool)
  | zqLatch (c : ChanId) (rank : Fin 2)
  | dqsOscillatorRead (c : ChanId) (rank : Fin 2) (count : BitVec 16)
  | scrubInterval (c : ChanId)
  | returnArbiterDecision (a : ArbiterId)
  -- pace, canaries, faults
  | paceWindowEnd (m : Monitor) (count : BitVec 16) (flight : BitVec 12)
  | canaryEvent (u : UnitId)
  | faultEvent (u : UnitId) (source : Fin 32)
  | classificationWindowExpire (u : UnitId) (source : Fin 32)
  | faultUnitSweep (u : UnitId) (parity : BitVec 17)
  | drydownExpire
  -- modes
  | calibrationComplete (ok : Bool) (margin : BitVec 8) (unitCode : BitVec 5)
  | sramSelfTestComplete
  | trainingComplete (c : ChanId) (r : TrainResult)
  | modeTransitionComplete
  | drainComplete
  | wipeComplete
  | retentionWake
  | entryMoveComplete
  | sliceDrained (n : SliceId)
  | sliceDomainOff (n : SliceId)
  | twinDomainOff
  -- twin port
  | linkTrainingStart
  | linkUp (speed width : BitVec 3)
  | linkDown
  | hotReset
  | configRequest (write : Bool) (addr : BitVec 12) (be : BitVec 4) (data : Word)
  | flr
  | busMasterEnableClear
  | d3hotEntry
  | inboundMemWrite (t : MemTlp)
  | inboundMemRead (t : MemTlp)
  | bar0Access (write : Bool) (off : BitVec 16) (data : Word)
  | twinLineIssue
  | twinLineResponse
  | inboundTlpError (e : TlpError)
  | completionReceive (tag : BitVec 8) (st : CplStatus)
  | completionTimeout (tag : BitVec 8)
  | quarantineExpire (tag : BitVec 8)
  | aspmL1Request
  | mirrorWriteSend
  | flushReadIssue
  | syncTimeout
  | copierGranule
  | heartbeatTransmit
  | heartbeatMiss
  | presenceChange (present : Bool)
  | attentionPress
  | blinkPhase
  | faultBlinkPhase
  -- observability
  | dumpTick
  | dumpWriterIssue
  | dumpWriterResponse
  | sillageFlush
  | tick
  | rcRegisterRead (addr : BitVec 22)
  | calLoRead
  | aonClkReturn
  | keyReqRelease
  | flrComplete
  deriving DecidableEq, Repr

end Sys2Proof
end

