-- ==== Sys2Proof/Config.lean ====
section
/-! DEFINITION. The values the manual leaves open. Each is an uninterpreted constant: no statement
can rest on what it is. -/

namespace Sys2Proof.Config

/-- A fresh free word: the `k`-th value the block produces where the manual states an effect and not
the value (assumption 3). -/
opaque freeWord : Nat → BitVec 64

/-- The nine check bits of a stored filter entry: the manual gives only the code's correction and
detection properties (R152, R162). -/
opaque filterCheck : BitVec 63 → BitVec 9

/-- The eight CHECK bits over the 64 header bits of a spine flit: the manual names a SEC-DED code and gives no equations
(Table 9.2, R220). -/
opaque headerCheck : BitVec 64 → BitVec 8

/-- The verdict of the filter or spine header code for a blotter mask heavier than Table 15.9
lists (R388): 0 no error, 1 corrected, 2 uncorrectable. -/
opaque heavyMask : BitVec 64 → Fin 3

/-- The verdict of the filter or spine header code on a word that stands wrong, by its syndrome and whether more than one bit is
wrong, with a blotter mask on its check field (R388): 0 no error, 1 corrected, 2 uncorrectable. -/
opaque maskedError : BitVec 9 → Bool → BitVec 64 → Fin 3

/-- The MC_TIM0-3 words that the device standard assigns to a data rate and a density (R465); the
manual states them for 10,667 MT/s and 8 GiB per rank only. -/
opaque jedecTiming : BitVec 3 → BitVec 2 → Fin 4 → Word

/-- RL in bits [7:0] and WL in bits [15:8], which the device standard assigns to a data rate alone (R465). -/
opaque jedecLatency : BitVec 3 → BitVec 16

/-- The set hash of the check cache (R277): it decides only which line is evicted. -/
opaque cacheHash : Nat → Nat

end Sys2Proof.Config
end

