-- ==== Sys2Proof/Machine/Cells.lean ====
section
/-! DEFINITION. Sparse data by key: a list of key and value pairs in one canonical form, keys strictly
rising and no entry equal to what an unlisted key reads as. -/

namespace Sys2Proof.Machine

/-- A sparse map: sorted, no repeats, no entry that equals the default of its key. -/
abbrev Cells (β : Type) := List (Nat × β)

/-- The value at `k`; `dflt k` is what an unlisted key reads as. -/
def cellsGet {β : Type} (dflt : Nat → β) : Cells β → Nat → β
  | [], k => dflt k
  | (a, v) :: m, k => if a = k then v else cellsGet dflt m k

/-- The entries whose key does not satisfy `p` are kept. -/
def cellsDrop {β : Type} (p : Nat → Bool) (m : Cells β) : Cells β := m.filter (fun e => !p e.1)

/-- Put `v` under key `k` before the first greater key. -/
def cellsPlace {β : Type} (k : Nat) (v : β) : Cells β → Cells β
  | [] => [(k, v)]
  | (a, w) :: m => if k < a then (k, v) :: (a, w) :: m else (a, w) :: cellsPlace k v m

/-- Write `v` at `k`: the entry of `k` goes, and a new one stands in its place unless an unlisted `k` reads as `v`. -/
def cellsSet {β : Type} [DecidableEq β] (dflt : Nat → β) (m : Cells β) (k : Nat) (v : β) : Cells β :=
  let m := cellsDrop (fun a => a == k) m
  if v = dflt k then m else cellsPlace k v m

/-- Every key listed is above `lo` and the form is canonical. -/
def cellsWfFrom {β : Type} [DecidableEq β] (dflt : Nat → β) : Nat → Cells β → Bool
  | _, [] => true
  | lo, (a, v) :: m => decide (lo ≤ a) && (decide (v ≠ dflt a) && cellsWfFrom dflt (a + 1) m)

/-- The canonical form. -/
def cellsWf {β : Type} [DecidableEq β] (dflt : Nat → β) (m : Cells β) : Bool := cellsWfFrom dflt 0 m

end Sys2Proof.Machine
end

