-- ==== Sys2Proof/Machine/RegMap.lean ====
section
/-! DEFINITION. The register map of chapter 19: every register's offset, reset value and the bits each
access type of Table 0.4 covers. A bit that no mask covers is RO or reserved. -/

namespace Sys2Proof.Machine

/-- One register: reset value; the bits that are RW, RWL, W1C, W1S; whether a read clears it to its
reset value (RC); the lock bit that fixes its RWL bits, as (offset, bit). -/
structure RegDesc where
  reset : Word
  rw : Word
  rwl : Word
  w1c : Word
  w1s : Word
  rc : Word
  lock : Option (Nat × Nat)
  deriving DecidableEq, Repr, Inhabited

/-- A register whose every field is RO, and a WO register: neither holds anything a write changes. -/
def roReg (r : Nat) : RegDesc := ⟨BitVec.ofNat 32 r, 0, 0, 0, 0, 0, none⟩

/-- A register with the RW bits `m`. -/
def rwReg (r m : Nat) : RegDesc := ⟨BitVec.ofNat 32 r, BitVec.ofNat 32 m, 0, 0, 0, 0, none⟩

/-- A register with the W1C bits `m`. -/
def w1cReg (r m : Nat) : RegDesc := ⟨BitVec.ofNat 32 r, 0, 0, BitVec.ofNat 32 m, 0, 0, none⟩

/-- A register with the RC bits `m`. -/
def rcReg (r m : Nat) : RegDesc := ⟨BitVec.ofNat 32 r, 0, 0, 0, 0, BitVec.ofNat 32 m, none⟩

/-- A register with RWL bits `m` under the lock bit 31 of register `lk`, and its W1S bits. -/
def rwlReg (r m w1s lk : Nat) : RegDesc :=
  ⟨BitVec.ofNat 32 r, 0, BitVec.ofNat 32 m, 0, BitVec.ofNat 32 w1s, 0, some (lk, 31)⟩

/-- The fault unit of an offset inside a unit block: base of unit `u`'s block (Table 15.11). -/
def fltBase (u : Nat) : Nat := if u < 8 then 0x100000 + u * 0x10000 + 0x700 else 0x321000 + (u - 8) * 0x40

/-- Source classes (Table 15.1). -/
inductive SrcClass where
  | counted | immediate | terminal | reserved
  deriving DecidableEq, Repr

/-- The class of source `s` of unit `u` (Tables 15.2 to 15.6). -/
def srcClass (u s : Nat) : SrcClass :=
  if s = 31 then .terminal
  else if u < 8 then
    if s = 4 then .terminal else if s = 5 then .immediate else if s < 13 then .counted else .reserved
  else if u < 24 then if s < 8 then .counted else .reserved
  else if u = 24 then
    if s = 7 ∨ s = 8 then .immediate else if s < 13 then .counted else .reserved
  else if u = 25 then if s < 4 then .counted else .reserved
  else if s = 0 ∨ s = 4 then .terminal else if s = 6 then .immediate
  else if s < 10 then .counted else .reserved

/-- Reset value of FLT_SAFE_EN of unit `u` (Table 19.9). -/
def safeEnReset (u : Nat) : Nat :=
  if u < 8 then 0x80000034 else if u < 24 then 0x80000004 else if u = 24 then 0x80000184
  else if u = 25 then 0x80000000 else 0x80000051

/-- The bits of FLT_SAFE_EN that are RWL: those of Counted sources. -/
def safeEnMask (u : Nat) : Nat :=
  (List.range 32).foldl (fun m s => if srcClass u s = .counted then m + 2 ^ s else m) 0

/-- A fault-unit register at block offset `o` of unit `u` (Table 15.12). -/
def fltDesc (u o : Nat) : Option RegDesc :=
  match o with
  | 0x00 => some (w1cReg 0 0xFFFFFFFF)
  | 0x04 => some (roReg 0)
  | 0x08 => some (rwReg 0 0xFFFFFFFF)
  | 0x0C => some (rwlReg (safeEnReset u) (safeEnMask u) 0 (fltBase u + 0x10))
  | 0x10 => some (rwlReg 0xA8 0x3FFFF 0x80000000 (fltBase u + 0x10))
  | 0x14 => some (roReg 0)
  | 0x18 => some (roReg 0)
  | 0x1C => some (roReg 0)
  | 0x20 => some (rcReg 0 0xFFFF)
  | _ => none

/-- GLB_ registers (Table 19.3). -/
def glbDesc (o : Nat) : Option RegDesc :=
  match o with
  | 0x00 => some (roReg 0x3B1)
  | 0x04 => some (roReg 0x07101808)
  | 0x10 => some (roReg 0)
  | 0x14 => some (roReg 8)
  | 0x40 => some (w1cReg 4 0x1F)
  | 0x44 => some (roReg 0)
  | 0x48 => some (roReg 0)
  | 0x50 => some (w1cReg 0 1)
  | 0x80 => some (roReg 0)
  | 0x84 => some (roReg 0)
  | 0x88 => some (rwReg 0x0262024E 0x3FF)
  | 0x8C => some (rcReg 0 0xFF03FF)
  | 0x90 => some (roReg 0)
  | _ => none

/-- Slice registers at offset `o` of slice `n`'s space (Table 19.4). -/
def slcDesc (n o : Nat) : Option RegDesc :=
  match o with
  | 0x100 => some (roReg 0)
  | 0x104 => some (roReg 0)
  | 0x108 => some (rcReg 0x3FF 0x03FF03FF)
  | 0x10C => some (rcReg 0 0xFFFF)
  | 0x200 => some (rwReg 0x6412 0xFFFF1F)
  | 0x204 => some (roReg 0)
  | 0x208 => some (rcReg 0 0x3FFFF)
  | 0x20C => some (roReg 0)
  | 0x210 => some (w1cReg 0 0xF)
  | 0x214 => some (roReg 0)
  | 0x218 => some (rcReg 0 0xFFFF)
  | 0x21C => some (rcReg 0 0xFFFFFFFF)
  | 0x220 => some (rwReg 0 0x3FFFF)
  | 0x224 => some (roReg 0)
  | 0x228 => some (roReg 0)
  | 0x22C => some (roReg 0)
  | 0x300 => some (rwReg 0x3218 0x3FFFFF)
  | 0x304 => some (roReg 0)
  | 0x308 => some (roReg 0)
  | 0x30C => some (rcReg 0 0x7FFFF)
  | 0x310 => some (rcReg 0 0xFFFF)
  | 0x314 => some (rcReg 0 0xFFFF)
  | 0x318 => some (rcReg 0 0xFFFF)
  | 0x31C => some (rcReg 0 0xFFFF)
  | 0x400 => some (rwReg 0x4064 0x7FFF)
  | 0x404 => some (roReg 0)
  | 0x408 => some (roReg 0)
  | 0x40C => some (roReg 0)
  | 0x410 => some (rcReg 0 0xFFFFFFFF)
  | 0x420 => some (rcReg 0 0xFFFFFFFF)
  | 0x500 => some (roReg 0)
  | 0x504 => some (roReg 0)
  | 0x600 => some (roReg 0)
  | 0x604 => some (w1cReg 0 0x7FF)
  | 0x608 => some (rcReg 0 0xFFFFFFFF)
  | o =>
    if 0x680 ≤ o ∧ o < 0x680 + 96 then some (roReg 0x100)
    else if 0x700 ≤ o ∧ o < 0x740 then fltDesc n (o - 0x700) else none

/-- Channel registers at offset `o` of a channel's space (Table 19.5). -/
def mcDesc (o : Nat) : Option RegDesc :=
  match o with
  | 0x00 => some (roReg 0)
  | 0x04 => some (roReg 0)
  | 0x08 => some (rwReg 0x00FAC688 0x1FFFFFF)
  | 0x0C => some (rwReg 0x00FAC688 0xFFFFFF)
  | 0x10 => some (roReg 0x18180E1C)
  | 0x14 => some (roReg 0x0A1B0738)
  | 0x18 => some (roReg 0x00BB102E)
  | 0x1C => some (roReg 0x14580176)
  | 0x20 => some (roReg 0)
  | 0x24 => some (roReg 0)
  | 0x40 => some (rwReg 0x00100040 0x1F07FF)
  | 0x44 => some (rwReg 0x1028 0x3F3F)
  | 0x48 => some (rwReg 8 0x1F)
  | 0x4C => some (rwReg 0x4A 0x7F)
  | 0x50 => some (rcReg 0 0xFFFFFFFF)
  | 0x54 => some (w1cReg 0 3)
  | 0x58 => some (roReg 0)
  | 0x5C => some (roReg 0)
  | 0x60 => some (rcReg 0 0xFFFFFFFF)
  | 0x64 => some (rcReg 0 0xFFFF)
  | 0x68 => some (roReg 0x1283C)
  | 0x6C => some (roReg 0)
  | 0x80 => some (roReg 0)
  | 0x84 => some (roReg 0)
  | 0x88 => some (roReg 0)
  | 0x8C => some (roReg 0)
  | 0x90 => some (roReg 0)
  | 0x94 => some (rwReg 0x208 0x11F)
  | 0xA0 => some (roReg 0)
  | 0xA4 => some (rcReg 0 0xFFFFFFFF)
  | 0x100 => some (roReg 0)
  | 0x108 => some (rcReg 0x3FF 0x03FF03FF)
  | 0x10C => some (rcReg 0 0xFFFF)
  | _ => none

/-- MC_ common block (Table 19.6). MC_MAP.LOCK fixes all three of the decode registers. -/
def mcCommonDesc (o : Nat) : Option RegDesc :=
  match o with
  | 0x00 => some (rwlReg 0x7B 0x7F 0x80000000 0x240000)
  | 0x04 => some (roReg 0x27B)
  | 0x08 => some (rwlReg 0x80000000 0xC0000000 0 0x240000)
  | 0x0C => some (rwlReg 0 0xFFFF 0 0x240000)
  | 0x10 => some (roReg 0)
  | o => if 0x100 ≤ o ∧ o < 0x170 then some (rwReg 0x3E8 0xFFFF) else none

/-- Port block at offset `o` (Table 4.16). -/
def portDesc (o : Nat) : Option RegDesc :=
  match o with
  | 0x00 => some (rwReg 0x1700 0x1F77)
  | 0x04 => some (rwReg 1 0xFFFFFFFF)
  | 0x08 => some (rwReg 0 0xFFFFFFFF)
  | 0x0C => some (rwReg 0xC0C8 0xFFFF)
  | 0x10 => some (roReg 3)
  | 0x14 => some (w1cReg 0 0xFFFF)
  | 0x18 => some (roReg 0)
  | 0x1C => some (roReg 0)
  | 0x20 => some (roReg 0)
  | _ => none

/-- SPN_ registers (Table 19.7). -/
def spnDesc (o : Nat) : Option RegDesc :=
  match o with
  | 0x000 => some (rwlReg 0xC83 0x3FF3 0x80000000 0x300000)
  | 0x004 => some (roReg 0)
  | 0x008 => some (roReg 0)
  | 0x00C => some (roReg 0x76543210)
  | 0x010 => some (w1cReg 0 0x3F)
  | 0x014 => some (roReg 0)
  | 0x018 => some (rcReg 0 0xFFFF)
  | 0x01C => some (rcReg 0 0xFFFFFFFF)
  | 0x140 => some (rcReg 0 0xFFFF)
  | 0x300 => some (roReg 0)
  | 0x304 => some (roReg 0)
  | o =>
    if 0x100 ≤ o ∧ o < 0x118 then some (roReg 0)
    else if 0x120 ≤ o ∧ o < 0x138 then some (rcReg 0x3FF 0x03FF03FF)
    else if 0x400 ≤ o ∧ o < 0x580 then
      match o % 16 with
      | 0 => some (rwReg 0x1400 0xFF00)
      | 4 => some (rwReg 0x208 0x11F)
      | 8 => some (rcReg 0 0xFFFFFFFF)
      | _ => none
    else if 0x1000 ≤ o ∧ o < 0x1300 then
      match o % 32 with
      | 0x00 => some (rwReg 0x20 0x7FF)
      | 0x04 => some (rwReg 0 0xFFFFF)
      | 0x08 => some (rwReg 0 0xFFFFF)
      | 0x0C => some (roReg 0)
      | 0x10 => some (roReg 0)
      | _ => none
    else if 0x2000 ≤ o ∧ o < 0x2600 then portDesc (o % 64)
    else none

/-- TWN_ registers (Table 19.8). TWN_CFGSPACE has a home of its own. -/
def twnDesc (o : Nat) : Option RegDesc :=
  match o with
  | 0x00 => some ⟨0x356, 0x200, 0x1FF, 0, 0x80000000, 0, some (0x310000, 31)⟩
  | 0x04 => some (roReg 0x1000)
  | 0x08 => some (w1cReg 0 0x1FF)
  | 0x0C => some (roReg 0)
  | 0x10 => some (roReg 0)
  | 0x14 => some (rcReg 0 0xFFFFFFFF)
  | 0x18 => some (roReg 0)
  | 0x1C => some (w1cReg 0 0x10000)
  | 0x40 => some (rwReg 0x20 0x3F)
  | 0x44 => some (w1cReg 0 0x1C)
  | 0x48 => some (rwReg 0 7)
  | 0x60 => some (roReg 0)
  | 0x64 => some (rwlReg 0x183E8 0x7FFFF 0 0x310000)
  | 0x68 => some (roReg 0)
  | 0x6C => some (roReg 0)
  | 0x70 => some (rcReg 0 0xFFFFFFFF)
  | 0x94 => some (w1cReg 0 0x1F)
  | 0x98 => some (rwReg 0 0x1F)
  | o =>
    if 0x74 ≤ o ∧ o < 0x94 then some (roReg 0)
    else if 0x100 ≤ o ∧ o < 0x200 then
      match o % 16 with
      | 0 => some (rwReg 0 0x1FFFF)
      | 4 => some (rwReg 0 0x1FFFF)
      | 8 => some (rwReg 0 0x7FFFFFF)
      | _ => some (rwReg 0 0x1FFF)
    else if 0x200 ≤ o ∧ o < 0x400 then some (roReg 0)
    else none

/-- FLT_ space (Table 19.9): the device registers and the blocks of units 8 to 26. -/
def fltSpaceDesc (o : Nat) : Option RegDesc :=
  match o with
  | 0x00 => some (roReg 0)
  | 0x04 => some (roReg 0)
  | 0x08 => some (roReg 0)
  | 0x0C => some (roReg 0)
  | 0x10 => some (rwlReg 0x180C8 0x7FFFF 0x80000000 0x320010)
  | 0x14 => some (roReg 0)
  | 0x18 => some (w1cReg 0 0x700000)
  | o => if 0x1000 ≤ o ∧ o < 0x14C0 then fltDesc (8 + (o - 0x1000) / 0x40) (o % 0x40) else none

/-- PMU_ space (Table 19.10). -/
def pmuDesc (o : Nat) : Option RegDesc :=
  match o with
  | 0x2000 => some ⟨0, 0x1B, 4, 0, 0x80000000, 0, some (0x332000, 31)⟩
  | 0x2004 => some (rwReg 0x14 0x1F)
  | 0x2008 => some (rcReg 0 0xFFFFFFFF)
  | 0x2010 => some (rwReg 0x008007D0 0x7FFFFFF)
  | 0x2014 => some (rwReg 0 0xFFFFF800)
  | 0x2018 => some (rwReg 0 0xFFFF)
  | 0x201C => some ⟨0, 0, 0, 0x03000000, 0, 0x00FF0000, none⟩
  | o =>
    if o < 0x1800 then
      let r := o % 256
      if r < 8 then some (roReg 0)
      else if 0x10 ≤ r ∧ r < 0x50 then some (roReg 0)
      else if 0x60 ≤ r ∧ r < 0x80 then some (rwReg 0 0xFFFFF)
      else if r = 0x80 then some (w1cReg 0 0xFF)
      else none
    else none

/-- TRC_ space (Table 19.10). TRC_AGW reads 0 and takes no write from the control port. -/
def trcDesc (o : Nat) : Option RegDesc :=
  match o with
  | 0x00 => some (rwReg 0x140C8 0x1FFFF)
  | 0x04 => some (roReg 0)
  | 0x08 => some (w1cReg 0 0xF)
  | 0x0C => some (rwReg 0 0xF)
  | 0x10 => some (rcReg 0 0xFFFFFFFF)
  | 0x14 => some (rcReg 0 0xFFFFFFFF)
  | 0x18 => some (rwReg 0 0xFFFFF000)
  | 0x1C => some (rwReg 0 0xFFFF)
  | 0x20 => some (roReg 0)
  | 0x30 => some (roReg 0)
  | 0x34 => some (roReg 0)
  | 0x38 => some (roReg 0)
  | 0x3C => some (roReg 0)
  | 0x40 => some (roReg 0)
  | 0x44 => some (roReg 0)
  | 0x50 => some (roReg 0)
  | 0x54 => some (roReg 0)
  | 0x58 => some (roReg 0)
  | 0x5C => some (roReg 0)
  | 0x60 => some (roReg 0)
  | 0x64 => some (roReg 0)
  | 0x70 => some (rwReg 1 1)
  | _ => none

/-- CMD_ space (Table 19.10). -/
def cmdDesc (o : Nat) : Option RegDesc :=
  match o with
  | 0x00 => some (roReg 0)
  | 0x04 => some (roReg 0)
  | 0x08 => some (roReg 0)
  | 0x0C => some (w1cReg 0 0x7F)
  | 0x10 => some (rwReg 0 0x7F)
  | 0x14 => some (rwlReg 0x7D0 0x1FFFF 0x80000000 0x350014)
  | 0x18 => some (roReg 0)
  | 0x20 => some (roReg 0)
  | 0x24 => some (roReg 0)
  | 0x28 => some (rwlReg 0 0xFFFF 0 0x350014)
  | o => if 0x2000 ≤ o ∧ o < 0x4000 then some (roReg 0) else none

/-- RGN_ space (Table 19.10). -/
def rgnDesc (o : Nat) : Option RegDesc :=
  match o with
  | 0x000 => some (roReg 0x400)
  | 0x004 => some (roReg 0x07FFFFFF)
  | 0x008 => some (roReg 0xC3)
  | 0x400 => some (roReg 0)
  | 0x404 => some (roReg 0)
  | 0x408 => some (roReg 0)
  | 0x410 => some (w1cReg 0 0xF)
  | 0x414 => some (roReg 0)
  | 0x418 => some (roReg 0)
  | 0x41C => some (roReg 0)
  | 0x420 => some (rcReg 0 0xFFFFFFFF)
  | o =>
    if o < 0x400 then some (roReg 0)
    else if 0x500 ≤ o ∧ o < 0x600 then some (roReg 0) else none

/-- AON_ space (Table 19.10). -/
def aonDesc (o : Nat) : Option RegDesc :=
  match o with
  | 0x00 => some (rwlReg 0x23 0x3F 0x80000000 0x370000)
  | 0x04 => some (roReg 0)
  | 0x08 => some (roReg 0)
  | 0x0C => some (roReg 0)
  | 0x10 => some (roReg 0)
  | 0x100 => some (roReg 0x4C454447)
  | 0x104 => some (roReg 0x8001)
  | o => if 0x100 ≤ o ∧ o < 0x2F0 then some (roReg 0) else none

/-- The register at byte offset `a` of the control space, or none for a reserved offset (R457, R459). -/
def regDesc (a : Nat) : Option RegDesc :=
  if a % 4 ≠ 0 then none
  else if a < 0x100000 then glbDesc a
  else if a < 0x180000 then slcDesc ((a - 0x100000) / 0x10000) (a % 0x10000)
  else if a < 0x200000 then none
  else if a < 0x240000 then mcDesc (a % 0x4000)
  else if a < 0x241000 then mcCommonDesc (a - 0x240000)
  else if a < 0x300000 then none
  else if a < 0x310000 then spnDesc (a - 0x300000)
  else if a < 0x320000 then twnDesc (a - 0x310000)
  else if a < 0x330000 then fltSpaceDesc (a - 0x320000)
  else if a < 0x340000 then pmuDesc (a - 0x330000)
  else if a < 0x350000 then trcDesc (a - 0x340000)
  else if a < 0x360000 then cmdDesc (a - 0x350000)
  else if a < 0x370000 then rgnDesc (a - 0x360000)
  else if a < 0x380000 then aonDesc (a - 0x370000)
  else none

/-- What a register holds after reset (R458). -/
def regReset (a : Nat) : Word :=
  match regDesc a with
  | some d => d.reset
  | none => 0

/-- The registers of the always-on domain: GLB_MODE, GLB_RST_CAUSE, the realm generations and AON_. -/
def regAon (a : Nat) : Bool :=
  a == 0x10 || a == 0x40 || (decide (0x360500 ≤ a) && decide (a < 0x360600))
    || (decide (0x370000 ≤ a) && decide (a < 0x380000))

end Sys2Proof.Machine
end

