-- ==== Sys2Proof/Machine/Msg.lean ====
section
/-! DEFINITION. The messages of the block: the fields of Tables 4.2 to 4.5 and of the routing header
of Table 9.2, as data. -/

namespace Sys2Proof.Machine

/-- A `REQ` flit (Table 4.2). -/
structure Req where
  opcode : BitVec 6
  subop : BitVec 4
  txn : BitVec 8
  prio : BitVec 2
  realm : BitVec 6
  priv : BitVec 2
  walk : Bool
  crd : Bool
  smp : Bool
  addr : Addr
  size : BitVec 3
  xtag : BitVec 16
  deriving DecidableEq, Repr, Inhabited

/-- A `SNP` flit (Table 4.3). -/
structure Snp where
  opcode : BitVec 4
  subop : BitVec 4
  home : BitVec 3
  entry : BitVec 8
  prio : BitVec 2
  fwd : Bool
  fwdTo : BitVec 5
  fwdTxn : BitVec 8
  fwdState : BitVec 3
  addr : Addr
  xtag : BitVec 16
  deriving DecidableEq, Repr, Inhabited

/-- A `RSP` flit (Table 4.4). -/
structure Rsp where
  opcode : BitVec 4
  txn : BitVec 8
  home : BitVec 3
  entry : BitVec 8
  prio : BitVec 2
  err : BitVec 4
  state : BitVec 3
  snpdata : BitVec 2
  cls : Bool
  deriving DecidableEq, Repr, Inhabited

/-- A `DAT` flit (Table 4.5). -/
structure Dat where
  kind : BitVec 2
  half : Bool
  poison : Bool
  home : BitVec 3
  txn : BitVec 8
  entry : BitVec 8
  snpwb : Bool
  dst : BitVec 5
  state : BitVec 3
  prio : BitVec 2
  be : BitVec 32
  data : HalfData
  deriving DecidableEq, Repr, Inhabited

/-- The memory image of a line as the slice sees it: its bytes, the poison bit of each half and the
lost mark (Table 11.2). -/
structure LineImg where
  data : LineData
  poison : BitVec 2
  lost : Bool
  deriving DecidableEq, Repr, Inhabited

/-- What a spine packet carries: one port message, both halves of a line in the order sent (R221), the completion signal of
an `XlatSync` with its source and take-up tick (R214, R218), or a mirrored line on its way to the twin port: its window, its
address, the line, whether the window is synchronous, and its write order (R353), or the line watched for heartbeats (R362). -/
inductive Msg where
  | req (r : Req)
  | snp (s : Snp)
  | rsp (r : Rsp)
  | dat (d : Dat)
  | datPair (first second : Dat)
  | syncDone (source : BitVec 5) (tick : Nat)
  | mirror (window : BitVec 4) (addr : Addr) (img : LineImg) (sync : Bool) (order : Nat)
  | watched (data : LineData)
  deriving DecidableEq, Repr, Inhabited

/-- A spine packet: the routing header of Table 9.2 and the message. CHAN, LEN, TXN, HOME and ENTRY of
the header are read off the message. `reqNo` is the model's own: the number of the port's request that a write data
packet belongs to, which the header does not carry (assumption 20). -/
structure Packet where
  dstX : BitVec 3
  dstY : BitVec 2
  dstUnit : BitVec 3
  src : BitVec 5
  dl : Bool
  prio : BitVec 2
  mark : BitVec 2
  series : BitVec 16
  reqNo : BitVec 16
  smp : Bool
  redir : Bool
  next : BitVec 3
  msg : Msg
  deriving DecidableEq, Repr, Inhabited

/-- One received half of a line. -/
structure HalfRec where
  who : BitVec 5
  half : Bool
  data : HalfData
  be : BitVec 32
  poison : Bool
  deriving DecidableEq, Repr, Inhabited

end Sys2Proof.Machine
end

