-- ==== Sys2Proof/Machine/Types.lean ====
section
/-! DEFINITION. The records that the state of the ports, the spine, the slices and the channels is made
of: one structure per thing the manual names. -/

namespace Sys2Proof.Machine

/-- Summary states of a filter entry (Table 5.2). -/
inductive Summary where
  | i | sh | ex | ow
  deriving DecidableEq, Repr, Inhabited

/-- A filter entry without its check bits (Table 6.2). `fwd` is 0x1F for none. -/
structure FEntry where
  tag : BitVec 29
  summary : Summary
  presence : BitVec 24
  fwd : BitVec 5
  walked : Bool
  lost : Bool
  deriving DecidableEq, Repr, Inhabited

/-- The forms of a snoop (Table 5.3). -/
inductive SnpForm where
  | shareS | shareI | ownE | ownM | own0 | inv | clean
  deriving DecidableEq, Repr, Inhabited

/-- An eviction notice held in a lane, or attached to an entry or a slot (R171, R172). `mute`: its port was fenced, so
no `EvAck` leaves (R188). `absorbed`: it stands for its sender's snoop answer. `applied`: the filter shows it.
`queued`: its data is in the write queue, whose orders `syncs` a synchronous mirror may hold. `failed`: the write was
refused under a failed tree node (Table 11.6). -/
structure Notice where
  src : BitVec 5
  txn : BitVec 8
  series : BitVec 16
  dl : Bool
  prio : BitVec 2
  dirty : Bool
  line : Nat
  addr : Addr
  mute : Bool
  absorbed : Bool
  applied : Bool
  queued : Bool
  failed : Bool
  syncs : List Nat
  halves : List HalfRec
  deriving DecidableEq, Repr, Inhabited

/-- The answers a transaction collects: `out` still outstanding, `sent` what each agent was sent, `marks`
the notices its marked answers name (agent, dirty), `wb` the announced write-backs and the halves still
to come, `wbData` the halves received, `timer` the snoop timer's due tick (R182), `lost` the dead agent with which the line
is lost (Tables 7.7, 7.8). -/
structure Coll where
  out : BitVec 24
  sent : List (BitVec 5 × SnpForm)
  marks : List (BitVec 5 × Bool)
  wb : List (BitVec 5 × BitVec 2)
  wbData : List HalfRec
  timer : Option Nat
  lost : Option (BitVec 5)
  deriving DecidableEq, Repr, Inhabited

/-- Tracker pools (Table 7.1); `undecided`: a Deadline-VC request before its admission, which holds no entry (R305). -/
inductive Pool where
  | general | retry | deadline | undecided
  deriving DecidableEq, Repr, Inhabited

/-- Where a tracker entry stands: `reserved` by a `CreditGrant`; `tentative` a Deadline-VC request whose
admission is still to be decided (R305); `waiting` to become active; `alloc` active, and waiting for a way or a victim slot
(R143, R145) or for the write data that its flow needs first (R197, R199); `prelim` under R119; `snooping`;
`memory` reading the memory image; `writing` waiting for its own data or queue room; `term` its
terminating message sent or held by a synchronous mirror window (R358), its notices still to end (R172);
`granted` awaiting `GrantAck`. -/
inductive Stage where
  | reserved | tentative | waiting | alloc | prelim | snooping | memory | writing | term | granted
  deriving DecidableEq, Repr, Inhabited

/-- A memory read of an entry: not wanted, wanted but not in the queue, in the queue, or its result. -/
inductive MemRead where
  | idle
  | wanted
  | queued
  | got (img : LineImg) (uncorr : Bool)
  deriving DecidableEq, Repr, Inhabited

/-- A tracker entry (R164). `ownCopy`: an `Upgrade` performed on the requester's own copy (R121); `oldSent`: the old value of
an `Atomic` has left (R199, step 3). -/
structure Entry where
  id : Nat
  pool : Pool
  stage : Stage
  src : BitVec 5
  req : Req
  dl : Bool
  line : Nat
  order : Nat
  passed : Nat
  mute : Bool
  holder : Bool
  way : Option Nat
  coll : Coll
  view : FEntry
  fwdBy : Option (BitVec 5)
  fwdDone : Bool
  grant : BitVec 3
  ownCopy : Bool
  oldSent : Bool
  mem : MemRead
  own : List HalfRec
  notices : List Notice
  buffer : Bool
  pend : Bool
  wrRes : Bool
  reply : Option Rsp
  syncs : List Nat
  lostHit : Bool
  series : BitVec 16
  smp : Bool
  takenAt : Nat
  deriving DecidableEq, Repr, Inhabited

/-- An occupied victim-buffer slot (R145): slot `4 b + s`. -/
structure Victim where
  slot : Nat
  line : Nat
  set : Nat
  entry : FEntry
  prio : BitVec 2
  dl : Bool
  coll : Coll
  notices : List Notice
  deriving DecidableEq, Repr, Inhabited

/-- A reclamation slot (R187). -/
structure Reclaim where
  slot : Nat
  key : Nat
  line : Nat
  agent : BitVec 5
  coll : Coll
  notices : List Notice
  deriving DecidableEq, Repr, Inhabited

/-- A refusal record (R178). `req` is what the reissue will be, kept for the admission that a grant with
CLS 1 performs (R306); `waits` is the entry whose end it waits for. -/
structure RetryRec where
  src : BitVec 5
  txn : BitVec 8
  cls : Bool
  prio : BitVec 2
  waits : Option Nat
  req : Req
  deriving DecidableEq, Repr, Inhabited

/-- A translation slot (R206): `sync` for `XlatSync`. -/
structure XSlot where
  slot : Nat
  sync : Bool
  src : BitVec 5
  txn : BitVec 8
  prio : BitVec 2
  series : Nat
  taken : Nat
  xtag : BitVec 16
  await : BitVec 24
  timer : Option Nat
  mute : Bool
  deriving DecidableEq, Repr, Inhabited

/-- A snoop that was resolved without its answer, for the error-log record of a late one (R185): the agent, the ENTRY,
the snoop opcode, and W3 of the record (Table 17.8). -/
structure LateRec where
  agent : BitVec 5
  entry : Nat
  opcode : BitVec 4
  w3 : Nat
  deriving DecidableEq, Repr, Inhabited

/-- A hazard watch (R213). -/
structure Watch where
  slot : Nat
  src : BitVec 5
  line : Nat
  accord : Bool
  opcode : BitVec 6
  opened : Nat
  due : Nat
  deriving DecidableEq, Repr, Inhabited

/-- A running hold window (R131). -/
structure Hold where
  line : Nat
  holder : BitVec 5
  due : Nat
  deriving DecidableEq, Repr, Inhabited

/-- A cached check line (R277): channel, row unit, index, and the 64 bytes of the codeword. -/
structure CheckLine where
  chan : Nat
  unit : Nat
  k : Nat
  data : LineData
  dirty : Bool
  bad : Bool
  deriving DecidableEq, Repr, Inhabited

/-- A cached metadata line (R296): channel and channel line number. `pos` is region, level and number of a version line or
a node, none for a tag line; `bad`: its codeword could not be decoded, so nothing in it is used (R280). -/
structure MetaLine where
  chan : Nat
  m : Nat
  data : LineData
  dirty : Bool
  pinned : Bool
  pos : Option (Nat × Nat × Nat)
  bad : Bool
  deriving DecidableEq, Repr, Inhabited

/-- A counter-tree node whose MAC failed (Table 11.6): region, channel, level and node number. -/
structure NodeRef where
  region : Nat
  chan : Nat
  level : Nat
  node : Nat
  deriving DecidableEq, Repr, Inhabited

/-- A packet that has reached a unit and waits there. -/
structure InMsg where
  pkt : Packet
  redir : Bool
  tick : Nat
  deriving DecidableEq, Repr, Inhabited

/-- A slice: its filter array, tracker, victim buffer, lanes, retry list, translation slots, watches,
reclamation and protection engine. `scan` lists the agents being reclaimed with the sets still to be
visited; `stopSets` and `stopBanks` are the take-up stops of R155. `held` stops Deadline admission and `closed` take-up
while a command holds the pair (R315, R396); `away`: the other slice of the pair homes its lines (R168); `leaving`: its
channels have left service (R399). -/
structure Slice where
  inbox : List InMsg
  filter : Cells FEntry
  nru : Cells (BitVec 12)
  ptr : List Nat
  entries : List Entry
  victims : List Victim
  reclaims : List Reclaim
  lanes : List Notice
  retry : List RetryRec
  retryLast : Nat
  xslots : List XSlot
  xdone : Cells Nat
  xsince : List (BitVec 5 × Nat)
  watches : List Watch
  holds : List Hold
  scan : List (BitVec 5 × Nat)
  scanPos : Nat
  marking : List (BitVec 5 × Nat)
  cc : List CheckLine
  ctc : List MetaLine
  nextOrder : Nat
  scrubSet : Nat
  scrubDue : Nat
  stopSets : List Nat
  stopBanks : BitVec 4
  closed : Bool
  held : Bool
  away : Bool
  leaving : Bool
  nodeBad : List NodeRef
  late : List LateRec
  deriving DecidableEq, Repr, Inhabited

/-- A busy TXN of a port (R93): `held` for reissue; `waitGrant` refused and not yet granted; `grant` the
CLS of the `CreditGrant` presented and its tick; `want` data halves the agent still expects; `ended` the
terminating message has been presented; `bad` its data came with byte enables that it forbids (Table 4.14); `before` the
ports fenced since the request was accepted (R190). -/
structure Txn where
  txn : BitVec 8
  req : Req
  dl : Bool
  homeLine : Nat
  held : Bool
  waitGrant : Bool
  grant : Option Bool
  grantDue : Nat
  want : BitVec 2
  ended : Bool
  since : Nat
  overran : Bool
  needAck : Bool
  bad : Bool
  comp : Option (BitVec 3 × BitVec 8)
  before : BitVec 24
  deriving DecidableEq, Repr, Inhabited

/-- Write data a port still owes (R82): the halves missing, whether the bridge discards them, the byte enables that each must
have (none: any), and the watchdog's due tick. -/
structure Owed where
  txn : BitVec 8
  miss : BitVec 2
  drop : Bool
  be : Option (BitVec 32)
  due : Nat
  opcode : BitVec 6
  dl : Bool
  home : BitVec 3
  src : BitVec 5
  prio : BitVec 2
  reqNo : BitVec 16
  ap : Bool
  deriving DecidableEq, Repr, Inhabited

/-- A `GrantAck` an agent owes. -/
structure AckOwed where
  txn : BitVec 8
  home : BitVec 3
  entry : BitVec 8
  prio : BitVec 2
  dl : Bool
  due : Nat
  deriving DecidableEq, Repr, Inhabited

/-- A snoop presented to the agent (R170): `acked` once its answer has passed; `wb` write-back halves and
`fw` forward halves still acceptable. -/
structure SnpRec where
  home : BitVec 3
  entry : BitVec 8
  snp : Snp
  dl : Bool
  acked : Bool
  wb : BitVec 2
  fw : BitVec 2
  deriving DecidableEq, Repr, Inhabited

/-- A message waiting at a port's egress. -/
structure EgMsg where
  id : Nat
  msg : Msg
  dl : Bool
  prio : BitVec 2
  src : BitVec 5
  since : Nat
  flit : Nat
  restarted : Bool
  deriving DecidableEq, Repr, Inhabited

/-- A return arbiter (R318): the line holding the grant, and the line granted last, from which its round-robin order
goes on. -/
structure Arb where
  holder : Option Nat
  last : Nat
  deriving DecidableEq, Repr, Inhabited

/-- An agent port bridge. `inCred`, `outCred` and `granted` count the channels REQ, RSP in, DAT in and
SNP, RSP out, DAT out, other VC then Deadline VC. `series` numbers its translation requests (R210), `apSeries` its
aperture requests (R217), and `reqNo` all its requests. `egDue` holds, per channel and VC, the tick at which a flit
last left or a bite was last reported. -/
structure Port where
  fenced : Bool
  resetLow : Bool
  caching : Bool
  xlat : Bool
  xlatSlice : BitVec 3
  inCred : Vector Nat 6
  outCred : Vector Nat 6
  granted : Vector Nat 6
  txns : List Txn
  owed : List Owed
  acks : List AckOwed
  snps : List SnpRec
  egress : List EgMsg
  egNext : Nat
  arb : Arb
  series : Nat
  apSeries : Nat
  reqNo : Nat
  dead : Bool
  egDue : List (Nat × Nat)
  lastOut : Vector (BitVec 352) 3
  deriving DecidableEq, Repr, Inhabited

/-- A packet in the spine: on its way to, or queued at, an input of a router. `crc` and `crc2` are the CRC fields of its
flits as they stand (R231); `out` the output named for it. `gone` are its flits that have been discarded on the way (R232), `cred`
the credit that the bridge returns as it leaves its buffer (R91), `dead` that the port it is for has been fenced since (R106). -/
structure Flight where
  pkt : Packet
  router : Nat
  input : Nat
  out : Nat
  crc : BitVec 16
  crc2 : BitVec 16
  since : Nat
  gone : BitVec 2
  cred : Option Nat
  dead : Bool
  deriving DecidableEq, Repr, Inhabited

/-- The spine: packets arriving at router inputs, packets queued, the round-robin place of each output,
and the packet counts of the probes. -/
structure Spine where
  arrive : List Flight
  queued : List Flight
  rr : Cells Nat
  probe : Cells Nat
  deriving DecidableEq, Repr, Inhabited

/-- What a DRAM read is for: tracker entry `id` of slice `n`, a merge, or the scrub of a data line or of check line `k`. -/
inductive ReadFor where
  | entry (n : Nat) (id : Nat)
  | merge
  | scrub
  | check (k : Nat)
  deriving DecidableEq, Repr, Inhabited

/-- A read-queue entry (R248), numbered by its channel. `first`: its first command has not issued. `overtaken`: its
line was written after it issued (R266). -/
structure RdReq where
  id : Nat
  m : Nat
  use : ReadFor
  src : BitVec 5
  prio : BitVec 2
  dl : Bool
  arrival : Nat
  first : Bool
  issued : Bool
  overtaken : Bool
  deriving DecidableEq, Repr, Inhabited

/-- A write-queue entry (R249, R279): the plaintext bytes, the byte enables written so far (all ones when
full), the poison of each half, the lost mark, and the stored bytes, mark and check bytes computed when
it became full. `marking`: a marking write (R189). `raw`: a corrective write, whose plaintext is not held (R266). -/
structure WrReq where
  m : Nat
  full : Bool
  img : LineImg
  be : BitVec 64
  stored : LineData
  mark : BitVec 8
  check : BitVec 64
  src : BitVec 5
  prio : BitVec 2
  dl : Bool
  arrival : Nat
  order : Nat
  marking : Bool
  raw : Bool
  first : Bool
  deriving DecidableEq, Repr, Inhabited

/-- A DRAM bank as the controller tracks it, times in picoseconds of timebase: the open row, from when a command may
go to it, from when it may be precharged, hits issued while a miss waited, the idle timer's expiry, and the row of a
pending neighbour action (R254, R262); `close`: the scrub of its row unit has made its last read (R267). -/
structure Bank where
  row : Option Nat
  ready : Nat
  preAt : Nat
  hits : Nat
  idleDue : Nat
  pend : Option Nat
  close : Bool
  deriving DecidableEq, Repr, Inhabited

/-- Refresh of one rank: refreshes owed, the bank pair next in rotation, and the due tick of the next
interval, MR4 read, ZQ latch and oscillator read. `oscNew` is the readout that the next refresh gap brings. -/
structure Refresh where
  owed : Nat
  pair : Nat
  nextDue : Nat
  mr4Due : Nat
  zqDue : Nat
  oscDue : Nat
  zqPend : Bool
  oscPend : Bool
  oscNew : BitVec 16
  osc : BitVec 16
  multAt : BitVec 2
  deriving DecidableEq, Repr, Inhabited

/-- A stored slot table (R312): its 125 slots and its limit. -/
structure SlotTable where
  slots : BitVec 125
  limit : Nat
  deriving DecidableEq, Repr, Inhabited

/-- A memory channel: queues, banks, refresh, activates as (rank, time), the stored tables of M3 to M6, the shadow
table with its mode and the MC_DL_STATUS it brings (R313), `limit` of the active table, `slotDue` the start of the next
command slot (R308), `lost` the slots, `32 u + slot`, that decoded as uncorrectable and have not been written since (R265,
R280), and the row units initialised early (R394). `kept`: in service when Retention
was entered (R269). -/
structure Chan where
  rdq : List RdReq
  wrq : List WrReq
  wrOrder : Nat
  banks : Vector Bank 32
  refresh : Vector Refresh 2
  acts : List (Nat × Nat)
  busFree : Nat
  lastWrite : Nat
  drain : Bool
  selfRef : Bool
  early : List Nat
  tables : Vector SlotTable 4
  shadow : Option (SlotTable × Nat × Word)
  limit : Nat
  slotOpen : Bool
  slotDue : Nat
  pending : Nat
  scrubDue : Nat
  scrubUrgent : Bool
  arb : Arb
  rdNext : Nat
  lost : List Nat
  toSeal : List Nat
  trained : Bool
  attempts : Nat
  kept : Bool
  deriving DecidableEq, Repr, Inhabited

end Sys2Proof.Machine
end

