-- ==== Sys2Proof/Machine/UnitTypes.lean ====
section
/-! DEFINITION. The records of the remaining units: the boundary, the always-on domain, the sequencer,
the fault units, the twin port with mirroring, and the observability engines. -/

namespace Sys2Proof.Machine

/-- The count and window of a Counted source (R374). -/
structure FltCount where
  count : Nat
  due : Nat
  deriving DecidableEq, Repr, Inhabited

/-- The fault units beside their registers: counts and windows, the blotter's mask and SUPPRESS (the
rest of the arming is FLT_BLOT_STATUS), and the start of the quiet period (R384). -/
structure Faults where
  counts : Cells FltCount
  blotMask : BitVec 64
  blotSuppress : Bool
  quietStart : Nat
  abandoned : Nat
  deriving DecidableEq, Repr, Inhabited

/-- A line in the mirror queue (R352): the window, the local address, the line, and the write-queue order
that a synchronous confirmation releases. -/
structure MirLine where
  window : Nat
  addr : Addr
  img : LineImg
  sync : Bool
  order : Nat
  since : Nat
  copied : Bool
  deriving DecidableEq, Repr, Inhabited

/-- What the twin port has queued to master: a mirrored line or a heartbeat. -/
inductive MirItem where
  | line (l : MirLine)
  | beat (data : LineData)
  deriving DecidableEq, Repr, Inhabited

/-- Mirroring (R351 to R369). `sent` are lines sent and not confirmed, `waiting` synchronous lines that found the queue full,
`flushOf` the lines a flush read in flight confirms. `copyNext`: where the copier goes on in window `copyWin`; `copyRun` the
number of its granule copies. `beatAfter`: a heartbeat has left since the last mirror write (R366). -/
structure Mirror where
  queue : List MirItem
  sent : List MirLine
  waiting : List MirLine
  flushOf : List MirLine
  flushTag : Option (BitVec 8)
  dirty : BitVec 131072
  copyWin : Nat
  copyGran : Option Nat
  copyLines : List (Addr × Nat)
  copyNext : Nat
  copyRun : Nat
  lossBroken : BitVec 16
  hbTxDue : Nat
  hbRxDue : Nat
  hbSeen : Bool
  dual : Bool
  beatAfter : Bool
  deriving DecidableEq, Repr, Inhabited

/-- One line of an inbound TLP (R330). -/
structure TlpLine where
  addr : Addr
  be : BitVec 64
  data : LineData
  poison : Bool
  deriving DecidableEq, Repr, Inhabited

/-- What came of one line of an inbound TLP: its place, whether a home refused it, its poisoned halves, and its bytes. -/
structure TlpPart where
  index : Nat
  refused : Bool
  poison : BitVec 2
  data : LineData
  deriving DecidableEq, Repr, Inhabited

/-- An inbound memory TLP being performed: its first local byte and length, its window's attributes, its lines, the
number of the next to issue, and what came of those that have ended. `hdr` is what is known of the TLP's header: the value of
each dword, and the mask of its known bits. `mute`: a link reset came, and no completion leaves (Table 13.9). -/
structure TlpJob where
  id : Nat
  write : Bool
  rid : BitVec 16
  tag : BitVec 10
  relaxed : Bool
  hdr : List (Word × Word)
  start : Nat
  len : Nat
  attr : Word
  lines : List TlpLine
  next : Nat
  parts : List TlpPart
  mute : Bool
  deriving DecidableEq, Repr, Inhabited

/-- A line request of the twin port in flight under source 24: for a line of a TLP, or for the copier (its window, and the
number of the granule copy). `half` are the
halves of data received, `done` the code of its terminating message, `held` a refusal that waits for its grant, `grant`
the grant received. -/
structure TwinTxn where
  txn : BitVec 8
  job : Option (Nat × Nat)
  copy : Option (Nat × Nat)
  req : Req
  be : BitVec 64
  data : LineData
  poison : BitVec 2
  half : BitVec 2
  done : Option (BitVec 4)
  held : Bool
  grant : Bool
  deriving DecidableEq, Repr, Inhabited

/-- A TLP the endpoint sends: as seen on the link. `ecrc`: a mastered TLP carries its ECRC (Table 13.1). -/
inductive TlpOut where
  | memWrite (addr : BitVec 64) (lines : List LineData) (ep ecrc : Bool)
  | memRead (addr : BitVec 64) (len : Nat) (tag : BitVec 8) (ecrc : Bool)
  | cpl (rid : BitVec 16) (tag : BitVec 10) (status : BitVec 3) (data : List (BitVec 8)) (ep : Bool)
  | errMsg (level : Nat) (ecrc : Bool)
  | pmPme (ecrc : Bool)
  deriving DecidableEq, Repr, Inhabited

/-- The twin port endpoint: link and function state, `latched` the TWN_CFG in force (Table 13.11), configuration space bytes,
the MSI-X table, the jobs and requests in flight, the tags outstanding with the tick of their issue, the tags in quarantine with
its end and whether a late completion is discarded silently (R342), and the bay: `surprise` a removal not followed by a return,
`attnCase` the fault blink has `ATTN_LED`, `attnOn` a blink expiry since power-on has put `ATTN_LED` in a case (R440). -/
structure Twin where
  perstLow : Bool
  training : Bool
  up : Bool
  speed : BitVec 3
  width : BitVec 3
  latched : Word
  cfg : Cells (BitVec 8)
  msix : Cells Word
  jobs : List TlpJob
  jobNext : Nat
  reqNo : Nat
  txns : List TwinTxn
  inbox : List InMsg
  out : List TlpOut
  rdTags : List (BitVec 8 × Nat)
  quar : List (BitVec 8 × Nat × Bool)
  flrDue : Option Nat
  d3 : Bool
  l1 : Bool
  surprise : Bool
  attnCase : Bool
  attnOn : Bool
  blinkOn : Bool
  fltBlinkOn : Bool
  blinkDue : Nat
  fltBlinkDue : Nat
  deriving DecidableEq, Repr, Inhabited

/-- A command packet in a FIFO (R445): its header, the words stored, the words still owed, whether a word
was lost, and whether its words are discarded as they arrive (R454). -/
structure CmdPkt where
  hdr : Word
  stored : List Word
  count : Nat
  owed : Nat
  torn : Bool
  dropped : Bool
  deriving DecidableEq, Repr, Inhabited

/-- A mailbox (R444): command packets oldest first, reply words, and a reply that waits for room. -/
structure Mail where
  cmd : List CmdPkt
  reply : List Word
  held : List (List Word)
  deriving DecidableEq, Repr, Inhabited

/-- The running long command: its mailbox, header and parameters, the step it has reached, its timer
(armed while it waits on traffic), the data it carries, and whether its reply is discarded (R447). -/
structure RunCmd where
  mb : Mailbox
  hdr : Word
  params : List Word
  phase : Nat
  timer : Option Nat
  arg : Nat
  dropReply : Bool
  tmo : Nat
  deriving DecidableEq, Repr

/-- The stages of M1 (Table 16.3, R405); `run` once M1 is left, `off` in M0 and M8. -/
inductive Boot where
  | off | lock | calibrate | sram | train | stopped | run
  deriving DecidableEq, Repr, Inhabited

/-- A transition of Table 16.2 under way, beside GLB_MODE: the mode it left, its final target, whether a
lifecycle advance follows the Wipe, and the channels it takes out of service. -/
structure Trans where
  source : BitVec 4
  target : BitVec 4
  chans : BitVec 16
  deriving DecidableEq, Repr, Inhabited

/-- The sequencer. `epochDue`: the next epoch boundary (R303). `exit8`: M1 was entered from M8. `lcTarget`: the target of an
advance under way. `wipeCut`: Safe interrupted a Wipe (R391). -/
structure Seq where
  host : Mail
  partner : Mail
  run : Option RunCmd
  boot : Boot
  exit8 : Bool
  trans : Option Trans
  patch : Cells Word
  patchBusy : Bool
  budgets : Cells Word
  swapBudget : List (Nat × Word)
  swapDue : Option Nat
  epochDue : Nat
  lcTarget : Option (BitVec 3)
  lcDue : Nat
  lcDone : Bool
  advHeld : Bool
  moveLeft : Option RunCmd
  wipeCut : Bool
  deriving DecidableEq, Repr

/-- The always-on domain beside its registers: the calendar, the ledger counts (Table 16.9), the pending
Wipe (R30), the freshness roots (R297), `secAt` the tick at which the calendar's last second began (none where the timebase has
measured no second), and at Retention entry the tick, the calendar and `phaseSaved`, the periods of `AON_CLK` of the second
begun (R59). -/
structure Aon where
  calendar : BitVec 64
  powered : Nat
  calSets : Nat
  modeSec : Vector Nat 12
  corr : Vector Nat 16
  uncorr : Vector Nat 16
  nref : Vector Nat 16
  safe : Nat
  recov : Nat
  temp : Vector Nat 18
  aging : BitVec 18
  agingAt : BitVec 32
  hist : List (BitVec 32 × BitVec 32)
  wipePend : Bool
  roots : Cells (BitVec 448)
  tickSaved : Nat
  calSaved : BitVec 64
  phaseSaved : Nat
  secAt : Option Nat
  deriving DecidableEq, Repr, Inhabited

/-- Pins and boundary state: reset and supply levels, the sampled straps, the control and key ports, the lifecycle port, the
temperature input and the clocks. `cpReq` and `keyReq` are the request levels seen (R33, R47); `needPorst` tells an undefined
state that only a valid release of `PORST_N` ends (R28) from one that either reset ends (R27); `boundsVoid` that no bound of the
manual holds (R20, R21); `calSeen` that the loss of `AON_CLK` has been reported (R26). Levels that are functions of other state
(the interrupt lines, `FAULT_N`, `SAFE_ACT`) are functions, not fields. -/
structure Pins where
  porstLow : Bool
  brstLow : Bool
  coreOn : Bool
  live : Bool
  heldFaultN : Bool
  heldSafe : Bool
  straps : Straps
  fuse : BitVec 16
  fuseAt : BitVec 16
  fuseDue : Nat
  cpAck : Bool
  cpErr : Bool
  cpRdata : Word
  cpReq : Bool
  keyAck : Bool
  keyErr : Bool
  keyReq : Bool
  keys : Vector (Option (BitVec 256)) 2
  keyPart : Vector (List (BitVec 64)) 2
  lcAdvReq : Bool
  lcAdvTo : BitVec 3
  memResetN : Bool
  pwrEn : Bool
  tbRun : Bool
  aonClk : Bool
  calSeen : Bool
  needPorst : Bool
  boundsVoid : Bool
  tempDue : Option Nat
  hotSince : Option Nat
  temp : BitVec 9
  tbHi : BitVec 32
  deriving DecidableEq, Repr

/-- A sample slot of a bridge or a slice (R425): the packet it is building. `park`: its request has ended, and the slot waits for
`GrantAck` alone, under the number of HOME and ENTRY at a bridge, of the entry at a slice. -/
structure Sample where
  unit : Nat
  src : BitVec 5
  txn : BitVec 8
  opcode : BitVec 6
  dl : Bool
  base : Nat
  frac : BitVec 4
  info : BitVec 64
  offs : List (Nat × BitVec 16)
  park : Option Nat
  deriving DecidableEq, Repr, Inhabited

/-- A writer of the trace stream (R428): the words staged of its open packet, its length, and whether
the rest is dropped. -/
structure Stager where
  words : List (BitVec 64)
  need : Nat
  drop : Bool
  deriving DecidableEq, Repr, Inhabited

/-- A write of the dump writer in flight (R439): a snapshot line, or an item for the sillage ring. `held` and `grant` as of
a request of the twin port; `gone`: its snapshot has been given up (R424). -/
structure DumpTxn where
  txn : BitVec 8
  req : Req
  data : LineData
  ring : Bool
  gone : Bool
  held : Bool
  grant : Bool
  deriving DecidableEq, Repr, Inhabited

/-- The observability engines: samples, the sillage FIFO, the error log, the counters with the copies of their HI
registers, the dump writer, and the aperture interface. `dumpQ` are the snapshot lines not yet issued, `dumpRun` the
snapshot lines issued since the last sillage item, `apNext` the next number of each port's aperture requests, `apWait` the
ports whose final word waits for storage, in order. `stampLast`: the last stamp that each unit took (R426). -/
structure Obs where
  samples : List Sample
  gaps : List Nat
  stagers : Cells Stager
  storage : List (List (BitVec 64))
  assembly : List (BitVec 64)
  flushDue : Option Nat
  trcLo : Word
  log : List (BitVec 128)
  loss : Nat
  counts : Cells Nat
  hiCopy : Cells Word
  dumpDue : Nat
  dumpNo : Nat
  dumpQ : List (Addr × LineData)
  dumpRun : Nat
  dumpTxns : List DumpTxn
  dumpReqNo : Nat
  dumpStop : Bool
  ringStop : Bool
  dumpInbox : List InMsg
  apInbox : List InMsg
  apNext : Cells Nat
  apWait : List Nat
  stampLast : Cells Nat
  deriving DecidableEq, Repr, Inhabited

end Sys2Proof.Machine
end

