-- ==== Sys2Proof/Machine/State.lean ====
section
/-! DEFINITION. The state of the block as plain data, why a step can stop, and the state after reset. -/

namespace Sys2Proof.Machine

/-- Why a command stops with a fault. -/
inductive Fault where
  /-- The block is in the undefined state of R27 or R28 and the command is neither a reset nor
  an event of the always-on domain. Raised by every other meaning. Safe: nothing is claimed of it. -/
  | undefinedState
  deriving DecidableEq, Repr

/-- Why a command is refused. -/
inductive Refusal where
  /-- A command without a meaning yet. Raised by `exec` alone. Safe: it only stops the run. -/
  | notModelled (mnemonic : String)
  deriving DecidableEq, Repr

/-- The whole block. `undef` is the undefined state of R27 and R28; `free` counts the free values
handed out; `pending` is the queue of commands that wait, first in, first out. -/
structure State where
  regs : Cells Word
  tick : Nat
  ports : Vector Port 24
  spine : Spine
  slices : Vector Slice 8
  chans : Vector Chan 16
  dram : Cells LineData
  faults : Faults
  mirror : Mirror
  twin : Twin
  seq : Seq
  obs : Obs
  aon : Aon
  pins : Pins
  undef : Bool
  free : Nat
  pending : List Instr
  deriving DecidableEq, Repr

/-- A filter entry that describes no line (R135). -/
def freeEntry : FEntry := ⟨0, .i, 0, 0x1F, false, false⟩

/-- A slice as the SRAM clear leaves it: every entry free, every pointer at way 0 (R135). -/
def freshSlice : Slice :=
  { inbox := [], filter := [], nru := [], ptr := [0, 0, 0, 0], entries := [], victims := [], reclaims := [],
    lanes := [], retry := [], retryLast := 26, xslots := [], xdone := [], xsince := [], watches := [],
    holds := [], scan := [], scanPos := 0, marking := [], cc := [], ctc := [], nextOrder := 0, scrubSet := 0,
    scrubDue := 0, stopSets := [], stopBanks := 0, closed := false, held := false, away := false, leaving := false, nodeBad := [], late := [] }

/-- A return arbiter with no grant. -/
def freshArb : Arb := ⟨none, 0⟩

/-- A port before its first revive: fenced, without credits (R88, Table 4.20). -/
def freshPort : Port :=
  { fenced := true, resetLow := false, caching := false, xlat := false, xlatSlice := 0,
    inCred := Vector.replicate 6 0, outCred := Vector.replicate 6 0, granted := Vector.replicate 6 0,
    txns := [], owed := [], acks := [], snps := [], egress := [], egNext := 0, arb := freshArb, series := 0,
    apSeries := 0, reqNo := 0, dead := false, egDue := [], lastOut := Vector.replicate 3 0 }

/-- The default slot table with `r` reserved slots: slot `i` is reserved when `(i r) mod 125 < r` (R312). -/
def defaultTable (r : Nat) : SlotTable :=
  ⟨BitVec.ofNat 125 ((List.range 125).foldl (fun a i => if (i * r) % 125 < r then a + 2 ^ i else a) 0), 1⟩

/-- A bank with no open row. -/
def freshBank : Bank :=
  { row := none, ready := 0, preAt := 0, hits := 0, idleDue := 0, pend := none, close := false }

/-- Refresh state of a rank before training. -/
def freshRefresh : Refresh :=
  { owed := 0, pair := 0, nextDue := 0, mr4Due := 0, zqDue := 0, oscDue := 0, zqPend := false,
    oscPend := false, oscNew := 0, osc := 0, multAt := 0 }

/-- A channel before training, with the default tables of Table 12.3. -/
def freshChan : Chan :=
  { rdq := [], wrq := [], wrOrder := 0, banks := Vector.replicate 32 freshBank,
    refresh := Vector.replicate 2 freshRefresh, acts := [], busFree := 0, lastWrite := 0, drain := false,
    selfRef := false, early := [],
    tables := #v[defaultTable 16, defaultTable 31, defaultTable 13, defaultTable 16], shadow := none, limit := 1,
    slotOpen := false, slotDue := 0, pending := 0, scrubDue := 0, scrubUrgent := false, arb := freshArb,
    rdNext := 0, lost := [], toSeal := [], trained := false, attempts := 0, kept := false }

/-- The spine with no packet. -/
def freshSpine : Spine := ⟨[], [], [], []⟩

/-- The fault units with no count, no arming and no quiet period. -/
def freshFaults : Faults := ⟨[], 0, false, 0, 0⟩

/-- Mirroring with nothing queued and every granule clear (R350). -/
def freshMirror : Mirror :=
  { queue := [], sent := [], waiting := [], flushOf := [], flushTag := none, dirty := 0, copyWin := 0,
    copyGran := none, copyLines := [], copyNext := 0, copyRun := 0, lossBroken := 0, hbTxDue := 0, hbRxDue := 0, hbSeen := false, dual := false, beatAfter := true }

/-- A mailbox with nothing in it. -/
def freshMail : Mail := ⟨[], [], []⟩

/-- The sequencer in reset. -/
def freshSeq : Seq :=
  { host := freshMail, partner := freshMail, run := none, boot := .off, exit8 := false, trans := none,
    patch := [], patchBusy := false, budgets := [], swapBudget := [], swapDue := none, epochDue := 0, lcTarget := none,
    lcDue := 0, lcDone := false, advHeld := false, moveLeft := none,
    wipeCut := false }

/-- The observability engines with nothing in them. -/
def freshObs : Obs :=
  { samples := [], gaps := [], stagers := [], storage := [], assembly := [], flushDue := none, trcLo := 0, log := [],
    loss := 0, counts := [], hiCopy := [], dumpDue := 0, dumpNo := 0, dumpQ := [], dumpRun := 0, dumpTxns := [],
    dumpReqNo := 0, dumpStop := false, ringStop := false, dumpInbox := [], apInbox := [], apNext := [], apWait := [],
    stampLast := [] }

/-- The always-on domain after its power-on (Table 2.3): calendar, ledger and roots at zero. -/
def freshAon : Aon :=
  { calendar := 0, powered := 0, calSets := 0, modeSec := Vector.replicate 12 0,
    corr := Vector.replicate 16 0, uncorr := Vector.replicate 16 0, nref := Vector.replicate 16 0, safe := 0,
    recov := 0, temp := Vector.replicate 18 0, aging := 0, agingAt := 0, hist := [], 
    wipePend := false, roots := [], tickSaved := 0, calSaved := 0, phaseSaved := 0, secAt := none }

/-- The straps before any release has sampled them. -/
def noStraps : Straps := ⟨0, 0, 0, 0, 0, 0, 0⟩

/-- The boundary with `PORST_N` low and every supply in range (Table 2.5). -/
def freshPins : Pins :=
  { porstLow := true, brstLow := false, coreOn := true, live := false, heldFaultN := false, heldSafe := false,
    straps := noStraps, fuse := 0, fuseAt := 0, fuseDue := 0, cpAck := false, cpErr := false, cpRdata := 0,
    cpReq := false, keyAck := false, keyErr := false, keyReq := false,
    keys := Vector.replicate 2 none, keyPart := Vector.replicate 2 [], lcAdvReq := false, lcAdvTo := 0,
    memResetN := false, pwrEn := false, tbRun := false, aonClk := true, calSeen := false,
    needPorst := false, boundsVoid := false, tempDue := none, hotSince := none, temp := 0, tbHi := 0 }

/-- The twin port in reset: no link, nothing in flight. -/
def freshTwin : Twin :=
  { perstLow := true, training := false, up := false, speed := 0, width := 0, latched := 0x356, cfg := [], msix := [],
    jobs := [], jobNext := 0, reqNo := 0, txns := [], inbox := [], out := [], rdTags := [], quar := [], flrDue := none,
    d3 := false, l1 := false, surprise := false, attnCase := false, attnOn := false, blinkOn := false, fltBlinkOn := false,
    blinkDue := 320000000, fltBlinkDue := 80000000 }

/-- The machine right after always-on power-on with `PORST_N` low: every register at the Reset column of
chapter 19, nothing in flight, no command waiting. -/
def State.reset : State :=
  { regs := [], tick := 0, ports := Vector.replicate 24 freshPort, spine := freshSpine,
    slices := Vector.replicate 8 freshSlice, chans := Vector.replicate 16 freshChan, dram := [],
    faults := freshFaults, mirror := freshMirror, twin := freshTwin, seq := freshSeq, obs := freshObs,
    aon := freshAon, pins := freshPins, undef := false, free := 0, pending := [] }

end Sys2Proof.Machine
end

