-- ==== Sys2Proof/Machine/Ops.lean ====
section
/-! DEFINITION. The named operations over the state that every unit shares: registers and their fields,
the units of the state by number, the mode, the ticks, free values, and the error log. -/

namespace Sys2Proof.Machine

-- fields of words

/-- Bits `lo + n - 1 .. lo` of a word, as a number. -/
def bitsOf (w : Word) (lo n : Nat) : Nat := (w.toNat / 2 ^ lo) % 2 ^ n

/-- A word with bits `lo + n - 1 .. lo` replaced by `v`. -/
def bitsTo (w : Word) (lo n v : Nat) : Word :=
  BitVec.ofNat 32 (w.toNat - bitsOf w lo n * 2 ^ lo + (v % 2 ^ n) * 2 ^ lo)

/-- 1 for true. -/
def b2n (b : Bool) : Nat := if b then 1 else 0

/-- One bit of a word. -/
def bitOf (w : Word) (i : Nat) : Bool := w.getLsbD i

-- registers

/-- The stored value of the register at offset `a`. -/
def getReg (s : State) (a : Nat) : Word := cellsGet regReset s.regs a

/-- Store `v` in the register at offset `a`, as the block itself does (R463: no lock applies). -/
def setReg (s : State) (a : Nat) (v : Word) : State := { s with regs := cellsSet regReset s.regs a v }

/-- A field of a register. -/
def getFld (s : State) (a lo n : Nat) : Nat := bitsOf (getReg s a) lo n

/-- A one-bit field of a register. -/
def getBit (s : State) (a i : Nat) : Bool := bitOf (getReg s a) i

/-- Replace a field of a register. -/
def setFld (s : State) (a lo n v : Nat) : State := setReg s a (bitsTo (getReg s a) lo n v)

/-- Set one bit of a register to `b`. -/
def setBit (s : State) (a i : Nat) (b : Bool) : State := setFld s a i 1 (b2n b)

/-- Add `k` to a counter field of `n` bits, saturating at all ones. -/
def satAdd (s : State) (a lo n k : Nat) : State :=
  setFld s a lo n (min (getFld s a lo n + k) (2 ^ n - 1))

/-- Put every register of the ranges `[lo, hi)` back to its reset value. -/
def resetRegs (s : State) (lo hi : Nat) : State :=
  { s with regs := cellsDrop (fun a => decide (lo ≤ a) && decide (a < hi)) s.regs }

-- the units by number

/-- Port `n`; a fenced port without state where there is none. -/
def port (s : State) (n : Nat) : Port := if h : n < 24 then s.ports[n] else freshPort

/-- Replace port `n`. -/
def setPort (s : State) (n : Nat) (p : Port) : State :=
  if h : n < 24 then { s with ports := s.ports.set n p } else s

/-- Slice `n`. -/
def slice (s : State) (n : Nat) : Slice := if h : n < 8 then s.slices[n] else freshSlice

/-- Replace slice `n`. -/
def setSlice (s : State) (n : Nat) (x : Slice) : State :=
  if h : n < 8 then { s with slices := s.slices.set n x } else s

/-- Channel `c`. -/
def chan (s : State) (c : Nat) : Chan := if h : c < 16 then s.chans[c] else freshChan

/-- Replace channel `c`. -/
def setChan (s : State) (c : Nat) (x : Chan) : State :=
  if h : c < 16 then { s with chans := s.chans.set c x } else s

/-- Apply `f` for each number below `n`, in ascending order. -/
def forEach (n : Nat) (s : State) (f : State → Nat → State) : State := (List.range n).foldl f s

/-- Slice base (Table 19.2). -/
def slcBase (n : Nat) : Nat := 0x100000 + n * 0x10000

/-- Channel base (Table 19.2). -/
def mcBase (c : Nat) : Nat := 0x200000 + c * 0x4000

/-- Port block base (Table 4.16). -/
def portBase (n : Nat) : Nat := 0x302000 + n * 0x40

/-- Register group of the Deadline class of port `n` (Table 12.10). -/
def dlBase (n : Nat) : Nat := 0x300400 + n * 0x10

-- the mode

/-- GLB_MODE.CUR (R460). -/
def curMode (s : State) : Nat := getFld s 0x10 0 4

/-- A transition of Table 16.2 is under way. -/
def inTransit (s : State) : Bool := getBit s 0x10 12

/-- Start of a transition: TARGET and TRANSIT set (R460). -/
def startTransit (s : State) (t : Nat) : State := setBit (setFld s 0x10 8 4 t) 0x10 12 true

/-- A transition that does not take place: TRANSIT clear and TARGET the current mode (R460). -/
def endTransit (s : State) : State := setBit (setFld s 0x10 8 4 (curMode s)) 0x10 12 false

/-- The last step of a transition: PREV, CUR, TARGET and TRANSIT written at once (R460). -/
def enterMode (s : State) (m : Nat) : State :=
  setReg s 0x10 (BitVec.ofNat 32 (m % 16 + 16 * curMode s + 256 * (m % 16)))

/-- M3 to M6 and M9: take-up runs. -/
def runMode (m : Nat) : Bool := (decide (3 ≤ m) && decide (m ≤ 6)) || m == 9

/-- The block is in M10 Safe. -/
def inSafe (s : State) : Bool := curMode s == 10

/-- Take-up is stopped for requests with CRD 0 (R400), or altogether (Tables 15.8 and 16.1). -/
def takeUpStopped (s : State) : Bool := !runMode (curMode s)

/-- Neither reset input is low and `VDD_CORE` is present. -/
def coreAlive (s : State) : Bool := !s.pins.porstLow && !s.pins.brstLow && s.pins.coreOn

/-- The core logic runs: not in reset, and not in M8 Retention. -/
def running (s : State) : Bool := coreAlive s && curMode s != 8 && curMode s != 0

/-- GLB_STATUS.READY_LINK (step 4 of Table 16.3). -/
def readyLink (s : State) : Bool := getBit s 0x14 0

/-- Lifecycle state in use: 0 Blank, 1 Develop, 2 Produce, 3 Return, 4 Retire (R49). -/
def lcState (s : State) : Nat := getFld s 0x44 16 3

-- banks and reads of a channel

/-- Bank `b` of rank `r`. -/
def bankAt (x : Chan) (r b : Nat) : Bank := if h : r * 16 + b < 32 then x.banks[r * 16 + b] else freshBank

/-- Replace a bank. -/
def setBank (s : State) (c r b : Nat) (k : Bank) : State :=
  if h : r * 16 + b < 32 then setChan s c { chan s c with banks := (chan s c).banks.set (r * 16 + b) k } else s

/-- The read belongs to the scrub (R267). -/
def isScrubRead (u : ReadFor) : Bool :=
  match u with
  | .scrub => true
  | .check _ => true
  | _ => false

-- self-refresh (R269)

/-- Channel `c` leaves self-refresh: no row is open, and its first refresh is due at once (Table 10.6). -/
def wakeChan (s : State) (c : Nat) : State :=
  let x := chan s c
  if x.selfRef then
    setChan s c { x with selfRef := false, banks := Vector.replicate 32 freshBank,
                         refresh := x.refresh.map (fun f => { f with owed := 0, nextDue := s.tick * 1000 }) }
  else s

-- free values

/-- A fresh free word: nothing constrains it (assumption 3). -/
def takeFree (s : State) : BitVec 64 × State := (Config.freeWord s.free, { s with free := s.free + 1 })

-- population (R19, R41)

/-- The sampled PORT_EN bit of port `n`. -/
def portEnabled (s : State) (n : Nat) : Bool := s.pins.straps.portEn.getLsbD n

/-- The sampled CH_POP bit of slice `n`. -/
def slicePop (s : State) (n : Nat) : Bool := s.pins.straps.chPop.getLsbD n

/-- The populated slices. -/
def popSlices (s : State) : List Nat := (List.range 8).filter (slicePop s)

/-- The populated channels in ascending order: a channel's index is its place (R244). -/
def popChans (s : State) : List Nat := (List.range 16).filter (fun c => slicePop s (c / 2))

/-- MC_CFG.ACTIVE of channel `c`. -/
def chanActive (s : State) (c : Nat) : Bool := getBit s (mcBase c) 8

/-- SPN_STATUS.SLICE_PWR bit `n`: the domain of slice `n` is on. -/
def slicePwr (s : State) (n : Nat) : Bool := getBit s 0x300004 n

/-- SPN_STATUS.PAIR_PWR bit `p`: pair `p` is joined in Accord (R396). -/
def pairJoined (s : State) (p : Nat) : Bool := getBit s 0x300004 (8 + p)

/-- SPN_FENCE.SLICE bit `n`. -/
def sliceFenced (s : State) (n : Nat) : Bool := getBit s 0x300008 n

/-- SPN_STATUS.TWIN_PWR. -/
def twinPwr (s : State) : Bool := getBit s 0x300004 12

-- the error log (R436, R437)

/-- A record of Table 17.8 from its kind, unit, source, detail and W3, at the present tick. -/
def logWord (s : State) (kind unit src detail w3 : Nat) : BitVec 128 :=
  BitVec.ofNat 128 (kind % 256 + 2 ^ 8 * (unit % 32) + 2 ^ 13 * (src % 32) + 2 ^ 32 * (s.tick % 2 ^ 32)
    + 2 ^ 64 * ((s.tick / 2 ^ 32) % 2 ^ 16) + 2 ^ 80 * (detail % 2 ^ 16) + 2 ^ 96 * (w3 % 2 ^ 32))

/-- A record enters the error log, or is dropped and counted in PENDING_LOSS (R436, R437). -/
def logRecord (s : State) (kind unit src detail w3 : Nat) : State :=
  if s.obs.log.length < 64 then
    setBit { s with obs := { s.obs with log := s.obs.log ++ [logWord s kind unit src detail w3] } } 0x340008 2
      true
  else { s with obs := { s.obs with loss := min (s.obs.loss + 1) 0xFFFF } }

-- first captures (R161, R110)

/-- Set bit `i` of the W1C register at `err`, and capture `info` in the register at `cap` when every bit
was 0 before (R161). -/
def raiseErr (s : State) (err i cap : Nat) (info : Word) : State :=
  let first := getReg s err == 0
  let s := setBit s err i true
  if first then setReg s cap info else s

-- the configuration space of the twin port, and its wake

/-- Stored byte `a` of the configuration space. -/
def cfgByte (s : State) (a : Nat) : BitVec 8 := cellsGet (fun _ => 0) s.twin.cfg a

/-- Store byte `a` of the configuration space. -/
def setCfgByte (s : State) (a : Nat) (v : BitVec 8) : State :=
  { s with twin := { s.twin with cfg := cellsSet (fun _ => 0) s.twin.cfg a v } }

/-- A TLP leaves the endpoint; the link leaves L1 for it. -/
def twinOut (s : State) (t : TlpOut) : State := { s with twin := { s.twin with out := s.twin.out ++ [t], l1 := false } }

/-- ECRC generation is enabled: every mastered TLP carries one (Table 13.1). -/
def ecrcOn (s : State) : Bool := (cfgByte s 0x118).getLsbD 6

/-- A wake event (R340): in D3hot with PME_En 1 and PME_Status 0, PME_Status is set and a PM_PME message leaves, waking the
link from L1. -/
def wakePme (s : State) : State :=
  let c := cfgByte s 0x45
  if s.twin.up && s.twin.d3 && c.getLsbD 0 && !c.getLsbD 7 then
    twinOut (setCfgByte { s with twin := { s.twin with l1 := false } } 0x45 (c ||| 0x80)) (.pmPme (ecrcOn s))
  else s

-- bytes

/-- Byte `i` of a line. -/
def lineByte (d : LineData) (i : Nat) : BitVec 8 := d.extractLsb' (8 * i) 8

/-- The bytes of `n` bytes from `lo` of a line, least significant first, as a number. -/
def lineNat (d : LineData) (lo n : Nat) : Nat := (d.toNat / 2 ^ (8 * lo)) % 2 ^ (8 * n)

/-- A line with the `n` bytes from `lo` replaced by `v`. -/
def lineSet (d : LineData) (lo n v : Nat) : LineData :=
  BitVec.ofNat 512 (d.toNat - lineNat d lo n * 2 ^ (8 * lo) + (v % 2 ^ (8 * n)) * 2 ^ (8 * lo))

/-- Half `h` of a line. -/
def lineHalf (d : LineData) (h : Bool) : HalfData := d.extractLsb' (if h then 256 else 0) 256

/-- A line with half `h` replaced. -/
def lineSetHalf (d : LineData) (h : Bool) (x : HalfData) : LineData :=
  if h then x ++ lineHalf d false else lineHalf d true ++ x

/-- The mask of byte enables spread over bits: byte `i` all ones where bit `i` is set. -/
def beMask {n : Nat} (be : BitVec n) : LineData :=
  BitVec.ofNat 512 ((List.range n).foldl (fun a i => if be.getLsbD i then a + 255 * 2 ^ (8 * i) else a) 0)

/-- `new` where the byte is enabled, `old` elsewhere. -/
def mergeBytes (old new : LineData) (be : BitVec 64) : LineData :=
  (old &&& ~~~ (beMask be)) ||| (new &&& beMask be)

/-- The bits set in a 24-bit vector, ascending. -/
def bits24 (v : BitVec 24) : List Nat := (List.range 24).filter (fun i => v.getLsbD i)

/-- The single bit `n`. -/
def bit24 (n : Nat) : BitVec 24 := BitVec.ofNat 24 (if n < 24 then 2 ^ n else 0)

/-- How many bits are set. -/
def pop24 (v : BitVec 24) : Nat := (bits24 v).length

/-- Replace the elements that satisfy `p` by `f` of them. -/
def mapIf {α : Type} (p : α → Bool) (f : α → α) (l : List α) : List α := l.map (fun x => if p x then f x else x)

/-- Remove the first element that satisfies `p`. -/
def dropFirst {α : Type} (p : α → Bool) : List α → List α
  | [] => []
  | x :: l => if p x then l else x :: dropFirst p l

/-- The smallest number below `n` that is not in `used`. -/
def firstFree (n : Nat) (used : List Nat) : Option Nat := (List.range n).find? (fun i => !used.contains i)

/-- The outcome of a command whose effect leaves `t`: a command never touches the queue of those that wait. -/
def resume (s t : State) : Host.Outcome State Fault Refusal := .next { t with pending := s.pending }

/-- The outcome of a command that has no meaning in the undefined state of R27 and R28: every command but resets, supply
events and those of the always-on domain. -/
def guarded (s t : State) : Host.Outcome State Fault Refusal := if s.undef then .fault .undefinedState else resume s t

end Sys2Proof.Machine
end

