-- ==== Sys2Proof/Machine/Mailbox.lean ====
section
/-! DEFINITION. Replies of the sequencer: their form (Table 18.2) and their move into a reply FIFO (R446). -/

namespace Sys2Proof.Machine

/-- The mailbox `mb`. -/
def mailOf (s : State) (mb : Mailbox) : Mail :=
  match mb with
  | .host => s.seq.host
  | .partner => s.seq.partner

/-- Replace the mailbox `mb`. -/
def setMail (s : State) (mb : Mailbox) (m : Mail) : State :=
  match mb with
  | .host => { s with seq := { s.seq with host := m } }
  | .partner => { s with seq := { s.seq with partner := m } }

/-- Capacity of each FIFO of a mailbox in words (R444). -/
def mailCap (mb : Mailbox) : Nat :=
  match mb with
  | .host => 256
  | .partner => 32

/-- Status codes (Table 18.3). -/
def stOk : Nat := 0
def stBusy : Nat := 1
def stBadOpcode : Nat := 2
def stBadParam : Nat := 3
def stWrongMode : Nat := 4
def stDenied : Nat := 5
def stTimeout : Nat := 6
def stHwFault : Nat := 7
def stPartial : Nat := 8

/-- A reply: STATUS, LENGTH, SEQ and OPCODE echoed, then the data (Table 18.2). Data accompanies only `OK`
and `PARTIAL` (R449). -/
def mkReply (hdr : Word) (status : Nat) (data : List Word) : List Word :=
  let data := if status = stOk ∨ status = stPartial then data else []
  BitVec.ofNat 32 (status + 2 ^ 8 * (data.length % 256) + 2 ^ 16 * bitsOf hdr 16 8 + 2 ^ 24 * bitsOf hdr 0 8) :: data

/-- The event bit a moved reply sets: REPLY for the host, PTR_CMD for the partner (R446). -/
def replyBit (mb : Mailbox) : Nat :=
  match mb with
  | .host => 0
  | .partner => 5

/-- A reply moves whole into the reply FIFO when it has room, and waits otherwise (R446). -/
def pushReply (s : State) (mb : Mailbox) (r : List Word) : State :=
  let m := mailOf s mb
  if m.held.isEmpty && decide (m.reply.length + r.length ≤ mailCap mb) then
    let s := setBit (setMail s mb { m with reply := m.reply ++ r }) 0x35000C (replyBit mb) true
    if mb = .partner then wakePme s else s
  else setMail s mb { m with held := m.held ++ [r] }

/-- The reply to the packet with header `hdr`: none for `OK` under QUIET (R448). -/
def sendReply (s : State) (mb : Mailbox) (hdr : Word) (status : Nat) (data : List Word) : State :=
  if status = stOk ∧ bitOf hdr 24 then s else pushReply s mb (mkReply hdr status data)

/-- The running long command ends with `status`; after a flush its reply is discarded (R447). -/
def finishCmd (s : State) (status : Nat) (data : List Word) : State :=
  match s.seq.run with
  | none => s
  | some r =>
    let s := { s with seq := { s.seq with run := none } }
    if r.dropReply then s else sendReply s r.mb r.hdr status data

end Sys2Proof.Machine
end

