-- ==== Sys2Proof/Machine/Pmu.lean ====
section
/-! DEFINITION. Counter sets, sillage and sample tagging (chapter 17) as the units that feed them see them. -/

namespace Sys2Proof.Machine

-- counters (R418 to R420)

/-- Base of counter set `k`. -/
def pmuBase (k : Nat) : Nat := 0x330000 + k * 0x100

/-- Value of counter `i` of set `k`; 8 is the elapsed counter. -/
def pmuCount (s : State) (k i : Nat) : Nat := cellsGet (fun _ => 0) s.obs.counts (k * 16 + i)

/-- Replace a counter. -/
def setPmuCount (s : State) (k i v : Nat) : State :=
  { s with obs := { s.obs with counts := cellsSet (fun _ => 0) s.obs.counts (k * 16 + i) v } }

/-- Set `k` loses its counter values: its unit's domain is off (R418). -/
def dropCounts (s : State) (k : Nat) : State :=
  { s with obs := { s.obs with counts := cellsDrop (fun a => a / 16 == k) s.obs.counts } }

/-- The unit of set `k` is powered: a slice domain, or a channel domain (R243). -/
def pmuPowered (s : State) (k : Nat) : Bool :=
  if k < 8 then slicePwr s k else slicePop s ((k - 8) / 2) && coreAlive s && curMode s != 8 && curMode s != 0

/-- Set `k` counts now (R418). -/
def pmuOn (s : State) (k : Nat) : Bool := getBit s 0x332000 0 && !getBit s 0x332000 1 && pmuPowered s k

/-- PMU_CFGi of set `k`. -/
def pmuCfg (s : State) (k i : Nat) : Word := getReg s (pmuBase k + 0x60 + 4 * i)

/-- Counter `i` takes its events from a chain (R420): CHAIN of counter 0 has no effect. -/
def pmuChained (s : State) (k i : Nat) : Bool := i != 0 && bitOf (pmuCfg s k i) 9

/-- Add `n` to counter `i`; a wrap carries into a chained neighbour or sets PMU_OVF (R420). -/
def pmuAdd : Nat → State → Nat → Nat → Nat → State
  | 0, s, _, _, _ => s
  | fuel + 1, s, k, i, n =>
    let v := pmuCount s k i + n
    let s := setPmuCount s k i (v % 2 ^ 48)
    if v < 2 ^ 48 then s
    else if i < 7 ∧ pmuChained s k (i + 1) then pmuAdd fuel s k (i + 1) 1
    else setBit s (pmuBase k + 0x80) i true

/-- Codes that name an event of a set (Table 17.1). -/
def pmuEventCode (k e : Nat) : Bool := decide (1 ≤ e) && decide (e ≤ if k < 8 then 0x14 else 0x11)

/-- An event of code `e` at set `k` happens `n` times (R419). -/
def pmuEvents (s : State) (k e n : Nat) : State :=
  if n ≠ 0 ∧ pmuOn s k ∧ pmuEventCode k e then
    forEach 8 s (fun s i =>
      let c := pmuCfg s k i
      if bitsOf c 0 8 = e ∧ !bitOf c 8 ∧ !pmuChained s k i then pmuAdd 8 s k i n else s)
  else s

/-- One event. -/
def pmuEvent (s : State) (k e : Nat) : State := pmuEvents s k e 1

-- sillage (R428 to R432)

/-- An empty staging buffer that expects a header. -/
def freshStager : Nat → Stager := fun _ => ⟨[], 0, false⟩

/-- The staging buffer of the writer with ORIGIN `o`. -/
def stagerOf (s : State) (o : Nat) : Stager := cellsGet freshStager s.obs.stagers o

/-- Replace a staging buffer. -/
def setStager (s : State) (o : Nat) (x : Stager) : State :=
  { s with obs := { s.obs with stagers := cellsSet freshStager s.obs.stagers o x } }

/-- TRC_CTL.EN. -/
def trcOn (s : State) : Bool := getBit s 0x340000 0

/-- TRC_CTL.FLUSH_US in ticks; 0 acts as 1. -/
def trcFlush (s : State) : Nat := max 1 (getFld s 0x340000 1 12) * 1000

/-- BYTES of a header, above 56 acting as 56 (R428). -/
def hdrBytes (h : BitVec 64) : Nat := min 56 (h.toNat % 64)

/-- Payload words of a header. -/
def hdrWords (h : BitVec 64) : Nat := (hdrBytes h + 7) / 8

/-- MASK of the final word (R428). -/
def hdrMask (bytes : Nat) : Nat := if bytes = 0 then 0 else if bytes % 8 = 0 then 0xFF else 2 ^ (bytes % 8) - 1

/-- A header as the write side accepts it: BYTES and KIND kept, ORIGIN, MASK and TICK overwritten. -/
def acceptHeader (s : State) (o : Nat) (h : BitVec 64) : BitVec 64 :=
  let b := hdrBytes h
  BitVec.ofNat 64 (b + 2 ^ 8 * (h.toNat / 2 ^ 8 % 256) + 2 ^ 16 * hdrMask b + 2 ^ 24 * o + 2 ^ 32 * (s.tick % 2 ^ 32))

/-- Clear the unused bytes of the final payload word (R428). -/
def trimLast (bytes : Nat) (ws : List (BitVec 64)) : List (BitVec 64) :=
  if bytes % 8 = 0 then ws
  else ws.dropLast ++ (ws.getLast?.toList.map (fun w => BitVec.ofNat 64 (w.toNat % 2 ^ (8 * (bytes % 8)))))

/-- Free storage for the items that `n` more words complete. -/
def sillageRoom (s : State) (n : Nat) : Bool :=
  decide (s.obs.storage.length + (s.obs.assembly.length + n) / 8 ≤ 512)

/-- Cut whole items of eight words off a list. -/
def takeItems : Nat → List (BitVec 64) → List (List (BitVec 64)) × List (BitVec 64)
  | 0, ws => ([], ws)
  | fuel + 1, ws =>
    if 8 ≤ ws.length then
      let (items, rest) := takeItems fuel (ws.drop 8)
      (ws.take 8 :: items, rest)
    else ([], ws)

/-- A whole packet moves into storage and the assembly register (R429, R432). Room is the caller's matter. -/
def sillageMove (s : State) (ws : List (BitVec 64)) : State :=
  let (items, rest) := takeItems 2 (s.obs.assembly ++ ws)
  let s := { s with obs := { s.obs with storage := s.obs.storage ++ items, assembly := rest,
                                        flushDue := if rest.isEmpty then none else some (s.tick + trcFlush s) } }
  setBit (satAdd s 0x340010 0 32 1) 0x340008 0 true

/-- A packet is dropped: `lo` and `n` give the field of TRC_DROP_CNT (R429). -/
def sillageDrop (s : State) (lo n : Nat) : State := setBit (satAdd s 0x340014 lo n 1) 0x340008 1 true

/-- A hardware packet of writer `o` (Table 17.5): moved, or dropped where storage lacks room. -/
def hwPacket (s : State) (o kind bytes : Nat) (ws : List (BitVec 64)) (lo n : Nat) : State :=
  if !trcOn s then s
  else
    let pkt := acceptHeader s o (BitVec.ofNat 64 (bytes + 256 * kind)) :: trimLast bytes ws
    if sillageRoom s pkt.length then sillageMove s pkt else sillageDrop s lo n

-- sample tagging (R425 to R427)

/-- The sample is that of the request that holds a TXN now. -/
def sampleIs (unit : Nat) (src : BitVec 5) (txn : BitVec 8) (x : Sample) : Bool :=
  x.unit == unit && x.src == src && x.txn == txn && x.park.isNone

/-- The place of a sample slot: bridges 0 to 23, slices 32 to 39. -/
def findSample (s : State) (unit : Nat) (src : BitVec 5) (txn : BitVec 8) : Option Sample :=
  s.obs.samples.find? (sampleIs unit src txn)

/-- Sample slots of a unit in use. -/
def samplesOf (s : State) (unit : Nat) : Nat := (s.obs.samples.filter (fun x => x.unit == unit)).length

/-- Now at unit `u` in units of 1/16 ns: the tick, and a fraction that the manual fixes only to be no earlier than that of the
unit's last stamp (R426). -/
def stampNow (s : State) (u : Nat) : Nat × State :=
  let (f, s) := takeFree s
  let t := max (cellsGet (fun _ => 0) s.obs.stampLast u) (s.tick * 16 + f.toNat % 16)
  (t, { s with obs := { s.obs with stampLast := cellsSet (fun _ => 0) s.obs.stampLast u t } })

/-- Open a sample slot with its base stamp. -/
def sampleOpen (s : State) (unit : Nat) (src : BitVec 5) (txn : BitVec 8) (op : BitVec 6) (dl : Bool)
    (info : BitVec 64) (offs : List (Nat × BitVec 16)) : State :=
  let (t, s) := stampNow s unit
  let x : Sample := ⟨unit, src, txn, op, dl, t / 16, BitVec.ofNat 4 (t % 16), info, offs, none⟩
  { s with obs := { s.obs with samples := s.obs.samples ++ [x] } }

/-- Replace the sample of a slot. -/
def sampleSet (s : State) (unit : Nat) (src : BitVec 5) (txn : BitVec 8) (f : Sample → Sample) : State :=
  let l := mapIf (sampleIs unit src txn) f s.obs.samples
  { s with obs := { s.obs with samples := l } }

/-- Stamp stage `i` of a sample, once: 0xFFFF beyond 4.096 µs (R426). -/
def sampleStamp (s : State) (unit : Nat) (src : BitVec 5) (txn : BitVec 8) (i : Nat) : State :=
  match findSample s unit src txn with
  | some x =>
    if x.offs.any (fun o => o.1 == i) then s
    else
      let (t, s) := stampNow s unit
      let d := t - (x.base * 16 + x.frac.toNat)
      sampleSet s unit src txn (fun x => { x with offs := x.offs ++ [(i, BitVec.ofNat 16 (min d 0xFFFF))] })
  | none => s

/-- Set flag `b` of the sample's information word. -/
def sampleFlag (s : State) (unit : Nat) (src : BitVec 5) (txn : BitVec 8) (b : Nat) : State :=
  sampleSet s unit src txn (fun x => { x with info := x.info ||| BitVec.ofNat 64 (2 ^ b) })

/-- Offset of stage `i`, 0xFFFF where it was not reached. -/
def sampleOff (x : Sample) (i : Nat) : Nat := ((x.offs.find? (fun o => o.1 == i)).map (·.2.toNat)).getD 0xFFFF

/-- Four 16-bit fields of a word. -/
def pack4 (a b c d : Nat) : BitVec 64 := BitVec.ofNat 64 (a + 2 ^ 16 * b + 2 ^ 32 * c + 2 ^ 48 * d)

/-- Word 1 of a sample packet (Table 17.3). -/
def sampleWord1 (x : Sample) : BitVec 64 :=
  BitVec.ofNat 64 ((x.base * 16 + x.frac.toNat) % 2 ^ 44 + 2 ^ 44 * x.src.toNat + 2 ^ 49 * x.txn.toNat
    + 2 ^ 57 * x.opcode.toNat + 2 ^ 63 * b2n x.dl)

/-- Slot `x` closes: its packet goes to sillage (R427). -/
def closeSlot (s : State) (x : Sample) : State :=
  let s := { s with obs := { s.obs with samples := dropFirst (fun y => y == x) s.obs.samples } }
  let unit := x.unit
  let o := sampleOff x
  if unit < 32 then
    hwPacket s (0x60 + unit) 0x20 24 [sampleWord1 x, pack4 (o 0) (o 1) (o 2) (o 3), x.info] 20 12
  else
    hwPacket s (0x80 + (unit - 32)) 0x21 32
      [sampleWord1 x, pack4 (o 0) (o 1) (o 2) (o 3), pack4 (o 4) (o 5) (o 6) (o 7), x.info] 20 12

/-- Close the sample slot of the request that holds a TXN now. -/
def sampleClose (s : State) (unit : Nat) (src : BitVec 5) (txn : BitVec 8) : State :=
  (findSample s unit src txn).elim s (closeSlot s)

/-- The request of a TXN has ended, and its slot waits for `GrantAck` under number `k`: the TXN may be used again (R93). -/
def samplePark (s : State) (unit : Nat) (src : BitVec 5) (txn : BitVec 8) (k : Nat) : State :=
  sampleSet s unit src txn (fun x => { x with park := some k })

/-- The slot that waits for `GrantAck` under number `k`. -/
def parkedSample (s : State) (unit k : Nat) : Option Sample := s.obs.samples.find? (fun x => x.unit == unit && x.park == some k)

/-- A sample slot is given up without a packet. -/
def sampleDrop (s : State) (unit : Nat) (src : BitVec 5) (txn : BitVec 8) : State :=
  { s with obs := { s.obs with samples := dropFirst (sampleIs unit src txn) s.obs.samples } }

end Sys2Proof.Machine
end

