-- ==== Sys2Proof/Machine/Address.lean ====
section
/-! DEFINITION. The address decode (R244), the placement of a line in a filter array (R134) and the region
table (R284, R285). -/

namespace Sys2Proof.Machine

/-- The base of the DRAM window in use (MC_MAP_ACTIVE.BASE). -/
def windowBase (s : State) : Nat := getFld s 0x240004 8 18 * 2 ^ 30

/-- The size of the DRAM window (MC_SIZE). -/
def windowSize (s : State) : Nat := getFld s 0x240010 0 16 * 2 ^ 26

/-- The line of `pa` lies in the window (R244). -/
def inWindow (s : State) (pa : Nat) : Bool :=
  decide (windowBase s ≤ pa) && decide (pa < windowBase s + windowSize s)

/-- log2 of the channel count, for the counts 2, 4, 8 and 16. -/
def chanBits (s : State) : Nat :=
  let c := (popChans s).length
  if c ≤ 1 then 0 else if c ≤ 2 then 1 else if c ≤ 4 then 2 else if c ≤ 8 then 3 else 4

/-- The interleave grain in use: log2 of its lines. -/
def grainLines (s : State) : Nat := max 8 (min 16 (getFld s 0x240004 0 4)) - 6

/-- The xor of the five `cb`-bit fields of `q` (R244). -/
def foldHash (cb q : Nat) : Nat :=
  (List.range 5).foldl (fun a i => a ^^^ ((q / 2 ^ (i * cb)) % 2 ^ cb)) 0

/-- Channel and channel line number of a physical byte address inside the window (R244). -/
def decodeAddr (s : State) (pa : Nat) : Option (Nat × Nat) :=
  if inWindow s pa then
    let n := (pa - windowBase s) / 64
    let gl := grainLines s
    let cb := chanBits s
    let chunk := n / 2 ^ gl
    let q := chunk / 2 ^ cb
    let ci := chunk % 2 ^ cb
    let ci := if getBit s 0x240004 4 then ci ^^^ foldHash cb q else ci
    (popChans s)[ci]?.map fun ch => (ch, q * 2 ^ gl + n % 2 ^ gl)
  else none

/-- The physical address of channel line number `m` of channel `ch` (R244, reverse decode). -/
def encodeAddr (s : State) (ch m : Nat) : Nat :=
  let gl := grainLines s
  let cb := chanBits s
  let q := m / 2 ^ gl
  let ci := (popChans s).idxOf ch
  let ci := if getBit s 0x240004 4 then ci ^^^ foldHash cb q else ci
  windowBase s + ((q * 2 ^ cb + ci % 2 ^ cb) * 2 ^ gl + m % 2 ^ gl) * 64

/-- Two ranks were found at training. -/
def twoRanks (s : State) (c : Nat) : Bool := getBit s (mcBase c) 0

/-- Rows per bank of a channel: 65,536 for 2 GiB per rank, doubling with the density (Table 10.1). -/
def rowsPerBank (s : State) (c : Nat) : Nat := 65536 * 2 ^ getFld s (mcBase c) 1 2

/-- Row units of a channel: banks by ranks by rows. -/
def rowUnits (s : State) (c : Nat) : Nat := 16 * (if twoRanks s c then 2 else 1) * rowsPerBank s c

/-- A place in a channel's DRAM. -/
structure Place where
  rank : Nat
  bank : Nat
  row : Nat
  deriving DecidableEq, Repr, Inhabited

/-- Parity of the low `n` bits of `x`. -/
def parityOf (n x : Nat) : Bool :=
  ((List.range n).filter (fun i => x.testBit i)).length % 2 == 1

/-- Rank, bank and row of row unit `u` of channel `c` (R244). -/
def placeOf (s : State) (c u : Nat) : Place :=
  let nr := if twoRanks s c then 1 else 0
  let row := u / 2 ^ (4 + nr)
  let bank := u % 16
  let bank := if getBit s 0x240004 5 then bank ^^^ (row % 16) ^^^ (row / 16 % 16) else bank
  let rank := if nr = 1 then u / 16 % 2 else 0
  let rank := if getBit s 0x240004 6 && nr == 1 then rank ^^^ b2n (parityOf 18 row) else rank
  ⟨rank, bank, row⟩

/-- The home of a line: the slice whose array holds its set, the channel and channel line number of its
storage, its line number (HLN, or PLN in Accord), and its filter set and tag. -/
structure Home where
  slice : Nat
  chan : Nat
  m : Nat
  line : Nat
  accord : Bool
  set : Nat
  tag : BitVec 29
  deriving DecidableEq, Repr, Inhabited

/-- Array, set and tag of line number `l` of pair `p` in Accord (R134). -/
def placePair (s : State) (p l : Nat) : Nat × Nat × BitVec 29 :=
  let idx := (l % 2 ^ 15) ^^^ (l / 2 ^ 15 % 2 ^ 15)
  let on := fun (k : Nat) => slicePwr s k && !(slice s k).away
  let array := if on (2 * p) && on (2 * p + 1) then 2 * p + idx / 2 ^ 14 else if on (2 * p) then 2 * p else 2 * p + 1
  (array, idx % 2 ^ 14, BitVec.ofNat 29 (l / 2))

/-- Set and tag of line number `l` in slice mode (R134). -/
def placeSlice (l : Nat) : Nat × BitVec 29 :=
  ((l % 2 ^ 14) ^^^ (l / 2 ^ 14 % 2 ^ 14), BitVec.ofNat 29 l)

/-- The home of channel line `m` of channel `ch` (R9, R134, R168). -/
def homeOfLine (s : State) (ch m : Nat) : Home :=
  let hln := 2 * m + ch % 2
  let p := ch / 4
  if pairJoined s p then
    let pln := 2 * hln + (ch / 2) % 2
    let (a, st, t) := placePair s p pln
    ⟨a, ch, m, pln, true, st, t⟩
  else
    let (st, t) := placeSlice hln
    ⟨ch / 2, ch, m, hln, false, st, t⟩

/-- The home of the line of a physical address in the window. -/
def homeOf (s : State) (pa : Nat) : Option Home :=
  (decodeAddr s pa).map fun (ch, m) => homeOfLine s ch m

/-- Channel and channel line number of line number `l` homed in slice `n`. -/
def chanOfLine (s : State) (n l : Nat) : Nat × Nat :=
  if pairJoined s (n / 2) then
    let hln := l / 2
    (2 * (n / 2 * 2 + l % 2) + hln % 2, hln / 2)
  else (2 * n + l % 2, l / 2)

/-- The physical byte address of line number `l` homed in slice `n`. -/
def addrOfLine (s : State) (n l : Nat) : Nat :=
  let (ch, m) := chanOfLine s n l
  encodeAddr s ch m

/-- The home of line number `l` of slice `n`. -/
def homeOfNumber (s : State) (n l : Nat) : Home :=
  let (ch, m) := chanOfLine s n l
  homeOfLine s ch m

/-- The line number that an entry's set and tag recover (R134). -/
def lineOfEntry (s : State) (n set : Nat) (tag : BitVec 29) : Nat :=
  if pairJoined s (n / 2) then
    let hi := tag.toNat * 2
    hi + ((set % 2) ^^^ (hi / 2 ^ 15 % 2))
  else tag.toNat

-- the region table

/-- Base of region entry `i`. -/
def rgnBase (i : Nat) : Nat := 0x360000 + i * 0x10

/-- RGN_ATTR_i. -/
def rgnAttr (s : State) (i : Nat) : Word := getReg s (rgnBase i + 8)

/-- Region `i` is valid and holds 2 MiB block `b`. -/
def rgnHolds (s : State) (b i : Nat) : Bool :=
  bitOf (rgnAttr s i) 0 && decide (getFld s (rgnBase i) 0 27 ≤ b) && decide (b ≤ getFld s (rgnBase i + 4) 0 27)

/-- The region of a physical address (R284: no two valid regions overlap). -/
def regionOf (s : State) (pa : Nat) : Option Nat := (List.range 64).find? (rgnHolds s (pa / 2 ^ 21))

/-- BACKING of region `i`: 0 unbacked, 1 DRAM, 2 device, 3 metadata. -/
def rgnBacking (s : State) (i : Nat) : Nat := bitsOf (rgnAttr s i) 1 2

/-- SEALED of region `i`. -/
def rgnSealed (s : State) (i : Nat) : Bool := bitOf (rgnAttr s i) 3

/-- FRESH of region `i`. -/
def rgnFresh (s : State) (i : Nat) : Bool := bitOf (rgnAttr s i) 4

/-- PINNED of region `i`. -/
def rgnPinned (s : State) (i : Nat) : Bool := bitOf (rgnAttr s i) 5

/-- REALM of region `i`. -/
def rgnRealm (s : State) (i : Nat) : Nat := bitsOf (rgnAttr s i) 10 6

/-- The realm is open (RGN_REALM_OPEN). -/
def realmOpen (s : State) (r : Nat) : Bool :=
  if r < 32 then getBit s 0x360400 r else getBit s 0x360404 (r - 32)

/-- Check 3 of Table 11.4: the request's realm and privilege against region `i`. -/
def realmOk (s : State) (i : Nat) (r : Req) : Bool :=
  (bitOf (rgnAttr s i) 6 || r.realm.toNat == rgnRealm s i) && decide (bitsOf (rgnAttr s i) 8 2 ≤ r.priv.toNat)

/-- The outcome of a region check. -/
inductive RegionCheck where
  | pass (region : Nat)
  | refuse (err : BitVec 4) (sealBit : Option Nat) (region : Nat) (walked : Bool)
  deriving DecidableEq, Repr

/-- The checks of Table 11.4 from check 3 on, for a line request of source `src` in region `i`. -/
def sealChecks (s : State) (src : BitVec 5) (r : Req) (i : Nat) (walked : Bool) : RegionCheck :=
  if !realmOk s i r then .refuse 3 none i walked
  else if rgnSealed s i && (src == 24 || src == 25 || src == 26) then
    .refuse 3 (if src == 24 then some 3 else none) i walked
  else if rgnSealed s i && (!(s.pins.keys[0]).isSome || !realmOpen s (rgnRealm s i)) then
    .refuse 3 (some 2) i walked
  else .pass i

/-- The region check of a line request (R285, Table 11.4), and of a walk (Table 8.2, checks 1 to 3). -/
def regionCheck (s : State) (src : BitVec 5) (r : Req) : RegionCheck :=
  match regionOf s r.addr.toNat with
  | none => .refuse (if r.walk then 4 else 7) none 0 false
  | some i =>
    if rgnBacking s i ≠ 1 then .refuse (if r.walk then 4 else 7) none i false
    else if r.walk && !bitOf (rgnAttr s i) 7 then .refuse 4 none i true
    else sealChecks s src r i r.walk

/-- RGN_SEAL_ERR bit `k` with its capture (Table 11.13). -/
def raiseSeal (s : State) (k : Nat) (src : BitVec 5) (slice region realm : Nat) (pa : Nat) : State :=
  let first := getReg s 0x360410 == 0
  let s := setBit s 0x360410 k true
  if first then
    let s := setReg s 0x360414 (BitVec.ofNat 32 (realm % 64 + 2 ^ 6 * src.toNat + 2 ^ 11 * (slice % 8)
      + 2 ^ 14 * (k % 4) + 2 ^ 16 * (region % 64) + 2 ^ 31))
    let s := setReg s 0x360418 (BitVec.ofNat 32 (pa / 64 * 64 % 2 ^ 32))
    setReg s 0x36041C (BitVec.ofNat 32 (pa / 2 ^ 32 % 2 ^ 16))
  else s

end Sys2Proof.Machine
end

