-- ==== Sys2Proof/Machine/Flits.lean ====
section
/-! DEFINITION. The port flits as bits (Tables 4.2 to 4.5, R76, R77): every message encoded for the outbound pins, every
inbound flit decoded, and word parity. -/

namespace Sys2Proof.Machine

-- parity (R76)

/-- The number of ones of a word is odd. -/
def oddOnes (w : BitVec 32) : Bool := (List.range 32).foldl (fun b i => b != w.getLsbD i) false

/-- Word `i` of a bit vector of `n` bits. -/
def wordOf {n : Nat} (f : BitVec n) (i : Nat) : BitVec 32 := f.extractLsb' (32 * i) 32

/-- PAR of a 128-bit flit whose bits [123:0] are `b`. -/
def par128 (b : BitVec 124) : BitVec 4 :=
  let f : BitVec 128 := b.setWidth 128
  BitVec.ofNat 4 ((List.range 4).foldl (fun a i => if oddOnes (wordOf f i) then a + 2 ^ i else a) 0)

/-- A 128-bit flit with its parity. -/
def withPar (b : BitVec 124) : BitVec 128 := par128 b ++ b

/-- The parity of a 128-bit flit is even in every word. -/
def parityOk (f : BitVec 128) : Bool := f.extractLsb' 124 4 == par128 (f.extractLsb' 0 124)

/-- PAR of a `DAT` flit: eight data words, then three header words with [95:85] zero. -/
def parDat (d : BitVec 256) (h : BitVec 85) : BitVec 11 :=
  let hh : BitVec 96 := h.setWidth 96
  BitVec.ofNat 11 ((List.range 11).foldl (fun a i =>
    if (if i < 8 then oddOnes (wordOf d i) else oddOnes (wordOf hh (i - 8))) then a + 2 ^ i else a) 0)

/-- The parity of a `DAT` flit is even in every word. -/
def parityDatOk (f : BitVec 352) : Bool := f.extractLsb' 341 11 == parDat (f.extractLsb' 0 256) (f.extractLsb' 256 85)

-- `REQ` (Table 4.2)

/-- Bits [123:0] of a `REQ` flit. -/
def reqBits (r : Req) : BitVec 124 :=
  (0 : BitVec 24) ++ r.xtag ++ (0 : BitVec 1) ++ r.size ++ r.addr ++ (0 : BitVec 1) ++ BitVec.ofBool r.smp ++
    BitVec.ofBool r.crd ++ BitVec.ofBool r.walk ++ r.priv ++ r.realm ++ r.prio ++ r.txn ++ r.subop ++ r.opcode

/-- The fields of a `REQ` flit; reserved bits are ignored (R77). -/
def reqOf (f : BitVec 128) : Req :=
  { opcode := f.extractLsb' 0 6, subop := f.extractLsb' 6 4, txn := f.extractLsb' 10 8, prio := f.extractLsb' 18 2,
    realm := f.extractLsb' 20 6, priv := f.extractLsb' 26 2, walk := f.getLsbD 28, crd := f.getLsbD 29,
    smp := f.getLsbD 30, addr := f.extractLsb' 32 48, size := f.extractLsb' 80 3, xtag := f.extractLsb' 84 16 }

-- `SNP` (Table 4.3)

/-- Bits [123:0] of a `SNP` flit. -/
def snpBits (s : Snp) : BitVec 124 :=
  (0 : BitVec 12) ++ s.xtag ++ s.addr ++ (0 : BitVec 10) ++ s.fwdState ++ s.fwdTxn ++ s.fwdTo ++ BitVec.ofBool s.fwd ++
    s.prio ++ s.entry ++ s.home ++ s.subop ++ s.opcode

/-- The fields of a `SNP` flit. -/
def snpOf (f : BitVec 128) : Snp :=
  { opcode := f.extractLsb' 0 4, subop := f.extractLsb' 4 4, home := f.extractLsb' 8 3, entry := f.extractLsb' 11 8,
    prio := f.extractLsb' 19 2, fwd := f.getLsbD 21, fwdTo := f.extractLsb' 22 5, fwdTxn := f.extractLsb' 27 8,
    fwdState := f.extractLsb' 35 3, addr := f.extractLsb' 48 48, xtag := f.extractLsb' 96 16 }

-- `RSP` (Table 4.4)

/-- Bits [123:0] of a `RSP` flit. -/
def rspBits (r : Rsp) : BitVec 124 :=
  (0 : BitVec 89) ++ BitVec.ofBool r.cls ++ r.snpdata ++ r.state ++ r.err ++ r.prio ++ r.entry ++ r.home ++ r.txn ++ r.opcode

/-- The fields of a `RSP` flit. -/
def rspOf (f : BitVec 128) : Rsp :=
  { opcode := f.extractLsb' 0 4, txn := f.extractLsb' 4 8, home := f.extractLsb' 12 3, entry := f.extractLsb' 15 8,
    prio := f.extractLsb' 23 2, err := f.extractLsb' 25 4, state := f.extractLsb' 29 3, snpdata := f.extractLsb' 32 2,
    cls := f.getLsbD 34 }

-- `DAT` (Table 4.5)

/-- Header bits [84:0] of a `DAT` flit. -/
def datHdr (d : Dat) : BitVec 85 :=
  (0 : BitVec 19) ++ d.be ++ d.prio ++ d.state ++ d.dst ++ BitVec.ofBool d.snpwb ++ d.entry ++ d.txn ++ d.home ++
    BitVec.ofBool d.poison ++ BitVec.ofBool d.half ++ d.kind

/-- A `DAT` flit. -/
def datBits (d : Dat) : BitVec 352 := parDat d.data (datHdr d) ++ datHdr d ++ d.data

/-- The fields of a `DAT` flit. -/
def datOf (f : BitVec 352) : Dat :=
  { kind := f.extractLsb' 256 2, half := f.getLsbD 258, poison := f.getLsbD 259, home := f.extractLsb' 260 3,
    txn := f.extractLsb' 263 8, entry := f.extractLsb' 271 8, snpwb := f.getLsbD 279, dst := f.extractLsb' 280 5,
    state := f.extractLsb' 285 3, prio := f.extractLsb' 288 2, be := f.extractLsb' 290 32, data := f.extractLsb' 0 256 }

/-- The flit of a message on its outbound channel, 128-bit flits in the low bits. -/
def flitOf (m : Msg) (second : Bool) : BitVec 352 :=
  match m with
  | .req r => (withPar (reqBits r)).setWidth 352
  | .snp s => (withPar (snpBits s)).setWidth 352
  | .rsp r => (withPar (rspBits r)).setWidth 352
  | .dat d => datBits d
  | .datPair a b => datBits (if second then b else a)
  | .syncDone _ _ => 0
  | .mirror _ _ _ _ _ => 0
  | .watched _ => 0

end Sys2Proof.Machine
end

