-- ==== Sys2Proof/Machine/Spine.lean ====
section
/-! DEFINITION. The spine (chapter 9): destinations, routing, queues and credits, and putting a packet into
the network. -/

namespace Sys2Proof.Machine

/-- The router of slice `n` (Table 1.2). -/
def sliceRouter (n : Nat) : Nat :=
  match n with
  | 0 => 7
  | 1 => 13
  | 2 => 8
  | 3 => 14
  | 4 => 9
  | 5 => 15
  | 6 => 10
  | _ => 16

/-- The slice attached to router `r`. -/
def routerSlice (r : Nat) : Option Nat := (List.range 8).find? (fun n => sliceRouter n == r)

/-- The unit code `u` names a unit present at router `r` (Table 9.1). -/
def unitPresent (r u : Nat) : Bool :=
  match u with
  | 0 => decide (r < 24)
  | 1 => (routerSlice r).isSome
  | 2 => r == 0
  | 3 => r == 23
  | 4 => r == 23
  | 5 => r == 23
  | _ => false

/-- CHAN of a packet: 0 `REQ`, 1 `SNP`, 2 `RSP`, 3 `DAT`. -/
def msgChan (m : Msg) : Nat :=
  match m with
  | .req _ => 0
  | .snp _ => 1
  | .rsp _ => 2
  | .syncDone _ _ => 2
  | .dat _ => 3
  | .datPair _ _ => 3
  | .mirror _ _ _ _ _ => 3
  | .watched _ => 3

/-- Flits of a packet (R221). -/
def msgFlits (m : Msg) : Nat :=
  match m with
  | .datPair _ _ => 2
  | .mirror _ _ _ _ _ => 2
  | .watched _ => 2
  | _ => 1

/-- The TXN of a message, 0 where it has none. -/
def msgTxn (m : Msg) : BitVec 8 :=
  match m with
  | .req r => r.txn
  | .rsp r => r.txn
  | .dat d => d.txn
  | .datPair d _ => d.txn
  | _ => 0

-- the flits of a packet (R219, R220, R231)

/-- HOME of a message, 0 where it has none. -/
def msgHome (m : Msg) : Nat :=
  match m with
  | .snp x => x.home.toNat
  | .rsp r => r.home.toNat
  | .dat d => d.home.toNat
  | .datPair d _ => d.home.toNat
  | _ => 0

/-- ENTRY of a message, 0 where it has none. -/
def msgEntry (m : Msg) : Nat :=
  match m with
  | .snp x => x.entry.toNat
  | .rsp r => r.entry.toNat
  | .dat d => d.entry.toNat
  | .datPair d _ => d.entry.toNat
  | _ => 0

/-- Bits [63:0] of the routing header (Table 9.2). -/
def headerWord (p : Packet) : BitVec 64 :=
  BitVec.ofNat 64 (p.dstX.toNat + 2 ^ 3 * p.dstY.toNat + 2 ^ 5 * p.dstUnit.toNat + 2 ^ 8 * p.src.toNat
    + 2 ^ 13 * msgChan p.msg + 2 ^ 15 * b2n p.dl + 2 ^ 16 * p.prio.toNat + 2 ^ 18 * (msgFlits p.msg - 1)
    + 2 ^ 19 * (msgTxn p.msg).toNat + 2 ^ 27 * msgHome p.msg + 2 ^ 30 * msgEntry p.msg + 2 ^ 38 * p.mark.toNat
    + 2 ^ 40 * p.series.toNat + 2 ^ 56 * b2n p.smp + 2 ^ 57 * b2n p.redir + 2 ^ 58 * p.next.toNat)

/-- The routing header of a flit as it stands: CHECK goes with bits [63:0], and is recomputed whenever a router changes them
(R220). -/
def spineHeader (p : Packet) : BitVec 72 := Config.headerCheck (headerWord p) ++ headerWord p

/-- The 352-bit payload of a flit (R219): bits [123:0] of the port flit, or the data with the header bits of `DAT`, and 0
elsewhere. `second`: the second flit of the packet. Three payloads are not stated (DESIGN CHOICE, assumption 80): that of the
completion signal of an `XlatSync` is its source and its take-up tick; of a mirrored line each flit holds its half, with the
address, the poison and the lost mark above it; of the watched line each holds its half. -/
def spinePayload (m : Msg) (second : Bool) : BitVec 352 :=
  match m with
  | .req r => (reqBits r).setWidth 352
  | .snp x => (snpBits x).setWidth 352
  | .rsp r => (rspBits r).setWidth 352
  | .syncDone src tick => (BitVec.ofNat 64 tick ++ src).setWidth 352
  | .dat d => (datHdr d ++ d.data).setWidth 352
  | .datPair a b => (datHdr (if second then b else a) ++ (if second then b else a).data).setWidth 352
  | .mirror _ a img _ _ => (BitVec.ofBool img.lost ++ img.poison ++ a ++ lineHalf img.data second).setWidth 352
  | .watched d => (lineHalf d second).setWidth 352

/-- One bit of the cyclic code x^16 + x^12 + x^5 + 1. -/
def crcBit (c : BitVec 16) (b : Bool) : BitVec 16 := (c <<< 1) ^^^ (if c.getLsbD 15 != b then 0x1021 else 0)

/-- The CRC of a flit: header bits [56:8] and the payload, each from its lowest bit, from 0xFFFF (R231). -/
def flitCrc (p : Packet) (second : Bool) : BitVec 16 :=
  let h := headerWord p
  let c := (List.range 49).foldl (fun c i => crcBit c (h.getLsbD (8 + i))) 0xFFFF
  let d := spinePayload p.msg second
  (List.range 352).foldl (fun c i => crcBit c (d.getLsbD i)) c

/-- Depth of an input queue in flits (Table 9.3). -/
def queueDepth (ch : Nat) (dl : Bool) : Nat :=
  if ch = 3 then (if dl then 4 else 8) else if dl then 2 else 4

/-- The router a packet is addressed to: 6 DST_Y + DST_X. -/
def dstRouter (p : Packet) : Nat := 6 * p.dstY.toNat + p.dstX.toNat

/-- The flits of a packet that are still there. -/
def flitsLeft (f : Flight) : Nat := msgFlits f.pkt.msg - (b2n (f.gone.getLsbD 0) + b2n (f.gone.getLsbD 1))

/-- Flits queued at input `i` of router `r` on channel `ch` and VC. -/
def queued (s : State) (r i ch : Nat) (dl : Bool) : Nat :=
  ((s.spine.queued.filter (fun f => f.router == r && f.input == i && msgChan f.pkt.msg == ch && f.pkt.dl == dl)).map
    flitsLeft).sum

/-- Flits on their way over a link to input `i` of router `r`: their credits are taken (R222). -/
def incoming (s : State) (r i ch : Nat) (dl : Bool) : Nat :=
  ((s.spine.arrive.filter (fun f => f.router == r && f.input == i && msgChan f.pkt.msg == ch && f.pkt.dl == dl)).map
    flitsLeft).sum

/-- Credits free for input `i` of router `r`. -/
def creditsFree (s : State) (r i ch : Nat) (dl : Bool) : Nat :=
  queueDepth ch dl - (queued s r i ch dl + incoming s r i ch dl)

/-- The router beyond output `o` of router `r`, and the input a packet enters there: outputs and inputs
are 0 north, 1 east, 2 south, 3 west; row 0 is north. -/
def neighbour (r o : Nat) : Option (Nat × Nat) :=
  let x := r % 6
  let y := r / 6
  match o with
  | 0 => if 0 < y then some (r - 6, 2) else none
  | 1 => if x < 5 then some (r + 1, 3) else none
  | 2 => if y < 3 then some (r + 6, 0) else none
  | 3 => if 0 < x then some (r - 1, 1) else none
  | _ => none

/-- The outputs that the routing permits at router `r` (R224); without ADAPT_EN column first, then row (R225). -/
def permitted (s : State) (r : Nat) (p : Packet) : List Nat :=
  let x := r % 6
  let y := r / 6
  let dx := p.dstX.toNat
  let dy := p.dstY.toNat
  if dx < x then [3]
  else if dx = x ∧ dy = y then (if p.dstUnit = 0 then [4] else [5])
  else if dx = x then (if dy < y then [0] else [2])
  else if dy = y ∨ !getBit s 0x300000 1 then [1]
  else [if dy < y then 0 else 2, 1]

/-- The bypass is free for the packet at input `i` of the next router `r` (R223): the queue is empty, and an output that it
may take there has no other packet waiting (DEDUCED, assumption 18: which of two it will take is chosen later). -/
def bypassFree (s : State) (r i : Nat) (p : Packet) : Bool :=
  getBit s 0x300000 0 && queued s r i (msgChan p.msg) p.dl == 0
    && (permitted s r p).any (fun o => !s.spine.queued.any (fun g => g.router == r && g.out == o))

/-- How good a candidate output is (R225): bypass free at the next router, then credits, then north or
south before east. Larger is better. -/
def outScore (s : State) (r : Nat) (p : Packet) (o : Nat) : Nat :=
  match neighbour r o with
  | none => 0
  | some (r', i) => b2n (bypassFree s r' i p) * 64 + creditsFree s r' i (msgChan p.msg) p.dl * 2 + b2n (o != 1)

/-- The output at router `r` for packet `p` (R224, R225). -/
def chooseOut (s : State) (r : Nat) (p : Packet) : Nat :=
  let cand := permitted s r p
  cand.foldl (fun best o => if outScore s r p best < outScore s r p o then o else best) (cand.headD 1)

/-- The packet's NEXT set for router `r`. -/
def routed (s : State) (r : Nat) (p : Packet) : Packet := { p with next := BitVec.ofNat 3 (chooseOut s r p) }

/-- A packet on its way to an input of a router, its flits as they stand. -/
def onward (s : State) (r i : Nat) (f : Flight) : State :=
  let p := routed s r f.pkt
  let f := { f with pkt := p, router := r, input := i, out := p.next.toNat, since := s.tick }
  { s with spine := { s.spine with arrive := s.spine.arrive ++ [f] } }

/-- A unit sends a packet to input `i` of router `r`: it generates the CRC of each flit (R231), and the packet waits in the
unit until the queue of its VC has room (R222). -/
def launch (s : State) (r i : Nat) (p : Packet) : State :=
  onward s r i { pkt := p, router := r, input := i, out := 0, crc := flitCrc p false,
                 crc2 := if msgFlits p.msg = 2 then flitCrc p true else 0, since := 0, gone := 0, cred := none, dead := false }

/-- A packet from a unit's message to router `r`, unit `u`. -/
def mkPacket (r u : Nat) (src : BitVec 5) (dl : Bool) (prio : BitVec 2) (m : Msg) : Packet :=
  { dstX := BitVec.ofNat 3 (r % 6), dstY := BitVec.ofNat 2 (r / 6), dstUnit := BitVec.ofNat 3 u, src := src,
    dl := dl, prio := prio, mark := 0, series := 0, reqNo := 0, smp := false, redir := false, next := 0, msg := m }

/-- Router and unit of a requester by source ID (Table 9.1): 24 twin port, 25 sequencer, 26 dump writer. An ID that names
no requester becomes a reserved unit code. -/
def srcDest (src : BitVec 5) : Nat × Nat :=
  if src.toNat < 24 then (src.toNat, 0)
  else if src = 24 then (0, 2) else if src = 25 then (23, 3) else if src = 26 then (23, 4)
  else (23, 7)

/-- Slice `n` sends message `m` to source `dst`. -/
def sliceSend (s : State) (n : Nat) (dst : BitVec 5) (dl : Bool) (prio : BitVec 2) (m : Msg) : State :=
  let (r, u) := srcDest dst
  launch s (sliceRouter n) 5 (mkPacket r u 27 dl prio m)

/-- Slice `n` sends to slice `k` (R218: the completion of an `XlatSync`). -/
def sliceToSlice (s : State) (n k : Nat) (m : Msg) : State :=
  launch s (sliceRouter n) 5 (mkPacket (sliceRouter k) 1 27 false 0 m)

/-- Packets of source `src` in the spine (R192, R239). -/
def inFlight (s : State) (src : Nat) : Nat :=
  ((s.spine.arrive ++ s.spine.queued).filter (fun f => f.pkt.src.toNat == src)).length

end Sys2Proof.Machine
end

