-- ==== Sys2Proof/Machine/Faults.lean ====
section
/-! DEFINITION. The fault units (chapter 15): classification, the Safe reaction, the blotter, and the levels of
`FAULT_N`, `SAFE_ACT` and the interrupt lines. -/

namespace Sys2Proof.Machine

/-- No count and no window. -/
def noCount : Nat → FltCount := fun _ => ⟨0, 0⟩

/-- The count of source `src` of unit `u`. -/
def fltCount (s : State) (u src : Nat) : FltCount := cellsGet noCount s.faults.counts (u * 32 + src)

/-- Replace the count of source `src` of unit `u`. -/
def setCount (s : State) (u src : Nat) (c : FltCount) : State :=
  { s with faults := { s.faults with counts := cellsSet noCount s.faults.counts (u * 32 + src) c } }

/-- FLT_CLASS.THRESH; 0 acts as 1. -/
def fltThresh (s : State) (u : Nat) : Nat := max 1 (getFld s (fltBase u + 0x10) 0 4)

/-- FLT_CLASS.WINDOW_MS in ticks; 0 acts as 1, above 10,000 as 10,000. -/
def fltWindow (s : State) (u : Nat) : Nat :=
  max 1 (min 10000 (getFld s (fltBase u + 0x10) 4 14)) * 1000000

/-- Source `src` of unit `u` is in fault. -/
def inFault (s : State) (u src : Nat) : Bool := getBit s (fltBase u + 4) src

/-- Unit `u` holds a fault (FLT_SUMMARY.FAULT). -/
def unitFault (s : State) (u : Nat) : Bool := getReg s (fltBase u + 4) != 0

/-- Any source of any unit is in fault. -/
def anyFault (s : State) : Bool := (List.range 27).any (unitFault s)

/-- A terminal source of unit `u` is in fault. -/
def unitTerminal (s : State) (u : Nat) : Bool :=
  (List.range 32).any (fun i => srcClass u i == .terminal && inFault s u i)

/-- A terminal source of any unit is in fault (FLT_SUMMARY.TERMINAL). -/
def anyTerminal (s : State) : Bool := (List.range 27).any (unitTerminal s)

/-- `FAULT_N` as the running block drives it: low while any source is in fault, until step 5 of Table 2.4 after a reset,
and after a calibration stop (R376). -/
def faultNDriven (s : State) : Bool := (s.pins.live || s.seq.exit8) && !anyFault s && !getBit s 0x90 1

/-- `FAULT_N`: low in reset; its last driven level while `VDD_CORE` is absent and in M8 (R23, R376). -/
def faultN (s : State) : Bool :=
  if s.pins.porstLow || s.pins.brstLow then false
  else if !s.pins.coreOn || curMode s == 8 then s.pins.heldFaultN else faultNDriven s

/-- `SAFE_ACT`: high exactly while GLB_MODE.CUR is M10 (R53); it keeps its level while `VDD_CORE` is absent (R23). -/
def safeAct (s : State) : Bool :=
  if s.pins.porstLow || s.pins.brstLow then false
  else if s.pins.coreOn then inSafe s else s.pins.heldSafe

/-- The causes of `IRQ_FLT_TWN` beside its fault unit: R348 and Table 14.11. -/
def twinIrqCause (s : State) : Bool :=
  let bs := getReg s 0x310044
  let ie := getReg s 0x310048
  (bitOf bs 2 && bitOf ie 0) || (bitOf bs 3 && bitOf ie 1) || (bitOf bs 4 && bitOf ie 2)
    || getReg s 0x310094 &&& getReg s 0x310098 != 0

/-- The interrupt line of fault unit `u` (R377). -/
def irqFault (s : State) (u : Nat) : Bool :=
  s.pins.live && (getReg s (fltBase u) &&& getReg s (fltBase u + 8) != 0 || unitFault s u
    || (u == 25 && twinIrqCause s))

/-- `IRQ_CMD` (R446). -/
def irqCmd (s : State) : Bool := s.pins.live && getReg s 0x35000C &&& getReg s 0x350010 != 0

-- the Safe reaction

/-- `CompErr` with code `err` to a port's own TXN, from the bridge (Table 4.10: HOME 0). -/
def bridgeErr (err : BitVec 4) (txn : BitVec 8) (prio : BitVec 2) : Msg :=
  .rsp { opcode := 7, txn := txn, home := 0, entry := 0, prio := prio, err := err, state := 0, snpdata := 0,
         cls := false }

/-- A message joins the egress of port `n`. -/
def toEgress (s : State) (n : Nat) (m : Msg) (dl : Bool) (prio : BitVec 2) (src : BitVec 5) : State :=
  let p := port s n
  let e : EgMsg := ⟨p.egNext, m, dl, prio, src, s.tick, 0, false⟩
  setPort s n { p with egress := p.egress ++ [e], egNext := p.egNext + 1 }

/-- The port stops: fenced, with every transaction, egress message, owed data and record gone (R106). The spine delivers the
packets on their way to it, and the bridge discards them. -/
def fenceBare (s : State) (n : Nat) : State :=
  let p := port s n
  let late := mapIf (fun (f : Flight) => dstRouter f.pkt == n && f.pkt.dstUnit == 0) (fun f => { f with dead := true })
  let s := { s with ports := s.ports.map (fun q => { q with txns := q.txns.map (fun t => { t with before := t.before ||| bit24 n }) }) }
  let s := setPort s n { p with fenced := true, txns := [], owed := [], acks := [], snps := [], egress := [], arb := freshArb,
                                egDue := [] }
  let s := { s with spine := { s.spine with arrive := late s.spine.arrive, queued := late s.spine.queued } }
  setBit s (portBase n + 0x10) 0 true

/-- Safe at a bridge: fenced, and `CompErr` `SAFE` for each TXN still busy (R380, Table 15.8). -/
def safePort (s : State) (n : Nat) : State :=
  let busy := (port s n).txns.filter (fun t => !t.ended)
  let s := fenceBare s n
  let s := setPort s n { port s n with txns := busy.map (fun t => { t with held := false, want := 0, ended := false }) }
  let s := { s with obs := { s.obs with
    samples := s.obs.samples.filter (fun x => x.unit != n || (x.park.isNone && busy.any (fun t => t.txn == x.txn))) } }
  busy.foldl (fun s t => toEgress s n (bridgeErr 6 t.txn t.req.prio) t.dl t.req.prio n) s

/-- Watches of source `src` opened at or before `tick` close (R214). -/
def closeWatches (src : BitVec 5) (tick : Nat) (x : Slice) : Slice :=
  { x with watches := x.watches.filter (fun w => !(w.src == src && decide (w.opened ≤ tick))) }

/-- Requests of an internal requester that slice `x` holds: taken up, refused and waiting for a grant, or not yet taken up. -/
def internalReqs (x : Slice) (src : BitVec 5) : List Req :=
  (x.entries.filter (fun e => e.src == src)).map (·.req) ++ (x.retry.filter (fun r => r.src == src)).map (·.req)
    ++ x.inbox.filterMap (fun i => match i.pkt.msg with
        | .req r => if i.pkt.src = src then some r else none
        | _ => none)

/-- The single holder of EX, or the owner of OW: whose death loses the line (Table 7.8). -/
def ownerOf (v : FEntry) : Option Nat :=
  match v.summary with
  | .ex => (bits24 v.presence).head?
  | .ow => some v.fwd.toNat
  | _ => none

/-- The agent with which Safe loses the line of a victim slot: the one it was already lost with, the recorded owner, or one
whose announced data has not come (Table 7.8). -/
def safeLoser (v : Victim) : Option (BitVec 5) :=
  (v.coll.lost.toList ++ (ownerOf v.entry).toList.map (BitVec.ofNat 5) ++ v.coll.wb.map (·.1)
    ++ (v.coll.marks.filter (·.2)).map (·.1) ++ (v.notices.filter (fun t => t.dirty && !t.queued)).map (·.src)).head?

/-- Safe at a slice: open transactions with their samples, waiting entries, reservations and records are abandoned, and their
entries return to their pools (Table 15.8). Victim and reclamation slots have no answer outstanding, as every agent that
could owe one is declared dead (R382); the line of a victim whose dirty holder has been declared dead is lost (Table 7.8). -/
def safeSlice (s : State) (n : Nat) : State :=
  let x := slice s n
  let twin := internalReqs x 24
  let dump := internalReqs x 26
  let msg := fun (r : Req) => (⟨mkPacket 0 2 27 false r.prio (bridgeErr 6 r.txn r.prio), false, s.tick⟩ : InMsg)
  let syncs := x.xslots.filter (·.sync)
  let s := (s.obs.samples.filter (fun t => t.unit == 32 + n)).foldl closeSlot s
  let s := setSlice s n { x with inbox := [], entries := [], retry := [], lanes := [], xslots := [], holds := [],
                                 victims := x.victims.map (fun v => { v with
                                   coll := { v.coll with out := 0, marks := [], wb := [], timer := none, lost := safeLoser v },
                                   notices := [] }),
                                 reclaims := x.reclaims.map (fun k => { k with
                                   coll := { k.coll with out := 0, marks := [], wb := [], timer := none } }) }
  let s := { s with twin := { s.twin with inbox := s.twin.inbox ++ twin.map msg },
                    obs := { s.obs with dumpInbox := s.obs.dumpInbox ++ dump.map msg } }
  syncs.foldl (fun s t => forEach 8 s (fun s k => setSlice s k (closeWatches t.src t.taken (slice s k)))) s

/-- Agents that a Safe entry declares dead: enabled caching ports (R382). -/
def cachingAgents (s : State) : List Nat :=
  (List.range 24).filter (fun n => portEnabled s n && (port s n).caching)

/-- The sets a reclamation visits: all of an array, and the victim slots with the last of them. -/
def scanLength : Nat := 16384

/-- Agent `a` is marked dead and its reclamation starts in every powered slice, or joins a running scan at
its position (R186, R187). -/
def startReclaim (s : State) (a : Nat) : State :=
  let s := setPort s a { port s a with dead := true }
  let s := setBit s 0x300300 a true
  forEach 8 s (fun s k =>
    let x := slice s k
    if slicePwr s k then
      setSlice s k { x with scan := x.scan.filter (fun e => e.1.toNat != a) ++ [(BitVec.ofNat 5 a, scanLength)] }
    else s)

/-- The read serves a tracker entry. -/
def isEntryRead (u : ReadFor) : Bool :=
  match u with
  | .entry _ _ => true
  | _ => false

/-- The reservations of the Deadline class end with the transactions that held them. A channel leaves self-refresh, so
that it can drain its queue (Table 15.8). -/
def safeChan (s : State) (c : Nat) : State :=
  let s := if chanActive s c then wakeChan s c else s
  let x := chan s c
  setChan s c { x with pending := 0, rdq := x.rdq.filter (fun r => !isEntryRead r.use) }

/-- The mode a Drain was entered from, for FLT_SAFE_CAUSE.DRAIN_FROM (R391). -/
def drainFrom (s : State) : Nat :=
  match s.seq.trans with
  | some t => if curMode s = 7 then t.source.toNat else curMode s
  | none => curMode s

/-- An entry move of R158 under way runs to its end in M10 (R391), and so do the fence and the power switch that follow it:
the work of the command is kept, its reply is sent now. Phase 3 of `ACCORD_CFG` (0x39) and `SLICE_POWER` (0x38) is the move,
4 the drain of a slice, 5 the wait for its domain. -/
def moveKept (s : State) (r : RunCmd) : Bool :=
  let op := bitsOf r.hdr 0 8
  (op == 0x39 && r.phase == 3)
    || (op == 0x38 && (r.phase == 3 || r.phase == 5 || (r.phase == 4 && (slice s r.arg).away)))

/-- Keep the move of the running command, where it is one to keep. -/
def keepMove (s : State) : State :=
  match s.seq.run with
  | some r => if moveKept s r then { s with seq := { s.seq with moveLeft := some { r with dropReply := true } } } else s
  | none => s

/-- An accord or power command whose entry move has not started resumes admission and take-up and changes nothing (R453):
every slice is open, none is leaving, and the successor of a slice in service is itself. -/
def undoPower (s : State) : State :=
  forEach 8 s (fun s n =>
    let s := setSlice s n { slice s n with closed := false, held := false, leaving := false }
    if slicePwr s n && !sliceFenced s n then setFld s 0x30000C (4 * n) 3 n else s)

/-- The Safe reaction (R378, R380 to R382, Table 15.7): the cause is captured, CUR becomes M10, the running
command ends with `HW_FAULT`, every port reaches the safe state, every slice abandons its transactions and
every caching agent is reclaimed. -/
def safeEntry (s : State) (u src kind : Nat) (inj : Bool) : State :=
  let cur := curMode s
  if cur = 0 ∨ cur = 8 ∨ cur = 10 then s
  else
    let s := setReg s 0x320004 (BitVec.ofNat 32 (u + 2 ^ 5 * src + 2 ^ 10 * kind + 2 ^ 12 * cur
      + 2 ^ 16 * b2n inj + 2 ^ 17 + 2 ^ 18 * drainFrom s))
    let s := setReg (setReg s 0x320008 (BitVec.ofNat 32 (s.tick % 2 ^ 32))) 0x32000C (BitVec.ofNat 32 (s.tick / 2 ^ 32))
    let s := { s with aon := { s.aon with safe := min (s.aon.safe + 1) (2 ^ 32 - 1) } }
    let adv := s.pins.lcAdvReq
    let cut := cur == 11 && !adv
    let s := keepMove s
    let s := finishCmd (if s.seq.moveLeft.isSome then s else undoPower s) stHwFault []
    let s := enterMode s 10
    let s := { s with seq := { s.seq with trans := none, advHeld := adv, wipeCut := cut },
                      faults := { s.faults with quietStart := s.tick } }
    let s := wakePme s
    let s := (cachingAgents s).foldl (fun s a => if (port s a).dead then s else startReclaim s a) s
    let s := forEach 24 s (fun s n => if portEnabled s n then safePort s n else s)
    let s := forEach 8 s safeSlice
    forEach 16 s safeChan

-- classification

/-- Source `src` of unit `u` enters fault: FLT_FAULT, and the capture of FLT_INFO and FLT_TIME (R161). -/
def enterFault (s : State) (u src : Nat) (inj : Bool) : State :=
  let b := fltBase u
  let first := getReg s (b + 4) == 0
  let s := setBit s (b + 4) src true
  if first then
    let s := setReg s (b + 0x14) (BitVec.ofNat 32 (src + 2 ^ 5 * b2n inj + 2 ^ 31))
    setReg (setReg s (b + 0x18) (BitVec.ofNat 32 (s.tick % 2 ^ 32))) (b + 0x1C) (BitVec.ofNat 32 (s.tick / 2 ^ 32))
  else s

/-- An event sets FLT_EVT and counts in FLT_EVT_CNT. -/
def countEvent (s : State) (u src : Nat) : State := satAdd (setBit s (fltBase u) src true) (fltBase u + 0x20) 0 16 1

/-- In M10 an event at a source in fault, or one that puts it there, restarts the quiet period (R384). -/
def restartQuiet (s : State) : State :=
  if inSafe s then { s with faults := { s.faults with quietStart := s.tick } } else s

/-- A Counted source counts an event, and enters fault at THRESH (R374). -/
def countedEvent (s : State) (u src : Nat) (inj : Bool) : State :=
  if inFault s u src then restartQuiet s
  else
    let c := fltCount s u src
    let c := if c.count = 0 then ⟨1, s.tick + fltWindow s u⟩ else { c with count := c.count + 1 }
    let s := setCount s u src c
    if fltThresh s u ≤ c.count then
      let s := restartQuiet (enterFault s u src inj)
      if getBit s (fltBase u + 0xC) src then safeEntry s u src 0 inj else s
    else s

/-- KIND of FLT_SAFE_CAUSE for source `src` of unit `u`. -/
def safeKind (u src : Nat) : Nat :=
  if src = 31 then 3 else if srcClass u src = .terminal then 2 else if srcClass u src = .immediate then 1 else 0

/-- An event at source `src` of fault unit `u` (R374, Table 15.1). A reserved source takes none (R372). -/
def eventAt (s : State) (u src : Nat) (inj : Bool) : State :=
  match srcClass u src with
  | .reserved => s
  | .counted => countedEvent (countEvent s u src) u src inj
  | .immediate => safeEntry (restartQuiet (enterFault (countEvent s u src) u src inj)) u src (safeKind u src) inj
  | .terminal => safeEntry (restartQuiet (enterFault (countEvent s u src) u src inj)) u src (safeKind u src) inj

/-- An event reported by the block's own checkers and engines. -/
def report (s : State) (u src : Nat) : State := eventAt s u src false

-- the blotter

/-- The blotter is armed for checker `k`, instance `i`. -/
def blotArmed (s : State) (k i : Nat) : Bool :=
  getBit s 0x320018 0 && getFld s 0x320018 1 6 == k && getFld s 0x320018 7 5 == i

/-- The mask a check of checker `k`, instance `i` receives (R387). -/
def blotMask (s : State) (k i : Nat) : BitVec 64 := if blotArmed s k i then s.faults.blotMask else 0

/-- One check made under the arming: HIT set, REMAIN counted down, disarmed at 0 (R387, R388). -/
def blotUse (s : State) (k i : Nat) : State :=
  if blotArmed s k i then
    let r := getFld s 0x320018 12 8
    let s := setBit s 0x320018 20 true
    let s := setFld s 0x320018 12 8 (r - 1)
    if r ≤ 1 then setBit s 0x320018 0 false else s
  else s

/-- The event of an injected verdict: under SUPPRESS it sets FLT_EVT and the WOULD bits only (R389). A source already in
fault would raise no second fault. -/
def injectedEvent (s : State) (u src : Nat) : State :=
  if s.faults.blotSuppress then
    let would := match srcClass u src with
      | .counted => !inFault s u src && decide (fltThresh s u ≤ (fltCount s u src).count + 1)
      | .reserved => false
      | _ => !inFault s u src
    let safe := match srcClass u src with
      | .counted => would && getBit s (fltBase u + 0xC) src
      | .reserved => false
      | _ => true
    let s := setBit s (fltBase u) src true
    let s := if would then setBit s 0x320018 21 true else s
    if safe then setBit s 0x320018 22 true else s
  else eventAt s u src true

/-- How many of the low `n` bits of a mask are set. -/
def maskWeight (m : BitVec 64) (n : Nat) : Nat := ((List.range n).filter (fun i => m.getLsbD i)).length

/-- The mask inverts three adjacent check bits of `n` alone: an error the filter code detects (R152). -/
def threeAdjacent (m : BitVec 64) (n : Nat) : Bool := (List.range (n - 2)).any (fun i => m.toNat % 2 ^ n == 7 * 2 ^ i)

/-- The verdict of an 8- or 9-bit correcting code for an injected mask: 0 none, 1 corrected, 2 uncorrectable.
A mask heavier than Table 15.9 lists has the verdict of the code, whose equations are not given (R388). -/
def maskVerdict (m : BitVec 64) (n : Nat) : Nat :=
  match maskWeight m n with
  | 0 => 0
  | 1 => 1
  | 2 => 2
  | _ => (Config.heavyMask (BitVec.ofNat 64 (m.toNat % 2 ^ n))).val

/-- The verdict of such a code on a word with error `e` and the mask applied to its check field: where both are there it follows
from the check equations, which are not given (R388). -/
def codeVerdict (e : CodeErr) (m : BitVec 64) (n : Nat) : Nat :=
  let low := BitVec.ofNat 64 (m.toNat % 2 ^ n)
  match e with
  | .clean => maskVerdict m n
  | .single syn => if low = 0 then 1 else (Config.maskedError syn false low).val
  | .multi syn => if low = 0 then 2 else (Config.maskedError syn true low).val

end Sys2Proof.Machine
end

