-- ==== Sys2Proof/Machine/Mirror.lean ====
section
/-! DEFINITION. Mirroring (chapter 14): the windows, the dirty map, the mirror queue, the heartbeat received and
partner loss. -/

namespace Sys2Proof.Machine

/-- Registers of mirror window `w` (Table 14.12). -/
def mwBase (w : Nat) : Nat := 0x310300 + w * 0x10

/-- MW_ATTR.EN of window `w`. -/
def mwEn (s : State) (w : Nat) : Bool := getBit s (mwBase w + 0xC) 0

/-- MW_ATTR.SYNC. -/
def mwSync (s : State) (w : Nat) : Bool := getBit s (mwBase w + 0xC) 1

/-- MW_ATTR.STATE: 0 OFF, 1 IN_SYNC, 2 BEHIND, 3 BROKEN. -/
def mwState (s : State) (w : Nat) : Nat := getFld s (mwBase w + 0xC) 2 2

/-- First local byte of window `w`. -/
def mwLo (s : State) (w : Nat) : Nat := getFld s (mwBase w) 0 27 * 2 ^ 21

/-- First local byte past window `w`. -/
def mwEnd (s : State) (w : Nat) : Nat := (getFld s (mwBase w + 4) 0 27 + 1) * 2 ^ 21

/-- The enabled window of a local address. -/
def mwOf (s : State) (pa : Nat) : Option Nat :=
  (List.range 16).find? (fun w => mwEn s w && decide (mwLo s w ≤ pa) && decide (pa < mwEnd s w))

/-- Granules of 256 KiB of window `w` (R351). -/
def mwGranules (s : State) (w : Nat) : Nat := (mwEnd s w - mwLo s w) / 2 ^ 18

/-- Dirty-map bit of address `pa` in window `w`. -/
def mwGranule (s : State) (w pa : Nat) : Nat := getFld s (mwBase w + 0xC) 4 17 + (pa - mwLo s w) / 2 ^ 18

/-- The run of bits of window `w`. -/
def mwMask (s : State) (w : Nat) : BitVec 131072 :=
  BitVec.ofNat 131072 ((2 ^ mwGranules s w - 1) * 2 ^ getFld s (mwBase w + 0xC) 4 17)

/-- Replace the dirty map. -/
def setDirtyMap (s : State) (d : BitVec 131072) : State := { s with mirror := { s.mirror with dirty := d } }

/-- Set the granule bit of address `pa` of window `w`. -/
def markGranule (s : State) (w pa : Nat) : State :=
  setDirtyMap s (s.mirror.dirty ||| BitVec.ofNat 131072 (2 ^ mwGranule s w pa))

/-- Some granule of window `w` is dirty. -/
def mwDirty (s : State) (w : Nat) : Bool := s.mirror.dirty &&& mwMask s w != 0

/-- Bits set in the low `2 ^ k` bits of `v`. -/
def popCount : Nat → Nat → Nat
  | 0, v => v % 2
  | k + 1, v => if v = 0 then 0 else popCount k (v % 2 ^ 2 ^ k) + popCount k (v / 2 ^ 2 ^ k)

/-- TWN_MIR_DIRTY.DIRTY. -/
def dirtyCount (s : State) : Nat := popCount 17 s.mirror.dirty.toNat

/-- The twin role (Table 14.1). -/
def twinRole (s : State) : Nat := getFld s 0x310060 0 2

/-- Move window `w` to state `st` (Table 14.3). -/
def mwMove (s : State) (w st : Nat) : State := setFld s (mwBase w + 0xC) 2 2 st

/-- Lines of window `w` that wait for room in the queue do not enter it: each sets its granule bit (R364). -/
def dropWaiting (s : State) (w : Nat) : State :=
  let s := (s.mirror.waiting.filter (fun l => l.window == w)).foldl (fun s l => markGranule s l.window l.addr.toNat) s
  { s with mirror := { s.mirror with waiting := s.mirror.waiting.filter (fun l => l.window != w) } }

/-- Window `w` becomes BROKEN: counted and told, and it queues nothing more (R364, Table 14.11). -/
def mwBreak (loss : Bool) (s : State) (w : Nat) : State :=
  if mwEn s w then
    let s := if loss then { s with mirror := { s.mirror with lossBroken := s.mirror.lossBroken ||| BitVec.ofNat 16 (2 ^ w) } } else s
    if mwState s w = 1 ∨ mwState s w = 2 then
      setBit (satAdd (mwMove (dropWaiting s w) w 3) 0x310070 16 16 1) 0x310094 3 true
    else s
  else s

/-- Every enabled window becomes BROKEN. -/
def mwBreakAll (s : State) (loss : Bool) : State := forEach 16 s (mwBreak loss)

/-- The twin link is usable for mirroring: up, Bus Master Enable set, D0 (Table 14.3). -/
def linkUsable (s : State) : Bool :=
  s.twin.up && (cellsGet (fun _ => 0) s.twin.cfg 4).getLsbD 2 && !s.twin.d3

/-- The lines not yet confirmed: queued, waiting, sent. -/
def mirrorLines (s : State) : List MirLine :=
  let q := s.mirror.queue.filterMap (fun i => match i with | .line l => some l | .beat _ => none)
  q ++ s.mirror.waiting ++ s.mirror.sent ++ s.mirror.flushOf

/-- Window `w` queues what it mirrors: it is neither OFF nor BROKEN (R364). -/
def mwLive (s : State) (w : Nat) : Bool := mwEn s w && (mwState s w == 1 || mwState s w == 2)

/-- The message is a mirrored line. -/
def msgIsMirror (m : Msg) : Bool :=
  match m with
  | .mirror _ _ _ _ _ => true
  | _ => false

/-- The mirrored lines on their way from the slices to the twin port (R353). -/
def mirrorOnWay (s : State) : List Msg :=
  ((s.spine.arrive ++ s.spine.queued).map (·.pkt.msg) ++ s.twin.inbox.map (·.pkt.msg)).filter msgIsMirror

/-- The synchronous line with write order `o` still waits for its confirmation (R358). -/
def mirrorHolds (s : State) (o : Nat) : Bool :=
  (mirrorLines s).any (fun l => l.sync && l.order == o) || (mirrorOnWay s).any (fun m => match m with
    | .mirror w _ _ y o' => y && o' == o && mwLive s w.toNat
    | _ => false)

/-- The granule that is being copied is dirty again: its copy ends unfinished. -/
def copyStop (s : State) : State :=
  match s.mirror.copyGran with
  | some g =>
    let s := setDirtyMap s (s.mirror.dirty ||| BitVec.ofNat 131072 (2 ^ g))
    { s with mirror := { s.mirror with copyGran := none, copyLines := [] } }
  | none => s

/-- Set the granule bits of lines that the partner may lack. -/
def markLines (s : State) (l : List MirLine) : State := l.foldl (fun s l => markGranule s l.window l.addr.toNat) s

/-- The lines of synchronous windows that are not confirmed. -/
def syncOpen (s : State) : List MirLine := (mirrorLines s).filter (·.sync)

/-- Discard queued and unsent lines, and those of synchronous windows not confirmed, setting their granule bits (Table 14.4,
R360). A flush read in flight stays the one in flight (R359). `beats`: heartbeats can be mastered, so they stay queued (R361). -/
def mirrorDiscard (s : State) (beats : Bool) : State :=
  let q := s.mirror.queue.filterMap (fun i => match i with | .line l => some l | .beat _ => none)
  let s := copyStop (markLines s (q ++ syncOpen s))
  let kept := s.mirror.queue.filter (fun i => match i with | .line _ => false | .beat _ => beats)
  { s with mirror := { s.mirror with queue := kept, waiting := [], sent := s.mirror.sent.filter (fun l => !l.sync),
                                     flushOf := s.mirror.flushOf.filter (fun l => !l.sync) } }

/-- Lines in the mirror queue. -/
def mirrorDepth (s : State) : Nat :=
  (s.mirror.queue.filter (fun i => match i with
    | .line _ => true
    | .beat _ => false)).length

/-- Room in the mirror queue, less what the reads of the copier will need (R356, R357). -/
def mirrorRoom (s : State) : Nat := 1024 - (mirrorDepth s + (s.twin.txns.filter (fun t => t.copy.isSome)).length)

/-- Waiting synchronous lines enter the queue as it has room; the time of R360 begins there (R358). -/
def refillQueue (s : State) : State :=
  let n := mirrorRoom s
  let enter := fun (l : MirLine) => MirItem.line { l with since := s.tick }
  { s with mirror := { s.mirror with queue := s.mirror.queue ++ (s.mirror.waiting.take n).map enter,
                                     waiting := s.mirror.waiting.drop n } }

/-- A mirrored line reaches the twin port (R355, R358, R364): it enters the queue, or its granule is marked, or a synchronous
one waits. One whose window has been replaced since changes nothing. -/
def mirrorArrive (s : State) (w : Nat) (a : Addr) (img : LineImg) (sync : Bool) (o : Nat) : State :=
  let pa := a.toNat
  let l : MirLine := ⟨w, a, img, sync, o, s.tick, false⟩
  if mwOf s pa ≠ some w then s
  else if !mwLive s w then markGranule s w pa
  else if 0 < mirrorRoom s then { s with mirror := { s.mirror with queue := s.mirror.queue ++ [.line l] } }
  else if sync then { s with mirror := { s.mirror with waiting := s.mirror.waiting ++ [l] } }
  else
    let s := satAdd (markGranule s w pa) 0x310070 0 16 1
    if mwState s w = 1 then mwMove s w 2 else s

/-- A message that is a mirrored line reaches the twin port; another is not its concern. -/
def mirrorTake (s : State) (m : Msg) : State :=
  match m with
  | .mirror w a img y o => mirrorArrive s w.toNat a img y o
  | _ => s

/-- A line of priority `prio` entered a write queue of slice `n` with order `o` (R352): on a Lead, one of an enabled window
goes to the twin port on the other VC (R353). -/
def mirrorLine (s : State) (n : Nat) (prio : BitVec 2) (pa : Nat) (img : LineImg) (o : Nat) : State :=
  if twinRole s ≠ 1 then s
  else match mwOf s pa with
  | none => s
  | some w => sliceSend s n 24 false prio (.mirror (BitVec.ofNat 4 w) (BitVec.ofNat 48 pa) img (mwSync s w) o)

-- partner loss (R363, R367)

/-- A Follow becomes Lead: its windows BROKEN with clear granules (R367). -/
def promote (s : State) : State :=
  let s := setBit (setFld s 0x310060 0 2 1) 0x310060 2 true
  forEach 16 s (fun s w =>
    if mwEn s w then
      let s := setDirtyMap s (s.mirror.dirty &&& ~~~ (mwMask s w))
      let s := { s with mirror := { s.mirror with lossBroken := s.mirror.lossBroken ||| BitVec.ofNat 16 (2 ^ w) } }
      setBit (satAdd (mwMove s w 3) 0x310070 16 16 1) 0x310094 3 true
    else s)

/-- The partner is lost (R363, R367). -/
def partnerLost (s : State) : State :=
  if getBit s 0x310084 2 then s
  else
    let s := setBit (setBit s 0x310084 2 true) 0x310094 0 true
    let s :=
      if twinRole s = 1 then mwBreakAll s true
      else if twinRole s = 2 ∧ getBit s 0x310064 14 then promote s else s
    report s 25 2

/-- The receive timer is armed for 100 µs (R362). -/
def armHbRx (s : State) : State := { s with mirror := { s.mirror with hbRxDue := s.tick + 100000 } }

/-- A write of the watched line reaches the twin port and is accepted or rejected (R362, R363, R368). Two Leads break their
windows, and keep them so until one is named Follow, here or by the partner (DEDUCED, assumption 100). -/
def heartbeatReceive (s : State) (d : LineData) : State :=
  let epoch := lineNat d 4 4
  let role := lineNat d 8 1 % 4
  let flags := lineNat d 10 1
  let last := (getReg s 0x31008C).toNat
  let ahead := (epoch + 2 ^ 32 - last) % 2 ^ 32
  let lost := getBit s 0x310084 2
  let fresh := (decide (0 < ahead) && decide (ahead < 2 ^ 31)) || !s.mirror.hbSeen || lost
  if lineNat d 0 4 = 0x4E495754 ∧ fresh then
    let s := if lost then setBit s 0x310094 1 true else s
    let s := setReg s 0x310084 (BitVec.ofNat 32 (b2n lost * 4 + role * 8 + flags / 2 % 2 * 32 + flags % 2 * 64))
    let s := setReg s 0x31008C (BitVec.ofNat 32 epoch)
    let s := if flags % 2 = 1 then setReg s 0x310090 (BitVec.ofNat 32 epoch) else s
    let both := role == 1 && twinRole s == 1
    let s := armHbRx { s with mirror := { s.mirror with hbSeen := true, dual := both || (s.mirror.dual && role != 2) } }
    let s := if both then mwBreakAll (report (setBit s 0x310094 2 true) 25 3) false else s
    if flags / 2 % 2 = 1 ∧ getBit s 0x310064 15 then partnerLost s else s
  else setBit s 0x310094 4 true

/-- A full-line write from port `src` entered a write queue of slice `n`: where the line is the watched one and the role watches,
it is passed to the twin port (R362, Table 14.1), on the other VC as mirrored data is (DEDUCED, assumption 29). -/
def watchHeartbeat (s : State) (n : Nat) (prio : BitVec 2) (src : BitVec 5) (pa : Nat) (d : LineData) : State :=
  let watched := (getReg s 0x31007C).toNat + getFld s 0x310080 0 16 * 2 ^ 32
  if twinRole s ≠ 0 ∧ pa / 64 = watched / 64 ∧ src.toNat = getFld s 0x310080 16 5 then
    sliceSend s n 24 false prio (.watched d)
  else s

end Sys2Proof.Machine
end

