-- ==== Sys2Proof/Machine/Aes.lean ====
section
/-! DEFINITION. The block cipher AES-256 of FIPS 197, which R289, R291 and R295 name and the manual does not restate
(assumption 9). A block is a 128-bit number whose most significant byte is byte 0. -/

namespace Sys2Proof.Machine

/-- The substitution box, 32 bytes a row, entry 0 of a row in its least significant byte. -/
def aesBoxRow : Nat → Nat
  | 0 => 0xC072A49CAFA2D4ADF04759FA7DC982CA76ABD7FE2B670130C56F6BF27B777C63
  | 1 => 0x75B227EBE28012079A059618C323C7041531D871F1E5A534CCF73F362693FDB7
  | 2 => 0xCF584C4A39BECB6A5BB1FC20ED00D153842FE329B3D63B52A05A6E1B1A2C8309
  | 3 => 0xD2F3FF1021DAB6BCF5389D928F40A351A89F3C507F02F94585334D43FBAAEFD0
  | 4 => 0xDB0B5EDE14B8EE4688902A22DC4F816073195D643D7EA7C41744975FEC130CCD
  | 5 => 0x08AE7A65EAF4566CA94ED58D6D37C8E779E4959162ACD3C25C2406490A3A32E0
  | 6 => 0x9E1DC186B95735610EF6034866B53E708A8BBD4B1F74DDE8C6B4A61C2E2578BA
  | _ => 0x16BB54B00F2D99416842E6BF0D89A18CDF2855CEE9871E9B948ED9691198F8E1

/-- The inverse substitution box, in the same form. -/
def aesBoxInvRow : Nat → Nat
  | 0 => 0xCBE9DEC444438E3487FF2F9B8239E37CFBD7F3819EA340BF38A53630D56A0952
  | 1 => 0x25D18B6D49A25B76B224D92866A12E084EC3FA420B954CEE3D23C2A632947B54
  | 2 => 0x849D8DA75746155EDAB9EDFD5048706C92B6655DCC5CA4D41698688664F6F872
  | 3 => 0x6B8A130103BDAFC1020F3FCA8F1E2CD00645B3B80558E4F70AD3BC8C00ABD890
  | 4 => 0x6EDF751CE837F9E28535ADE72274AC9673E6B4F0CECFF297EADC674F4111913A
  | 5 => 0xF45ACD78FEC0DB9A2079D2C64B3E56FC1BBE18AA0E62B76F89C5291D711AF147
  | 6 => 0xEF9CC9939F7AE52D0D4AB519A97F51605FEC8027591012B131C7078833A8DD1F
  | _ => 0x7D0C2155631469E126D677BA7E042B17619953833CBBEBC8B0F52AAE4D3BE0A0

/-- The substitution of a byte. -/
def aesSub (b : Nat) : Nat := aesBoxRow (b / 32) / 2 ^ (8 * (b % 32)) % 256

/-- The inverse substitution of a byte. -/
def aesSubInv (b : Nat) : Nat := aesBoxInvRow (b / 32) / 2 ^ (8 * (b % 32)) % 256

/-- Multiplication by x in the field of AES. -/
def aesTwice (b : Nat) : Nat := if 128 ≤ b then (2 * b - 256) ^^^ 0x1B else 2 * b

/-- Product of a byte and a number below 16 in the field of AES. -/
def aesMul (c b : Nat) : Nat :=
  let b2 := aesTwice b
  let b4 := aesTwice b2
  (if c.testBit 0 then b else 0) ^^^ (if c.testBit 1 then b2 else 0) ^^^ (if c.testBit 2 then b4 else 0)
    ^^^ (if c.testBit 3 then aesTwice b4 else 0)

/-- The 16 bytes of a block, byte 0 first. -/
def aesBytes (b : BitVec 128) : List Nat := (List.range 16).map (fun i => b.toNat / 2 ^ (8 * (15 - i)) % 256)

/-- The block of 16 bytes. -/
def aesBlock (l : List Nat) : BitVec 128 := BitVec.ofNat 128 (l.foldl (fun a x => a * 256 + x) 0)

/-- Exclusive or of byte lists. -/
def aesXor (a b : List Nat) : List Nat := List.zipWith (· ^^^ ·) a b

/-- Bytes at the places `p` of a list. -/
def aesPick (p l : List Nat) : List Nat := p.map (fun i => l.getD i 0)

/-- Rows shift to the left, and back. -/
def aesShift : List Nat → List Nat := aesPick [0, 5, 10, 15, 4, 9, 14, 3, 8, 13, 2, 7, 12, 1, 6, 11]
def aesShiftInv : List Nat → List Nat := aesPick [0, 13, 10, 7, 4, 1, 14, 11, 8, 5, 2, 15, 12, 9, 6, 3]

/-- One column multiplied by the circulant matrix of first row `m`. -/
def aesColumn (m c : List Nat) : List Nat :=
  (List.range 4).map (fun i => (List.range 4).foldl (fun a j => a ^^^ aesMul (m.getD ((j + 4 - i) % 4) 0) (c.getD j 0)) 0)

/-- Every column multiplied. -/
def aesMix (m l : List Nat) : List Nat :=
  (List.range 4).flatMap (fun i => aesColumn m ((l.drop (4 * i)).take 4))

/-- The next word of the key schedule: word `i`, from the words so far, the newest first. -/
def aesKeyWord (i : Nat) (ws : List (List Nat)) : List Nat :=
  let t := ws.headD []
  let t := if i % 8 = 0 then
      aesXor ((t.drop 1 ++ t.take 1).map aesSub) [2 ^ (i / 8 - 1), 0, 0, 0]
    else if i % 8 = 4 then t.map aesSub else t
  aesXor (ws.getD 7 []) t

/-- The key schedule of 60 words, newest first. -/
def aesKeyWords (key : BitVec 256) : Nat → List (List Nat)
  | 0 => ((List.range 8).map (fun i => (List.range 4).map (fun j => key.toNat / 2 ^ (8 * (31 - (4 * i + j))) % 256))).reverse
  | n + 1 =>
    let ws := aesKeyWords key n
    aesKeyWord (n + 8) ws :: ws

/-- The fifteen round keys. -/
def aesRoundKeys (key : BitVec 256) : List (List Nat) :=
  let ws := (aesKeyWords key 52).reverse
  (List.range 15).map (fun r => ((ws.drop (4 * r)).take 4).flatten)

/-- AES-256 under key `key`. -/
def aes256 (key : BitVec 256) (b : BitVec 128) : BitVec 128 :=
  let ks := aesRoundKeys key
  let l := ((ks.drop 1).take 13).foldl (fun l k => aesXor (aesMix [2, 3, 1, 1] (aesShift (l.map aesSub))) k)
    (aesXor (aesBytes b) (ks.headD []))
  aesBlock (aesXor (aesShift (l.map aesSub)) (ks.getD 14 []))

/-- The inverse cipher. -/
def aes256Inv (key : BitVec 256) (b : BitVec 128) : BitVec 128 :=
  let ks := (aesRoundKeys key).reverse
  let l := ((ks.drop 1).take 13).foldl (fun l k => aesMix [14, 11, 13, 9] (aesXor ((aesShiftInv l).map aesSubInv) k))
    (aesXor (aesBytes b) (ks.headD []))
  aesBlock (aesXor ((aesShiftInv l).map aesSubInv) (ks.getD 14 []))

end Sys2Proof.Machine
end

