-- ==== Sys2Proof/Machine/Code.lean ====
section
/-! DEFINITION. The memory code (R270 to R276): Reed-Solomon over GF(2^8), its bounded-distance decoding, and
the marks. Symbols are numbers below 256. -/

namespace Sys2Proof.Machine

/-- Product in GF(2^8) with x^8 + x^4 + x^3 + x^2 + 1 (R270). -/
def gmul (a b : Nat) : Nat :=
  let p := (List.range 8).foldl (fun acc i => if b.testBit i then acc ^^^ (a <<< i) else acc) 0
  (List.range 7).foldl (fun acc i => if acc.testBit (14 - i) then acc ^^^ (0x11D <<< (6 - i)) else acc) p

/-- Power in the field. -/
def gpow (a : Nat) : Nat → Nat
  | 0 => 1
  | n + 1 => gmul a (gpow a n)

/-- Inverse in the field: a^254. -/
def ginv (a : Nat) : Nat :=
  let a2 := gmul a a
  let a4 := gmul a2 a2
  let a8 := gmul a4 a4
  let a16 := gmul a8 a8
  let a32 := gmul a16 a16
  let a64 := gmul a32 a32
  let a128 := gmul a64 a64
  gmul a2 (gmul a4 (gmul a8 (gmul a16 (gmul a32 (gmul a64 a128)))))

/-- Multiplication by the root α of the field polynomial. -/
def gmulAlpha (a : Nat) : Nat := if a.testBit 7 then (a <<< 1) ^^^ 0x11D else a <<< 1

/-- α^n. -/
def galpha (n : Nat) : Nat := (List.range n).foldl (fun a _ => gmulAlpha a) 1

/-- The coefficients of x^0 to x^7 of g(x) = (x − α^0) … (x − α^7) (R270). -/
def genPoly : List Nat :=
  (((List.range 8).foldl (fun g i =>
    List.zipWith (· ^^^ ·) (0 :: g) (g.map (gmul (galpha i)) ++ [0])) [1]).take 8)

/-- One step of the division by g(x): `r` the remainder so far, `m` the next message symbol. -/
def rsStep (g r : List Nat) (m : Nat) : List Nat :=
  let fb := m ^^^ (r.getLastD 0)
  List.zipWith (· ^^^ ·) (0 :: r.dropLast) (g.map (gmul fb))

/-- The check symbols p_0 to p_7 of a message m_0, m_1, … (R270). -/
def rsEncode (msg : List Nat) : List Nat :=
  let g := genPoly
  msg.reverse.foldl (rsStep g) (List.replicate 8 0)

/-- The value of the polynomial with coefficients `w` (lowest first) at `x`. -/
def gEval (w : List Nat) (x : Nat) : Nat := w.foldr (fun c acc => c ^^^ gmul acc x) 0

/-- The syndromes of a received word. -/
def rsSyndromes (w : List Nat) : List Nat := (List.range 8).map (fun k => gEval w (galpha k))

/-- One step of Berlekamp-Massey: the connection polynomial, the last one before the length changed, the
length, the gap and the last discrepancy. -/
def bmStep (syn : List Nat) (st : List Nat × List Nat × Nat × Nat × Nat) (n : Nat) :
    List Nat × List Nat × Nat × Nat × Nat :=
  let (c, b, l, m, bd) := st
  let d := (List.range (l + 1)).foldl (fun a i => a ^^^ gmul (c.getD i 0) (syn.getD (n - i) 0)) 0
  if d = 0 then (c, b, l, m + 1, bd)
  else
    let k := gmul d (ginv bd)
    let sh := List.replicate m 0 ++ b.map (gmul k)
    let len := max c.length sh.length
    let c' := (List.range len).map (fun i => c.getD i 0 ^^^ sh.getD i 0)
    if 2 * l ≤ n then (c', c, n + 1 - l, 1, d) else (c', b, l, m + 1, bd)

/-- Coefficients of the product of two polynomials below x^8. -/
def gMulMod8 (a b : List Nat) : List Nat :=
  (List.range 8).map (fun n => (List.range (n + 1)).foldl (fun acc i => acc ^^^ gmul (a.getD i 0) (b.getD (n - i) 0)) 0)

/-- The error value at position `pos`, by Forney's formula for first root α^0. -/
def forney (lam om : List Nat) (pos : Nat) : Nat :=
  let x := galpha pos
  let xi := ginv x
  let num := gmul x (gEval om xi)
  let dl := (List.range lam.length).foldl (fun a i => if i % 2 = 1 then a ^^^ gmul (lam.getD i 0) (gpow xi (i - 1)) else a) 0
  gmul num (ginv dl)

/-- A correction of at most four of the first `stored` symbols that makes `w` a codeword, with its weight,
or none (R275). -/
def rsSolve (w : List Nat) (stored : Nat) : Option (List Nat × Nat) :=
  let syn := rsSyndromes w
  if syn.all (· == 0) then some (w, 0)
  else
    let (lam, _, l, _, _) := (List.range 8).foldl (bmStep syn) ([1], [1], 0, 1, 1)
    let om := gMulMod8 syn lam
    let roots := (List.range stored).filter (fun pos => gEval lam (ginv (galpha pos)) == 0)
    if 4 < l ∨ roots.length ≠ l then none
    else
      let w' := roots.foldl (fun w pos => w.set pos (w.getD pos 0 ^^^ forney lam om pos)) w
      if (rsSyndromes w').all (· == 0) then some (w', l) else none

/-- The 64 bytes of a line. -/
def lineBytes (d : LineData) : List Nat := (List.range 64).map (fun i => (d.toNat / 2 ^ (8 * i)) % 256)

/-- A line from its bytes. -/
def bytesLine (b : List Nat) : LineData := BitVec.ofNat 512 (b.foldr (fun x acc => x + 256 * acc) 0)

/-- `n` bytes of a number, least significant first. -/
def natBytes (n v : Nat) : List Nat := (List.range n).map (fun i => (v / 256 ^ i) % 256)

/-- A number from its bytes, least significant first. -/
def bytesNat (b : List Nat) : Nat := b.foldr (fun x acc => x + 256 * acc) 0

/-- A = (c << 28) | m of a data line (Table 11.1). -/
def lineTag (c m : Nat) : Nat := c * 2 ^ 28 + m

/-- A′ of a check line (R271). -/
def checkTag (c u k : Nat) : Nat := 0x80000000 + c * 2 ^ 25 + u * 4 + k

/-- The eight check bytes of a data line with mark `mu`, as a 64-bit number, p_0 lowest. -/
def dataCheck (d : LineData) (c m mu : Nat) : BitVec 64 :=
  BitVec.ofNat 64 (bytesNat (rsEncode (lineBytes d ++ natBytes 4 (lineTag c m) ++ [mu])))

/-- A check line with fresh check symbols over bytes 0 to 55 (R271). -/
def freshCheck (d : LineData) (c u k : Nat) : LineData :=
  let body := (lineBytes d).take 56
  bytesLine (body ++ rsEncode (body ++ natBytes 4 (checkTag c u k)))

/-- Byte `i` of a filled half (R274). -/
def fillByte (i : Nat) : Nat := 0xA5 ^^^ i

/-- A filled half. -/
def fillHalf : HalfData := BitVec.ofNat 256 (bytesNat ((List.range 32).map fillByte))

/-- The mark of a line image (Table 11.2). -/
def markOf (img : LineImg) : Nat := if img.lost then 4 else img.poison.toNat

/-- Fill in every half that mark `mu` names (Table 11.2). -/
def fillMarked (d : LineData) (mu : Nat) : LineData :=
  let d := if mu = 1 ∨ mu = 3 ∨ mu = 4 then lineSetHalf d false fillHalf else d
  if mu = 2 ∨ mu = 3 ∨ mu = 4 then lineSetHalf d true fillHalf else d

/-- What a data codeword decodes to (R275). -/
inductive Decoded where
  | marked (mu : Nat) (d : LineData) (symbols : Nat)
  | data (d : LineData) (symbols : Nat)
  | uncorrectable
  deriving DecidableEq, Repr

/-- Solve the received data word under mark `mu`. -/
def solveMark (d : LineData) (ck : BitVec 64) (c m mu : Nat) : Option (LineData × Nat) :=
  (rsSolve (natBytes 8 ck.toNat ++ lineBytes d ++ natBytes 4 (lineTag c m) ++ [mu]) 72).map
    fun (w, k) => (bytesLine ((w.drop 8).take 64), k)

/-- Try the marks in their order of precedence. -/
def tryMarks (d : LineData) (ck : BitVec 64) (c m : Nat) : List Nat → Option (Nat × LineData × Nat)
  | [] => none
  | mu :: l =>
    match solveMark d ck c m mu with
    | some (e, k) => if e = fillMarked e mu then some (mu, e, k) else tryMarks d ck c m l
    | none => tryMarks d ck c m l

/-- The decode of a data burst against its check bytes (R275). -/
def decodeLine (d : LineData) (ck : BitVec 64) (c m : Nat) : Decoded :=
  match tryMarks d ck c m [4, 3, 2, 1] with
  | some (mu, e, k) => .marked mu e k
  | none =>
    match solveMark d ck c m 0 with
    | some (e, k) => .data e k
    | none => .uncorrectable

/-- The decode of a check line (R271): corrected bytes and their count, or none. -/
def decodeCheck (d : LineData) (c u k : Nat) : Option (LineData × Nat) :=
  let b := lineBytes d
  (rsSolve (b.drop 56 ++ b.take 56 ++ natBytes 4 (checkTag c u k)) 64).map
    fun (w, n) => (bytesLine ((w.drop 8).take 56 ++ w.take 8), n)

/-- Key of a slot of row unit `u` of channel `c` in the DRAM store. -/
def dramKey (c u slot : Nat) : Nat := (c * 2 ^ 23 + u) * 32 + slot

/-- What a slot holds that nothing has written since initialisation: a zero codeword bound to its own A or
A′ (R394). -/
def dramZero (key : Nat) : LineData :=
  let slot := key % 32
  let u := key / 32 % 2 ^ 23
  let c := key / 32 / 2 ^ 23
  if slot < 28 then 0
  else
    let k := slot - 28
    freshCheck (bytesLine ((List.range 7).flatMap (fun i =>
      natBytes 8 (dataCheck 0 c (28 * u + 7 * k + i) 0).toNat))) c u k

end Sys2Proof.Machine
end

