-- ==== Sys2Proof/Machine/Seal.lean ====
section
/-! DEFINITION. Sealed memory (R289 to R299): keys, encryption, tags, versions, the counter tree and its cache,
and the check cache (R277 to R280). -/

namespace Sys2Proof.Machine

-- AES constructions; a block is a 128-bit number whose most significant byte is byte 0

/-- Doubling in GF(2^128) for the CMAC subkeys (NIST SP 800-38B). -/
def cmacDouble (x : BitVec 128) : BitVec 128 := (x <<< 1) ^^^ (if x.msb then 0x87 else 0)

/-- A block from at most 16 bytes, padded with zero bytes. -/
def blockOf (b : List Nat) : BitVec 128 :=
  BitVec.ofNat 128 ((b ++ List.replicate (16 - b.length) 0).foldl (fun a x => a * 256 + x) 0)

/-- The blocks of a message, by fuel: all whole blocks but the last are folded in. -/
def cmacFold (key : BitVec 256) : Nat → BitVec 128 → List Nat → BitVec 128 × List Nat
  | 0, x, b => (x, b)
  | n + 1, x, b =>
    if 16 < b.length then cmacFold key n (aes256 key (x ^^^ blockOf (b.take 16))) (b.drop 16) else (x, b)

/-- AES-CMAC with AES-256 over a list of bytes (R289, R291). -/
def cmac (key : BitVec 256) (msg : List Nat) : BitVec 128 :=
  let k1 := cmacDouble (aes256 key 0)
  let k2 := cmacDouble k1
  let (x, last) := cmacFold key (msg.length / 16 + 1) 0 msg
  if last.length = 16 then aes256 key (x ^^^ blockOf last ^^^ k1)
  else aes256 key (x ^^^ blockOf (last ++ [0x80]) ^^^ k2)

/-- A derived key of realm `r` at generation `g`: KDF in counter mode, two PRF blocks (R289). -/
def deriveKey (slot0 : BitVec 256) (label : List Nat) (r g : Nat) : BitVec 256 :=
  let blk := fun i => cmac slot0 ([i] ++ label ++ [0, r % 256, g % 256, g / 256 % 256, 1, 0])
  (blk 1) ++ (blk 2)

/-- The labels of R289: `XTSD`, `XTST`, `TAGK`, `NODE`. -/
def labelData : List Nat := [0x58, 0x54, 0x53, 0x44]
def labelTweak : List Nat := [0x58, 0x54, 0x53, 0x54]
def labelTag : List Nat := [0x54, 0x41, 0x47, 0x4B]
def labelNode : List Nat := [0x4E, 0x4F, 0x44, 0x45]

/-- The key of region `i` under a label: its realm at its generation, from key slot 0. -/
def regionKey (s : State) (i : Nat) (label : List Nat) : BitVec 256 :=
  let r := rgnRealm s i
  deriveKey ((s.pins.keys[0]).getD 0) label r (getFld s (0x360500 + 4 * r) 0 16)

/-- Doubling of the XTS tweak, least significant byte first (IEEE 1619). -/
def xtsDouble (t : Nat) : Nat := (t * 2) % 2 ^ 128 ^^^ (if 2 ^ 127 ≤ t then 0x87 else 0)

/-- The AES block of a number whose byte 0 is its least significant, and back. -/
def swapBlock (x : Nat) : BitVec 128 := blockOf (natBytes 16 x)

/-- A number from a block, byte 0 least significant. -/
def unswap (b : BitVec 128) : Nat := bytesNat (natBytes 16 b.toNat).reverse

/-- AES-256-XTS over the four blocks of a line; `f` is the cipher or its inverse (R291). -/
def xts (f : BitVec 128 → BitVec 128) (tweakKey : BitVec 256) (tweak : Nat) (d : LineData) : LineData :=
  let t0 := unswap (aes256 tweakKey (swapBlock tweak))
  let (_, out) := (List.range 4).foldl (fun (st : Nat × Nat) i =>
    let p := (d.toNat / 2 ^ (128 * i)) % 2 ^ 128
    let c := unswap (f (swapBlock (p ^^^ st.1))) ^^^ st.1
    (xtsDouble st.1, st.2 + c * 2 ^ (128 * i))) (t0, 0)
  BitVec.ofNat 512 out

/-- The tweak of a sealed line: pa[47:6] and the version (R291). -/
def sealTweak (pa version : Nat) : Nat := pa / 64 % 2 ^ 42 + (version % 2 ^ 56) * 2 ^ 42

/-- The 56-bit tag of the stored bytes; 0 is stored as 1 (R291). -/
def sealTag (key : BitVec 256) (stored : LineData) (pa version mu : Nat) : Nat :=
  let t := (cmac key (lineBytes stored ++ natBytes 6 (pa / 64) ++ natBytes 7 version ++ [mu])).toNat / 2 ^ 72
  if t = 0 then 1 else t

-- reports of a channel (R264, R265)

/-- Row, bank, rank and slot of a line in an error-log record (Table 17.8). -/
def placeWord (s : State) (c u slot : Nat) : Nat :=
  let p := placeOf s c u
  p.row + 2 ^ 18 * p.bank + 2 ^ 22 * p.rank + 2 ^ 23 * slot

/-- A detection of kind `k` (0 corrected, 1 uncorrectable) with its capture (Table 10.13, R161). -/
def eccDetect (s : State) (c k u slot symbols : Nat) (scrub : Bool) (src : Nat) : State :=
  let b := mcBase c
  let p := placeOf s c u
  let first := getReg s (b + 0x54) == 0
  let s := raiseErr s (b + 0x54) k (b + 0x58) (BitVec.ofNat 32 (slot + 2 ^ 5 * p.rank + 2 ^ 6 * p.bank + 2 ^ 10 * symbols
    + 2 ^ 13 * k + 2 ^ 14 * b2n scrub + 2 ^ 15 * (if scrub then 0 else src) + 2 ^ 31))
  if first then setReg s (b + 0x5C) (BitVec.ofNat 32 p.row) else s

/-- The event at the channel's fault unit, plain or injected. -/
def chanEvent (s : State) (c src : Nat) (inj : Bool) : State :=
  if inj then injectedEvent s (8 + c) src else report s (8 + c) src

/-- Add one to a ledger count of channel `c`, saturating at `top`. -/
def bump16 (top : Nat) (v : Vector Nat 16) (c : Nat) : Vector Nat 16 :=
  if h : c < 16 then v.set c (min (v[c] + 1) top) else v

/-- A line with `n` corrected symbols: counted, captured, one event (R264). -/
def eccCorrected (s : State) (c u slot n : Nat) (scrub : Bool) (src : Nat) (inj : Bool) : State :=
  if n = 0 then s
  else if inj && s.faults.blotSuppress then injectedEvent s (8 + c) 3
  else
    let s := pmuEvent (satAdd s (mcBase c + 0x60) 0 32 1) (8 + c) 0x0B
    let s := { s with aon := { s.aon with corr := bump16 (2 ^ 32 - 1) s.aon.corr c } }
    chanEvent (eccDetect s c 0 u slot n scrub src) c 3 inj

/-- An uncorrectable line: counted, captured, logged, one event (R265). -/
def eccUncorrectable (s : State) (c u slot : Nat) (scrub : Bool) (src : Nat) (inj : Bool) : State :=
  if inj && s.faults.blotSuppress then injectedEvent s (8 + c) 4
  else
    let s := pmuEvent (satAdd s (mcBase c + 0x64) 0 16 1) (8 + c) 0x0C
    let s := { s with aon := { s.aon with uncorr := bump16 (2 ^ 32 - 1) s.aon.uncorr c } }
    let s := logRecord (eccDetect s c 1 u slot 0 scrub src) 4 (8 + c) src 0 (placeWord s c u slot)
    chanEvent s c 4 inj

-- the check cache

/-- Set of a check line in the 256-set cache: a hash that decides eviction only (R277). -/
def checkSet (c u k : Nat) : Nat := Config.cacheHash ((c * 2 ^ 23 + u) * 4 + k) % 256

/-- The slice whose protection engine serves channel `c`: its own, or, while that slice is fenced with its logic off under
Accord, the other slice of the pair (R243). -/
def engineOf (s : State) (c : Nat) : Nat :=
  if pairJoined s (c / 4) && (!slicePwr s (c / 2) || sliceFenced s (c / 2)) then c / 4 * 2 + (1 - c / 2 % 2) else c / 2

/-- Write a slot of DRAM. -/
def dramSet (s : State) (key : Nat) (v : LineData) : State := { s with dram := cellsSet dramZero s.dram key v }

/-- Read a slot of DRAM. -/
def dramGet (s : State) (key : Nat) : LineData := cellsGet dramZero s.dram key

/-- The cached check line, if any. -/
def ccFind (s : State) (c u k : Nat) : Option CheckLine :=
  (slice s (engineOf s c)).cc.find? (fun l => l.chan == c && l.unit == u && l.k == k)

/-- Slot `slot` of row unit `u` decodes as uncorrectable from now on, until it is written (R265). -/
def loseSlot (s : State) (c u slot : Nat) : State :=
  if (chan s c).lost.contains (32 * u + slot) then s
  else setChan s c { chan s c with lost := (32 * u + slot) :: (chan s c).lost }

/-- Slot `slot` of row unit `u` is written: what it held, and a seal that a rebuild still owed it, are forgotten. -/
def slotWritten (s : State) (c u slot : Nat) : State :=
  setChan s c { chan s c with lost := (chan s c).lost.filter (· != 32 * u + slot),
                              toSeal := (chan s c).toSeal.filter (fun m => m != 28 * u + slot || decide (28 ≤ slot)) }

/-- A dirty check line goes back to DRAM with fresh check symbols (R279). -/
def ccWriteBack (s : State) (l : CheckLine) : State :=
  if l.dirty then
    dramSet (slotWritten (pmuEvent s (8 + l.chan) 0x09) l.chan l.unit (28 + l.k)) (dramKey l.chan l.unit (28 + l.k))
      (freshCheck l.data l.chan l.unit l.k)
  else s

/-- A read burst that uses check line `k` of row unit `u` of channel `c` is outstanding (R279). -/
def checkUsed (s : State) (c u k : Nat) : Bool :=
  (chan s c).rdq.any (fun r => r.issued && r.m / 28 == u && r.m % 28 / 7 == k)

/-- Put a check line in the cache as most recently used; when the set holds more than eight, the least recently used of
those that no outstanding burst uses leaves (R277, R279). -/
def ccPut (s : State) (l : CheckLine) : State :=
  let n := engineOf s l.chan
  let x := slice s n
  let st := checkSet l.chan l.unit l.k
  let rest := x.cc.filter (fun e => !(e.chan == l.chan && e.unit == l.unit && e.k == l.k))
  let same := rest.filter (fun e => checkSet e.chan e.unit e.k == st)
  match if 8 ≤ same.length then (same.filter (fun e => !checkUsed s e.chan e.unit e.k)).getLast? else none with
  | none => setSlice s n { x with cc := l :: rest }
  | some v => ccWriteBack (setSlice s n { x with cc := l :: rest.filter (fun e => e != v) }) v

/-- The check-line checker decodes a codeword of check line `k` of row unit `u` (R265, R278, R280). Under the blotter it
reports the verdict of the masked codeword and answers what the codeword is (R388). A line that cannot be decoded is reported
by what uses it. Answers the data and how many symbols were corrected. -/
def checkDecode (s : State) (c u k : Nat) (word : LineData) (scrub : Bool) (src : Nat) : State × Option (LineData × Nat) :=
  let lost := (chan s c).lost.contains (32 * u + 28 + k)
  let read := fun (w : LineData) => if lost then none else decodeCheck w c u k
  let real := read word
  let armed := blotArmed s 9 c
  let seen := if armed then read (word ^^^ ((blotMask s 9 c).setWidth 512 <<< 448)) else real
  let s := blotUse s 9 c
  (match seen with
   | some (_, n) => eccCorrected s c u (28 + k) n scrub src armed
   | none => if real.isNone then s else eccUncorrectable s c u (28 + k) scrub src armed, real)

/-- The check line of a data slot for a read or a write burst, cached or read with the error `err` and decoded; `err` is what
the burst, or the cached codeword, has picked up. A correctable error is repaired in place, an uncorrectable one spoils the
line; a line corrected in a read enters dirty (R278, R280). Answers whether it was cached. -/
def checkLine (s : State) (c u k : Nat) (err : LineData) (scrub : Bool) (src : Nat) : State × CheckLine × Bool :=
  match ccFind s c u k with
  | some l =>
    let s := pmuEvent s (engineOf s c) 0x10
    if l.bad then (ccPut s l, l, true)
    else
      match checkDecode s c u k (freshCheck l.data c u k ^^^ err) scrub src with
      | (s, some (d, _)) => (ccPut s { l with data := d }, { l with data := d }, true)
      | (s, none) =>
        let l := { l with data := 0, dirty := false, bad := true }
        (ccPut (loseSlot s c u (28 + k)) l, l, true)
  | none =>
    let s := pmuEvent (pmuEvent s (engineOf s c) 0x11) (8 + c) 0x09
    match checkDecode s c u k (dramGet s (dramKey c u (28 + k)) ^^^ err) scrub src with
    | (s, some (d, n)) => (ccPut s ⟨c, u, k, d, decide (0 < n), false⟩, ⟨c, u, k, d, decide (0 < n), false⟩, false)
    | (s, none) => (ccPut (loseSlot s c u (28 + k)) ⟨c, u, k, 0, false, true⟩, ⟨c, u, k, 0, false, true⟩, false)

/-- The check bytes of data slot `i` of a check line. -/
def checkBytes (l : CheckLine) (i : Nat) : BitVec 64 := l.data.extractLsb' (64 * i) 64

-- the data decode (R264, R265)

/-- The report of a data decode. -/
def decodeReport (s : State) (c u slot : Nat) (scrub : Bool) (src : Nat) (inj : Bool) (d : Decoded) : State :=
  match d with
  | .marked _ _ k => eccCorrected s c u slot k scrub src inj
  | .data _ k => eccCorrected s c u slot k scrub src inj
  | .uncorrectable => eccUncorrectable s c u slot scrub src inj

/-- Data decode of the burst `d` of line `m` against its check line `l`; with a check line that cannot be decoded, and after it
once decoded as uncorrectable, the line is uncorrectable until it is written (R265, R280). The blotter changes the verdict
that is reported, never the line (R388). -/
def dataDecode (s : State) (c m : Nat) (d : LineData) (l : CheckLine) (scrub : Bool) (src : Nat) : State × Decoded :=
  let u := m / 28
  let slot := m % 28
  let ck := checkBytes l (slot % 7)
  let gone := l.bad || (chan s c).lost.contains (32 * u + slot)
  let read := fun (ck : BitVec 64) => if gone then Decoded.uncorrectable else decodeLine d ck c m
  let real := read ck
  let armed := blotArmed s 8 c && !l.bad
  let seen := if armed then read (ck ^^^ blotMask s 8 c) else real
  let s := if armed then blotUse s 8 c else s
  let s := decodeReport s c u slot scrub src armed seen
  (if real = .uncorrectable then loseSlot s c u slot else s, real)

-- background initialisation (R394)

/-- MC_INIT.ACTIVE. -/
def initActive (s : State) (c : Nat) : Bool := getBit s (mcBase c + 0xA0) 24

/-- MC_INIT.WM. -/
def initWm (s : State) (c : Nat) : Nat := getFld s (mcBase c + 0xA0) 0 24

/-- Row unit `u` of channel `c` is initialised: accesses go to DRAM. -/
def unitInit (s : State) (c u : Nat) : Bool :=
  !initActive s c || decide (u < initWm s c) || (chan s c).early.contains u

/-- A write burst above the watermark waits while 64 units are early (R394). -/
def writeHeld (s : State) (c m : Nat) : Bool := !unitInit s c (m / 28) && decide (64 ≤ (chan s c).early.length)

/-- A read above the watermark is answered with zeros. -/
def countZero (s : State) (c : Nat) : State := pmuEvent (satAdd s (mcBase c + 0xA4) 0 16 1) (8 + c) 0x10

/-- The bursts that write a row unit whole: 28 data lines and four check lines (Table 17.1). -/
def unitBursts (s : State) (c : Nat) : State := pmuEvents (pmuEvents s (8 + c) 0x02 28) (8 + c) 0x09 4

/-- Row unit `u` is written with zero codewords ahead of the watermark (R394). -/
def initEarly (s : State) (c u : Nat) : State :=
  if unitInit s c u then s
  else
    let s := unitBursts (satAdd s (mcBase c + 0xA4) 16 16 1) c
    setChan s c { chan s c with early := (chan s c).early ++ [u] }

-- the rebuild and the write burst

/-- The other data lines of the check line of line `m` that have no check bytes in the write queue: those a rebuild poisons
(R280). -/
def rebuilt (s : State) (c m : Nat) : List Nat :=
  ((List.range 7).map (fun i => m / 7 * 7 + i)).filter (fun k => k != m && !(chan s c).wrq.any (fun w => w.m == k && w.full))

/-- The sealed region of a line. -/
def sealedRegion (s : State) (c m : Nat) : Option Nat := (regionOf s (encodeAddr s c m)).filter (rgnSealed s)

/-- A check line that can no longer be decoded is rebuilt before a write that needs it (R280): every other data line it
covers that is not queued becomes poisoned in both halves, and a sealed one is owed the seal of its new image (R293). -/
def ccRebuild (s : State) (l : CheckLine) (m : Nat) : State × CheckLine :=
  let c := l.chan
  let lines := rebuilt s c m
  let s := lines.foldl (fun s k => slotWritten s c (k / 28) (k % 28)) (slotWritten s c l.unit (28 + l.k))
  let s := setChan s c { chan s c with toSeal := lines.filter (fun k => (sealedRegion s c k).isSome) ++ (chan s c).toSeal }
  let (s, bytes) := (List.range 7).foldl (fun (st : State × List Nat) i =>
    let m' := 28 * l.unit + 7 * l.k + i
    if m' = m then (st.1, st.2 ++ natBytes 8 0)
    else match (chan st.1 c).wrq.find? (fun w => w.m == m' && w.full) with
      | some w => (st.1, st.2 ++ natBytes 8 w.check.toNat)
      | none =>
        let d := fillMarked 0 3
        (dramSet st.1 (dramKey c l.unit (7 * l.k + i)) d, st.2 ++ natBytes 8 (dataCheck d c m' 3).toNat)) (s, [])
  let l : CheckLine := ⟨c, l.unit, l.k, bytesLine bytes, true, false⟩
  let s := ccPut s l
  let p := placeOf s c l.unit
  let s := logRecord s 5 (8 + c) 0 0 (p.row + 2 ^ 18 * p.bank + 2 ^ 22 * p.rank + 2 ^ 23 * (28 + l.k))
  (report s (8 + c) 5, l)

/-- The write burst of a data line for source `src`: its bytes into the slot, its check bytes into the cached check line
(R279), which is read first, or rebuilt, when it must be (R280). Above the watermark its row unit is initialised first
(R394). -/
def writeBurst (s : State) (c m : Nat) (stored : LineData) (ck : BitVec 64) (src : Nat) : State :=
  let u := m / 28
  let (s, l, _) := checkLine (initEarly s c u) c u (m % 28 / 7) 0 false src
  let (s, l) := if l.bad then ccRebuild s l m else (s, l)
  let s := ccPut s { l with data := lineSet l.data (8 * (m % 7)) 8 ck.toNat, dirty := true }
  dramSet (slotWritten (pmuEvent s (8 + c) 0x02) c u (m % 28)) (dramKey c u (m % 28)) stored

-- failures of sealed lines (Table 11.6)

/-- A tag (kind 0) or node (kind 1) mismatch on line `m` of channel `c`: status, count, record and event. -/
def sealFail (s : State) (c m k src region : Nat) (inj : Bool) : State :=
  let n := engineOf s c
  if inj && s.faults.blotSuppress then injectedEvent s n (11 + k)
  else
    let s := raiseSeal s k (BitVec.ofNat 5 src) n region (rgnRealm s region) (encodeAddr s c m)
    let s := logRecord (satAdd s 0x360420 (16 * k) 16 1) (6 + k) n src region ((2 * m + c % 2) % 2 ^ 29 + 2 ^ 29 * (c / 2))
    if inj then injectedEvent s n (11 + k) else report s n (11 + k)

/-- The tag checker (kind 0) or node checker (kind 1) of the engine that serves channel `c` compares two fields that differ by
`diff`, for line `m` and source `src`: its verdict, under the blotter that of the masked field, is reported (R388). A field
that an error has spoiled (`spoiled`) is a mismatch under any mask. -/
def sealVerdict (s : State) (c m k src region diff : Nat) (spoiled : Bool) : State :=
  let n := engineOf s c
  let armed := blotArmed s (10 + k) n
  let seen := BitVec.ofNat 56 diff ^^^ (blotMask s (10 + k) n).setWidth 56
  let s := blotUse s (10 + k) n
  if spoiled || seen != 0 then sealFail s c m k src region armed else s

-- metadata (R294 to R298)

/-- First channel line number of the 2 MiB block `b` on every channel, and the lines of `n` blocks there. -/
def runStart (s : State) (b : Nat) : Nat :=
  let gl := grainLines s
  ((b * 2 ^ 21 - windowBase s) / 64 / 2 ^ gl / 2 ^ chanBits s) * 2 ^ gl

/-- Lines of region `i` on one channel. -/
def regionLines (s : State) (i : Nat) : Nat :=
  (getFld s (rgnBase i + 4) 0 27 + 1 - getFld s (rgnBase i) 0 27) * 2 ^ 15 / 2 ^ chanBits s

/-- Ceiling of `a / b`. -/
def divUp (a b : Nat) : Nat := (a + b - 1) / b

/-- Nodes of tree level `l` of region `i` on one channel; level 0 is the version lines (R294). -/
def levelSize (s : State) (i : Nat) : Nat → Nat
  | 0 => divUp (regionLines s i) 9
  | l + 1 => divUp (levelSize s i l) 8

/-- The highest stored level: the first with at most 8 nodes. -/
def topLevel (s : State) (i : Nat) : Nat := ((List.range 10).find? (fun l => decide (levelSize s i l ≤ 8))).getD 0

/-- Channel line number of node `j` of level `l` of region `i` (R294): tag lines, version lines, then the
levels upward. -/
def nodeLine (s : State) (i l j : Nat) : Nat :=
  let start := runStart s (getFld s (rgnBase i + 0xC) 0 27)
  start + divUp (regionLines s i) 9 + ((List.range l).map (levelSize s i)).sum + j

/-- Channel line number of the tag line of data line `d` of region `i`. -/
def tagLine (s : State) (i d : Nat) : Nat := runStart s (getFld s (rgnBase i + 0xC) 0 27) + d / 9

/-- The cached metadata line, if any. -/
def ctcFind (s : State) (c m : Nat) : Option MetaLine :=
  (slice s (engineOf s c)).ctc.find? (fun l => l.chan == c && l.m == m)

/-- The root of tree slot `t` on channel `c`: eight 56-bit MACs (R297). -/
def rootGet (s : State) (t c : Nat) : BitVec 448 := cellsGet (fun _ => 0) s.aon.roots (t * 16 + c)

/-- Replace a root. -/
def rootSet (s : State) (t c : Nat) (v : BitVec 448) : State :=
  { s with aon := { s.aon with roots := cellsSet (fun _ => 0) s.aon.roots (t * 16 + c) v } }

/-- The MAC of node `j` of level `l` of region `i` on channel `c`; 0 is stored as 1 (R295). -/
def nodeMac (s : State) (i c l j : Nat) (d : LineData) : Nat :=
  let tree := bitsOf (rgnAttr s i) 16 3
  let t := (cmac (regionKey s i labelNode) (lineBytes d ++ [c, tree, l] ++ natBytes 4 j ++ [0])).toNat / 2 ^ 72
  if t = 0 then 1 else t

/-- The field of node `j` of level `l` in its cached parent, or in the root (R294, R297). -/
def parentField (s : State) (i c l j : Nat) : Nat :=
  if l = topLevel s i then ((rootGet s (bitsOf (rgnAttr s i) 16 3) c).toNat / 2 ^ (56 * (j % 8))) % 2 ^ 56
  else match ctcFind s c (nodeLine s i (l + 1) (j / 8)) with
    | some p => lineNat p.data (7 * (j % 8)) 7
    | none => 0

/-- The field of node `j` of level `l` becomes `mac` in its cached parent, which is dirty then, or in the root (R296). -/
def parentSet (s : State) (i c l j mac : Nat) : State :=
  if l = topLevel s i then
    let t := bitsOf (rgnAttr s i) 16 3
    let r := rootGet s t c
    let old := (r.toNat / 2 ^ (56 * (j % 8))) % 2 ^ 56
    rootSet s t c (BitVec.ofNat 448 (r.toNat - old * 2 ^ (56 * (j % 8)) + mac * 2 ^ (56 * (j % 8))))
  else
    let n := engineOf s c
    let x := slice s n
    let put := fun (e : MetaLine) => { e with data := lineSet e.data (7 * (j % 8)) 7 mac, dirty := true }
    setSlice s n { x with ctc := mapIf (fun e => e.chan == c && e.m == nodeLine s i (l + 1) (j / 8)) put x.ctc }

/-- A dirty metadata line is written back under the plain line code (bulk, unmarked); that of a version line or a node
updates its field in the parent (R296). -/
def metaStore (s : State) (l : MetaLine) : State :=
  let s := match l.pos with
    | some (i, v, j) => parentSet s i l.chan v j (nodeMac s i l.chan v j l.data)
    | none => s
  writeBurst s l.chan l.m l.data (dataCheck l.data l.chan l.m 0) 0

/-- A dirty metadata line whose write burst must wait keeps its place in the cache (R394). -/
def metaHeld (s : State) (l : MetaLine) : Bool := l.dirty && writeHeld s l.chan l.m

/-- A node of which a child is among the lines `x` stays cached (R296). -/
def hasChild (x : List MetaLine) (e : MetaLine) : Bool :=
  match e.pos with
  | some (i, v, j) => x.any (fun y => y.chan == e.chan && (match y.pos with
    | some (i', v', j') => i' == i && v' + 1 == v && j' / 8 == j
    | none => false))
  | none => false

/-- Put a metadata line in the counter-tree cache as most recently used; beyond 5,120 lines the least recently used leaves that
is neither pinned nor above a cached child nor held back by R394, written back when dirty (R296, R298). The manual gives
neither ways nor a policy; the model's cache is fully associative and replaces the least recently used (DESIGN CHOICE,
assumption 16). -/
def ctcPut (s : State) (l : MetaLine) : State :=
  let n := engineOf s l.chan
  let x := slice s n
  let rest := x.ctc.filter (fun e => !(e.chan == l.chan && e.m == l.m))
  if rest.length < 5120 then setSlice s n { x with ctc := l :: rest }
  else
    match (rest.filter (fun e => !e.pinned && !hasChild (l :: rest) e && !metaHeld s e)).getLast? with
    | none => setSlice s n { x with ctc := l :: rest }
    | some v =>
      let s := setSlice s n { x with ctc := l :: rest.filter (fun e => e != v) }
      if v.dirty then metaStore s v else s

/-- A metadata line is read and decoded: above the watermark it is zeros (R394). One that cannot be decoded, or that a rebuild
has poisoned, is bad (R265, R280); one that was corrected enters dirty, and that is its corrective write (R264). -/
def metaRead (s : State) (c m : Nat) (pos : Option (Nat × Nat × Nat)) : State × MetaLine :=
  let u := m / 28
  let slot := m % 28
  let s := pmuEvent s (engineOf s c) 0x12
  if !unitInit s c u then (countZero s c, ⟨c, m, 0, false, false, pos, false⟩)
  else
    let (s, l, _) := checkLine (pmuEvent s (8 + c) 0x01) c u (slot / 7) 0 false 0
    match dataDecode s c m (dramGet s (dramKey c u slot)) l false 0 with
    | (s, .data d k) => (s, ⟨c, m, d, decide (0 < k), false, pos, false⟩)
    | (s, .marked _ _ _) => (s, ⟨c, m, 0, false, false, pos, true⟩)
    | (s, .uncorrectable) => (s, ⟨c, m, 0, false, false, pos, true⟩)

/-- A metadata line that needs no tree check, from the cache or fetched: a tag line (R296). -/
def ctcFetch (s : State) (c m : Nat) : State × MetaLine :=
  match ctcFind s c m with
  | some l => (ctcPut s l, l)
  | none =>
    let (s, l) := metaRead s c m none
    (ctcPut s l, l)

/-- What a node is checked for: a line of the channel, and the source that is named in a report. -/
structure SealUse where
  line : Nat
  src : Nat
  deriving DecidableEq, Repr

/-- Node `j` of level `l` enters the cache beneath its verified parent (R295): not fetched where the parent's field is 0,
otherwise fetched, and used only if its MAC is that field; a mismatch is reported for `use`. `bad` is a fetch that an error
spoils; a node that cannot be decoded counts as a mismatch too (DESIGN CHOICE, assumption 78). Answers whether it may be
used. -/
def nodeEnter (s : State) (i c l j : Nat) (bad : Bool) (use : SealUse) : State × Bool :=
  let f := parentField s i c l j
  let m := nodeLine s i l j
  if f = 0 then (ctcPut s ⟨c, m, 0, false, false, some (i, l, j), false⟩, true)
  else
    let (s, e) := metaRead s c m (some (i, l, j))
    let mac := nodeMac s i c l j e.data
    let s := sealVerdict s c use.line 1 use.src i (mac ^^^ f) (bad || e.bad)
    if bad ∨ e.bad ∨ mac ≠ f then (s, false) else (ctcPut s e, true)

/-- The lowest level from `l` upward at which the path of version line `v` is cached, or the one above the top. -/
def pathCached (s : State) (i c v : Nat) : Nat → Nat → Nat
  | 0, l => l
  | fuel + 1, l =>
    if topLevel s i < l ∨ (ctcFind s c (nodeLine s i l (v / 8 ^ l))).isSome then l else pathCached s i c v fuel (l + 1)

/-- The levels below `l` of the path of version line `v` enter the cache from the top downward, as far as each may be used:
answers the level that failed (R295, R298). -/
def pathDown (s : State) (i c v : Nat) (bad : Option Nat) (use : SealUse) : Nat → State × Option Nat
  | 0 => (s, none)
  | l + 1 =>
    let (s, ok) := nodeEnter s i c l (v / 8 ^ l) (bad == some l) use
    if ok then pathDown s i c v bad use l else (s, some l)

/-- What the engine makes of a line that enters the write queue: stored bytes, mark and check bytes. -/
structure Stored where
  data : LineData
  mark : BitVec 8
  check : BitVec 64
  deriving DecidableEq, Repr

/-- Encrypt a line, leaving filled halves as fill (R293 step 2). -/
def encryptLine (s : State) (i pa version mu : Nat) (d : LineData) : LineData :=
  fillMarked (xts (aes256 (regionKey s i labelData)) (regionKey s i labelTweak) (sealTweak pa version) d) mu

/-- Line `d` of region `i` on channel `c` lies under a node whose MAC failed (Table 11.6). -/
def underBadNode (s : State) (i c d : Nat) : Bool :=
  (slice s (c / 2)).nodeBad.any (fun r =>
    r.region == i && r.chan == c && r.node == d / 9 / 8 ^ r.level)

/-- Node `j` of level `l` has failed: nothing beneath it is used until `REGION_SET` makes the region anew (Table 11.6). -/
def failNode (s : State) (i c l j : Nat) : State :=
  let x := slice s (c / 2)
  setSlice s (c / 2) { x with nodeBad := ⟨i, c, l, j⟩ :: x.nodeBad }

/-- The path of data line `d` of fresh region `i` is fetched and verified for `use`; a node that fails is remembered (R295,
R298). Answers whether the line lies under a failed node. -/
def sealPath (s : State) (i c d : Nat) (bad : Option Nat) (use : SealUse) : State × Bool :=
  if !rgnFresh s i then (s, false)
  else if underBadNode s i c d then (s, true)
  else
    match pathDown s i c (d / 9) bad use (pathCached s i c (d / 9) 10 0) with
    | (s, none) => (s, false)
    | (s, some l) => (failNode s i c l (d / 9 / 8 ^ l), true)

/-- The number of line `m` among the data lines of region `i` on its channel (R294). -/
def dataIndex (s : State) (i m : Nat) : Nat := m - runStart s (getFld s (rgnBase i) 0 27)

/-- The cached version line of data line `d` and its version there. -/
def versionOf (s : State) (i c d : Nat) : Option (MetaLine × Nat) :=
  (ctcFind s c (nodeLine s i 0 (d / 9))).map (fun vl => (vl, lineNat vl.data (7 * (d % 9)) 7))

/-- The version of data line `d` is used: its line becomes the most recent of the cache. In a region that is not fresh the
version is 0. -/
def versionUse (s : State) (i c d : Nat) : State × Option MetaLine × Nat :=
  match if rgnFresh s i then versionOf s i c d else none with
  | some (vl, v) => (ctcPut s vl, some vl, v)
  | none => (s, none, 0)

/-- The five steps of R293 for a line of a sealed region, with a node check reported for source `src`; a Bulk line is only
filled and encoded. A tag line that cannot be decoded takes no tag, and beneath a failed node no version changes: such lines
are not readable (DESIGN CHOICE, assumption 78). -/
def sealLine (s : State) (c m : Nat) (img : LineImg) (src : Nat) : State × Stored :=
  let pa := encodeAddr s c m
  let mu := markOf img
  match sealedRegion s c m with
  | some i =>
    let d := dataIndex s i m
    let (s, _) := sealPath s i c d none ⟨m, src⟩
    let (s, vl, old) := versionUse s i c d
    let v := if rgnFresh s i then old + 1 else 0
    let st := encryptLine s i pa v mu (fillMarked img.data mu)
    let tag := sealTag (regionKey s i labelTag) st pa v mu
    let (s, tl) := ctcFetch s c (tagLine s i d)
    let s := if tl.bad then s else ctcPut s { tl with data := lineSet tl.data (7 * (d % 9)) 7 tag, dirty := true }
    let s := match vl with
      | some l => ctcPut s { l with data := lineSet l.data (7 * (d % 9)) 7 v, dirty := true }
      | none => s
    (s, ⟨st, BitVec.ofNat 8 mu, dataCheck st c m mu⟩)
  | none =>
    let st := fillMarked img.data mu
    (s, ⟨st, BitVec.ofNat 8 mu, dataCheck st c m mu⟩)

/-- A write of line `m` of channel `c` for source `src`: its path is verified, and the write is refused under a failed node,
which is reported when it is found (Table 11.6). -/
def sealProbe (s : State) (c m : Nat) (src : BitVec 5) : State × Bool :=
  match sealedRegion s c m with
  | some i => sealPath s i c (dataIndex s i m) none ⟨m, src.toNat⟩
  | none => (s, false)

/-- Line `m` of channel `c` lies under a failed node. -/
def sealBroken (s : State) (c m : Nat) : Bool :=
  match sealedRegion s c m with
  | some i => rgnFresh s i && underBadNode s i c (dataIndex s i m)
  | none => false

/-- The image of a line of which `d` are the bytes and `mu` is the mark (Table 11.1). -/
def markedImg (mu : Nat) (d : LineData) : LineImg := if mu = 4 then ⟨0, 3, true⟩ else ⟨d, BitVec.ofNat 2 mu, false⟩

/-- The plaintext image of the decoded bytes of line `m` of channel `c` under mark `mu`, read for source `src`; none where its
tag or a node fails, which is reported (R291, R292, Table 11.6). `badNode`: the level of a node that is fetched for it and
spoiled. A tag line that cannot be decoded counts as a tag mismatch (DESIGN CHOICE, assumption 78). A line that a rebuild has
poisoned and whose seal is owed is poisoned (R280). -/
def unsealLine (s : State) (c m mu : Nat) (d : LineData) (badNode : Option (Fin 10)) (src : Nat) :
    State × Option LineImg :=
  match sealedRegion s c m with
  | some i =>
    if (chan s c).toSeal.contains m then (s, some (markedImg mu d))
    else
      let pa := encodeAddr s c m
      let k := dataIndex s i m
      let known := rgnFresh s i && underBadNode s i c k
      let (s, bad) := sealPath s i c k (badNode.map (·.val)) ⟨m, src⟩
      if bad then (if known then sealFail s c m 1 src i false else s, none)
      else
        let (s, _, v) := versionUse s i c k
        let (s, tl) := ctcFetch s c (tagLine s i k)
        let tag := lineNat tl.data (7 * (k % 9)) 7
        if tl.bad then (sealVerdict s c m 0 src i 0 true, none)
        else if (if rgnFresh s i then v = 0 else tag = 0) then (sealVerdict s c m 0 src i 0 false, some ⟨0, 0, false⟩)
        else
          let diff := sealTag (regionKey s i labelTag) d pa v mu ^^^ tag
          let s := sealVerdict s c m 0 src i diff false
          if diff ≠ 0 then (s, none)
          else
            let p := xts (aes256Inv (regionKey s i labelData)) (regionKey s i labelTweak) (sealTweak pa v) d
            (s, some (markedImg mu p))
  | none => (s, some (markedImg mu d))

/-- The seals that rebuilds owe to lines of channel `c` are made (R280, R293). -/
def sealRebuilt (s : State) (c : Nat) : State :=
  (chan s c).toSeal.foldl (fun s m =>
    let s := (sealLine s c m ⟨0, 3, false⟩ 0).1
    setChan s c { chan s c with toSeal := (chan s c).toSeal.filter (· != m) }) s

/-- Those of every channel. -/
def sealOwed (s : State) : State := forEach 16 s sealRebuilt

/-- The dirty metadata lines of slice `n` that `sel` picks are written back, but for those that R394 holds back. -/
def flushMeta (s : State) (n : Nat) (sel : MetaLine → Bool) : State :=
  ((slice s n).ctc.filter (fun e => e.dirty && sel e)).foldl (fun s e =>
    if metaHeld s e then s
    else
      let e := (ctcFind s e.chan e.m).getD e
      let s := metaStore s e
      let clean := fun (x : MetaLine) => x.chan == e.chan && x.m == e.m
      setSlice s n { slice s n with ctc := mapIf clean (fun x => { x with dirty := false }) (slice s n).ctc }) s

/-- The metadata lines of slice `n`, each level of the trees before the level above it. -/
def flushTrees (s : State) (n : Nat) : State :=
  forEach 10 (flushMeta s n (fun e => e.pos.isNone)) (fun s l => flushMeta s n (fun e => e.pos.any (fun p => p.2.1 == l)))

/-- A metadata line of slice `n` is still to be written back. -/
def metaDirty (s : State) (n : Nat) : Bool := (slice s n).ctc.any (·.dirty)

/-- Every dirty metadata line of slice `n` that may be written is written back, with what rebuilds owe, and then every dirty
check line (M7 Drain, Retention, Wipe: R14, R296). -/
def flushCaches (s : State) (n : Nat) : State :=
  let s := flushTrees (sealOwed (flushTrees s n)) n
  let s := (slice s n).cc.foldl ccWriteBack s
  setSlice s n { slice s n with cc := (slice s n).cc.map (fun l => { l with dirty := false }) }

end Sys2Proof.Machine
end

