-- ==== Sys2Proof/Machine/Memory.lean ====
section
/-! DEFINITION. The write queue and the read queue of a channel (R248 to R251, R266, R281) with the mirror hook. -/

namespace Sys2Proof.Machine

/-- Queue room for one more write (R248); `dl`: an admitted Deadline request, whose entry its admission reserved (R307). -/
def wrqRoom (s : State) (c : Nat) (dl : Bool) : Bool :=
  let q := (chan s c).wrq
  decide (q.length < 64) && (dl || decide ((q.filter (fun w => !w.dl)).length < 56))

/-- Read-queue entries taken: the reads of requests (MC_STATUS.RDQ). -/
def rdqTaken (x : Chan) : Nat := (x.rdq.filter (fun r => isEntryRead r.use)).length

/-- Queue room for one more read of the VC (R248). -/
def rdqRoom (s : State) (c : Nat) (dl : Bool) : Bool :=
  let q := (chan s c).rdq.filter (fun r => isEntryRead r.use)
  decide (rdqTaken (chan s c) < 96) && (dl || decide ((q.filter (fun r => !r.dl)).length < 72))

/-- A read joins the queue of channel `c` under the next number. -/
def pushRead (s : State) (c : Nat) (r : RdReq) : State :=
  let x := chan s c
  setChan s c { x with rdq := x.rdq ++ [{ r with id := x.rdNext }], rdNext := x.rdNext + 1 }

/-- The write-queue entry of line `m`. -/
def wrqFind (s : State) (c m : Nat) : Option WrReq := (chan s c).wrq.find? (fun w => w.m == m)

/-- Whether a write of the line may enter: its line is queued, or there is room. -/
def wrqAccepts (s : State) (c m : Nat) (dl : Bool) : Bool := (wrqFind s c m).isSome || wrqRoom s c dl

/-- Replace the write queue of channel `c`. -/
def setWrq (s : State) (c : Nat) (q : List WrReq) : State := setChan s c { chan s c with wrq := q }

/-- A write of line `m` of channel `c` makes the memory image that an entry of the line already holds old (R307). -/
def memOld (s : State) (c m : Nat) : State :=
  let h := homeOfLine s c m
  let x := slice s h.slice
  let old := fun (e : Entry) => e.line == h.line && (match e.mem with
    | .got _ _ => true
    | _ => false)
  setSlice s h.slice { x with entries := mapIf old (fun e => { e with mem := .wanted }) x.entries }

/-- Put entry `w` in the place of the entry of its line, or at the end. A read of the line already issued is
overtaken: no corrective write may follow from it (R266). -/
def wrqStore (s : State) (c : Nat) (w : WrReq) : State :=
  let s := memOld s c w.m
  let x := chan s c
  let s := setChan s c { x with rdq := mapIf (fun r => r.m == w.m && r.issued) (fun r => { r with overtaken := true }) x.rdq }
  let q := (chan s c).wrq
  if q.any (fun e => e.m == w.m) then setWrq s c (q.map (fun e => if e.m == w.m then w else e))
  else setWrq s c (q ++ [w])

/-- A fresh write order of channel `c`. -/
def takeOrder (s : State) (c : Nat) : Nat × State :=
  let x := chan s c
  (c + 16 * x.wrOrder, setChan s c { x with wrOrder := x.wrOrder + 1 })

/-- The order a write of line `m` takes: that of the merge entry it completes, or a fresh one. -/
def orderFor (s : State) (c m : Nat) : Nat × State :=
  match wrqFind s c m with
  | some w => if w.full then takeOrder s c else (w.order, s)
  | none => takeOrder s c

/-- Who writes: source, priority, VC. -/
structure Writer where
  src : BitVec 5
  prio : BitVec 2
  dl : Bool
  deriving DecidableEq, Repr, Inhabited

/-- A full image of line `m` enters the write queue, sealed and encoded, and is mirrored (R249, R293, R352). An entry that holds
a Deadline write keeps its reserved place (R248, R307). Of an entry that holds writes of several requests the manual does not
say whose source, priority and arrival count: a full image brings its own source and priority and keeps the first arrival
(DESIGN CHOICE, assumption 94). Answers its order. -/
def wqFull (s : State) (c m : Nat) (img : LineImg) (w : Writer) : State × Nat :=
  let (o, s) := orderFor s c m
  let old := wrqFind s c m
  let (s, st) := sealLine s c m img w.src.toNat
  let e : WrReq := { m := m, full := true, img := img, be := BitVec.allOnes 64, stored := st.data, mark := st.mark,
                     check := st.check, src := w.src, prio := w.prio, dl := w.dl || old.any (·.dl),
                     arrival := (old.map (·.arrival)).getD s.tick, order := o, marking := img.lost, raw := false, first := true }
  (mirrorLine (wrqStore s c e) (engineOf s c) w.prio (encodeAddr s c m) img o, o)

/-- Byte enables of half `h`. -/
def beHalf (be : BitVec 64) (h : Bool) : BitVec 32 := be.extractLsb' (if h then 32 else 0) 32

/-- One half of a merge under R281: the source half with its poison, and the written bytes. -/
def mergeHalf (src : HalfData) (srcBad : Bool) (new : HalfData) (newBad : Bool) (be : BitVec 32) : HalfData × Bool :=
  if be = 0 then (src, srcBad)
  else if newBad then (new, true)
  else if be = BitVec.allOnes 32 then (new, false)
  else if srcBad then (src, true)
  else (lineHalf (mergeBytes (src.setWidth 512) (new.setWidth 512) (be.setWidth 64)) false, false)

/-- The image that written bytes make of a source image (R281): a lost source stays lost. -/
def mergeImg (src : LineImg) (data : LineData) (poison : BitVec 2) (be : BitVec 64) : LineImg :=
  if src.lost then src
  else
    let (d0, p0) := mergeHalf (lineHalf src.data false) (src.poison.getLsbD 0) (lineHalf data false)
      (poison.getLsbD 0) (beHalf be false)
    let (d1, p1) := mergeHalf (lineHalf src.data true) (src.poison.getLsbD 1) (lineHalf data true)
      (poison.getLsbD 1) (beHalf be true)
    ⟨d1 ++ d0, BitVec.ofNat 2 (b2n p0 + 2 * b2n p1), false⟩

/-- The enables a write leaves in a merge entry: a poisoned half with a byte enabled covers its half (R281). -/
def coverBe (poison : BitVec 2) (be : BitVec 64) : BitVec 64 :=
  let cov := fun (h : Bool) (p : Bool) => if p && beHalf be h != 0 then BitVec.allOnes 32 else beHalf be h
  cov true (poison.getLsbD 1) ++ cov false (poison.getLsbD 0)

/-- Written bytes accumulate in a merge entry in arrival order (R249), which keeps source, priority and arrival of its first
write (DESIGN CHOICE, assumption 94). -/
def accumulate (w : WrReq) (data : LineData) (poison : BitVec 2) (be : BitVec 64) : WrReq :=
  let half := fun (h : Bool) =>
    let i := if h then 1 else 0
    let eb := beHalf be h
    if eb = 0 then w.img.poison.getLsbD i
    else if poison.getLsbD i then true
    else if eb = BitVec.allOnes 32 then false else w.img.poison.getLsbD i
  { w with img := ⟨mergeBytes w.img.data data be, BitVec.ofNat 2 (b2n (half false) + 2 * b2n (half true)), false⟩,
           be := w.be ||| coverBe poison be }

/-- The plaintext image of a full entry: a corrective entry is unsealed from its stored codeword. -/
def entryImg (s : State) (c : Nat) (w : WrReq) : LineImg :=
  if w.raw then ((unsealLine s c w.m w.mark.toNat w.stored none 0).2).getD ⟨0, 3, false⟩ else w.img

/-- A `WrInvPartial` of line `m`: merged into a full entry, added to a merge entry, or a new merge entry with a
merge read (R249, R281). Answers its order. -/
def wqPartial (s : State) (c m : Nat) (data : LineData) (poison : BitVec 2) (be : BitVec 64) (w : Writer) :
    State × Nat :=
  match wrqFind s c m with
  | some e =>
    if e.full then wqFull s c m (mergeImg (entryImg s c e) data poison be) w
    else (wrqStore s c { accumulate e data poison be with dl := e.dl || w.dl }, e.order)
  | none =>
    let (o, s) := takeOrder s c
    let e : WrReq := { m := m, full := false, img := ⟨0, 0, false⟩, be := 0, stored := 0, mark := 0, check := 0,
                       src := w.src, prio := w.prio, dl := w.dl, arrival := s.tick, order := o, marking := false,
                       raw := false, first := true }
    let s := wrqStore s c (accumulate e data poison be)
    let r : RdReq := { id := 0, m := m, use := .merge, src := w.src, prio := w.prio, dl := w.dl, arrival := s.tick,
                       first := true, issued := false, overtaken := false }
    (pushRead s c r, o)

/-- The merge source arrives: the entry becomes full (R249). An uncorrectable source leaves the unwritten bytes
poisoned (R122). -/
def wqMerged (s : State) (c m : Nat) (src : LineImg) : State :=
  match wrqFind s c m with
  | some e =>
    if e.full then s
    else
      let img := mergeImg src e.img.data e.img.poison e.be
      (wqFull s c m img ⟨e.src, e.prio, e.dl⟩).1
  | none => s

/-- A corrective write (R266): dropped when the line is queued, was written since, or there is no room, and in M10. It is
neither sealed again nor mirrored. -/
def wqCorrective (s : State) (c m mu : Nat) (stored : LineData) (r : RdReq) : State :=
  if r.overtaken ∨ (wrqFind s c m).isSome ∨ !wrqRoom s c false ∨ inSafe s then s
  else
    let (o, s) := takeOrder s c
    wrqStore s c { m := m, full := true, img := ⟨0, 0, false⟩, be := BitVec.allOnes 64, stored := stored,
                   mark := BitVec.ofNat 8 mu, check := dataCheck stored c m mu, src := r.src, prio := 0, dl := false,
                   arrival := s.tick, order := o, marking := false, raw := true, first := true }

/-- The synchronous confirmation of order `o` is outstanding: in the mirror, or in a merge entry of a synchronous
window that is not yet full (R358). -/
def syncHeld (s : State) (o : Nat) : Bool :=
  mirrorHolds s o ||
    ((chan s (o % 16)).wrq.any (fun w => w.order == o && !w.full &&
      match mwOf s (encodeAddr s (o % 16) w.m) with
      | some k => twinRole s == 1 && mwSync s k && mwState s k != 3 && mwState s k != 0
      | none => false))

/-- Full-line forwarding (R13, R250): the image a read of line `m` gets from a full entry. -/
def forwardRead (s : State) (c m : Nat) : Option LineImg :=
  match wrqFind s c m with
  | some w => if w.full then some (entryImg s c w) else none
  | none => none

end Sys2Proof.Machine
end

