-- ==== Sys2Proof/Machine/Filter.lean ====
section
/-! DEFINITION. The filter array of a slice (chapter 6): lookup, not-recently-used bits, victim choice, the victim
buffer, the checkers of an entry, and the states that snoop answers and notices leave. -/

namespace Sys2Proof.Machine

/-- What an unlisted way holds. -/
def noEntry : Nat → FEntry := fun _ => freeEntry

/-- A free entry describes no line (R135). -/
def isFree (e : FEntry) : Bool := e.summary == .i && e.presence == 0 && !e.walked && !e.lost

/-- A walk entry (R135). -/
def isWalk (e : FEntry) : Bool := e.summary == .i && e.walked && !e.lost

/-- Way `w` of set `st` of slice `n`. -/
def wayAt (s : State) (n st w : Nat) : FEntry := cellsGet noEntry (slice s n).filter (st * 12 + w)

/-- Write a way; an entry that describes no line becomes free. SLC_SF_OCC_HWM follows (R160). -/
def wayWrite (s : State) (n st w : Nat) (e : FEntry) : State :=
  let x := slice s n
  let f := cellsSet noEntry x.filter (st * 12 + w) (if isFree e then freeEntry else e)
  let s := setSlice s n { x with filter := f }
  let a := slcBase n + 0x208
  if getFld s a 0 18 < f.length then setFld s a 0 18 f.length else s

/-- Set and tag of line `l` in slice `n` (R134). -/
def lineSetTag (s : State) (n l : Nat) : Nat × BitVec 29 :=
  if pairJoined s (n / 2) then (placePair s (n / 2) l).2 else placeSlice l

/-- The ways that hit for line `l` (R136). -/
def hitWays (s : State) (n l : Nat) : List Nat :=
  let (st, t) := lineSetTag s n l
  (List.range 12).filter (fun w => !isFree (wayAt s n st w) && (wayAt s n st w).tag == t)

/-- The way that describes line `l`. -/
def hitWay (s : State) (n l : Nat) : Option Nat := (hitWays s n l).head?

/-- The entry of line `l`, free where there is none. -/
def entryOf (s : State) (n l : Nat) : FEntry :=
  match hitWay s n l with
  | some w => wayAt s n (lineSetTag s n l).1 w
  | none => { freeEntry with tag := (lineSetTag s n l).2 }

/-- The victim slot that holds line `l`. -/
def victimOf (s : State) (n l : Nat) : Option Victim := (slice s n).victims.find? (fun v => v.line == l)

/-- Not-recently-used bits of a set. -/
def nruOf (s : State) (n st : Nat) : BitVec 12 := cellsGet (fun _ => 0) (slice s n).nru st

/-- A hit or an allocation sets the way's bit; twelve ones clear the other eleven (R144). -/
def nruTouch (s : State) (n st w : Nat) : State :=
  let v := nruOf s n st ||| BitVec.ofNat 12 (2 ^ w)
  let v := if v = BitVec.allOnes 12 then BitVec.ofNat 12 (2 ^ w) else v
  let x := slice s n
  setSlice s n { x with nru := cellsSet (fun _ => 0) x.nru st v }

/-- SLC_SF_CFG.WALK_WAYS_MAX. -/
def walkWaysMax (s : State) (n : Nat) : Nat := min 11 (getFld s (slcBase n + 0x200) 0 4)

/-- Walk entries of a set. -/
def walkCount (s : State) (n st : Nat) : Nat := ((List.range 12).filter (fun w => isWalk (wayAt s n st w))).length

/-- An entry holds its line, active: neither waiting nor a reservation. -/
def isActive (e : Entry) : Bool := e.stage != .waiting && e.stage != .tentative && e.stage != .reserved

/-- The active entry of line `l`. -/
def activeEntry (s : State) (n l : Nat) : Option Entry :=
  (slice s n).entries.find? (fun e => e.line == l && isActive e)

/-- The running hold window of line `l`. -/
def holdOf (s : State) (n l : Nat) : Option Hold := (slice s n).holds.find? (fun h => h.line == l)

/-- A retry entry reserved by a grant names no line until its reissue comes (R180). -/
def retryReserved (e : Entry) : Bool := e.stage == .reserved && e.pool == .retry

/-- Line `l` has an open transaction, a waiting request, a reservation, a running hold window, a reclamation slot, or
a notice in a lane (R142, R306). -/
def lineBusy (s : State) (n l : Nat) : Bool :=
  let x := slice s n
  x.entries.any (fun e => e.line == l && !retryReserved e) || x.holds.any (fun h => h.line == l) || x.reclaims.any (fun r => r.line == l)
    || x.lanes.any (fun t => t.line == l)

/-- Way `w` of set `st` is reserved by a tracker entry. -/
def wayReserved (s : State) (n st w : Nat) : Bool :=
  (slice s n).entries.any (fun e => e.way == some w && (lineSetTag s n e.line).1 == st)

/-- A busy way is never a victim (R142). -/
def wayBusy (s : State) (n st w : Nat) : Bool :=
  let e := wayAt s n st w
  wayReserved s n st w || e.lost || (!isFree e && lineBusy s n (lineOfEntry s n st e.tag))

/-- Rotating pointer of a bank. -/
def bankPtr (s : State) (n b : Nat) : Nat := (slice s n).ptr.getD b 0

/-- The key of R143. -/
def victimKey (e : FEntry) (nru : Bool) : Nat :=
  let cls := match e.summary with
    | .i => 0
    | .sh => if pop24 e.presence = 1 then 1 else 2
    | .ex => 3
    | .ow => 4
  2 * cls + b2n nru

/-- Victim choice (R143). -/
def victimChoice (s : State) (n st : Nat) (walkEntry : Bool) : Option Nat :=
  let order := (List.range 12).map (fun i => (bankPtr s n (st % 4) + i) % 12)
  match order.find? (fun w => isFree (wayAt s n st w) && !wayBusy s n st w) with
  | some w => some w
  | none =>
    if walkEntry then none
    else
      let best := order.foldl (fun (b : Option (Nat × Nat)) w =>
        if wayBusy s n st w then b
        else
          let k := victimKey (wayAt s n st w) ((nruOf s n st).getLsbD w)
          match b with
          | some (_, kb) => if k < kb then some (w, k) else b
          | none => some (w, k)) none
      best.map (·.1)

/-- A free victim slot of bank `b`: 0 to 2, and slot 3 for a Deadline allocation (R149). -/
def freeVictimSlot (s : State) (n b : Nat) (dl : Bool) : Option Nat :=
  let used := (slice s n).victims.map (·.slot)
  ((List.range (if dl then 4 else 3)).map (fun i => 4 * b + i)).find? (fun i => !used.contains i)

-- the checkers of a lookup (R152, R155, R156, Table 15.9)

/-- Capture word of SLC_SF_ERR_INFO (Table 6.11). -/
def sfInfo (st w syn kind : Nat) : Word := BitVec.ofNat 32 (st + 2 ^ 14 * w + 2 ^ 18 * (syn % 512) + 2 ^ 27 * kind + 2 ^ 31)

/-- A detection of kind `k`: 0 CORR, 1 UNCORR, 2 MULTIHIT, 3 NRU_PAR. -/
def sfDetect (s : State) (n k st w syn : Nat) : State :=
  raiseErr s (slcBase n + 0x210) k (slcBase n + 0x214) (sfInfo st w syn k)

/-- A corrected entry: counted, and one event at source 3, or an injected one (R152). -/
def sfCorrected (s : State) (n st w syn : Nat) (inj : Bool) : State :=
  if inj && s.faults.blotSuppress then injectedEvent s n 3
  else
  let s := pmuEvent (satAdd (sfDetect s n 0 st w syn) (slcBase n + 0x218) 0 16 1) n 0x09
  if inj then injectedEvent s n 3 else report s n 3

/-- Take-up for the set stops, for good until reset (R155). -/
def stopSet (s : State) (n st : Nat) : State := setSlice s n { slice s n with stopSets := st :: (slice s n).stopSets }

/-- Take-up for the bank stops (R155). -/
def stopBank (s : State) (n b : Nat) : State :=
  setSlice s n { slice s n with stopBanks := (slice s n).stopBanks ||| BitVec.ofNat 4 (2 ^ b) }

/-- An uncorrectable entry or a double hit: take-up of the set stops and source 4 fires (R155); under SUPPRESS an
injected one sets its event alone (R389). -/
def sfUncorrectable (s : State) (n k st w syn : Nat) (inj : Bool) : State :=
  if inj && s.faults.blotSuppress then injectedEvent s n 4
  else
  let s := sfDetect s n k st w syn
  if inj then injectedEvent (if 12 ≤ w then stopBank s n (st % 4) else stopSet s n st) n 4
  else report (if 12 ≤ w then stopBank s n (st % 4) else stopSet s n st) n 4

/-- What the read of an entry, way `w` of set `st` (12 and above: a victim slot), finds in its code. -/
def codeFound (s : State) (n st w : Nat) (c : CodeErr) : State :=
  match c with
  | .clean => s
  | .single syn => sfCorrected s n st w syn.toNat false
  | .multi syn => sfUncorrectable s n 1 st w syn.toNat false

/-- The check of an entry that checker `k` of the blotter reaches, with error `c` in the array: one verdict, that of the field
with the mask applied. The code detects every error in three adjacent bits (R152); the syndrome follows from equations the
manual does not give, so it is a free value (R388). -/
def codeCheck (s : State) (n k st w : Nat) (c : CodeErr) : State :=
  let m := blotMask s k n
  let armed := blotArmed s k n
  let s := blotUse s k n
  if !armed ∨ maskWeight m 9 = 0 then codeFound s n st w c
  else
    let (f, s) := takeFree s
    match if c = .clean ∧ threeAdjacent m 9 then 2 else codeVerdict c m 9 with
    | 1 => sfCorrected s n st w f.toNat true
    | 2 => sfUncorrectable s n 1 st w f.toNat true
    | _ => s

/-- The parity check of the set's not-recently-used bits: an error is recorded with WAY 0 (DESIGN CHOICE, assumption 79). One in
the array clears the twelve bits (R156); the blotter changes what is recorded alone (R388). -/
def nruCheck (s : State) (n st : Nat) (bad : Bool) : State :=
  let inj := blotArmed s 6 n && (blotMask s 6 n).getLsbD 0
  let s := blotUse s 6 n
  let s := if inj != bad && !(inj && s.faults.blotSuppress) then sfDetect s n 3 st 0 0 else s
  if bad then setSlice s n { slice s n with nru := cellsSet (fun _ => 0) (slice s n).nru st 0 } else s

/-- The checks of one read of a set, and the errors that it finds in the array: of an entry, of a compared victim slot, or of the
parity of the not-recently-used bits (R152, R155, R156). The blotter reaches way `w`, which is the one that hits or way 0, and at
a lookup the lowest of the occupied slots of the bank's victim buffer (Table 15.9). -/
def setChecks (s : State) (n st w : Nat) (lookup : Bool) (e : SetErr) : State :=
  let used := ((slice s n).victims.filter (fun v => v.slot / 4 == st % 4)).map (fun v => v.slot % 4)
  let low := used.foldl min 3
  let wayErr := fun (k : Nat) => match e with
    | .entry i c => if i.val = k then c else .clean
    | _ => .clean
  let slotErr := fun (k : Nat) => match e with
    | .victim i c => if i.val = k ∧ used.contains k then c else .clean
    | _ => .clean
  let s := codeCheck s n 4 st w (wayErr w)
  let s := (List.range 12).foldl (fun s k => if k = w then s else codeFound s n st k (wayErr k)) s
  let s := if lookup ∧ !used.isEmpty then
      (List.range 4).foldl (fun s k => if k = low then s else codeFound s n st (12 + k) (slotErr k))
        (codeCheck s n 5 st (12 + low) (slotErr low))
    else s
  nruCheck s n st (e == .nruParity)

/-- A lookup for line `l`: counted, checked, and the way touched on a hit (R136, R144, R152, R155). `err`: what the read of
the set finds. A double hit is captured with its lowest way, and a parity error clears the bit that the hit itself has just set
(DESIGN CHOICE, assumption 79). -/
def filterLookup (s : State) (n l : Nat) (err : SetErr) : State :=
  let (st, _) := lineSetTag s n l
  let hits := hitWays s n l
  let s := pmuEvent s n 0x02
  let s := match hits with
    | w :: _ => nruTouch (pmuEvent s n 0x03) n st w
    | [] => s
  let s := setChecks s n st (hits.headD 0) true err
  if 2 ≤ hits.length then sfUncorrectable s n 2 st (hits.headD 0) 0 false else s

/-- Take-up of the line is stopped under R155. -/
def lookupStopped (s : State) (n l : Nat) : Bool :=
  let (st, _) := lineSetTag s n l
  (slice s n).stopSets.contains st || (slice s n).stopBanks.getLsbD (st % 4)

/-- A use of a tracker entry checks its parity (TRK_PAR, Table 15.9). -/
def trackerCheck (s : State) (n : Nat) : State :=
  if blotArmed s 7 n then
    let m := blotMask s 7 n
    let s := blotUse s 7 n
    if m.getLsbD 0 then injectedEvent s n 5 else s
  else s

-- states after answers and notices

/-- Agent `a` holds nothing any more: OW without its owner is SH (Tables 5.2, 5.6). -/
def viewDrop (v : FEntry) (a : Nat) : FEntry :=
  let p := v.presence &&& ~~~ (bit24 a)
  if p = 0 then { v with summary := .i, presence := 0, fwd := 0x1F }
  else if v.fwd.toNat = a then { v with summary := .sh, presence := p, fwd := 0x1F }
  else { v with presence := p }

/-- Agent `a` answered with final state `st` (R118). -/
def viewAnswer (v : FEntry) (a : Nat) (st : Nat) : FEntry :=
  match st with
  | 1 =>
    if v.fwd.toNat = a ∨ v.summary = .ex then
      { v with summary := .sh, presence := v.presence ||| bit24 a, fwd := 0x1F }
    else v
  | 2 => { v with summary := .sh, presence := v.presence ||| bit24 a, fwd := BitVec.ofNat 5 a }
  | 3 => { v with summary := .ex, presence := bit24 a, fwd := 0x1F }
  | 4 => { v with summary := .ex, presence := bit24 a, fwd := 0x1F }
  | 5 => { v with summary := .ow, presence := v.presence ||| bit24 a, fwd := BitVec.ofNat 5 a }
  | _ => viewDrop v a

/-- The grant of state `g` to requester `a` (Table 5.4). -/
def viewGrant (v : FEntry) (a : Nat) (g : Nat) : FEntry :=
  match g with
  | 1 => { v with summary := if v.summary = .i ∨ v.summary = .ex then .sh else v.summary, presence := v.presence ||| bit24 a }
  | 2 => { v with summary := .sh, presence := v.presence ||| bit24 a, fwd := BitVec.ofNat 5 a }
  | 3 => { v with summary := .ex, presence := bit24 a, fwd := 0x1F }
  | 4 => { v with summary := .ex, presence := bit24 a, fwd := 0x1F }
  | _ => v

/-- A notice against an entry by Table 5.6: the state it leaves, or none where it does not fit. -/
def noticeApply (v : FEntry) (a : Nat) (dirty : Bool) : Option FEntry :=
  let here := v.presence.getLsbD a
  let owner := ownerOf v == some a
  if dirty then (if owner then some (viewDrop v a) else none)
  else
    match v.summary with
    | .i => none
    | .sh => if here then some (viewDrop v a) else none
    | .ex => if here then some (viewDrop v a) else none
    | .ow => if here && !owner then some (viewDrop v a) else none

/-- The answers Table 5.3 permits for a form, whatever the state: SNPDATA and final state (R116). -/
def answerLegal (f : SnpForm) (st sd : Nat) : Bool :=
  match f with
  | .shareS => (st == 5 && sd == 1) || (st == 2 && (sd == 1 || sd == 3)) || (sd == 0 && (st == 0 || st == 1))
  | .shareI => (sd == 1 && decide (2 ≤ st) && decide (st ≤ 5)) || (sd == 0 && (st == 0 || st == 1))
  | .ownE => st == 0 && (sd == 0 || sd == 1)
  | .ownM => st == 0 && (sd == 0 || sd == 1)
  | .own0 => st == 0 && (sd == 0 || sd == 2)
  | .inv => st == 0 && sd == 0
  | .clean => (sd == 2 && (st == 2 || st == 3)) || (sd == 0 && decide (st ≤ 3))

end Sys2Proof.Machine
end

