-- ==== Sys2Proof/Machine/Tracker.lean ====
section
/-! DEFINITION. The tracker of a slice (chapter 7) and the end of every flow (chapter 5): entries, messages, collected
answers, notices, memory reads, lost lines, back-invalidation and allocation, and how an entry advances. -/

namespace Sys2Proof.Machine

-- entries

/-- Entry `id` of slice `n`. -/
def findEntry (s : State) (n id : Nat) : Option Entry := (slice s n).entries.find? (fun e => e.id == id)

/-- Replace an entry. -/
def setEntry (s : State) (n : Nat) (e : Entry) : State :=
  let x := slice s n
  setSlice s n { x with entries := mapIf (fun y => y.id == e.id) (fun _ => e) x.entries }

/-- Opcode of a request as a number (Table 4.7). -/
def opOf (r : Req) : Nat := r.opcode.toNat

/-- A walk: `RdWalk`, or `RdShared` with WALK = 1. -/
def isWalkReq (r : Req) : Bool := opOf r == 5 || (opOf r == 1 && r.walk)

/-- A read of Table 5.4 other than `Upgrade`. -/
def isReadReq (r : Req) : Bool := opOf r == 1 || opOf r == 2 || opOf r == 3 || opOf r == 5

/-- `WrInvFull` or `WrInvPartial`. -/
def isWriteReq (r : Req) : Bool := opOf r == 0x10 || opOf r == 0x11

/-- `RdShared`, `RdUnique` or `Upgrade`: ends with `GrantAck` (R127). -/
def needsGrantAck (r : Req) : Bool := opOf r == 1 || opOf r == 2 || opOf r == 4

/-- Nothing collected. -/
def emptyColl : Coll := ⟨0, [], [], [], [], none, none⟩

/-- SLC_TRK_CFG.SNP_TIMEOUT_US in ticks, latched at each arming (R182). -/
def snpTimeout (s : State) (n : Nat) : Nat := max 1 (min 10000 (getFld s (slcBase n + 0x300) 8 14)) * 1000

/-- Agent `a` has been declared dead and not revived (SPN_AGENT_DEAD). -/
def agentDead (s : State) (a : Nat) : Bool := getBit s 0x300300 a

-- messages

/-- A response of slice `n`. -/
def homeRsp (n : Nat) (op : BitVec 4) (txn : BitVec 8) (prio : BitVec 2) : Rsp :=
  { opcode := op, txn := txn, home := BitVec.ofNat 3 n, entry := 0, prio := prio, err := 0, state := 0, snpdata := 0,
    cls := false }

/-- Send a response of entry `e`; none to a fenced port (R188). -/
def entryRsp (s : State) (n : Nat) (e : Entry) (r : Rsp) : State :=
  if e.mute then s else sliceSend s n e.src e.dl e.req.prio (.rsp r)

/-- Opcode of a snoop form. -/
def snpOpcode (f : SnpForm) : BitVec 4 :=
  match f with
  | .shareS => 1
  | .shareI => 1
  | .ownE => 2
  | .ownM => 2
  | .own0 => 2
  | .inv => 3
  | .clean => 4

/-- FWD and FWD_STATE of a snoop form. -/
def snpFwd (f : SnpForm) : Bool × BitVec 3 :=
  match f with
  | .shareS => (true, 1)
  | .shareI => (true, 0)
  | .ownE => (true, 3)
  | .ownM => (true, 4)
  | _ => (false, 0)

/-- Send snoop `f` to agent `a` in the name of ENTRY `id`, for requester `to` under `txn` when it forwards. -/
def sendSnoop (s : State) (n id a : Nat) (f : SnpForm) (prio : BitVec 2) (dl : Bool) (addr : Addr) (dest : BitVec 5)
    (txn : BitVec 8) : State :=
  let (fw, st) := snpFwd f
  let m : Snp := { opcode := snpOpcode f, subop := 0, home := BitVec.ofNat 3 n, entry := BitVec.ofNat 8 id, prio := prio,
                   fwd := fw, fwdTo := if fw then dest else 0, fwdTxn := if fw then txn else 0, fwdState := st, addr := addr,
                   xtag := 0 }
  sliceSend (pmuEvent s n 0x0C) n (BitVec.ofNat 5 a) dl prio (.snp m)

/-- A batch of snoops as collected: outstanding agents, what each was sent, the timer armed (R182). -/
def snoopColl (s : State) (n : Nat) (l : List (Nat × SnpForm)) (lost : Option (BitVec 5)) : Coll :=
  { out := l.foldl (fun b t => b ||| bit24 t.1) 0, sent := l.map (fun t => (BitVec.ofNat 5 t.1, t.2)), marks := [],
    wb := [], wbData := [], timer := if l.isEmpty then none else some (s.tick + snpTimeout s n), lost := lost }

/-- Four free words: bytes that no rule fixes. -/
def takeFree256 (s : State) : HalfData × State :=
  let (a, s) := takeFree s
  let (b, s) := takeFree s
  let (c, s) := takeFree s
  let (d, s) := takeFree s
  (a ++ b ++ c ++ d, s)

/-- A `DataHome` half. -/
def homeHalf (n id : Nat) (r : Req) (h : Bool) (d : HalfData) (poison : Bool) (st : BitVec 3) (be : BitVec 32) : Dat :=
  { kind := 2, half := h, poison := poison, home := BitVec.ofNat 3 n, txn := r.txn, entry := BitVec.ofNat 8 id,
    snpwb := false, dst := 0, state := st, prio := r.prio, be := be, data := d }

/-- The bytes of a poisoned half are not valid: free (R102). -/
def freeHalf (s : State) (img : LineImg) (h : Bool) : State × LineImg :=
  if img.poison.getLsbD (b2n h) then
    let (f, s) := takeFree256 s
    (s, { img with data := lineSetHalf img.data h f })
  else (s, img)

/-- Both halves of a line to the requester, the half that holds the address first (R87). -/
def sendLine (s : State) (n : Nat) (e : Entry) (img : LineImg) (st : BitVec 3) : State :=
  let (s, img) := freeHalf s img false
  let (s, img) := freeHalf s img true
  let h := e.req.addr.getLsbD 5
  let mk := fun (h : Bool) =>
    homeHalf n e.id e.req h (lineHalf img.data h) (img.poison.getLsbD (b2n h)) st (BitVec.allOnes 32)
  let s := sampleStamp s (32 + n) e.src e.req.txn 4
  if e.mute then s else sliceSend s n e.src e.dl e.req.prio (.datPair (mk h) (mk !h))

/-- Both halves poisoned (R129). -/
def sendPoison (s : State) (n : Nat) (e : Entry) : State := sendLine s n e ⟨0, 3, false⟩ 0

-- the end of an entry

/-- Leave the PENDING count of the channel (R305). -/
def pendEnd (s : State) (n : Nat) (e : Entry) : State :=
  if e.pend then
    let c := (chanOfLine s n e.line).1
    setChan s c { chan s c with pending := (chan s c).pending - 1 }
  else s

/-- The memory read of entry `id` of slice `n` is wanted no more: not yet issued it leaves the queue, issued its data
is discarded (ENTRY 255 is no entry). -/
def dropReads (s : State) (n id c : Nat) : State :=
  let x := chan s c
  let l := x.rdq.filter (fun r => r.use != .entry n id || r.issued)
  setChan s c { x with rdq := mapIf (fun r => r.use == .entry n id) (fun r => { r with use := .entry n 255 }) l }

/-- The entry returns to its pool (R163); refusals that waited for it wait no more; its sample closes. -/
def endEntry (s : State) (n : Nat) (e : Entry) : State :=
  let s := pendEnd s n e
  let s := if e.mem = .queued then dropReads s n e.id (chanOfLine s n e.line).1 else s
  let x := slice s n
  let s := setSlice s n { x with entries := x.entries.filter (fun y => y.id != e.id),
                                 retry := mapIf (fun r => r.waits == some e.id) (fun r => { r with waits := none }) x.retry }
  match parkedSample s (32 + n) e.id with
  | some x => closeSlot s x
  | none => if e.smp then sampleClose s (32 + n) e.src e.req.txn else s

/-- The entry ends once its notices have ended (R163). -/
def releaseEntry (s : State) (n : Nat) (e : Entry) : State :=
  if e.notices.isEmpty then endEntry s n e else setEntry s n { e with stage := .term, reply := none, way := none }

/-- The terminating message leaves; `GrantAck` is awaited where one is due (R127, R188). -/
def terminate (s : State) (n : Nat) (e : Entry) (r : Rsp) : State :=
  let s := sampleStamp (entryRsp s n e r) (32 + n) e.src e.req.txn 5
  if r.opcode = 2 ∧ needsGrantAck e.req ∧ !e.mute then
    setEntry (if e.smp then samplePark s (32 + n) e.src e.req.txn e.id else s) n { e with stage := .granted, way := none }
  else releaseEntry s n { e with stage := .term }

/-- The terminating message, held while a synchronous mirror has not confirmed the entry's writes (R358). -/
def finish (s : State) (n : Nat) (e : Entry) (r : Rsp) : State :=
  if e.syncs.any (syncHeld s) then setEntry s n { e with stage := .term, reply := some r }
  else terminate s n { e with reply := none } r

/-- `Comp` with STATE `st`. -/
def complete (s : State) (n : Nat) (e : Entry) (st : BitVec 3) : State :=
  finish s n e { homeRsp n 2 e.req.txn e.req.prio with state := st, entry := BitVec.ofNat 8 e.id }

/-- `CompErr` with code `err`; `data` tells whether poisoned halves accompany it (R129, R198): every half that the request
would have returned, which an `Upgrade` on the requester's own copy has none of (Table 5.8): its `CompErr` tells the bridge so in
STATE, which the port does not show (DESIGN CHOICE, assumption 88). -/
def failEntry (s : State) (n : Nat) (e : Entry) (err : BitVec 4) (data : Bool) : State :=
  let s :=
    if !data ∨ e.mute then s
    else if opOf e.req = 0x18 then
      let (a, s) := takeFree256 s
      sliceSend s n e.src e.dl e.req.prio (.dat (homeHalf n e.id e.req (e.req.addr.getLsbD 5) a true 0 0))
    else if isReadReq e.req ∨ (opOf e.req = 4 ∧ !e.ownCopy) then sendPoison s n e
    else s
  finish s n e { homeRsp n 7 e.req.txn e.req.prio with err := err, state := if opOf e.req = 4 ∧ e.ownCopy then 1 else 0 }

-- lines declared lost (R151, R189)

/-- The marking write of line `l` with its order in the write queue, where the queue takes it; `dl`: in the place that an
admitted write holds. -/
def markLine (s : State) (n l : Nat) (dl : Bool) : Option (State × Nat) :=
  let (c, m) := chanOfLine s n l
  if wrqAccepts s c m dl then some (wqFull s c m ⟨0, 3, true⟩ ⟨27, 0, dl⟩) else none

/-- No marking write of line `l` is owed any more: it, or a full write, has entered the queue (R151, R189). -/
def markDone (s : State) (n l : Nat) : State :=
  setSlice s n { slice s n with marking := (slice s n).marking.filter (fun p => p.2 != l) }

/-- A marking write of line `l`, lost with agent `a`, is owed until the queue takes it (R187). -/
def markOwed (s : State) (n : Nat) (a : BitVec 5) (l : Nat) : State :=
  setSlice s n { slice s n with marking := (slice s n).marking ++ [(a, l)] }

/-- A line is declared lost: counted and reported (R189). -/
def countLost (s : State) (n : Nat) : State := report (satAdd s (slcBase n + 0x318) 0 16 1) n 10

/-- What a transaction that leaves view `v` writes: a walk entry stays where the set has room for it (R150). -/
def settle (s : State) (n st w : Nat) (v : FEntry) : FEntry :=
  if v.summary = .i ∧ !v.lost then
    let others := walkCount s n st - b2n (isWalk (wayAt s n st w))
    if v.walked ∧ others < walkWaysMax s n then { v with presence := 0, fwd := 0x1F } else freeEntry
  else v

/-- The entry at a way becomes a lost entry with dead agent `a`, and its marking write is queued when there is room: LOST
then clears (R151). Answers the order of that write too. -/
def loseWay (s : State) (n st w : Nat) (a : BitVec 5) : State × Option Nat :=
  let e := wayAt s n st w
  let l := lineOfEntry s n st e.tag
  let lost := { e with summary := .i, presence := 0, fwd := 0x1F, lost := true }
  let s := countLost (wayWrite s n st w lost) n
  match markLine s n l false with
  | some (s, o) => (wayWrite s n st w (settle s n st w { lost with lost := false }), some o)
  | none => (markOwed s n a l, none)

/-- The marking write of a lost entry that had found no room (R151, R187). -/
def retryMark (s : State) (n st w : Nat) : State :=
  let e := wayAt s n st w
  if e.lost then
    let l := lineOfEntry s n st e.tag
    match markLine s n l false with
    | some (s, _) => markDone (wayWrite s n st w (settle s n st w { e with lost := false })) n l
    | none => s
  else s

/-- Reclaim dead agent `a`'s holding at a way (Table 7.8). -/
def reclaimWay (s : State) (n st w a : Nat) : State :=
  let e := wayAt s n st w
  if !e.presence.getLsbD a then s
  else match e.summary with
  | .ex => (loseWay s n st w (BitVec.ofNat 5 a)).1
  | .sh => wayWrite s n st w (settle s n st w (viewDrop e a))
  | .ow =>
    if e.fwd.toNat ≠ a then wayWrite s n st w (viewDrop e a)
    else
      let others := (bits24 e.presence).filter (fun b => b != a && !agentDead s b)
      if others.isEmpty then (loseWay s n st w (BitVec.ofNat 5 a)).1
      else
        let l := lineOfEntry s n st e.tag
        if (slice s n).reclaims.any (fun r => r.line == l) then s
        else match firstFree 8 ((slice s n).reclaims.map (·.slot)) with
        | none => s
        | some k =>
          let targets := others.map (fun b => (b, SnpForm.inv))
          let r : Reclaim := ⟨k, st * 12 + w, l, BitVec.ofNat 5 a, snoopColl s n targets (some (BitVec.ofNat 5 a)), []⟩
          let s := setSlice s n { slice s n with reclaims := r :: (slice s n).reclaims }
          targets.foldl (fun s t => sendSnoop s n (224 + k) t.1 t.2 0 false (BitVec.ofNat 48 (addrOfLine s n l)) 0 0) s
  | .i => s

-- allocation (R142 to R149)

/-- What an attempt to allocate gives. -/
inductive Alloc where
  | way (w : Nat)
  | noWay
  | noSlot
  deriving DecidableEq, Repr

/-- The back-invalidation snoops of a victim (Table 6.3). Dead holders count as having answered I. -/
def victimSnoops (s : State) (e : FEntry) : List (Nat × SnpForm) :=
  ((bits24 e.presence).filter (fun a => !agentDead s a)).map (fun a =>
    (a, if ownerOf e == some a then SnpForm.own0 else SnpForm.inv))

/-- The dead agent with which the line of an entry is lost: its single holder, or its owner (Table 7.8). -/
def deadOwner (s : State) (v : FEntry) : Option (BitVec 5) := ((ownerOf v).filter (agentDead s)).map (BitVec.ofNat 5)

/-- Move the entry at a way into victim slot `slot` and send its snoops (R145, R146). -/
def moveVictim (s : State) (n st w slot : Nat) (prio : BitVec 2) : State :=
  let e := wayAt s n st w
  let l := lineOfEntry s n st e.tag
  let dl := slot % 4 == 3
  let t := victimSnoops s e
  let v : Victim := ⟨slot, l, st, e, prio, dl, snoopColl s n t (deadOwner s e), []⟩
  let s := setSlice s n { slice s n with victims := v :: (slice s n).victims }
  let s := satAdd (wayWrite s n st w freeEntry) (slcBase n + 0x21C) 0 32 1
  let s := pmuEvent s n 0x05
  t.foldl (fun s p => sendSnoop s n (192 + slot) p.1 p.2 prio dl (BitVec.ofNat 48 (addrOfLine s n l)) 0 0) s

/-- The rotating pointer of the bank of set `st` goes past way `w`, whose entry has moved into the victim buffer (R143). -/
def passPtr (s : State) (n st w : Nat) : State :=
  setSlice s n { slice s n with ptr := (slice s n).ptr.set (st % 4) ((w + 1) % 12) }

/-- Allocate a way of set `st`: a free way, or a victim's (R143, R145). `first`: the first choice made for the request, which
alone is counted where it finds none. -/
def allocate (s : State) (n st : Nat) (dl : Bool) (prio : BitVec 2) (first : Bool) : State × Alloc :=
  match victimChoice s n st false with
  | none => (if first then pmuEvent s n 0x07 else s, .noWay)
  | some w =>
    let e := wayAt s n st w
    if isFree e then (nruTouch (pmuEvent s n 0x04) n st w, .way w)
    else if e.summary = .i then (nruTouch (pmuEvent (wayWrite s n st w freeEntry) n 0x04) n st w, .way w)
    else
      match freeVictimSlot s n (st % 4) dl with
      | none => (if first then pmuEvent s n 0x06 else s, .noSlot)
      | some k => (nruTouch (pmuEvent (passPtr (moveVictim s n st w k prio) n st w) n 0x04) n st w, .way w)

/-- Ways of set `st` that walks under way have reserved for a walk entry. -/
def walksComing (s : State) (n st : Nat) : Nat :=
  ((slice s n).entries.filter (fun e => (isWalkReq e.req || e.view.walked) && !needsGrantAck e.req && (lineSetTag s n e.line).1 == st &&
    e.way.any (fun w => isFree (wayAt s n st w)))).length

/-- Entry `e` reserves a way for a walk entry of its line, where one is free and the set holds fewer than WALK_WAYS_MAX
(R150). -/
def walkWay (s : State) (n : Nat) (e : Entry) : State × Entry :=
  let (st, _) := lineSetTag s n e.line
  if walkCount s n st + walksComing s n st < walkWaysMax s n then
    match victimChoice s n st true with
    | some w => (nruTouch (pmuEvent s n 0x04) n st w, { e with way := some w })
    | none => (pmuEvent s n 0x08, e)
  else (pmuEvent s n 0x08, e)

/-- A walk of a line without an entry reserves a way for its walk entry. -/
def reserveWalk (s : State) (n : Nat) (e : Entry) : State × Entry :=
  if !isWalkReq e.req ∨ needsGrantAck e.req ∨ (hitWay s n e.line).isSome then (s, e) else walkWay s n e

/-- WALKED for line `l` (R150): on its entry, or in a new walk entry. -/
def markWalked (s : State) (n l : Nat) : State :=
  let (st, t) := lineSetTag s n l
  match hitWay s n l with
  | some w => wayWrite s n st w { wayAt s n st w with walked := true }
  | none =>
    if walkCount s n st < walkWaysMax s n then
      match victimChoice s n st true with
      | some w => nruTouch (pmuEvent (wayWrite s n st w { freeEntry with tag := t, walked := true }) n 0x04) n st w
      | none => pmuEvent s n 0x08
    else pmuEvent s n 0x08

/-- WALKED on the entry that line `l` has (R150, R408). -/
def markHolder (s : State) (n l : Nat) : State :=
  match hitWay s n l with
  | some w => wayWrite s n (lineSetTag s n l).1 w { wayAt s n (lineSetTag s n l).1 w with walked := true }
  | none => s

/-- The filter write of entry `e` is still to come (R139). -/
def uncommitted (e : Entry) : Bool :=
  match e.stage with
  | .alloc | .prelim | .snooping => true
  | .memory | .writing => opOf e.req != 0x18 || e.mem == .idle
  | _ => false

/-- WALKED for a walk that is refused before its turn has come (R150): its line may have an active entry, whose filter write
then carries the mark. -/
def walkRefused (s : State) (n l : Nat) : State :=
  match (activeEntry s n l).filter uncommitted with
  | none => markWalked s n l
  | some e =>
    let s := markHolder s n l
    let (s, e) := if e.way.isSome || (hitWay s n l).isSome || needsGrantAck e.req then (s, e) else walkWay s n e
    setEntry s n { e with view := { e.view with walked := true } }

-- data that enters the write queue

/-- The halves of agent `a` among those received. -/
def halvesOf (l : List HalfRec) (a : BitVec 5) : List HalfRec := l.filter (fun h => h.who == a)

/-- Both halves of agent `a` are there. -/
def bothHalves (l : List HalfRec) (a : BitVec 5) : Bool :=
  (halvesOf l a).any (fun h => h.half) && (halvesOf l a).any (fun h => !h.half)

/-- Keep a received half, the later copy of a repeated one. -/
def addHalf (l : List HalfRec) (h : HalfRec) : List HalfRec :=
  l.filter (fun x => !(x.who == h.who && x.half == h.half)) ++ [h]

/-- A line, its poison and its byte enables from two halves. -/
def joinHalves (l : List HalfRec) : LineData × BitVec 2 × BitVec 64 :=
  l.foldl (fun (acc : LineData × BitVec 2 × BitVec 64) h =>
    (lineSetHalf acc.1 h.half h.data,
     if h.poison then acc.2.1 ||| BitVec.ofNat 2 (1 + b2n h.half) else acc.2.1,
     acc.2.2 ||| ((h.be.setWidth 64) <<< (if h.half then 32 else 0)))) (0, 0, 0)

/-- Halves of a line enter the write queue: whole, or merged where bytes are not enabled (R197, R249, R281). -/
def writeHalves (s : State) (n l : Nat) (hs : List HalfRec) (w : Writer) : State × Nat :=
  let (c, m) := chanOfLine s n l
  let (d, p, be) := joinHalves hs
  if be = BitVec.allOnes 64 then wqFull s c m ⟨d, p, false⟩ w else wqPartial s c m d p be w

/-- The write queue takes a write of line `l` now; in Safe only marking writes enter (Table 15.8). -/
def lineWritable (s : State) (n l : Nat) (dl : Bool) : Bool :=
  let (c, m) := chanOfLine s n l
  !inSafe s && wrqAccepts s c m dl

/-- A write of line `l` by source `src` finds that the line lies under a failed tree node (Table 11.6). -/
def lineBroken (s : State) (n l : Nat) (src : BitVec 5) : State × Bool :=
  let (c, m) := chanOfLine s n l
  sealProbe s c m src

-- notices (R171 to R175)

/-- `EvAck` for a notice, or `CompErr` `UNCORR` where its write was refused. -/
def noticeAck (s : State) (n : Nat) (t : Notice) : State :=
  if t.mute then s
  else
    let r := if t.failed then { homeRsp n 7 t.txn t.prio with err := 1 } else homeRsp n 4 t.txn t.prio
    sliceSend s n t.src t.dl t.prio (.rsp r)

/-- The port refused a half of a full line for its byte enables, and sent one that writes nothing in its place: the whole
line is discarded (Table 4.14; DEDUCED, assumption 35). -/
def dataRefused (l : List HalfRec) : Bool := l.any (fun h => h.be == 0 && !h.poison)

/-- The data of a notice enters the write queue once both halves are there and the queue takes them; that of a refused one is
discarded. The places of admitted Deadline writes are not open to it (R248). -/
def noticeQueue (s : State) (n : Nat) (t : Notice) : State × Notice :=
  if t.dirty ∧ !t.queued ∧ bothHalves t.halves t.src ∧ dataRefused t.halves then (s, { t with queued := true })
  else if t.dirty ∧ !t.queued ∧ bothHalves t.halves t.src ∧ lineWritable s n t.line false then
    let (s, bad) := lineBroken s n t.line t.src
    if bad then (s, { t with queued := true, failed := true })
    else
      let (s, o) := writeHalves s n t.line (halvesOf t.halves t.src) ⟨t.src, t.prio, false⟩
      (s, { t with queued := true, syncs := [o] })
  else (s, t)

/-- The notice has nothing left to wait for but the filter: its data is queued and confirmed. -/
def noticeReady (s : State) (t : Notice) : Bool := !t.dirty || (t.queued && !t.syncs.any (syncHeld s))

/-- Queue the data of each notice of a list. -/
def noticesQueue (s : State) (n : Nat) (l : List Notice) : State × List Notice :=
  l.foldl (fun (acc : State × List Notice) t =>
    let (s, t) := noticeQueue acc.1 n t
    (s, acc.2 ++ [t])) (s, [])

/-- Acknowledge the applied notices that are ready; answers those that remain. -/
def noticesAck (s : State) (n : Nat) (l : List Notice) : State × List Notice :=
  l.foldl (fun (acc : State × List Notice) t =>
    if t.applied ∧ noticeReady acc.1 t then (noticeAck acc.1 n t, acc.2) else (acc.1, acc.2 ++ [t])) (s, [])

/-- The filter entry of line `l` after view `v`. -/
def writeLineEntry (s : State) (n l : Nat) (v : FEntry) : State :=
  match hitWay s n l with
  | some w =>
    let (st, _) := lineSetTag s n l
    wayWrite s n st w (settle s n st w v)
  | none => s

/-- A notice for a line with no active entry, by Table 5.6: applied to the filter with its data queued. One that no
longer fits changes no entry, and data it still owes is discarded (R175); a refused one leaves its sender's holding as it is. -/
def noticeIdle (s : State) (n : Nat) (t : Notice) : State × Notice :=
  if t.applied then noticeQueue s n t
  else if bothHalves t.halves t.src ∧ dataRefused t.halves then (s, { t with applied := true, dirty := false })
  else
    match noticeApply (entryOf s n t.line) t.src.toNat t.dirty with
    | none => (s, { t with applied := true, dirty := t.dirty && t.queued })
    | some v =>
      let (s, t) := noticeQueue s n t
      if t.dirty ∧ !t.queued then (s, t) else (writeLineEntry s n t.line v, { t with applied := true })

-- collected answers

/-- Write-backs announced by answers enter the write queue when both halves are there (R117, R173). -/
def collQueue (s : State) (n l : Nat) (prio : BitVec 2) (c : Coll) : State × Coll × List Nat :=
  c.wb.foldl (fun (acc : State × Coll × List Nat) w =>
    let (s, c, os) := acc
    if bothHalves c.wbData w.1 ∧ lineWritable s n l false then
      let (s, bad) := lineBroken s n l w.1
      let (s, o) := if bad then (s, none) else
        let (s, o) := writeHalves s n l (halvesOf c.wbData w.1) ⟨w.1, prio, false⟩
        (s, some o)
      (s, { c with wb := c.wb.filter (fun x => x.1 != w.1), wbData := c.wbData.filter (fun h => h.who != w.1) },
        os ++ o.toList)
    else acc) (s, c, [])

/-- Every answer is in, every announced write-back is queued, every notice that a mark names has come, and the data of
every notice that stands for an answer is queued (R172). -/
def collReady (c : Coll) (l : List Notice) : Bool :=
  c.out == 0 && c.wb.isEmpty && c.marks.all (fun m => l.any (fun t => t.src == m.1 && t.dirty == m.2 && t.absorbed))
    && l.all (fun t => !(t.absorbed && t.dirty) || t.queued)

/-- A notice whose sender's marked answer has arrived stands for that answer. -/
def absorbMarks (c : Coll) (l : List Notice) : List Notice :=
  mapIf (fun t => c.marks.any (fun m => m.1 == t.src && m.2 == t.dirty)) (fun t => { t with absorbed := true }) l

-- the memory image

/-- Ask for the memory image of the entry's line: served from the write queue, or queued at the channel (R248,
R250). -/
def tryMem (s : State) (n : Nat) (e : Entry) : State × Entry :=
  if e.mem ≠ .wanted then (s, e)
  else
    let (c, m) := chanOfLine s n e.line
    match forwardRead s c m with
    | some img =>
      let s := sampleFlag (pendEnd (pmuEvent s (8 + c) 0x0A) n e) (32 + n) e.src e.req.txn 5
      (s, { e with mem := .got img false, pend := false })
    | none =>
      if rdqRoom s c e.dl then
        let r : RdReq := { id := 0, m := m, use := .entry n e.id, src := if opOf e.req = 0x18 then 27 else e.src, prio := e.req.prio,
                           dl := e.dl, arrival := s.tick, first := true,
                           issued := false, overtaken := false }
        (pushRead s c r, { e with mem := .queued })
      else (s, e)

/-- The grant where the home supplies the line itself, from the state left after all answers (R117, Table 5.4). -/
def memGrant (r : Req) (v : FEntry) : BitVec 3 :=
  match opOf r with
  | 1 =>
    match v.summary with
    | .i => if r.walk then 2 else 3
    | .sh => if v.fwd = 0x1F then 2 else 1
    | _ => 1
  | 2 => 3
  | 4 => 3
  | _ => 0

/-- Fold the notices of agents that the transaction did not snoop into the view it leaves (R172). -/
def foldNotices (v : FEntry) (e : Entry) : FEntry × List Notice :=
  e.notices.foldl (fun (acc : FEntry × List Notice) t =>
    if t.applied then (acc.1, acc.2 ++ [t])
    else if t.absorbed then (acc.1, acc.2 ++ [{ t with applied := true }])
    else
      let v := (noticeApply acc.1 t.src.toNat t.dirty).getD acc.1
      (v, acc.2 ++ [{ t with applied := true }])) (v, [])

/-- The one filter write of a transaction (R139), with the notices folded and the ready ones acknowledged (R174). LOST stays
as the entry has it now, which a marking write queued since take-up has cleared (R151). -/
def commitView (s : State) (n : Nat) (e : Entry) (v : FEntry) : State × Entry :=
  let (v, ns) := foldNotices v e
  let v := if e.lostHit then { v with lost := v.lost && (entryOf s n e.line).lost } else v
  let v := if isWalkReq e.req then { v with walked := true } else v
  let (st, t) := lineSetTag s n e.line
  let s := match e.way with
    | some w => wayWrite s n st w (settle s n st w { v with tag := t })
    | none => writeLineEntry s n e.line { v with tag := t }
  let (s, ns) := noticesAck s n ns
  (s, { e with view := v, notices := ns, way := none, coll := { e.coll with marks := [] } })

/-- The view without its dead owner. -/
def ownerGone (s : State) (v : FEntry) : FEntry := (deadOwner s v).elim v (fun a => viewDrop v a.toNat)

/-- The line is lost with dead agent `who`, its owner (Tables 7.7, 7.8): a lost entry and a marking write, which a mirrored
window confirms before the transaction ends (R358). An OW entry with other holders stays for reclamation, which invalidates
them first. -/
def commitLost (s : State) (n : Nat) (e : Entry) (who : BitVec 5) : State × Entry :=
  if (deadOwner s e.view).any (fun o => (bits24 e.view.presence).any (fun a => a != o.toNat && !agentDead s a)) then
    commitView s n e e.view
  else
  let (s, e) := commitView s n e { e.view with summary := .i, presence := 0, fwd := 0x1F, lost := true }
  match hitWay s n e.line with
  | some w =>
    let (s, o) := loseWay s n (lineSetTag s n e.line).1 w who
    (s, { e with syncs := e.syncs ++ o.toList })
  | none =>
    match markLine (countLost s n) n e.line false with
    | some (s, o) => (s, { e with syncs := e.syncs ++ [o] })
    | none => (markOwed (countLost s n) n who e.line, e)

/-- The filter write of a transaction that may have lost its line with a dead agent. -/
def commitEnd (s : State) (n : Nat) (e : Entry) (v : FEntry) : State × Entry :=
  match e.coll.lost with
  | some a => commitLost s n e a
  | none => commitView s n e v

-- atomics (R199 to R202)

/-- A number as two's complement of `n` bits. -/
def signedOf (n v : Nat) : Int := if 2 ^ (n - 1) ≤ v then (v : Int) - 2 ^ n else v

/-- The value an atomic subop writes, none for a failed cas (Table 8.1). -/
def atomicResult (sub n old opd cmp : Nat) : Option Nat :=
  match sub with
  | 0 => some ((old + opd) % 2 ^ n)
  | 1 => some opd
  | 2 => if old = cmp then some opd else none
  | 3 => some (if signedOf n old ≤ signedOf n opd then old else opd)
  | 4 => some (if signedOf n old ≤ signedOf n opd then opd else old)
  | 5 => some (min old opd)
  | 6 => some (max old opd)
  | 7 => some (old &&& opd)
  | 8 => some (old ||| opd)
  | _ => some (old ^^^ opd)

/-- The value of `k` bytes at byte offset `o` of a half. -/
def halfNat (d : HalfData) (o k : Nat) : Nat := d.toNat / 2 ^ (8 * o) % 2 ^ (8 * k)

/-- Step 3 of R199: one `DataHome` flit with the old value, the other bytes open (R81). It leaves once. -/
def sendOld (s : State) (n : Nat) (e : Entry) (old : Nat) : State × Entry :=
  if e.oldSent then (s, e)
  else
    let a := e.req.addr.toNat % 32
    let s := sampleStamp (pmuEvent s n 0x13) (32 + n) e.src e.req.txn 4
    let (f, s) := takeFree256 s
    let be := BitVec.ofNat 32 ((2 ^ 2 ^ e.req.size.toNat - 1) * 2 ^ a)
    let d := lineHalf (mergeBytes (f.setWidth 512) (BitVec.ofNat 512 (old * 2 ^ (8 * a))) (be.setWidth 64)) false
    let s := if e.mute then s else
      sliceSend s n e.src e.dl e.req.prio (.dat (homeHalf n e.id e.req (e.req.addr.getLsbD 5) d false 0 be))
    (s, { e with oldSent := true })

/-- Steps 3 and 4 of R199 on the memory image `img`: the old value leaves, the line is written when the queue has room for
it, `Comp` follows. -/
def atomicFinish (s : State) (n : Nat) (e : Entry) (img : LineImg) : State :=
  let a := e.req.addr.toNat % 64
  let k := 2 ^ e.req.size.toNat
  let h := e.req.addr.getLsbD 5
  let opd := (e.own.head?.map (·.data)).getD 0
  let opdBad := (e.own.head?.map (·.poison)).getD false
  let (c, m) := chanOfLine s n e.line
  if img.lost then failEntry s n e 2 true
  else if img.poison.getLsbD (b2n h) ∨ opdBad then failEntry s n e 1 true
  else
    let old := lineNat img.data a k
    let (s, e) := sendOld s n e old
    match atomicResult e.req.subop.toNat (8 * k) old (halfNat opd (a % 32) k) (halfNat opd ((a % 32) ^^^ 16) k) with
    | some v =>
      if !lineWritable s n e.line false then setEntry s n { e with stage := .writing }
      else
        let (s, o) := wqFull s c m ⟨lineSet img.data a k v, img.poison, false⟩ ⟨27, e.req.prio, false⟩
        complete s n { e with syncs := e.syncs ++ [o] } 0
    | none => complete (satAdd s (slcBase n + 0x420) 16 16 1) n e 0

-- how an entry advances

/-- The memory image has come for a read (R117, R129, R204, R282). -/
def readFinish (s : State) (n : Nat) (e : Entry) (img : LineImg) (uncorr : Bool) : State :=
  let bad := uncorr || img.lost
  if isWalkReq e.req ∧ (bad ∨ img.poison ≠ 0) then
    let (s, e) := commitView s n e e.view
    failEntry s n e 5 true
  else if bad then
    let (s, e) := commitView s n e e.view
    failEntry s n e (if uncorr then 1 else 2) true
  else
    let g := memGrant e.req e.view
    let (s, e) := commitView s n e (viewGrant e.view e.src.toNat g.toNat)
    complete (sendLine s n e img g) n { e with grant := g } 0

/-- A read or `Upgrade` whose answers are all in. One performed on the requester's own copy needs no data (R121). -/
def readStep (s : State) (n : Nat) (e : Entry) : State :=
  if e.lostHit ∨ e.coll.lost.isSome then
    let (s, e) := commitEnd s n e e.view
    failEntry s n e (if isWalkReq e.req then 5 else 2) true
  else if e.ownCopy then
    let (s, e) := commitView s n e (viewGrant e.view e.src.toNat e.grant.toNat)
    complete s n e e.grant
  else if e.fwdDone then
    let (s, e) := commitView s n e (viewGrant e.view e.src.toNat e.grant.toNat)
    complete (pmuEvent s n 0x0D) n e 0
  else
    let e := { e with mem := if e.mem = .idle then .wanted else e.mem, stage := .memory }
    let (s, e) := tryMem s n e
    match e.mem with
    | .got img u => readFinish s n e img u
    | _ => setEntry s n e

/-- Data of the entry's own request is still in the spine or at a slice's ingress. -/
def ownComing (s : State) (e : Entry) : Bool :=
  let mine := fun (p : Packet) => match p.msg with
    | .dat d => p.src == e.src && p.reqNo == e.series && d.kind == 3 && !d.snpwb
    | _ => false
  (s.spine.arrive ++ s.spine.queued).any (fun f => mine f.pkt) || s.slices.any (fun x => x.inbox.any (fun i => mine i.pkt))

/-- The request writes every byte of its line (R189). -/
def fullWrite (e : Entry) : Bool := bothHalves e.own e.src && (joinHalves e.own).2.2 == BitVec.allOnes 64

/-- An invalidating write whose answers are all in: written after every attached write-back (R123, R173). A line lost with a
dead agent is counted, and a partial write to it is its marking write (R189). A write that its
port's fence has abandoned ends without a write once its data can no longer come (R106, R188; DEDUCED, assumption 72). -/
def writeStep (s : State) (n : Nat) (e : Entry) : State :=
  if e.mute ∧ !bothHalves e.own e.src ∧ !ownComing s e ∧ !e.notices.any (fun t => t.dirty && !t.queued) then
    let (s, e) := commitEnd s n e e.view
    releaseEntry s n { e with stage := .term }
  else if !bothHalves e.own e.src ∨ e.notices.any (fun t => t.dirty && !t.queued) ∨ !lineWritable s n e.line e.dl then
    setEntry s n { e with stage := .writing }
  else
    let (s, bad) := lineBroken s n e.line e.src
    if bad then
      let (s, e) := commitEnd s n e (ownerGone s e.view)
      failEntry s n e 1 false
    else
    let (d, _, _) := joinHalves e.own
    let full := fullWrite e
    let s := if e.coll.lost.isSome then countLost s n else s
    let (s, o) :=
      if full ∨ (e.coll.lost.isNone ∧ !e.lostHit) then
        let (s, o) := writeHalves s n e.line e.own ⟨e.src, e.req.prio, e.dl⟩
        (s, some o)
      else if e.coll.lost.isSome then (markLine s n e.line e.dl).elim (s, none) (fun t => (t.1, some t.2))
      else (s, none)
    let s := if full then watchHeartbeat (markDone s n e.line) n e.req.prio e.src (e.req.addr.toNat) d else s
    let v := ownerGone s e.view
    let (s, e) := commitView s n e (if full then { v with lost := false } else v)
    complete s n { e with syncs := e.syncs ++ o.toList, wrRes := false } 0

/-- An `Atomic` whose answers are all in. -/
def atomicStep (s : State) (n : Nat) (e : Entry) : State :=
  if e.lostHit ∨ e.coll.lost.isSome then
    let (s, e) := commitEnd s n e e.view
    failEntry s n e 2 true
  else if e.notices.any (fun t => t.dirty && !t.queued) then setEntry s n { e with stage := .memory }
  else if e.mem = .idle then
    let (s, e) := commitView s n e e.view
    let s := satAdd s (slcBase n + 0x420) 0 16 1
    let (s, e) := tryMem s n { e with mem := .wanted, stage := .memory }
    match e.mem with
    | .got img u => if u then failEntry s n e 1 true else atomicFinish s n e img
    | _ => setEntry s n e
  else
    let (s, e) := tryMem s n e
    match e.mem with
    | .got img u => if u then failEntry s n e 1 true else atomicFinish s n e img
    | _ => setEntry s n e

/-- A maintenance request whose answers are all in (R124). -/
def maintStep (s : State) (n : Nat) (e : Entry) : State :=
  if e.notices.any (fun t => t.dirty && !t.queued) then setEntry s n { e with stage := .writing }
  else
    let (s, e) := commitEnd s n e e.view
    complete s n e 0

/-- The flow of an entry once its answers are in, by its request. -/
def flowStep (s : State) (n : Nat) (e : Entry) : State :=
  if isReadReq e.req ∨ opOf e.req = 4 then readStep s n e
  else if isWriteReq e.req then writeStep s n e
  else if opOf e.req = 0x18 then atomicStep s n e
  else maintStep s n e

-- the snoops of a flow

/-- What the tables of chapter 5 give for a request: the snoops, who forwards, and the state a forward grants. -/
structure Plan where
  snoops : List (Nat × SnpForm)
  fwdBy : Option (BitVec 5)
  grant : BitVec 3
  deriving DecidableEq, Repr

/-- Snoops with form `f` to `o`, and `SnpInv` to every other holder but `r` (none: every holder). -/
def ownAndInv (v : FEntry) (o : Nat) (f : SnpForm) (r : Option Nat) : List (Nat × SnpForm) :=
  (o, f) :: ((bits24 v.presence).filter (fun a => a != o && r != some a)).map (fun a => (a, SnpForm.inv))

/-- `SnpInv` to every holder but `r`. -/
def invAll (v : FEntry) (r : Option Nat) : List (Nat × SnpForm) :=
  ((bits24 v.presence).filter (fun a => r != some a)).map (fun a => (a, SnpForm.inv))

/-- Table 5.4 for a requester that holds nothing. -/
def readPlan (op : Nat) (v : FEntry) : Plan :=
  let from' := fun (o : Nat) (f : SnpForm) (g : BitVec 3) => (⟨[(o, f)], some (BitVec.ofNat 5 o), g⟩ : Plan)
  let responder := match v.summary with
    | .i => none
    | .sh => if v.fwd = 0x1F then none else some v.fwd.toNat
    | .ex => (bits24 v.presence).head?
    | .ow => some v.fwd.toNat
  match op, responder with
  | 1, some o => from' o .shareS 1
  | 3, some o => from' o .shareI 0
  | 5, some o => from' o .shareI 0
  | 2, some o =>
    let f := if v.summary = .sh then SnpForm.ownE else SnpForm.ownM
    ⟨ownAndInv v o f none, some (BitVec.ofNat 5 o), if v.summary = .sh then 3 else 4⟩
  | 2, none => ⟨invAll v none, none, 3⟩
  | _, _ => ⟨[], none, 0⟩

/-- Table 5.4, column `Upgrade`, for a requester whose presence bit is set. -/
def upgradePlan (v : FEntry) (r : Nat) : Plan := ⟨invAll v (some r), none, if v.summary = .ow then 4 else 3⟩

/-- Tables 5.6 and 5.7 and the atomizer's `WbDrop` (R199), with the user-privilege rule of R125. `full`: a `WrInvPartial` of
every byte, which is carried out as `WrInvFull` (R197). -/
def otherPlan (q : Req) (v : FEntry) (full : Bool) : Plan :=
  let drop : List (Nat × SnpForm) := match ownerOf v with
    | some o => ownAndInv v o .own0 none
    | none => invAll v none
  let l := match opOf q with
    | 0x10 => invAll v none
    | 0x11 => if full then invAll v none else drop
    | 0x20 => match ownerOf v with
      | some o => [(o, SnpForm.clean)]
      | none => []
    | 0x22 => if q.priv = 0 then drop else invAll v none
    | _ => drop
  ⟨l, none, 0⟩

/-- Entry `e` sends the batch `l` and waits for its answers. -/
def sendBatch (s : State) (n : Nat) (e : Entry) (l : List (Nat × SnpForm)) (stage : Stage) : State :=
  let e := { e with coll := snoopColl s n l e.coll.lost, stage := stage }
  let s := setEntry s n e
  let s := if l.isEmpty then s else sampleStamp s (32 + n) e.src e.req.txn 1
  l.foldl (fun s t => sendSnoop s n e.id t.1 t.2 e.req.prio e.dl e.req.addr e.src e.req.txn) s

/-- The main batch of a flow, from the view left by a preliminary snoop and by notices that came before it: their
senders count as having answered (R172), and so do dead holders (R187). Without snoops the flow goes on once the data of every
absorbed notice is queued. -/
def mainStep (s : State) (n : Nat) (e : Entry) : State :=
  let pre := e.notices.filter (fun t => e.view.presence.getLsbD t.src.toNat && t.src != e.src)
  let v := pre.foldl (fun v t => viewDrop v t.src.toNat) e.view
  let dead := (bits24 v.presence).filter (agentDead s)
  let e := { e with coll := { e.coll with lost := e.coll.lost.orElse (fun _ => deadOwner s v) } }
  let kept := (dead.filter (fun a => ownerOf v != some a)).foldl viewDrop v
  let v := dead.foldl viewDrop v
  let e := { e with view := kept, notices := mapIf (fun t => pre.any (fun p => p.src == t.src)) (fun t => { t with absorbed := true }) e.notices }
  let held := v.presence.getLsbD e.src.toNat
  let p := if opOf e.req = 4 ∧ held then upgradePlan v e.src.toNat
    else if opOf e.req = 4 then readPlan 2 v
    else if isReadReq e.req then readPlan (opOf e.req) v else otherPlan e.req v (fullWrite e)
  let needMem := (isReadReq e.req || (opOf e.req == 4 && !held)) && p.fwdBy.isNone && !e.lostHit
  let e := { e with fwdBy := p.fwdBy, grant := p.grant, stage := .snooping, ownCopy := opOf e.req == 4 && held }
  let (s, e) := if needMem ∧ p.snoops.isEmpty ∧ e.mem = .idle then tryMem s n { e with mem := .wanted } else (s, e)
  let s := setEntry s n e
  if !p.snoops.isEmpty then sendBatch s n e p.snoops .snooping
  else if collReady e.coll e.notices then flowStep s n e else s

-- the start of a flow

/-- The entry is active with view `v`: the preliminary snoop of R119, or the flow itself. -/
def startFlow (s : State) (n : Nat) (e : Entry) : State :=
  if isReadReq e.req ∧ e.view.presence.getLsbD e.src.toNat then
    let f := if ownerOf e.view = some e.src.toNat then SnpForm.own0 else SnpForm.inv
    sendBatch s n e [(e.src.toNat, f)] .prelim
  else mainStep s n e

/-- The flow of the request depends on data that has not come: the operand of an `Atomic` (R199), the byte enables of a
`WrInvPartial` (R197), and those of a `WrInvFull`, which is refused whole where one of them is 0 (Table 4.14; DEDUCED,
assumption 35). -/
def wantsData (e : Entry) : Bool :=
  (opOf e.req == 0x18 && e.own.isEmpty) || (isWriteReq e.req && !bothHalves e.own e.src)

/-- The flow begins once it has the data it depends on; a `WrInvFull` whose data the port refused ends without it (Table 4.14).
Where a fence has stopped that data, an `Atomic` ends without its steps, and a write runs on to its end without a write (R106,
R188; DEDUCED, assumption 72). -/
def beginFlow (s : State) (n : Nat) (e : Entry) : State :=
  if opOf e.req = 0x10 ∧ !wantsData e ∧ dataRefused e.own then failEntry s n { e with wrRes := false } 7 false
  else if !wantsData e then startFlow s n e
  else if !e.mute ∨ ownComing s e then setEntry s n { e with stage := .alloc }
  else if opOf e.req = 0x18 then releaseEntry s n e
  else startFlow s n e

/-- The line needs a new filter entry before the grant (R143). -/
def needsWay (s : State) (n : Nat) (e : Entry) : Bool := needsGrantAck e.req && e.way.isNone && (hitWay s n e.line).isNone

/-- An active entry gets the way that its grant needs; without a way or a victim slot it waits for one (R143, R145). -/
def enterFlow (s : State) (n : Nat) (e : Entry) (first : Bool) : State :=
  if needsWay s n e then
    let (s, got) := allocate s n (lineSetTag s n e.line).1 e.dl e.req.prio first
    match got with
    | .way w => beginFlow s n { e with way := some w }
    | .noWay => setEntry s n { e with stage := .alloc }
    | .noSlot => setEntry (if first then sampleFlag s (32 + n) e.src e.req.txn 10 else s) n { e with stage := .alloc }
  else beginFlow s n e

/-- Queue what can be queued for an entry, and let it go on where nothing is outstanding. -/
def advance (s : State) (n id : Nat) : State :=
  match findEntry s n id with
  | none => s
  | some e =>
    let (s, ns) := noticesQueue s n e.notices
    let fresh := ns.any (fun t => t.queued && e.notices.any (fun u => u.src == t.src && u.txn == t.txn && !u.queued))
    let (s, c, os) := collQueue s n e.line e.req.prio e.coll
    let stale := (fresh || !os.isEmpty) && !e.oldSent
    let e := { e with notices := absorbMarks c ns, coll := c, syncs := e.syncs ++ os,
                      mem := match e.mem with
                        | .got i u => if stale then .wanted else .got i u
                        | m => m }
    let s := setEntry s n e
    match e.stage with
    | .alloc => enterFlow s n e false
    | .prelim => if collReady e.coll e.notices then mainStep s n { e with coll := { emptyColl with lost := e.coll.lost } } else s
    | .snooping => if collReady e.coll e.notices then flowStep s n e else s
    | .memory =>
      if collReady e.coll e.notices then
        if opOf e.req = 0x18 then atomicStep s n e
        else
          let (s, e) := tryMem s n e
          match e.mem with
          | .got img u => readFinish s n e img u
          | _ => setEntry s n e
      else s
    | .writing => flowStep s n e
    | .term =>
      match e.reply with
      | some r => if e.syncs.any (syncHeld s) then s else terminate s n { e with reply := none } r
      | none =>
        let (s, l) := e.notices.foldl (fun (acc : State × List Notice) t =>
          let (s, t) := noticeIdle acc.1 n t
          (s, acc.2 ++ [t])) (s, [])
        let (s, l) := noticesAck s n l
        releaseEntry s n { e with notices := l }
    | .granted =>
      let (s, l) := e.notices.foldl (fun (acc : State × List Notice) t =>
        let (s, t) := if t.src = e.src then (acc.1, t) else noticeIdle acc.1 n t
        (s, acc.2 ++ [t])) (s, [])
      let (s, l) := noticesAck s n l
      setEntry s n { e with notices := l }
    | _ => s

/-- The active entries that wait for a way or a victim slot try again, as one may have become free (R143, R145). -/
def allocAgain (s : State) (n : Nat) : State :=
  ((slice s n).entries.filter (fun e => e.stage == .alloc)).foldl (fun s e =>
    match findEntry s n e.id with
    | some e => if e.stage = .alloc then enterFlow s n e false else s
    | none => s) s

/-- The memory image of entry `id` has come from the channel. -/
def memArrived (s : State) (n id : Nat) (img : LineImg) (uncorr stale : Bool) : State :=
  let s := if (findEntry s n id).isSome then trackerCheck s n else s
  match findEntry s n id with
  | none => s
  | some e =>
    if e.mem ≠ .queued then s
    else
      let e := { e with mem := if stale then .wanted else .got img uncorr }
      let (s, e) := tryMem s n e
      allocAgain (advance (setEntry s n e) n id) n

end Sys2Proof.Machine
end

