-- ==== Sys2Proof/Machine/Admission.lean ====
section
/-! DEFINITION. The ingress of a slice: tracker pools, refusals and retry records (R177 to R180), the admission of the
Deadline class (R305, R306), and the grants. -/

namespace Sys2Proof.Machine

-- pools (R163); which numbers a pool has is the model's choice (assumption 12)

/-- ENTRY numbers of a pool, and names for the Deadline requests that wait for their decision, which hold no entry (DESIGN
CHOICE, assumption 12). -/
def poolIds (p : Pool) : List Nat :=
  match p with
  | .general => List.range 152
  | .retry => (List.range 16).map (· + 152)
  | .deadline => (List.range 24).map (· + 168)
  | .undecided => (List.range 47).map (· + 208)

/-- The lowest free entry of a pool. -/
def freeEntryId (s : State) (n : Nat) (p : Pool) : Option Nat :=
  (poolIds p).find? (fun i => !(slice s n).entries.any (fun e => e.id == i))

/-- An opcode of a request that names a line and takes a tracker entry (R164). -/
def isLineReq (r : Req) : Bool := isReadReq r || opOf r == 4 || isWriteReq r || opOf r == 0x18 || (decide (0x20 ≤ opOf r) && decide (opOf r ≤ 0x22))

/-- A new entry for a request. -/
def newEntry (id : Nat) (p : Pool) (st : Stage) (src : BitVec 5) (r : Req) (dl : Bool) (l order : Nat) (series : BitVec 16)
    (smp : Bool) (tick : Nat) : Entry :=
  { id := id, pool := p, stage := st, src := src, req := r, dl := dl, line := l, order := order, passed := 0, mute := false,
    holder := false, way := none, coll := emptyColl, view := freeEntry, fwdBy := none, fwdDone := false, grant := 0,
    mem := .idle, own := [], notices := [], buffer := false, pend := false, wrRes := false, reply := none, syncs := [],
    ownCopy := false, oldSent := false, lostHit := false, series := series, smp := smp, takenAt := tick }

/-- Put an entry among those of the slice, next in its sequence (R166). -/
def addEntry (s : State) (n : Nat) (e : Entry) : State :=
  let x := slice s n
  setSlice s n { x with entries := x.entries ++ [{ e with order := x.nextOrder }], nextOrder := x.nextOrder + 1 }

-- refusals

/-- The slice holds a record, or a reserved entry, for the source and TXN (R178). -/
def hasRecord (s : State) (n : Nat) (src : BitVec 5) (txn : BitVec 8) : Bool :=
  let x := slice s n
  x.retry.any (fun r => r.src == src && r.txn == txn)
    || x.entries.any (fun e => e.stage == .reserved && e.src == src && e.req.txn == txn)

/-- A record joins the retry list. -/
def addRecord (s : State) (n : Nat) (r : RetryRec) : State := setSlice s n { slice s n with retry := (slice s n).retry ++ [r] }

/-- Answer a request with `Retry` (R177), with the record `rec` where one is added. -/
def sendRetry (s : State) (n : Nat) (src : BitVec 5) (dl : Bool) (r : Req) (record : Option RetryRec) : State :=
  let s := match record with
    | some k => addRecord s n k
    | none => s
  sliceSend (pmuEvent s n 0x0A) n src dl r.prio (.rsp (homeRsp n 5 r.txn r.prio))

-- admission (R305)

/-- A monitor that R65 names reads OVER_LIMIT. One of a slice without power reads nothing (R63). -/
def paceRefuses (s : State) (n : Nat) : Bool :=
  let homes := if pairJoined s (n / 2) then [n / 2 * 2, n / 2 * 2 + 1] else [n]
  homes.any (fun k => (slicePwr s k && getBit s (slcBase k + 0x100) 11) || (slicePop s k && (getBit s (mcBase (2 * k) + 0x100) 11
    || getBit s (mcBase (2 * k + 1) + 0x100) 11))) || (List.range 6).any (fun x => getBit s (0x300100 + 4 * x) 11)

/-- Minimum credits an agent grants, SNP, RSP and DAT on the other VC and then on the Deadline VC (Table 4.12). -/
def minCredits : List Nat := [4, 8, 8, 2, 4, 4]

/-- SPN_PORT_STATUS.CREDIT_INIT of port `n` (R89). -/
def portCreditInit (s : State) (n : Nat) : Bool :=
  (List.zip (port s n).granted.toList minCredits).all (fun t => decide (t.2 ≤ t.1))

/-- SLC_DL_BUDGET of source `src` at slice `n`. -/
def budgetReg (n : Nat) (src : BitVec 5) : Nat := slcBase n + 0x680 + 4 * src.toNat

/-- The agents that the flow of a request would snoop, from view `v`. -/
def flowSnoops (r : Req) (src : Nat) (v : FEntry) : List Nat :=
  let held := v.presence.getLsbD src
  if opOf r = 4 ∧ held then (upgradePlan v src).snoops.map (·.1)
  else if opOf r = 4 then (readPlan 2 v).snoops.map (·.1)
  else if isReadReq r then
    (if held then [src] else []) ++ (readPlan (opOf r) (if held then viewDrop v src else v)).snoops.map (·.1)
  else (otherPlan r v false).snoops.map (·.1)

/-- The metadata lines of data line `m` that the counter-tree cache does not hold. -/
def metaNeeded (s : State) (i c m : Nat) : List Nat :=
  let d := m - runStart s (getFld s (rgnBase i) 0 27)
  let nodes := if rgnFresh s i then (List.range (topLevel s i + 1)).map (fun l => nodeLine s i l (d / 9 / 8 ^ l)) else []
  (tagLine s i d :: nodes).filter (fun x => (ctcFind s c x).isNone)

/-- The lines to fetch lie in pairwise distinct banks. -/
def distinctBanks (s : State) (i c m : Nat) : Bool :=
  let banks := (m :: metaNeeded s i c m).map (fun x => ((placeOf s c (x / 28)).rank, (placeOf s c (x / 28)).bank))
  decide banks.Nodup

/-- Deadline write-queue entries of channel `c` that admitted writes hold. -/
def wrReserved (s : State) (c : Nat) : Nat :=
  ((List.range 8).map (fun n =>
    ((slice s n).entries.filter (fun e => e.wrRes && (chanOfLine s n e.line).1 == c)).length)).sum

/-- A Deadline write-queue entry of channel `c` is free (R248). -/
def dlWriteFree (s : State) (c : Nat) : Bool :=
  decide (((chan s c).wrq.filter (fun w => w.dl)).length + wrReserved s c < 8)

/-- The outcome of admission: the cause as its bit of SLC_DL_REFUSE, CLS, and the entry or slot waited for. -/
inductive Verdict where
  | admitted
  | refuse (cause : Nat) (cls : Bool) (waits : Option Nat)
  deriving DecidableEq, Repr

/-- A read of R305. -/
def isDlRead (r : Req) : Bool := decide (1 ≤ opOf r) && decide (opOf r ≤ 4)

/-- What a request for line `l` finds there: the entry or victim slot that LINE waits for. -/
def lineHeldBy (s : State) (n l : Nat) : Option Nat :=
  let x := slice s n
  match x.entries.find? (fun e => e.line == l && (isActive e || (e.stage == .reserved && e.pool == .deadline)
      || (e.stage == .waiting && !e.dl && decide (4 ≤ e.passed)))) with
  | some e => some e.id
  | none => (victimOf s n l).map (fun v => 192 + v.slot)

/-- The permanent causes of R305. -/
def permanentCause (s : State) (n : Nat) (src : BitVec 5) (r : Req) (l : Nat) : Option Nat :=
  let (c, m) := chanOfLine s n l
  let st := mcBase c + 0x80
  let rg := (regionOf s r.addr.toNat).filter (rgnSealed s)
  if paceRefuses s n then some 0
  else if 24 ≤ src.toNat ∨ getFld s (budgetReg n src) 0 8 = 0 then some 1
  else if (flowSnoops r src.toNat (entryOf s n l)).any (fun a => !portCreditInit s a) then some 2
  else if getFld s st 6 3 = 0 then some 3
  else if isWriteReq r ∧ (!getBit s st 11 ∨ rg.isSome ∨ (mwOf s r.addr.toNat).any (mwSync s)) then some 4
  else match rg with
  | some i =>
    if isDlRead r ∧ ((rgnFresh s i ∧ !(rgnPinned s i && getBit s st 10)) ∨ (!rgnFresh s i ∧ !getBit s st 9)
        ∨ !distinctBanks s i c m) then some 4
    else none
  | none => none

/-- The decision of R305. -/
def admission (s : State) (n : Nat) (src : BitVec 5) (r : Req) (l : Nat) : Verdict :=
  let c := (chanOfLine s n l).1
  match permanentCause s n src r l with
  | some k => .refuse k false none
  | none =>
    if (slice s n).held then .refuse 5 true none
    else match lineHeldBy s n l with
    | some id => .refuse 6 true (some id)
    | none =>
      if (freeEntryId s n .deadline).isNone then .refuse 7 true none
      else if isDlRead r ∧ getFld s (mcBase c + 0x80) 6 3 ≤ (chan s c).pending then .refuse 8 true none
      else if isWriteReq r ∧ !dlWriteFree s c then .refuse 9 true none
      else if getFld s (budgetReg n src) 16 8 = 0 then .refuse 10 true none
      else .admitted

/-- What admission takes for entry `e`: a token, the PENDING place of a read, the queue entry of a write. -/
def admitCharge (s : State) (n : Nat) (e : Entry) : State × Entry :=
  let b := budgetReg n e.src
  let s := pmuEvent (setFld s b 16 8 (getFld s b 16 8 - 1)) n 0x0E
  let c := (chanOfLine s n e.line).1
  let s := if isDlRead e.req then setChan s c { chan s c with pending := (chan s c).pending + 1 } else s
  (s, { e with pend := isDlRead e.req, wrRes := isWriteReq e.req })

/-- An admitted read passes its memory read to the channel, except an `Upgrade` from a recorded holder (R307). -/
def admitRead (s : State) (n : Nat) (e : Entry) : State × Entry :=
  if isDlRead e.req ∧ !(opOf e.req == 4 && (entryOf s n e.line).presence.getLsbD e.src.toNat) then
    tryMem s n { e with mem := .wanted }
  else (s, e)

/-- Refuse admission: cause and counts, `CompErr` `NOT_ADMITTED`, and the record that ends in a grant (R305, R306). -/
def refuseAdmission (s : State) (n : Nat) (src : BitVec 5) (r : Req) (cause : Nat) (cls : Bool) (waits : Option Nat) :
    State :=
  let s := setBit s (slcBase n + 0x604) cause true
  let s := satAdd (pmuEvent s n 0x0F) (slcBase n + 0x608) (if cls then 16 else 0) 16 1
  let s := addRecord s n ⟨src, r.txn, cls, r.prio, waits, r⟩
  sliceSend s n src true r.prio (.rsp { homeRsp n 7 r.txn r.prio with err := 9 })

-- the ingress

/-- A sampled request opens a sample slot at its home when one of the 16 is free (R425). -/
def homeSample (s : State) (n : Nat) (p : Packet) (r : Req) (c : Nat) (reissue : Bool) : State :=
  if p.smp ∧ samplesOf s (32 + n) < 16 then
    let x := (sliceRouter n) % 6
    let y := (sliceRouter n) / 6
    let q := (srcDest p.src).1
    let hops := (x - q % 6) + (q % 6 - x) + (y - q / 6) + (q / 6 - y)
    let info := BitVec.ofNat 64 (b2n reissue * 2 ^ 7 + hops * 2 ^ 12 + c * 2 ^ 16)
    sampleOpen s (32 + n) p.src r.txn r.opcode p.dl info
      [(6, BitVec.ofNat 16 (getFld s (slcBase n + 0x104) 0 12)), (7, BitVec.ofNat 16 (getFld s (slcBase n + 0x100) 0 10))]
  else s

/-- What a request for line `l` finds to wait for as it takes its entry: a hold window of another requester, counted, and an
active entry (Table 17.1, Table 17.3). -/
def lineWaits (s : State) (n : Nat) (src : BitVec 5) (txn : BitVec 8) (l : Nat) : State :=
  let s := match holdOf s n l with
    | some h => if h.holder ≠ src then sampleFlag (pmuEvent s n 0x14) (32 + n) src txn 9 else s
    | none => s
  if (activeEntry s n l).isSome then sampleFlag s (32 + n) src txn 8 else s

/-- The request takes an entry that is free for it and waits its turn. -/
def acceptReq (s : State) (n : Nat) (p : Packet) (r : Req) (l id : Nat) (pool : Pool) (st : Stage) (holder : Bool) : State :=
  let s := lineWaits (homeSample s n p r (chanOfLine s n l).1 false) n p.src r.txn l
  addEntry s n { newEntry id pool st p.src r p.dl l 0 p.reqNo p.smp s.tick with holder := holder }

/-- A reissue takes its reserved entry (R180, R306). That of a request which waited for its admission tells so in its sample
(DESIGN CHOICE, assumption 93). -/
def acceptReissue (s : State) (n : Nat) (p : Packet) (r : Req) (l : Nat) (e : Entry) : State :=
  let s := lineWaits (homeSample s n p r (chanOfLine s n l).1 true) n p.src r.txn l
  let s := if e.pool = .deadline then sampleFlag s (32 + n) p.src r.txn 11 else s
  let x := slice s n
  let e := { e with stage := .waiting, req := r, line := l, dl := p.dl, series := p.reqNo, smp := p.smp,
                    order := x.nextOrder, takenAt := s.tick }
  let s := setSlice s n { x with nextOrder := x.nextOrder + 1 }
  let s := setEntry s n e
  if e.pool = .deadline then
    let (s, e) := admitRead s n e
    setEntry s n e
  else s

/-- A request with CRD 0 for line `l` homed here: an entry, or a refusal (R177, R305). A further request of the requester whose
grant awaits `GrantAck` comes next for its line (Table 7.2), but for one that the holder exception itself let in (R167).
The record of a refusal under R100 has CLS 0 on either VC (DESIGN CHOICE, assumption 85). -/
def ingressLine (s : State) (n : Nat) (p : Packet) (r : Req) (l : Nat) : State :=
  if hasRecord s n p.src r.txn then sendRetry s n p.src p.dl r none
  else
    let same := (slice s n).entries.find? (fun e => e.src == p.src && e.line == l && e.stage != .reserved && e.stage != .granted)
    match same with
    | some e => sendRetry s n p.src p.dl r (some ⟨p.src, r.txn, false, r.prio, some e.id, r⟩)
    | none =>
      let holder := (slice s n).entries.any (fun e => e.src == p.src && e.line == l && e.stage == .granted && !e.holder)
      match freeEntryId s n (if p.dl then .undecided else .general) with
      | some id => acceptReq s n p r l id (if p.dl then .undecided else .general) (if p.dl then .tentative else .waiting) holder
      | none => sendRetry s n p.src p.dl r (some ⟨p.src, r.txn, false, r.prio, none, r⟩)

/-- The message can be taken now. A Deadline request takes no entry before its admission, and is never refused for want of a
place to await it (R305). -/
def ingressReady (s : State) (n : Nat) (i : InMsg) : Bool :=
  match i.pkt.msg with
  | .req r => isLineReq r && (inSafe s || !i.pkt.dl || r.crd || (freeEntryId s n .undecided).isSome)
  | _ => false

/-- The home of a request is not this slice: within an accord pair it crosses to the other slice, and a redirected one
ends as Table 9.8 states. -/
def ingressElsewhere (s : State) (n : Nat) (i : InMsg) (r : Req) (h : Option Home) : State :=
  match h with
  | some k =>
    if !i.redir ∧ k.slice / 2 = n / 2 ∧ slicePwr s k.slice then
      setSlice s k.slice { slice s k.slice with inbox := (slice s k.slice).inbox ++ [i] }
    else sliceSend s n i.pkt.src i.pkt.dl r.prio (.rsp { homeRsp n 7 r.txn r.prio with err := if r.walk then 4 else 7 })
  | none => sliceSend s n i.pkt.src i.pkt.dl r.prio (.rsp { homeRsp n 7 r.txn r.prio with err := if r.walk then 4 else 7 })

/-- A reserved entry returns to its pool; a Deadline one gives back its token and its PENDING place (R180, R306). -/
def returnReserved (s : State) (n : Nat) (e : Entry) : State :=
  let b := budgetReg n e.src
  let s := if e.pool = .deadline then setFld s b 16 8 (min (getFld s b 8 8) (getFld s b 16 8 + 1)) else s
  endEntry s n e

/-- The entry that slice `n` has reserved for a reissue of source and TXN. -/
def reservedFor (s : State) (n : Nat) (src : BitVec 5) (txn : BitVec 8) : Option Entry :=
  (slice s n).entries.find? (fun e => e.stage == .reserved && e.src == src && e.req.txn == txn)

/-- The reservation for a source and TXN is given up: a redirected reissue is processed as CRD 0 (Table 9.8). -/
def dropReservation (s : State) (n : Nat) (src : BitVec 5) (txn : BitVec 8) : State :=
  match reservedFor s n src txn with
  | some e => returnReserved s n e
  | none => s

/-- A request header at the ingress (R166, R177, R236); one whose port has been fenced is abandoned (R106). -/
def ingressTake (s : State) (n : Nat) (i : InMsg) (r : Req) : State :=
  let p := i.pkt
  if inSafe s then
    if p.src.toNat < 24 then s else sliceSend s n p.src p.dl r.prio (.rsp { homeRsp n 7 r.txn r.prio with err := 6 })
  else if p.src.toNat < 24 ∧ (port s p.src.toNat).fenced then s
  else
    let s := if r.crd && i.redir then dropReservation s n p.src r.txn else s
    let h := homeOf s r.addr.toNat
    match h.filter (fun k => k.slice == n) with
    | none => ingressElsewhere s n i r h
    | some k =>
      match (reservedFor s n p.src r.txn).filter (fun _ => r.crd) with
      | some e => acceptReissue s n p r k.line e
      | none => ingressLine s n p { r with crd := false } k.line

/-- REQUEST_INGRESS: the next header the ingress can take. -/
def requestIngressEffect (s : State) (n : Nat) : State :=
  let x := slice s n
  match x.inbox.find? (ingressReady s n) with
  | some i =>
    match i.pkt.msg with
    | .req r => ingressTake (setSlice s n { x with inbox := dropFirst (ingressReady s n) x.inbox }) n i r
    | _ => s
  | none => s

/-- The meaning of REQUEST_INGRESS. -/
def execRequestIngress (n : SliceId) (s : State) : Host.Outcome State Fault Refusal :=
  guarded s (requestIngressEffect s n)

-- grants (R179, R306)

/-- The record can be granted now. One with CLS 1 whose admission has come to be refused for good, such as by a withdrawn budget,
waits until it would succeed (DESIGN CHOICE, assumption 89). -/
def recordEligible (s : State) (n : Nat) (r : RetryRec) : Bool :=
  r.waits.isNone &&
    (if r.cls then
       match homeOf s r.req.addr.toNat with
       | some h => h.slice == n && (freeEntryId s n .deadline).isSome && admission s n r.src r.req h.line == .admitted
       | none => false
     else (freeEntryId s n .retry).isSome)

/-- Sources in grant order, after that of the last grant. -/
def grantOrder (last : Nat) : List Nat := (List.range 27).map (fun i => (last + 1 + i) % 27)

/-- The oldest eligible record of the first source in grant order that has one. -/
def nextGrant (s : State) (n : Nat) : Option RetryRec :=
  let x := slice s n
  (grantOrder x.retryLast).findSome? (fun src => x.retry.find? (fun r => r.src.toNat == src && recordEligible s n r))

/-- Grant record `r`: an entry is reserved, and for CLS 1 the admission performed and the line reserved. -/
def grantRecord (s : State) (n : Nat) (r : RetryRec) : State :=
  let pool := if r.cls then Pool.deadline else Pool.retry
  match freeEntryId s n pool with
  | none => s
  | some id =>
    let x := slice s n
    let s := setSlice s n { x with retry := dropFirst (fun y => y == r) x.retry, retryLast := r.src.toNat }
    let l := ((homeOf s r.req.addr.toNat).map (·.line)).getD 0
    let e := newEntry id pool .reserved r.src r.req r.cls l 0 0 false s.tick
    let (s, e) := if r.cls then admitCharge s n e else (s, e)
    let s := addEntry s n e
    sliceSend (pmuEvent s n 0x0B) n r.src r.cls r.prio (.rsp { homeRsp n 6 r.txn r.prio with cls := r.cls })

/-- The command that held the records of slice `k` in slice `n` has ended, and no slice homes their lines: each is granted without
an entry, since the reissue is redirected and processed as CRD 0 (R315, Table 9.8; DEDUCED, assumption 81). -/
def grantLeft (s : State) (n k : Nat) : State :=
  let left := fun (r : RetryRec) => r.cls && ((homeOf s r.req.addr.toNat).map (·.slice)) == some k
  let l := (slice s n).retry
  let s := setSlice s n { slice s n with retry := l.filter (fun r => !left r) }
  (l.filter left).foldl (fun s r =>
    sliceSend (pmuEvent s n 0x0B) n r.src false r.prio (.rsp { homeRsp n 6 r.txn r.prio with cls := false })) s

/-- CREDIT_GRANT: the next eligible record. No grant leaves while take-up is stopped (R400). -/
def creditGrantEffect (s : State) (n : Nat) : State :=
  if takeUpStopped s then s
  else match nextGrant s n with
  | some r => grantRecord s n r
  | none => s

/-- The meaning of CREDIT_GRANT. -/
def execCreditGrant (n : SliceId) (s : State) : Host.Outcome State Fault Refusal := guarded s (creditGrantEffect s n)

end Sys2Proof.Machine
end

