-- ==== Sys2Proof/Machine/Activate.lean ====
section
/-! DEFINITION. Taking up a request (R120 to R125, R165, R166, R199, R204, R213): which waiting entry is next for its
line, and what happens when it becomes active. -/

namespace Sys2Proof.Machine

-- the order of R166

/-- The entry that came first. -/
def minOrder (l : List Entry) : Option Entry :=
  l.foldl (fun b e => match b with
    | some x => if e.order < x.order then some e else b
    | none => some e) none

/-- The waiting entries of line `l` that take-up may consider: all in a run mode, reissues where it is stopped (R400),
and only the holder's while a hold window runs (R132). -/
def candidates (s : State) (n l : Nat) : List Entry :=
  (slice s n).entries.filter (fun e => e.line == l && e.stage == .waiting && (!takeUpStopped s || e.req.crd)
    && ((holdOf s n l).all (fun h => h.holder == e.src)))

/-- The next entry of line `l`: the requester of the transaction that has just ended, then Deadline requests, of which
no more than four pass a non-Deadline request that came before them (R166). -/
def nextWaiter (s : State) (n l : Nat) : Option Entry :=
  let c := candidates s n l
  match minOrder (c.filter (·.holder)) with
  | some e => some e
  | none =>
    match minOrder (c.filter (·.dl)), minOrder (c.filter (fun e => !e.dl)) with
    | some d, some x => if x.order < d.order ∧ 4 ≤ x.passed then some x else some d
    | some d, none => some d
    | none, o => o

/-- Atomizer buffers in use (R200). -/
def buffersBusy (s : State) (n : Nat) : Nat := ((slice s n).entries.filter (·.buffer)).length

/-- Nothing holds line `l`: no active or reserved entry, no victim or reclamation slot, no notice of a fenced port in a lane
(R165, R188). A notice of a live port does not hold it: the entry waits for it through the marked answer of its sender
(Table 7.9). -/
def lineOpen (s : State) (n l : Nat) : Bool :=
  let x := slice s n
  (activeEntry s n l).isNone && !x.entries.any (fun e => e.line == l && e.stage == .reserved && e.pool == .deadline)
    && (victimOf s n l).isNone && !x.reclaims.any (fun r => r.line == l) && !x.lanes.any (fun t => t.line == l && !t.applied && t.mute)

/-- Entry `e` can be taken up now; an `Atomic` with a line buffer (R200). -/
def canTake (s : State) (n : Nat) (e : Entry) : Bool :=
  !inSafe s && !(slice s n).closed && !lookupStopped s n e.line && lineOpen s n e.line
    && (nextWaiter s n e.line).map (·.id) == some e.id
    && (opOf e.req != 0x18 || decide (buffersBusy s n < 4))

/-- The bank of entry `e` owes a lookup to a Deadline request: it serves that before any other (R137). -/
def bankYields (s : State) (n : Nat) (e : Entry) : Bool :=
  let b := (lineSetTag s n e.line).1 % 4
  !e.dl && (slice s n).entries.any (fun y => y.dl && (lineSetTag s n y.line).1 % 4 == b &&
    (canTake s n y || (y.stage == .tentative && !takeUpStopped s && !lookupStopped s n y.line)))

/-- A Deadline entry passes the waiting non-Deadline entries that came before it. -/
def countPassed (s : State) (n : Nat) (e : Entry) : State :=
  let x := slice s n
  setSlice s n { x with entries := mapIf (fun y => y.line == e.line && y.stage == .waiting && !y.dl && e.dl && decide (y.order < e.order))
                          (fun y => { y with passed := y.passed + 1 }) x.entries }

/-- Any hold window of line `l` ends. -/
def endHold (s : State) (n l : Nat) : State :=
  setSlice s n { slice s n with holds := (slice s n).holds.filter (fun h => h.line != l) }

-- the steps of a take-up

/-- A request that the region checks refuse (Table 11.4, Table 8.2). -/
def refuseRegion (s : State) (n : Nat) (e : Entry) (err : BitVec 4) (bit : Option Nat) (region : Nat) (walked : Bool) : State :=
  let s := if walked then walkRefused s n e.line else s
  let s := match bit with
    | some k => raiseSeal s k e.src n region e.req.realm.toNat e.req.addr.toNat
    | none => s
  failEntry s n e err false

/-- A request for a line of an inactive channel (R408); a walk marks the entry that its line has (R150). -/
def refuseInactive (s : State) (n : Nat) (e : Entry) : State :=
  if isWalkReq e.req then failEntry (markHolder s n e.line) n e 5 true
  else
    let own := opOf e.req == 4 && (entryOf s n e.line).presence.getLsbD e.src.toNat
    failEntry s n { e with ownCopy := own } 1 (isReadReq e.req || opOf e.req == 4 || opOf e.req == 0x18)

/-- A request for a line of a slice whose channels have left service ends as at its successor (R399, Table 9.8). -/
def refuseLeft (s : State) (n : Nat) (e : Entry) : State := failEntry s n e (if isWalkReq e.req then 4 else 7) false

/-- A lookup reclaims the holdings of dead agents in the entry it hits first (R187). -/
def reclaimHit (s : State) (n l : Nat) : State :=
  match hitWay s n l with
  | some w =>
    let (st, _) := lineSetTag s n l
    ((bits24 (wayAt s n st w).presence).filter (agentDead s)).foldl (fun s a => reclaimWay s n st w a) s
  | none => s

/-- The entry of line `l` still names a dead agent: its reclamation waits, for a slot or for answers. -/
def deadHit (s : State) (n l : Nat) : Bool := (bits24 (entryOf s n l).presence).any (agentDead s)

/-- SLC_XLAT_CFG.WATCH_US in ticks. -/
def watchTicks (s : State) (n : Nat) : Nat := max 1 (min 10000 (getFld s (slcBase n + 0x400) 0 14)) * 1000

/-- A write-type take-up of a walked line opens a hazard watch (R213). -/
def hazardWatch (s : State) (n : Nat) (e : Entry) (v : FEntry) : State :=
  let x := slice s n
  if v.walked ∧ getBit s (slcBase n + 0x400) 14 ∧ (opOf e.req = 2 ∨ opOf e.req = 4 ∨ isWriteReq e.req ∨ opOf e.req = 0x18) then
    if x.watches.any (fun w => w.src == e.src && w.line == e.line) then s
    else match firstFree 8 (x.watches.map (·.slot)) with
    | some k =>
      setSlice s n { x with watches := ⟨k, e.src, e.line, pairJoined s (n / 2), e.req.opcode, s.tick, s.tick + watchTicks s n⟩ :: x.watches }
    | none => satAdd s (slcBase n + 0x410) 16 16 1
  else s

/-- Entry `e` passed its checks and its lookup: it becomes active, with a way for its line where the grant needs one, or a
walk its mark (R143, R150). -/
def becomeActive (s : State) (n : Nat) (e : Entry) : State :=
  let l := e.line
  let v := entryOf s n l
  let held := (holdOf s n l).isSome
  let others := (slice s n).entries.any (fun y => y.line == l && y.stage == .waiting && y.id != e.id)
  let s := sampleStamp (pmuEvent (hazardWatch s n e v) n 0x01) (32 + n) e.src e.req.txn 0
  let s := if (hitWay s n l).isNone then sampleFlag s (32 + n) e.src e.req.txn 0 else s
  let s := endHold (if e.holder then s else countPassed s n e) n l
  let own := opOf e.req == 4 && v.presence.getLsbD e.src.toNat
  let s := if own then pendEnd s n e else s
  let e := { e with view := v, lostHit := v.lost, holder := (e.holder || held) && others, buffer := opOf e.req == 0x18,
                    way := hitWay s n l, pend := e.pend && !own }
  let (s, e) := reserveWalk s n e
  enterFlow s n e true

/-- Take entry `e` up. `looked`: its lookup has just been made for its admission; `err`: what that read of the set finds. It waits
while the reclamation of the entry it hits has no slot (R187). -/
def takeUp (s : State) (n : Nat) (e : Entry) (looked : Bool) (err : SetErr) : State :=
  match regionCheck s e.src e.req with
  | .refuse code bit region walked => refuseRegion s n e code bit region walked
  | .pass _ =>
    if (slice s n).leaving then refuseLeft s n e
    else if !chanActive s (chanOfLine s n e.line).1 then refuseInactive s n e
    else
      let s := if looked then s else reclaimHit (trackerCheck (filterLookup s n e.line err) n) n e.line
      match findEntry s n e.id with
      | none => s
      | some e => if canTake s n e && !deadHit s n e.line then becomeActive s n e else s

/-- An admitted request leaves its name for the Deadline entry `id` (R305); a refusal that waits for its end follows. -/
def takeDeadline (s : State) (n : Nat) (e : Entry) (id : Nat) : State × Entry :=
  let x := slice s n
  let e' := { e with id := id, pool := .deadline, stage := .waiting }
  (setSlice s n { x with entries := mapIf (fun y => y.id == e.id) (fun _ => e') x.entries,
                         retry := mapIf (fun r => r.waits == some e.id) (fun r => { r with waits := some id }) x.retry }, e')

/-- A Deadline-VC request is decided (R302, R305): region checks, lookup, admission. Answers its ENTRY when it is admitted. A
refused attempt leaves no home packet (R425). -/
def decideAdmission (s : State) (n : Nat) (e : Entry) (err : SetErr) : State × Option Nat :=
  match regionCheck s e.src e.req with
  | .refuse code bit region walked => (refuseRegion s n e code bit region walked, none)
  | .pass _ =>
    let s := trackerCheck (filterLookup s n e.line err) n
    let s := if lineOpen s n e.line then reclaimHit s n e.line else s
    match findEntry s n e.id with
    | none => (s, none)
    | some e =>
      if lookupStopped s n e.line then (s, none)
      else match admission s n e.src e.req e.line with
      | .refuse k cls w => (refuseAdmission (endEntry (sampleDrop s (32 + n) e.src e.req.txn) n e) n e.src e.req k cls w, none)
      | .admitted =>
        match freeEntryId s n .deadline with
        | none => (s, none)
        | some id =>
          let (s, e) := takeDeadline s n e id
          let (s, e) := admitCharge s n e
          let (s, e) := admitRead (setEntry s n e) n e
          (setEntry s n e, some id)

/-- Entry `id` of slice `n`, with a request that `ok` accepts, becomes active if it can; one that is active and waits for a way
or for data tries again. `err`: what the lookup finds. -/
def activation (ok : Req → Bool) (err : SetErr) (s : State) (n id : Nat) : State :=
  match findEntry s n id with
  | none => s
  | some e =>
    if !ok e.req then s
    else if e.stage = .tentative then
      if takeUpStopped s ∨ lookupStopped s n e.line then s
      else
        let (s, got) := decideAdmission s n e err
        let s := match got.bind (findEntry s n) with
          | some e => if canTake s n e then takeUp s n e true .clean else s
          | none => s
        allocAgain s n
    else if e.stage = .waiting ∧ canTake s n e ∧ !bankYields s n e then allocAgain (takeUp s n e false err) n
    else if e.stage = .alloc then advance s n id
    else s

/-- The next waiting entry of line `l` becomes active (R166). `err`: what its lookup finds. -/
def activateNext (s : State) (n l : Nat) (err : SetErr) : State :=
  match nextWaiter s n l with
  | some e => if canTake s n e ∧ !bankYields s n e then takeUp s n e false err else s
  | none => s

-- the activation commands: one per opcode

/-- The request has opcode `k`. -/
def hasOp (k : Nat) (r : Req) : Bool := opOf r == k

/-- The meaning of RD_SHARED. -/
def execRdShared (n : SliceId) (entry : TakeUp) (s : State) : Host.Outcome State Fault Refusal :=
  guarded s (activation (hasOp 1) entry.err s n entry.entry.toNat)

/-- The meaning of RD_UNIQUE. -/
def execRdUnique (n : SliceId) (entry : TakeUp) (s : State) : Host.Outcome State Fault Refusal :=
  guarded s (activation (hasOp 2) entry.err s n entry.entry.toNat)

/-- The meaning of RD_ONCE. -/
def execRdOnce (n : SliceId) (entry : TakeUp) (s : State) : Host.Outcome State Fault Refusal :=
  guarded s (activation (hasOp 3) entry.err s n entry.entry.toNat)

/-- The meaning of UPGRADE. -/
def execUpgrade (n : SliceId) (entry : TakeUp) (s : State) : Host.Outcome State Fault Refusal :=
  guarded s (activation (hasOp 4) entry.err s n entry.entry.toNat)

/-- The meaning of RD_WALK: `RdWalk`, or `RdShared` with WALK = 1 (R204). -/
def execRdWalk (n : SliceId) (entry : TakeUp) (s : State) : Host.Outcome State Fault Refusal :=
  guarded s (activation isWalkReq entry.err s n entry.entry.toNat)

/-- The meaning of WR_INV_FULL. -/
def execWrInvFull (n : SliceId) (entry : TakeUp) (s : State) : Host.Outcome State Fault Refusal :=
  guarded s (activation (hasOp 0x10) entry.err s n entry.entry.toNat)

/-- The meaning of WR_INV_PARTIAL. -/
def execWrInvPartial (n : SliceId) (entry : TakeUp) (s : State) : Host.Outcome State Fault Refusal :=
  guarded s (activation (hasOp 0x11) entry.err s n entry.entry.toNat)

/-- The meaning of ATOMIC: the entry becomes active, and starts its steps once its operand flit has come (R199). -/
def execAtomic (n : SliceId) (entry : TakeUp) (s : State) : Host.Outcome State Fault Refusal :=
  guarded s (activation (hasOp 0x18) entry.err s n entry.entry.toNat)

/-- The meaning of WB_KEEP. -/
def execWbKeep (n : SliceId) (entry : TakeUp) (s : State) : Host.Outcome State Fault Refusal :=
  guarded s (activation (hasOp 0x20) entry.err s n entry.entry.toNat)

/-- The meaning of WB_DROP. -/
def execWbDrop (n : SliceId) (entry : TakeUp) (s : State) : Host.Outcome State Fault Refusal :=
  guarded s (activation (hasOp 0x21) entry.err s n entry.entry.toNat)

/-- The meaning of DISCARD. -/
def execDiscard (n : SliceId) (entry : TakeUp) (s : State) : Host.Outcome State Fault Refusal :=
  guarded s (activation (hasOp 0x22) entry.err s n entry.entry.toNat)

end Sys2Proof.Machine
end

