-- ==== Sys2Proof/Machine/Answers.lean ====
section
/-! DEFINITION. What reaches a slice about its open transactions: snoop answers (R116, R118, R170 to R172, R185), write
data (R173), eviction notices (R122, R171, R175), `GrantAck` and the hold window (R131, R132). -/

namespace Sys2Proof.Machine

-- victims, reclamation slots, lanes

/-- Replace the victim of a slot. -/
def setVictim (s : State) (n : Nat) (v : Victim) : State :=
  let x := slice s n
  setSlice s n { x with victims := mapIf (fun y => y.slot == v.slot) (fun _ => v) x.victims }

/-- The slot frees; refusals that waited for it wait no more (R148). -/
def freeVictim (s : State) (n slot : Nat) : State :=
  let x := slice s n
  setSlice s n { x with victims := x.victims.filter (fun y => y.slot != slot),
                        retry := mapIf (fun r => r.waits == some (192 + slot)) (fun r => { r with waits := none }) x.retry }

/-- A victim slot goes on: it frees once every answer is in, every absorbed write-back is queued, and the marking write
of a line lost with its dead owner has entered the queue (R146, R172, R174, Table 7.8). -/
def victimStep (s : State) (n : Nat) (v : Victim) : State :=
  let (s, ns) := noticesQueue s n v.notices
  let (s, c, _) := collQueue s n v.line v.prio v.coll
  let v := { v with notices := absorbMarks c ns, coll := c }
  let s := setVictim s n v
  if collReady c v.notices then
    let done : Option State := if c.lost.isSome then (markLine s n v.line false).map (·.1) else some s
    match done with
    | none => s
    | some s =>
      let s := if c.lost.isSome then countLost s n else s
      let (s, left) := noticesAck s n (v.notices.map (fun t => { t with applied := true }))
      if left.isEmpty then freeVictim s n v.slot
      else setVictim s n { v with notices := left, coll := { c with marks := [], lost := none } }
  else s

/-- A reclamation slot ends with a lost entry once every answer is in (Table 7.8), and the data that an answer announced, though
not permitted to, is used (R116). -/
def reclaimStep (s : State) (n : Nat) (r : Reclaim) : State :=
  let (s, c, _) := collQueue s n r.line 0 r.coll
  let x := slice s n
  if c.out = 0 ∧ c.wb.isEmpty then
    (loseWay (setSlice s n { x with reclaims := x.reclaims.filter (fun y => y.slot != r.slot) }) n (r.key / 12) (r.key % 12) r.agent).1
  else setSlice s n { x with reclaims := mapIf (fun y => y.slot == r.slot) (fun _ => { r with coll := c }) x.reclaims }

/-- A notice in a lane whose line has an active entry: once its data is queued it joins that entry, which waits for it
through the marked answer of its sender (R172). None: it has joined. -/
def laneJoin (s : State) (n : Nat) (t : Notice) (id : Nat) : State × Option Notice :=
  let (s, t) := noticeQueue s n t
  if t.dirty ∧ !t.queued then (s, some t)
  else
    match findEntry s n id with
    | some e => (setEntry s n { e with notices := e.notices ++ [t] }, none)
    | none => (s, some t)

/-- The lanes: each notice is applied, queued and acknowledged as soon as it can be (R171). -/
def laneStep (s : State) (n : Nat) : State :=
  let (s, l) := (slice s n).lanes.foldl (fun (acc : State × List Notice) t =>
    match if t.applied then none else activeEntry acc.1 n t.line with
    | some e =>
      let (s, o) := laneJoin acc.1 n t e.id
      (s, acc.2 ++ o.toList)
    | none =>
      let (s, t) := noticeIdle acc.1 n t
      (s, acc.2 ++ [t])) (s, [])
  let (s, l) := noticesAck s n l
  setSlice s n { slice s n with lanes := l }

/-- An entry that could not pass its memory read to the channel tries again (R248). -/
def readAgain (s : State) (n : Nat) (e : Entry) : State :=
  if e.mem = .wanted then
    let (s, e) := tryMem s n e
    setEntry s n e
  else s

/-- The marking write of line `l` that found no room tries again: that of a lost entry, or of a line that has none (R187,
R189). -/
def markTry (s : State) (n l : Nat) : State :=
  match (hitWay s n l).filter (fun w => (wayAt s n (lineSetTag s n l).1 w).lost) with
  | some w => retryMark s n (lineSetTag s n l).1 w
  | none =>
    match markLine s n l false with
    | some (s, _) => markDone s n l
    | none => s

/-- Marking writes that found no room. -/
def markAgain (s : State) (n : Nat) : State := (slice s n).marking.foldl (fun s p => markTry s n p.2) s

/-- Everything in slice `n` that waited for queue room, data or a confirmation goes on where it can. -/
def pumpSlice (s : State) (n : Nat) : State :=
  let s := laneStep s n
  let s := (slice s n).entries.foldl (fun s e =>
    match findEntry s n e.id with
    | some e => if isActive e then advance s n e.id else readAgain s n e
    | none => s) s
  let s := (slice s n).victims.foldl (fun s v => victimStep s n v) s
  let s := (slice s n).reclaims.foldl (fun s r => reclaimStep s n r) s
  allocAgain (markAgain s n) n

/-- The same in the slices that channel `c` serves: both of its pair. -/
def pumpChan (s : State) (c : Nat) : State := pumpSlice (pumpSlice s (c / 4 * 2)) (c / 4 * 2 + 1)

/-- Every slice. -/
def pumpAll (s : State) : State := forEach 8 s pumpSlice

-- messages from the inbox

/-- Take the first message of the inbox that satisfies `p`. -/
def takeMsg (s : State) (n : Nat) (p : InMsg → Bool) : Option (InMsg × State) :=
  let x := slice s n
  (x.inbox.find? p).map (fun i => (i, setSlice s n { x with inbox := dropFirst p x.inbox }))

/-- A response with opcode `op`. -/
def isRsp (op : BitVec 4) (i : InMsg) : Bool :=
  match i.pkt.msg with
  | .rsp r => r.opcode == op
  | _ => false

/-- The line of a record of the error log: HLN and slice (Table 17.8). -/
def hlnWord (s : State) (n l : Nat) : Nat :=
  if pairJoined s (n / 2) then l / 2 % 2 ^ 29 + 2 ^ 29 * (n / 2 * 2 + l % 2) else l % 2 ^ 29 + 2 ^ 29 * n

/-- A late answer is absorbed: counted, logged with what the snoop had been, and reported (R185). -/
def lateAnswer (s : State) (n a entry : Nat) : State :=
  let s := satAdd s (slcBase n + 0x314) 0 16 1
  let s := match (slice s n).late.find? (fun r => r.agent.toNat == a && r.entry == entry) with
    | some r => logRecord s 1 n a r.opcode.toNat r.w3
    | none =>
      let (f, s) := takeFree s
      logRecord s 1 n a (f.toNat % 2 ^ 16) (f.toNat / 2 ^ 16 % 2 ^ 32)
  report s n 9

/-- A snoop that ends without its answer, kept for the record of a late one. -/
def noteLate (s : State) (n a entry : Nat) (op : BitVec 4) (w3 : Nat) : State :=
  let x := slice s n
  setSlice s n { x with late := ⟨BitVec.ofNat 5 a, entry, op, w3⟩ ::
                          x.late.filter (fun r => !(r.agent.toNat == a && r.entry == entry)) }

-- snoop answers

/-- What an agent was sent in a batch. -/
def sentTo (c : Coll) (a : Nat) : Option SnpForm := (c.sent.find? (fun t => t.1.toNat == a)).map (·.2)

/-- An answer leaves the outstanding set; the last one disarms the timer (R182). -/
def collAnswered (c : Coll) (a : Nat) : Coll :=
  let o := c.out &&& ~~~ (bit24 a)
  { c with out := o, timer := if o = 0 then none else c.timer }

/-- The answer of agent `a`: final state and data under R116 to R118; a marked answer stands as I without data and
names the notice to wait for (R172). An answer that is not permitted is reported, stands as I, and its data is used (R116).
Answers the view left and whether the line was forwarded. -/
def takeAnswer (s : State) (n : Nat) (c : Coll) (v : FEntry) (a : Nat) (r : Rsp) (mark : BitVec 2) :
    State × Coll × FEntry × Bool :=
  let c := collAnswered c a
  let legal := answerLegal ((sentTo c a).getD .inv) r.state.toNat r.snpdata.toNat
  let s := if legal then s else report s n 6
  if mark ≠ 0 then (s, { c with marks := c.marks ++ [(BitVec.ofNat 5 a, mark == 1)] }, viewDrop v a, false)
  else
    let v := if legal then viewAnswer v a r.state.toNat else viewDrop v a
    let c := if r.snpdata.getLsbD 1 then { c with wb := c.wb ++ [(BitVec.ofNat 5 a, 3)] } else c
    (s, c, v, r.snpdata.getLsbD 0)

/-- The agent asked has forwarded the line: a memory read of the entry is needless, and leaves PENDING (R305). -/
def forwarded (s : State) (n : Nat) (e : Entry) (fwd : Bool) : State × Entry :=
  if fwd then
    let s := pendEnd s n e
    let s := if e.mem = .queued then dropReads s n e.id (chanOfLine s n e.line).1 else s
    (s, { e with fwdDone := true, pend := false, mem := .idle })
  else (s, e)

/-- SNP_ACK at a tracker entry. -/
def ackEntry (s : State) (n : Nat) (e : Entry) (a : Nat) (r : Rsp) (mark : BitVec 2) : State :=
  let (s, c, v, fwd) := takeAnswer (trackerCheck s n) n e.coll e.view a r mark
  match findEntry s n e.id with
  | none => s
  | some _ =>
    let (s, e) := forwarded s n { e with coll := c, view := v } (fwd && e.fwdBy == some (BitVec.ofNat 5 a))
    advance (setEntry s n e) n e.id

/-- SNP_ACK at a victim slot. -/
def ackVictim (s : State) (n : Nat) (v : Victim) (a : Nat) (r : Rsp) (mark : BitVec 2) : State :=
  let (s, c, e, _) := takeAnswer s n v.coll v.entry a r mark
  match (slice s n).victims.find? (fun y => y.slot == v.slot) with
  | none => s
  | some v => victimStep (setVictim s n { v with coll := c, entry := e }) n { v with coll := c, entry := e }

/-- SNP_ACK at a reclamation slot. -/
def ackReclaim (s : State) (n : Nat) (k : Reclaim) (a : Nat) (r : Rsp) (mark : BitVec 2) : State :=
  let (s, c, _, _) := takeAnswer s n k.coll freeEntry a r mark
  let k := { k with coll := c }
  let x := slice s n
  let s := setSlice s n { x with reclaims := mapIf (fun y => y.slot == k.slot) (fun _ => k) x.reclaims }
  reclaimStep s n k

/-- A `SnpAck` of agent `a` for ENTRY `id` reaches the slice. -/
def snpAckAt (s : State) (n a id : Nat) (r : Rsp) (mark : BitVec 2) : State :=
  if id < 192 then
    match (findEntry s n id).filter (fun e => e.coll.out.getLsbD a) with
    | some e => ackEntry s n e a r mark
    | none => lateAnswer s n a id
  else if id < 208 then
    match (slice s n).victims.find? (fun v => 192 + v.slot == id && v.coll.out.getLsbD a) with
    | some v => ackVictim s n v a r mark
    | none => lateAnswer s n a id
  else
    match (slice s n).reclaims.find? (fun k => 224 + k.slot == id && k.coll.out.getLsbD a) with
    | some k => ackReclaim s n k a r mark
    | none => lateAnswer s n a id

/-- SNP_ACK: the next answer in the inbox. In M10 it is discarded with its transaction (Table 15.8): its agent has been declared
dead (R382). -/
def snpAckEffect (s : State) (n : Nat) : State :=
  match takeMsg s n (isRsp 1) with
  | some (i, s) =>
    match i.pkt.msg with
    | .rsp r =>
      if inSafe s then s
      else allocAgain (snpAckAt s n i.pkt.src.toNat r.entry.toNat r i.pkt.mark) n
    | _ => s
  | none => s

/-- The meaning of SNP_ACK. -/
def execSnpAck (n : SliceId) (s : State) : Host.Outcome State Fault Refusal := guarded s (snpAckEffect s n)

-- write data (R173)

/-- The half a `DataWb` flit carries. -/
def halfOf (p : Packet) (d : Dat) : HalfRec := ⟨p.src, d.half, d.data, d.be, d.poison⟩

/-- The flit is data of its sender's own request or notice with the same number. -/
def ownData (p : Packet) (d : Dat) (src : BitVec 5) (txn : BitVec 8) (series : BitVec 16) : Bool :=
  p.src == src && d.txn == txn && p.reqNo == series

/-- A half for a notice of a list. -/
def halfToNotice (p : Packet) (d : Dat) (l : List Notice) : List Notice :=
  mapIf (fun t => ownData p d t.src t.txn t.series) (fun t => { t with halves := addHalf t.halves (halfOf p d) }) l

/-- Some notice of a list expects the flit. -/
def noticeWants (p : Packet) (d : Dat) (l : List Notice) : Bool := l.any (fun t => t.dirty && ownData p d t.src t.txn t.series)

/-- A snoop write-back may still come from agent `a`: announced, or its answer outstanding. -/
def wbWanted (c : Coll) (a : BitVec 5) : Bool := c.wb.any (fun w => w.1 == a) || c.out.getLsbD a.toNat

/-- The request of the flit has yet to reach the slice: its header waits in the inbox or is in the spine. -/
def headerComing (s : State) (n : Nat) (p : Packet) (d : Dat) : Bool :=
  let mine := fun (q : Packet) => match q.msg with
    | .req r => q.src == p.src && r.txn == d.txn && q.reqNo == p.reqNo
    | _ => false
  (slice s n).inbox.any (fun i => mine i.pkt) || (s.spine.arrive ++ s.spine.queued).any (fun f => mine f.pkt)

/-- The other slice of the pair, where data follows a request that crossed (Table 9.8). -/
def pairSlice (n : Nat) : Nat := if n % 2 = 0 then n + 1 else n - 1

/-- Slice `n` holds the request or notice that an own-data flit belongs to. -/
def ownHere (s : State) (n : Nat) (p : Packet) (d : Dat) : Bool :=
  let x := slice s n
  x.entries.any (fun e => e.stage != .reserved && ownData p d e.src e.req.txn e.series) || noticeWants p d x.lanes
    || x.entries.any (fun e => noticeWants p d e.notices) || x.victims.any (fun v => noticeWants p d v.notices)

/-- Own data joins its request, or its notice. -/
def giveOwn (s : State) (n : Nat) (p : Packet) (d : Dat) : State :=
  let s := if (slice s n).entries.any (fun e => e.stage != .reserved && ownData p d e.src e.req.txn e.series) then trackerCheck s n else s
  let x := slice s n
  setSlice s n { x with
    entries := x.entries.map (fun e =>
      let e := if e.stage != .reserved && ownData p d e.src e.req.txn e.series then { e with own := addHalf e.own (halfOf p d) } else e
      { e with notices := halfToNotice p d e.notices }),
    lanes := halfToNotice p d x.lanes,
    victims := x.victims.map (fun v => { v with notices := halfToNotice p d v.notices }) }

/-- A snoop write-back joins the transaction it answers (R86). A half that comes late is a late answer of its own, beside the
`SnpAck` and the other half (DESIGN CHOICE, assumption 87). -/
def giveWb (s : State) (n : Nat) (p : Packet) (d : Dat) : State :=
  let id := d.entry.toNat
  let add := fun (c : Coll) => { c with wbData := addHalf c.wbData (halfOf p d) }
  let x := slice s n
  if id < 192 ∧ x.entries.any (fun e => e.id == id && wbWanted e.coll p.src) then
    let s := trackerCheck s n
    let x := slice s n
    setSlice s n { x with entries := mapIf (fun e => e.id == id) (fun e => { e with coll := add e.coll }) x.entries }
  else if x.victims.any (fun v => 192 + v.slot == id && wbWanted v.coll p.src) then
    setSlice s n { x with victims := mapIf (fun v => 192 + v.slot == id) (fun v => { v with coll := add v.coll }) x.victims }
  else if x.reclaims.any (fun k => 224 + k.slot == id && wbWanted k.coll p.src) then
    setSlice s n { x with reclaims := mapIf (fun k => 224 + k.slot == id) (fun k => { k with coll := add k.coll }) x.reclaims }
  else lateAnswer s n p.src.toNat id

/-- A `DataWb` flit that the slice can place, or that nothing will ever claim. -/
def dataReady (s : State) (n : Nat) (i : InMsg) : Bool :=
  match i.pkt.msg with
  | .dat d => d.kind == 3 && (d.snpwb || ownHere s n i.pkt d || ownHere s (pairSlice n) i.pkt d || !headerComing s n i.pkt d)
  | _ => false

/-- DATA_WB: the next write data that can be placed. Data of a request that was refused or ended is discarded (R82). -/
def dataWbEffect (s : State) (n : Nat) : State :=
  match takeMsg s n (dataReady s n) with
  | some (i, s) =>
    match i.pkt.msg with
    | .dat d =>
      if inSafe s then s
      else if d.snpwb then pumpSlice (giveWb s n i.pkt d) n
      else if ownHere s n i.pkt d then pumpSlice (giveOwn s n i.pkt d) n
      else if ownHere s (pairSlice n) i.pkt d then pumpSlice (giveOwn s (pairSlice n) i.pkt d) (pairSlice n)
      else s
    | _ => s
  | none => s

/-- The meaning of DATA_WB. -/
def execDataWb (n : SliceId) (s : State) : Host.Outcome State Fault Refusal := guarded s (dataWbEffect s n)

-- eviction notices

/-- The notice that a `WbDirty` or `EvClean` header carries. -/
def noticeOf (s : State) (p : Packet) (r : Req) (l : Nat) : Notice :=
  { src := p.src, txn := r.txn, series := p.reqNo, dl := p.dl, prio := r.prio, dirty := opOf r == 8, line := l, addr := r.addr,
    mute := decide (p.src.toNat < 24) && (port s p.src.toNat).fenced, absorbed := false, applied := false, queued := false, failed := false, syncs := [], halves := [] }

/-- A stale notice: acknowledged and counted, its data discarded (R175). -/
def staleNotice (s : State) (n : Nat) (t : Notice) : State :=
  let s := noticeAck s n t
  let s := satAdd s (slcBase n + 0x31C) 0 16 1
  if t.dirty then report s n 7 else s

/-- The notice joins the active entry of its line (R171). -/
def attachEntry (s : State) (n : Nat) (e : Entry) (t : Notice) : State :=
  advance (setEntry (trackerCheck s n) n { e with notices := e.notices ++ [t] }) n e.id

/-- The notice joins the victim slot of its line, where its sender was a holder; any other is stale (Table 7.2). -/
def attachVictim (s : State) (n : Nat) (v : Victim) (t : Notice) : State :=
  if (sentTo v.coll t.src.toNat).isSome then
    let v := { v with notices := v.notices ++ [t] }
    victimStep (setVictim s n v) n v
  else staleNotice s n t

/-- The notice takes a lane and is handled there (R171); the holder's notice ends the hold window (R132). -/
def noticeLane (s : State) (n : Nat) (t : Notice) : State :=
  match noticeApply (entryOf s n t.line) t.src.toNat t.dirty with
  | none => staleNotice s n t
  | some _ =>
    let s := endHold s n t.line
    laneStep (setSlice s n { slice s n with lanes := (slice s n).lanes ++ [t] }) n

/-- A notice for a line homed here. -/
def noticeHere (s : State) (n : Nat) (t : Notice) : State :=
  match activeEntry s n t.line with
  | some e => attachEntry s n e t
  | none =>
    match victimOf s n t.line with
    | some v => attachVictim s n v t
    | none => noticeLane s n t

/-- The slice of the pair that serves a notice which has reached slice `n`, and its line; none: no slice of the pair homes
it, or it has been redirected (Table 9.8). -/
def noticeHome (s : State) (n : Nat) (i : InMsg) (r : Req) : Option (Nat × Nat) :=
  match homeOf s r.addr.toNat with
  | some h => if h.slice = n ∨ (!i.redir ∧ h.slice / 2 = n / 2 ∧ slicePwr s h.slice) then some (h.slice, h.line) else none
  | none => none

/-- A notice header with opcode `op` that can be taken: it attaches, or a lane of its slice is free (R171). -/
def noticeReadyMsg (s : State) (n op : Nat) (i : InMsg) : Bool :=
  match i.pkt.msg with
  | .req r => opOf r == op && (match noticeHome s n i r with
      | some (k, l) => decide ((slice s k).lanes.length < 8) || (activeEntry s k l).isSome || (victimOf s k l).isSome
      | none => true)
  | _ => false

/-- The next notice with opcode `op`. In M10 it is discarded: its agent has been declared dead (R382). -/
def noticeEffect (s : State) (n op : Nat) : State :=
  match takeMsg s n (noticeReadyMsg s n op) with
  | some (i, s) =>
    match i.pkt.msg with
    | .req r =>
      if inSafe s then s
      else match noticeHome s n i r with
      | some (k, l) => allocAgain (noticeHere s k (noticeOf s i.pkt r l)) k
      | none => staleNotice s n (noticeOf s i.pkt r 0)
    | _ => s
  | none => s

/-- The meaning of WB_DIRTY. -/
def execWbDirty (n : SliceId) (s : State) : Host.Outcome State Fault Refusal := guarded s (noticeEffect s n 8)

/-- The meaning of EV_CLEAN. -/
def execEvClean (n : SliceId) (s : State) : Host.Outcome State Fault Refusal := guarded s (noticeEffect s n 9)

-- `GrantAck` and the hold window

/-- The grant arms the hold window of its line (R131). -/
def armsHold (e : Entry) : Bool := opOf e.req == 4 || e.grant == 3 || e.grant == 4

/-- The window arms, unless the request was taken up under the holder exception (R167) or a notice of the requester was
waiting (R172). -/
def armHold (s : State) (n : Nat) (e : Entry) (noticed : Bool) : State :=
  let ns := getFld s (slcBase n + 0x300) 0 8
  if armsHold e ∧ !e.holder ∧ !noticed ∧ 0 < ns then
    let x := slice s n
    let waiters := x.entries.filter (fun y => y.line == e.line && y.stage == .waiting && y.src != e.src)
    let s := setSlice s n { x with holds := x.holds ++ [⟨e.line, e.src, s.tick + ns⟩] }
    pmuEvents (waiters.foldl (fun s y => sampleFlag s (32 + n) y.src y.req.txn 9) s) n 0x14 waiters.length
  else s

/-- `GrantAck` for entry `e`: its requester's notices are taken up, the entry is released, the window arms or the next
waiting entry becomes active (R128, R131, R166, R172). `err`: what its lookup finds. -/
def grantAckAt (s : State) (n : Nat) (e : Entry) (err : SetErr) : State :=
  let s := trackerCheck s n
  if (findEntry s n e.id).isNone then s else
  let noticed := e.notices.any (fun t => t.src == e.src)
  let (s, l) := e.notices.foldl (fun (acc : State × List Notice) t =>
    let (s, t) := noticeIdle acc.1 n t
    (s, acc.2 ++ [t])) (s, [])
  let (s, l) := noticesAck s n l
  let s := releaseEntry s n { e with notices := l, stage := .term, reply := none }
  allocAgain (activateNext (armHold s n e noticed) n e.line err) n

/-- GRANT_ACK: the next one in the inbox; one that names no entry awaiting it is discarded. -/
def grantAckEffect (s : State) (n : Nat) (err : SetErr) : State :=
  match takeMsg s n (isRsp 3) with
  | some (i, s) =>
    match i.pkt.msg with
    | .rsp r =>
      match (findEntry s n r.entry.toNat).filter (fun e => e.stage == .granted && e.src == i.pkt.src) with
      | some e => grantAckAt s n e err
      | none => s
    | _ => s
  | none => s

/-- The meaning of GRANT_ACK. -/
def execGrantAck (n : SliceLookup) (s : State) : Host.Outcome State Fault Refusal := guarded s (grantAckEffect s n.slice n.err)

/-- HOLD_WINDOW_EXPIRE: the line becomes idle and the next waiting entry active (R132). `err`: what its lookup finds. -/
def holdExpireEffect (s : State) (n : Nat) (pa : Addr) (err : SetErr) : State :=
  match homeOf s pa.toNat with
  | some h =>
    if h.slice = n ∧ (holdOf s n h.line).any (fun w => decide (w.due ≤ s.tick)) then allocAgain (activateNext (endHold s n h.line) n h.line err) n
    else s
  | none => s

/-- The meaning of HOLD_WINDOW_EXPIRE. -/
def execHoldWindowExpire (n : SliceId) (line : LineLookup) (s : State) : Host.Outcome State Fault Refusal :=
  guarded s (holdExpireEffect s n line.pa line.err)

end Sys2Proof.Machine
end

