-- ==== Sys2Proof/Machine/Xlat.lean ====
section
/-! DEFINITION. Translation maintenance (R206 to R210), the hazard watches (R213, R214) and the filter scrub (R154). -/

namespace Sys2Proof.Machine

-- the series of a source (R210)

/-- Numbers of source `src` below this one have arrived and ended. -/
def xlatDoneTo (s : State) (n src : Nat) : Nat := cellsGet (fun _ => 0) (slice s n).xdone src

/-- Move the mark past the numbers known to have ended. -/
def xlatAdvance : Nat → State → Nat → Nat → State
  | 0, s, _, _ => s
  | fuel + 1, s, n, src =>
    let w := xlatDoneTo s n src
    let x := slice s n
    if x.xsince.any (fun p => p.1.toNat == src && p.2 == w) then
      let s := setSlice s n { x with xdone := cellsSet (fun _ => 0) x.xdone src ((w + 1) % 65536),
                                     xsince := x.xsince.filter (fun p => !(p.1.toNat == src && p.2 == w)) }
      xlatAdvance fuel s n src
    else s

/-- Number `k` of source `src` has ended in the account of slice `n`. -/
def xlatEndedAt (s : State) (n : Nat) (src : BitVec 5) (k : Nat) : State :=
  let x := slice s n
  xlatAdvance (x.xsince.length + 1) (setSlice s n { x with xsince := (src, k) :: x.xsince }) n src.toNat

/-- Number `k` of source `src` has ended at slice `n`. A successor that ends a redirected one tells the slice that has come
back to serve the port (R236, R238). -/
def xlatEnded (s : State) (n : Nat) (src : BitVec 5) (k : Nat) : State :=
  let s := xlatEndedAt s n src k
  let home := (port s src.toNat).xlatSlice.toNat
  if home ≠ n ∧ slicePwr s home ∧ !sliceFenced s home then xlatEndedAt s home src k else s

/-- Numbers of source `src` that an `XlatSync` bears which waits at the ingress: a later sync need not wait for it (R210). -/
def syncsHere (s : State) (n src : Nat) : List Nat :=
  (slice s n).inbox.filterMap (fun i => match i.pkt.msg with
    | .req r => if opOf r = 0x29 ∧ i.pkt.src.toNat = src then some i.pkt.series.toNat else none
    | _ => none)

/-- The first number from `w` upward that is neither among `l` nor ended. -/
def xlatReach (l : List Nat) : Nat → Nat → Nat
  | 0, w => w
  | fuel + 1, w => if l.contains w then xlatReach l fuel ((w + 1) % 65536) else w

/-- Every lower number of the source has ended, or belongs to an `XlatSync`. -/
def syncReady (s : State) (n : Nat) (t : XSlot) : Bool :=
  let src := t.src.toNat
  let l := syncsHere s n src ++ ((slice s n).xsince.filter (fun p => p.1.toNat == src)).map (·.2)
  let d := (xlatReach l l.length (xlatDoneTo s n src) + 65536 - t.series) % 65536
  decide (d < 32768)

/-- `Comp` of a translation request; none to a fenced port. -/
def xlatComp (s : State) (n : Nat) (t : XSlot) : State :=
  if t.mute then s
  else sliceSend s n t.src false t.prio (.rsp { homeRsp n 2 t.txn t.prio with entry := BitVec.ofNat 8 (208 + t.slot) })

/-- An `XlatSync` completes: its slot ends in `Comp` and every slice is told (R210, R214). -/
def xlatSyncEnd (s : State) (n : Nat) (t : XSlot) : State :=
  let x := slice s n
  let s := setSlice s n { x with xslots := x.xslots.filter (fun y => y.slot != t.slot) }
  let s := xlatComp s n t
  forEach 8 s (fun s k => if slicePwr s k then sliceToSlice s n k (.syncDone t.src t.taken) else s)

/-- Complete the syncs of source `src` that have nothing left to wait for. -/
def xlatSyncs (s : State) (n : Nat) (src : BitVec 5) : State :=
  ((slice s n).xslots.filter (fun t => t.sync && t.src == src)).foldl (fun s t => if syncReady s n t then xlatSyncEnd s n t else s) s

/-- The slot of an `XlatInv` is released once every port of its set has answered or been resolved (R209). -/
def xlatRelease (s : State) (n : Nat) (t : XSlot) : State :=
  if t.await = 0 then
    let x := slice s n
    let s := setSlice s n { x with xslots := x.xslots.filter (fun y => y.slot != t.slot) }
    xlatSyncs (xlatEnded s n t.src t.series) n t.src
  else
    let x := slice s n
    setSlice s n { x with xslots := mapIf (fun y => y.slot == t.slot) (fun _ => t) x.xslots }

/-- Port `a` owes slot `t` nothing more. -/
def xlatAnswered (s : State) (n : Nat) (t : XSlot) (a : Nat) : State :=
  let w := t.await &&& ~~~ (bit24 a)
  xlatRelease s n { t with await := w, timer := if w = 0 then none else t.timer }

/-- The broadcast set: every port that bears a translation cache and is neither fenced nor in reset (R207). -/
def xlatSet (s : State) : List Nat :=
  (List.range 24).filter (fun a => (port s a).xlat && !(port s a).fenced && !(port s a).resetLow && portEnabled s a)

/-- The next message with opcode `op` when a slot is free for it (R206). -/
def takeXlat (s : State) (n op : Nat) : Option (Packet × Req × Nat × State) :=
  match firstFree 16 ((slice s n).xslots.map (·.slot)) with
  | none => none
  | some k =>
    match takeMsg s n (fun i => match i.pkt.msg with
      | .req r => opOf r == op
      | _ => false) with
    | some (i, s) =>
      match i.pkt.msg with
      | .req r => some (i.pkt, r, k, s)
      | _ => none
    | none => none

/-- A translation request that held no slot when its port was fenced is abandoned (R106). -/
def xlatAbandon (s : State) (n : Nat) (p : Packet) : State := xlatSyncs (xlatEnded s n p.src p.series.toNat) n p.src

/-- XLAT_INV: a slot, the broadcast, and `Comp` at once (R207). -/
def xlatInvEffect (s : State) (n : Nat) : State :=
  match takeXlat s n 0x28 with
  | none => s
  | some (p, r, k, s) =>
    if inSafe s then s
    else if (port s p.src.toNat).fenced then xlatAbandon s n p
    else
      let set := xlatSet s
      let t : XSlot := { slot := k, sync := false, src := p.src, txn := r.txn, prio := r.prio, series := p.series.toNat,
                         taken := s.tick, xtag := r.xtag, await := set.foldl (fun b a => b ||| bit24 a) 0,
                         timer := if set.isEmpty then none else some (s.tick + snpTimeout s n), mute := false }
      let m : Snp := { opcode := 8, subop := r.subop, home := BitVec.ofNat 3 n, entry := BitVec.ofNat 8 (208 + k),
                       prio := r.prio, fwd := false, fwdTo := 0, fwdTxn := 0, fwdState := 0, addr := r.addr, xtag := r.xtag }
      let s := setSlice s n { slice s n with xslots := (slice s n).xslots ++ [t] }
      let s := set.foldl (fun s a => sliceSend (pmuEvent s n 0x0C) n (BitVec.ofNat 5 a) false r.prio (.snp m)) s
      xlatRelease (xlatComp s n t) n t

/-- The meaning of XLAT_INV. -/
def execXlatInv (n : SliceId) (s : State) : Host.Outcome State Fault Refusal := guarded s (xlatInvEffect s n)

/-- XLAT_SYNC: a slot that waits for the earlier `XlatInv` of its port (R210). -/
def xlatSyncEffect (s : State) (n : Nat) : State :=
  match takeXlat s n 0x29 with
  | none => s
  | some (p, r, k, s) =>
    if inSafe s then s
    else if (port s p.src.toNat).fenced then xlatAbandon s n p
    else
      let t : XSlot := { slot := k, sync := true, src := p.src, txn := r.txn, prio := r.prio, series := p.series.toNat,
                         taken := s.tick, xtag := 0, await := 0, timer := none, mute := false }
      let s := setSlice s n { slice s n with xslots := (slice s n).xslots ++ [t] }
      xlatSyncs (xlatEnded s n p.src p.series.toNat) n p.src

/-- The meaning of XLAT_SYNC. -/
def execXlatSync (n : SliceId) (s : State) : Host.Outcome State Fault Refusal := guarded s (xlatSyncEffect s n)

/-- XLAT_DONE: the answer of a port of the set, or a late one (R185, R209). -/
def xlatDoneEffect (s : State) (n : Nat) : State :=
  match takeMsg s n (isRsp 8) with
  | some (i, s) =>
    match i.pkt.msg with
    | .rsp r =>
      let a := i.pkt.src.toNat
      if inSafe s then s
      else match (slice s n).xslots.find? (fun t => 208 + t.slot == r.entry.toNat && t.await.getLsbD a) with
      | some t => xlatAnswered s n t a
      | none => lateAnswer s n a r.entry.toNat
    | _ => s
  | none => s

/-- The meaning of XLAT_DONE. -/
def execXlatDone (n : SliceId) (s : State) : Host.Outcome State Fault Refusal := guarded s (xlatDoneEffect s n)

-- hazard watches

/-- XLAT_SYNC_SIGNAL: the completion of an `XlatSync` reaches the slice (R214). -/
def xlatSignalEffect (s : State) (n : Nat) : State :=
  match takeMsg s n (fun i => match i.pkt.msg with
    | .syncDone _ _ => true
    | _ => false) with
  | some (i, s) =>
    match i.pkt.msg with
    | .syncDone src t => setSlice s n (closeWatches src t (slice s n))
    | _ => s
  | none => s

/-- The meaning of XLAT_SYNC_SIGNAL. -/
def execXlatSyncSignal (n : SliceId) (s : State) : Host.Outcome State Fault Refusal := guarded s (xlatSignalEffect s n)

/-- HAZARD_WATCH_EXPIRE: an unclosed watch is counted, captured and logged (R214). -/
def hazardExpireEffect (s : State) (n slot : Nat) : State :=
  let x := slice s n
  match x.watches.find? (fun w => w.slot == slot && decide (w.due ≤ s.tick)) with
  | none => s
  | some w =>
    let s := setSlice s n { x with watches := x.watches.filter (fun y => y.slot != slot) }
    let s := satAdd s (slcBase n + 0x410) 0 16 1
    let s := if getBit s (slcBase n + 0x408) 31 then s
      else setReg (setReg s (slcBase n + 0x408)
        (BitVec.ofNat 32 (w.src.toNat + 2 ^ 5 * w.opcode.toNat + 2 ^ 11 * b2n w.accord + 2 ^ 31)))
        (slcBase n + 0x40C) (BitVec.ofNat 32 (w.line % 2 ^ 30))
    logRecord s 2 n w.src.toNat w.opcode.toNat (w.line % 2 ^ 30)

/-- The meaning of HAZARD_WATCH_EXPIRE. -/
def execHazardWatchExpire (n : SliceId) (slot : Fin 8) (s : State) : Host.Outcome State Fault Refusal :=
  guarded s (hazardExpireEffect s n slot)

-- the filter scrub (R152 to R156)

/-- SLC_SF_CFG.SCRUB_US in ticks. -/
def scrubTicks (s : State) (n : Nat) : Nat := max 1 (getFld s (slcBase n + 0x200) 8 16) * 1000

/-- Lookups of bank `b` of slice `n` wait to be made: a scrub read is served after them (R137). -/
def lookupsWait (s : State) (n b : Nat) : Bool :=
  (slice s n).entries.any (fun y => (lineSetTag s n y.line).1 % 4 == b && !lookupStopped s n y.line &&
    ((y.stage == .tentative && !takeUpStopped s) || canTake s n y))

/-- FILTER_SCRUB: the next set is read, once no lookup waits at its bank (R137, R154). -/
def filterScrubEffect (s : State) (n : Nat) (e : SetErr) : State :=
  let x := slice s n
  if getBit s (slcBase n + 0x200) 4 ∧ slicePwr s n ∧ running s ∧ x.scrubDue ≤ s.tick ∧ !lookupsWait s n (x.scrubSet % 4) then
    let st := x.scrubSet
    let s := setSlice s n { x with scrubSet := (st + 1) % 16384, scrubDue := s.tick + scrubTicks s n }
    setChecks s n st 0 false e
  else s

/-- The meaning of FILTER_SCRUB. -/
def execFilterScrub (n : SliceId) (err : SetErr) (s : State) : Host.Outcome State Fault Refusal :=
  guarded s (filterScrubEffect s n err)

end Sys2Proof.Machine
end

