-- ==== Sys2Proof/Machine/Death.lean ====
section
/-! DEFINITION. Fencing (R106, R107), dead agents (R186 to R188), snoop timeouts (R183, R184) and the reclamation scan
(R187). -/

namespace Sys2Proof.Machine

-- what a fence ends

/-- The entries of a fenced requester: waiting ones are released, reserved ones returned, one that awaits `GrantAck`
ends, and an active one runs on without messages (R188), a write whose data cannot come to its end. -/
def muteEntry (s : State) (n : Nat) (e : Entry) : State :=
  match e.stage with
  | .waiting => endEntry s n e
  | .tentative => endEntry s n e
  | .reserved => returnReserved s n e
  | .granted => releaseEntry s n { e with mute := true, stage := .term, reply := none }
  | .writing => advance (setEntry s n { e with mute := true }) n e.id
  | .alloc => advance (setEntry s n { e with mute := true }) n e.id
  | _ => setEntry s n { e with mute := true }

/-- Notices of a fenced port end without `EvAck`. -/
def muteNotices (a : Nat) (l : List Notice) : List Notice := mapIf (fun t => t.src.toNat == a) (fun t => { t with mute := true }) l

/-- What a fence of port `a` ends in slice `n` (R106, R188, R209). -/
def fenceSlice (a : Nat) (s : State) (n : Nat) : State :=
  let x := slice s n
  let s := setSlice s n { x with
    entries := x.entries.map (fun e => { e with notices := muteNotices a e.notices }),
    victims := x.victims.map (fun v => { v with notices := muteNotices a v.notices }),
    lanes := muteNotices a x.lanes,
    retry := x.retry.filter (fun r => r.src.toNat != a),
    xslots := mapIf (fun t => t.src.toNat == a) (fun t => { t with mute := true }) x.xslots }
  let s := (x.entries.filter (fun e => e.src.toNat == a)).foldl (fun s e =>
    match findEntry s n e.id with
    | some e => muteEntry s n e
    | none => s) s
  (x.xslots.filter (fun t => t.await.getLsbD a)).foldl (fun s t =>
    match (slice s n).xslots.find? (fun y => y.slot == t.slot) with
    | some t => xlatAnswered (noteLate s n a (208 + t.slot) 8 (t.xtag.toNat + 2 ^ 16 * (208 + t.slot) + 2 ^ 29 * n)) n t a
    | none => s) s

/-- Port `a` is fenced (R106). A port already fenced is not fenced again. -/
def fenceOnly (s : State) (a : Nat) : State :=
  if (port s a).fenced then s
  else
    let s := fenceBare s a
    let s := { s with obs := { s.obs with apInbox := s.obs.apInbox.filter (fun i => i.pkt.src.toNat != a),
                                          samples := s.obs.samples.filter (fun x => x.unit != a) } }
    forEach 8 s (fenceSlice a)

-- death

/-- The view from which a snoop of the entry was sent, and what a silent answer of agent `a` leaves: a dead H or W loses
the line (Tables 7.7, 7.8). -/
def resolveColl (c : Coll) (v : FEntry) (a : Nat) : Coll × FEntry :=
  ({ collAnswered c a with lost := c.lost.orElse (fun _ => if ownerOf v = some a then some (BitVec.ofNat 5 a) else none) },
   viewDrop v a)

/-- The same for a tracker entry, whose view keeps a dead owner until the filter write. -/
def resolveEntry (e : Entry) (a : Nat) : Entry :=
  let (c, v) := resolveColl e.coll e.view a
  { e with coll := c, view := if ownerOf e.view = some a then e.view else v }

/-- The snoop opcode agent `a` was sent. -/
def sentOpcode (c : Coll) (a : Nat) : BitVec 4 := snpOpcode ((sentTo c a).getD .inv)

/-- Slice `n` treats every snoop that agent `a` owes as answered with I (R187). -/
def resolveSlice (a : Nat) (s : State) (n : Nat) : State :=
  let x := slice s n
  let s := (x.entries.filter (fun e => e.coll.out.getLsbD a)).foldl (fun s e =>
    match findEntry s n e.id with
    | some e =>
      let s := noteLate s n a e.id (sentOpcode e.coll a) (hlnWord s n e.line)
      advance (setEntry s n (resolveEntry e a)) n e.id
    | none => s) s
  let s := (x.victims.filter (fun v => v.coll.out.getLsbD a)).foldl (fun s v =>
    match (slice s n).victims.find? (fun y => y.slot == v.slot) with
    | some v =>
      let (c, e) := resolveColl v.coll v.entry a
      let s := noteLate s n a (192 + v.slot) (sentOpcode v.coll a) (hlnWord s n v.line)
      let v := { v with coll := c, entry := e }
      victimStep (setVictim s n v) n v
    | none => s) s
  (x.reclaims.filter (fun k => k.coll.out.getLsbD a)).foldl (fun s k =>
    let s := noteLate s n a (224 + k.slot) (sentOpcode k.coll a) (hlnWord s n k.line)
    let k := { k with coll := collAnswered k.coll a }
    let x := slice s n
    reclaimStep (setSlice s n { x with reclaims := mapIf (fun y => y.slot == k.slot) (fun _ => k) x.reclaims }) n k) s

/-- Agent `a` is declared dead (R186): its port is fenced, the bits are set, one event is reported, reclamation starts
in every slice, and what it owes counts as answered. -/
def agentDeath (s : State) (a : Nat) : State :=
  if agentDead s a then s
  else
    let s := startReclaim (fenceOnly s a) a
    let s := forEach 8 s (resolveSlice a)
    report s 24 5

/-- A fence of port `a`: for a caching port a declaration of death (R107, R191). -/
def fencePort (s : State) (a : Nat) : State :=
  if (port s a).fenced then s else if (port s a).caching then agentDeath s a else fenceOnly s a

/-- Reclamation of agent `a` runs in some slice, or packets its port passed before the fence remain in the spine
(SPN_RECLAIM). -/
def reclaimPending (s : State) (a : Nat) : Bool :=
  (port s a).fenced && ((List.range 8).any (fun n => (slice s n).scan.any (fun e => e.1.toNat == a)) || inFlight s a != 0)

-- snoop timeouts

/-- One expiry for agent `a`: captured and reported (R184). -/
def expiryOf (n id : Nat) (op : BitVec 4) (s : State) (a : Nat) : State :=
  let death := getBit s (portBase a) 2
  let s := setReg s (slcBase n + 0x30C)
    (BitVec.ofNat 32 (a + 2 ^ 5 * id + 2 ^ 13 * op.toNat + 2 ^ 17 * b2n death + 2 ^ 18))
  report s n 8

/-- The expiry of a timer with the agents outstanding: counted once, captured and reported for each, and each agent with
AUTO_DEATH declared dead (R183, R184). -/
def expire (s : State) (n id : Nat) (agents : List (Nat × BitVec 4)) : State :=
  let s := satAdd s (slcBase n + 0x310) 0 16 1
  let s := agents.foldl (fun s t => expiryOf n id t.2 s t.1) s
  if inSafe s then s
  else (agents.filter (fun t => getBit s (portBase t.1) 2)).foldl (fun s t => agentDeath s t.1) s

/-- The outstanding agents of a batch with what they were sent. -/
def outstanding (c : Coll) : List (Nat × BitVec 4) := (bits24 c.out).map (fun a => (a, sentOpcode c a))

/-- The timer has expired. -/
def timerDue (s : State) (t : Option Nat) : Bool := t.any (fun d => decide (d ≤ s.tick))

/-- The batch with its timer armed again. -/
def rearm (s : State) (n : Nat) (c : Coll) : Coll := { c with timer := some (s.tick + snpTimeout s n) }

/-- SNOOP_TIMEOUT at ENTRY `id`: a tracker entry, a victim, translation or reclamation slot. -/
def snoopTimeoutEffect (s : State) (n id : Nat) : State :=
  let x := slice s n
  if id < 192 then
    match (findEntry s n id).filter (fun e => timerDue s e.coll.timer) with
    | some e => expire (setEntry s n { e with coll := rearm s n e.coll }) n id (outstanding e.coll)
    | none => s
  else if id < 208 then
    match x.victims.find? (fun v => 192 + v.slot == id && timerDue s v.coll.timer) with
    | some v => expire (setVictim s n { v with coll := rearm s n v.coll }) n id (outstanding v.coll)
    | none => s
  else if id < 224 then
    match x.xslots.find? (fun t => 208 + t.slot == id && timerDue s t.timer) with
    | some t =>
      let s := setSlice s n { x with xslots := mapIf (fun y => y.slot == t.slot) (fun y => { y with timer := some (s.tick + snpTimeout s n) }) x.xslots }
      expire s n id ((bits24 t.await).map (fun a => (a, 8)))
    | none => s
  else
    match x.reclaims.find? (fun k => 224 + k.slot == id && timerDue s k.coll.timer) with
    | some k =>
      let s := setSlice s n { x with reclaims := mapIf (fun y => y.slot == k.slot) (fun y => { y with coll := rearm s n y.coll }) x.reclaims }
      expire s n id (outstanding k.coll)
    | none => s

/-- The meaning of SNOOP_TIMEOUT. -/
def execSnoopTimeout (n : SliceId) (entry : BitVec 8) (s : State) : Host.Outcome State Fault Refusal :=
  guarded s (snoopTimeoutEffect s n entry.toNat)

-- the reclamation scan

/-- No further data of agent `a` can reach slice `n` (R188, R192). -/
def noMoreData (s : State) (n a : Nat) : Bool :=
  inFlight s a == 0 && !((slice s n).inbox ++ (slice s (pairSlice n)).inbox).any (fun i => i.pkt.src.toNat == a && msgChan i.pkt.msg == 3)

/-- A notice of agent `a` whose data can no longer come. -/
def halfLess (a : Nat) (t : Notice) : Bool := t.src.toNat == a && t.dirty && !t.queued && !bothHalves t.halves t.src

/-- What a transaction waited for from dead agent `a` and can no longer come: it loses the line. -/
def dropOwed (a : Nat) (c : Coll) (l : List Notice) : Coll × List Notice :=
  let wb := c.wb.filter (fun w => !(w.1.toNat == a && !bothHalves c.wbData w.1))
  let marks := c.marks.filter (fun m => m.1.toNat != a || l.any (fun t => t.src.toNat == a && !halfLess a t))
  let gone := wb.length != c.wb.length || marks.length != c.marks.length || l.any (fun t => halfLess a t && t.absorbed)
  ({ c with wb := wb, marks := marks, lost := c.lost.orElse (fun _ => if gone then some (BitVec.ofNat 5 a) else none) },
   l.filter (fun t => !halfLess a t))

/-- The leftovers of dead agent `a` in slice `n`, once no data of it can come (R188). -/
def deadLeftovers (s : State) (n a : Nat) : State :=
  if noMoreData s n a then
    let x := slice s n
    let s := setSlice s n { x with
      lanes := x.lanes.filter (fun t => !halfLess a t),
      entries := x.entries.map (fun e =>
        let (c, l) := dropOwed a e.coll e.notices
        { e with coll := c, notices := l }),
      victims := x.victims.map (fun v =>
        let (c, l) := dropOwed a v.coll v.notices
        { v with coll := c, notices := l }),
      reclaims := x.reclaims.map (fun k => { k with coll := (dropOwed a k.coll []).1 }) }
    pumpSlice s n
  else s

/-- The scan visits a set: every way that is not busy is reclaimed for each dead agent, and lost entries try their
marking write again (R187). -/
def scanSet (s : State) (n st : Nat) : State :=
  (List.range 12).foldl (fun s w =>
    let s := retryMark s n st w
    if wayBusy s n st w then s
    else (slice s n).scan.foldl (fun s e => reclaimWay s n st w e.1.toNat) s) s

/-- Reclamation of agent `a` has nothing left in slice `n`: no holding, and none of its own marking writes (R187). -/
def reclaimed (s : State) (n a : Nat) : Bool :=
  let x := slice s n
  !x.filter.any (fun c => c.2.presence.getLsbD a) && !x.entries.any (fun e => e.src.toNat == a || e.coll.out.getLsbD a || e.view.presence.getLsbD a)
    && !x.lanes.any (fun t => t.src.toNat == a) && !x.reclaims.any (fun r => r.agent.toNat == a)
    && !x.victims.any (fun v => v.coll.out.getLsbD a || v.coll.lost == some (BitVec.ofNat 5 a) || v.notices.any (fun t => t.src.toNat == a))
    && !x.marking.any (fun m => m.1.toNat == a)

/-- One more set visited since each dead agent joined; an agent whose sets are all visited leaves the scan once nothing of
it is left (R187). -/
def scanCount (s : State) (n : Nat) : State :=
  let l := (slice s n).scan.map (fun e => (e.1, e.2 - 1))
  let l := l.filterMap (fun e => if e.2 ≠ 0 then some e else if reclaimed s n e.1.toNat then none else some e)
  setSlice s n { slice s n with scan := l }

/-- A way of the set still needs a reclamation slot after its visit: all eight are busy, and the scan waits for one (R187). -/
def scanWaits (s : State) (n st : Nat) : Bool :=
  (List.range 12).any (fun w =>
    let e := wayAt s n st w
    e.summary == .ow && e.presence.getLsbD e.fwd.toNat && !wayBusy s n st w && (slice s n).scan.any (fun d => d.1 == e.fwd))

/-- RECLAIM_SCAN: the next set. -/
def reclaimScanEffect (s : State) (n : Nat) : State :=
  let x := slice s n
  if x.scan.isEmpty then s
  else
    let st := x.scanPos
    let s := x.scan.foldl (fun s e => deadLeftovers s n e.1.toNat) s
    let s := (slice s n).victims.foldl (fun s v => victimStep s n v) s
    let s := (slice s n).reclaims.foldl (fun s r => reclaimStep s n r) s
    let s := scanSet s n st
    let s := if scanWaits s n st then s else
      let s := scanCount s n
      setSlice s n { slice s n with scanPos := (st + 1) % scanLength }
    allocAgain s n

/-- The meaning of RECLAIM_SCAN. -/
def execReclaimScan (n : SliceId) (s : State) : Host.Outcome State Fault Refusal := guarded s (reclaimScanEffect s n)

end Sys2Proof.Machine
end

