-- ==== Sys2Proof/Machine/Bridge.lean ====
section
/-! DEFINITION. The agent port bridge, inbound (chapter 4): credits, protocol violations, the checks of a request, and
what each inbound flit becomes in the spine. -/

namespace Sys2Proof.Machine

-- small things of a port

/-- Entry `i` of a credit vector. -/
def vecGet (v : Vector Nat 6) (i : Nat) : Nat := v.toList.getD i 0

/-- Replace entry `i` of a credit vector. -/
def vecSet (v : Vector Nat 6) (i k : Nat) : Vector Nat 6 := if h : i < 6 then v.set i k else v

/-- Index of a channel and VC in the credit vectors. -/
def credIdx (ch : Nat) (dl : Bool) : Nat := ch + 3 * b2n dl

/-- SPN_DL_n.HOLDS (R304). -/
def portHolds (s : State) (n : Nat) : Bool :=
  (List.range 8).any (fun k => slicePwr s k && getFld s (budgetReg k (BitVec.ofNat 5 n)) 0 8 != 0)

/-- SPN_PORT_WDOG.PERIOD_US in ticks. -/
def wdogTicks (s : State) (n : Nat) : Nat := max 10 (min 10000 (getFld s (portBase n + 0xC) 0 14)) * 1000

/-- SPN_PORT_WDOG.EN. -/
def wdogOn (s : State) (n : Nat) : Bool := getBit s (portBase n + 0xC) 14

/-- The port takes flits: it is enabled, out of reset, and the core runs. -/
def portLive (s : State) (n : Nat) : Bool := running s && portEnabled s n && !(port s n).resetLow

/-- Capture word of SPN_PORT_ERR_INFO (Table 4.22). -/
def portInfo (kind ch op txn : Nat) (dl : Bool) : Word :=
  BitVec.ofNat 32 (kind + 2 ^ 4 + 2 ^ 5 * b2n dl + 2 ^ 6 * ch + 2 ^ 9 * (op % 64) + 2 ^ 16 * (txn % 256))

/-- The detections of one flit: each sets its bit, the first is captured (R110). -/
def portDetect (s : State) (n : Nat) (kinds : List Nat) (ch op txn : Nat) (dl : Bool) : State :=
  kinds.foldl (fun s k => raiseErr s (portBase n + 0x14) k (portBase n + 0x18) (portInfo k ch op txn dl)) s

/-- The violations of one flit, with one event at the spine's fault unit (R108). -/
def portViolate (s : State) (n : Nat) (kinds : List Nat) (ch op txn : Nat) (dl : Bool) : State :=
  if kinds.isEmpty then s else report (portDetect s n kinds ch op txn dl) 24 3

/-- A mask of the blotter on the parity check of the next inbound flit with `w` parity bits (Table 15.9). -/
def parityInject (s : State) (n w : Nat) : State × Bool :=
  if blotArmed s 1 n then
    let hit := maskWeight (blotMask s 1 n) w != 0
    (blotUse s 1 n, hit)
  else (s, false)

/-- A flit that fails parity only by the blotter: the fatal violation with an injected event, or under SUPPRESS the event
alone (R388, R389). -/
def parityInjected (s : State) (n ch op txn : Nat) (dl : Bool) : State :=
  if s.faults.blotSuppress then injectedEvent s 24 3
  else fencePort (injectedEvent (portDetect s n [0] ch op txn dl) 24 3) n

/-- A flit consumes a credit of its channel and VC. Answers whether there was none. -/
def takeCredit (s : State) (n ch : Nat) (dl : Bool) : State × Bool :=
  let p := port s n
  let i := credIdx ch dl
  let c := vecGet p.inCred i
  if c = 0 then (s, true) else (setPort s n { p with inCred := vecSet p.inCred i (c - 1) }, false)

/-- The credits the bridge grants on its inbound channels (Table 4.11). -/
def initCredits (holds : Bool) : Vector Nat 6 := #v[16, 16, 32, if holds then 8 else 0, 8, 8]

/-- The bridge returns a credit (R91); one of the `REQ` Deadline VC only while the port holds a budget (R92). -/
def returnCred (s : State) (n i : Nat) : State :=
  let p := port s n
  if i = 3 ∧ !portHolds s n then s
  else setPort s n { p with inCred := vecSet p.inCred i (min (vecGet (initCredits true) i) (vecGet p.inCred i + 1)) }

/-- Packets that wait in the bridge of port `n`. -/
def bridgeWaits (s : State) (n : Nat) : Nat := (s.spine.arrive.filter (fun f => f.router == n && f.input == 4)).length

/-- The last packet that the bridge of port `n` has passed on returns credit `i` as it leaves. -/
def owesCred (s : State) (n i : Nat) : State :=
  let other := fun (f : Flight) => !(f.router == n && f.input == 4)
  let l := s.spine.arrive.reverse
  let mark := ((l.dropWhile other).take 1).map (fun f => { f with cred := some i })
  { s with spine := { s.spine with arrive := (l.takeWhile other ++ mark ++ (l.dropWhile other).drop 1).reverse } }

/-- A flit of port `n` has been dealt with: its credit goes back as its packet leaves the bridge, or at once where there is none
(R91). `before`: the packets that waited in the bridge before it, none where it had no credit. -/
def creditBack (s : State) (n i : Nat) (before : Option Nat) : State :=
  match before with
  | none => s
  | some k => if k < bridgeWaits s n then owesCred s n i else returnCred s n i

/-- What the bridge of port `n` does with a flit that has taken its credit: `f` of the state, and of whether there was none; then
its credit goes back. -/
def underCredit (s : State) (n ch : Nat) (dl : Bool) (f : State → Bool → State) : State :=
  let (t, none') := takeCredit s n ch dl
  creditBack (f t none') n (credIdx ch dl) (if none' then none else some (bridgeWaits s n))

-- the legality of a request (Table 4.7)

/-- The request names a line. -/
def namesLine (r : Req) : Bool :=
  isLineReq r || opOf r == 8 || opOf r == 9

/-- The opcode is one of Table 4.7. -/
def opKnown (r : Req) : Bool := namesLine r || [0x28, 0x29, 0x30, 0x31].contains (opOf r)

/-- The opcode is legal for the port kind. -/
def opLegal (caching : Bool) (r : Req) : Bool :=
  opKnown r && (if [1, 2, 4, 8, 9].contains (opOf r) then caching else if opOf r = 0x18 then !caching else true)

/-- Alignment, SIZE, SUBOP and WALK are legal for the opcode. -/
def attrLegal (r : Req) : Bool :=
  let a := r.addr.toNat
  let sized := a % 2 ^ r.size.toNat == 0
  let align := match opOf r with
    | 0x18 => sized && decide (r.size.toNat ≤ 3)
    | 0x28 => r.subop != 0 || a % 4096 == 0
    | 0x29 => true
    | 0x30 => sized && (r.size == 2 || r.size == 3)
    | 0x31 => sized && (r.size == 2 || r.size == 3)
    | _ => a % 64 == 0
  let sub := match opOf r with
    | 0x18 => decide (r.subop.toNat ≤ 9)
    | 0x28 => decide (r.subop.toNat ≤ 2)
    | _ => r.subop == 0
  let walk := match opOf r with
    | 1 => true
    | 5 => r.walk
    | _ => !r.walk
  align && sub && walk

/-- The opcode is permitted on the Deadline VC. -/
def dlLegal (r : Req) : Bool := [1, 2, 3, 4, 8, 0x10, 0x11].contains (opOf r)

/-- The halves of write data that follow a request, as a mask. -/
def dataMask (r : Req) : BitVec 2 :=
  if isWriteReq r || opOf r == 8 then 3
  else if opOf r = 0x18 ∨ opOf r = 0x31 then (if r.addr.getLsbD 5 then 2 else 1)
  else 0

/-- The byte enables that the data of a request must have (R79, R80): all of a full line, those of the operands of an atomic or
an aperture write; a `WrInvPartial` may have any. -/
def beNeeded (r : Req) : Option (BitVec 32) :=
  let a := r.addr.toNat % 32
  let w := 2 ^ 2 ^ r.size.toNat - 1
  if opOf r = 0x10 ∨ opOf r = 8 then some (BitVec.allOnes 32)
  else if opOf r = 0x18 ∧ r.subop = 2 then some (BitVec.ofNat 32 (w * 2 ^ a) ||| BitVec.ofNat 32 (w * 2 ^ (a ^^^ 16)))
  else if opOf r = 0x18 ∨ opOf r = 0x31 then some (BitVec.ofNat 32 (w * 2 ^ a))
  else none

/-- The halves a request returns on success, as a mask. -/
def wantMask (r : Req) : BitVec 2 :=
  if isReadReq r || opOf r == 4 then 3
  else if opOf r = 0x18 ∨ opOf r = 0x30 then (if r.addr.getLsbD 5 then 2 else 1)
  else 0

-- transactions of a port

/-- The busy transaction of a TXN. -/
def txnOf (s : State) (n : Nat) (t : BitVec 8) : Option Txn := (port s n).txns.find? (fun x => x.txn == t)

/-- Replace a transaction. -/
def setTxn (s : State) (n : Nat) (t : Txn) : State :=
  let p := port s n
  setPort s n { p with txns := mapIf (fun x => x.txn == t.txn) (fun _ => t) p.txns }

/-- A TXN becomes busy with a request, or with its reissue; a grant stays for the reissue that carries CRD = 1, and so does the
wait for one (R94, R181). -/
def openTxn (s : State) (n : Nat) (r : Req) (dl : Bool) : State :=
  let p := port s n
  let old := if r.crd then none else txnOf s n r.txn
  let t : Txn := { txn := r.txn, req := r, dl := dl, homeLine := r.addr.toNat / 64, held := false, waitGrant := old.any (·.waitGrant),
                   grant := old.bind (·.grant), grantDue := (old.map (·.grantDue)).getD 0, want := wantMask r, ended := false, since := s.tick, overran := false,
                   needAck := needsGrantAck r, bad := false, comp := none, before := 0 }
  setPort s n { p with txns := p.txns.filter (fun x => x.txn != r.txn) ++ [t] }

/-- Write data is owed for a request: forwarded to `home`, or discarded (R82). -/
def owe (s : State) (n : Nat) (r : Req) (dl drop : Bool) (home reqNo : Nat) : State :=
  if dataMask r = 0 then s
  else
    let p := port s n
    let o : Owed := { txn := r.txn, miss := dataMask r, drop := drop, be := beNeeded r, due := s.tick + wdogTicks s n, opcode := r.opcode,
                      dl := dl, home := BitVec.ofNat 3 home, src := BitVec.ofNat 5 n, prio := r.prio,
                      reqNo := BitVec.ofNat 16 reqNo, ap := opOf r == 0x31 }
    setPort s n { p with owed := p.owed ++ [o] }

/-- The bridge answers a request itself: its TXN is busy until the answer has left, its write data discarded. -/
def bridgeRefuse (s : State) (n : Nat) (r : Req) (dl : Bool) (err : BitVec 4) : State :=
  toEgress (owe (openTxn s n r dl) n r dl true 0 0) n (bridgeErr err r.txn r.prio) dl r.prio (BitVec.ofNat 5 n)

/-- The priority a port may carry (R84). -/
def clampPrio (s : State) (n : Nat) (p : BitVec 2) : BitVec 2 :=
  BitVec.ofNat 2 (min p.toNat (getFld s (portBase n) 8 2))

-- violations of a `REQ` flit (Table 4.14)

/-- A reissue: the TXN is held for it. -/
def isReissue (s : State) (n : Nat) (r : Req) : Bool := (txnOf s n r.txn).any (·.held)

/-- The reissue has its grant and its refusal (R94, R96). -/
def grantValid (s : State) (n : Nat) (r : Req) : Bool := (txnOf s n r.txn).any (fun t => t.held && t.grant.isSome)

/-- The bits of SPN_PORT_ERR that apply to a request flit, in the order of the table. A request held for its reissue counts
as outstanding for SAME_LINE (DESIGN CHOICE, assumption 85). -/
def reqKinds (s : State) (n : Nat) (dl noCredit badPar : Bool) (r : Req) : List Nat :=
  let p := port s n
  let busy := (txnOf s n r.txn).any (fun t => !t.held)
  let same := namesLine r && p.txns.any (fun t => t.txn != r.txn && namesLine t.req && !t.ended && t.homeLine == r.addr.toNat / 64)
  let badOp := !opLegal p.caching r
  [(0, badPar), (1, noCredit), (2, busy), (3, badOp), (4, opKnown r && !attrLegal r), (5, r.crd && !grantValid s n r),
   (7, dl && opKnown r && !dlLegal r), (8, same)].filterMap (fun t => if t.2 then some t.1 else none)

-- sampling (R425)

/-- The gap to the next request the selector of port `n` chooses, 0 when none has been drawn. -/
def gapOf (s : State) (n : Nat) : Nat := s.obs.gaps.getD n 0

/-- Replace a gap. -/
def setGap (s : State) (n g : Nat) : State :=
  { s with obs := { s.obs with gaps := (List.range 24).map (fun i => if i = n then g else s.obs.gaps.getD i 0) } }

/-- Draw a gap from 2^(K-1) to 3 × 2^(K-1) - 1; the draw is free. -/
def drawGap (s : State) (n k : Nat) : State :=
  let (f, s) := takeFree s
  setGap s n (2 ^ (k - 1) + f.toNat % 2 ^ k)

/-- The selector counts a line request: whether it chooses it. -/
def selectorStep (s : State) (n : Nat) : State × Bool :=
  let k := getFld s 0x332004 1 4
  if k = 0 then (s, false)
  else
    let s := if gapOf s n = 0 then drawGap s n k else s
    if gapOf s n = 1 then (drawGap s n k, true) else (setGap s n (gapOf s n - 1), false)

/-- Whether a line request is marked, with its sample slot opened at the bridge. `again`: it is the reissue of one that may have a
slot. -/
def markSample (s : State) (n : Nat) (r : Req) (dl again : Bool) : State × Bool :=
  if again && (findSample s n (BitVec.ofNat 5 n) r.txn).isSome then (s, true)
  else if !getBit s 0x332004 0 then (s, false)
  else
    let agent := r.smp && getBit s (portBase n) 12
    let (s, chosen) := selectorStep s n
    if agent ∨ chosen then
      if samplesOf s n < 4 then
        let s := satAdd s 0x332008 0 16 1
        (sampleOpen s n (BitVec.ofNat 5 n) r.txn r.opcode dl (BitVec.ofNat 64 (b2n agent * 2 ^ 11)) [], true)
      else (satAdd s 0x332008 16 16 1, false)
    else (s, false)

-- a request passes into the spine

/-- Router and unit of a request, with its SERIES number (R105, R210, R217). -/
def reqTarget (s : State) (n : Nat) (r : Req) : State × Nat × Nat × Nat :=
  let p := port s n
  if opOf r = 0x28 ∨ opOf r = 0x29 then
    (setPort s n { p with series := (p.series + 1) % 65536 }, sliceRouter p.xlatSlice.toNat, 1, p.series)
  else if opOf r = 0x30 ∨ opOf r = 0x31 then
    (setPort s n { p with apSeries := (p.apSeries + 1) % 65536 }, 23, 5, p.apSeries)
  else (s, sliceRouter (((homeOf s r.addr.toNat).map (·.slice)).getD 0), 1, 0)

/-- An accepted request: its TXN is busy, its packet leaves for its home, its data is owed (R93, R99). -/
def forwardReq (s : State) (n : Nat) (r : Req) (dl : Bool) : State :=
  let again := isReissue s n r
  let s := openTxn s n r dl
  let (s, rt, u, series) := reqTarget s n r
  let p := port s n
  let no := p.reqNo
  let s := setPort s n { p with reqNo := (no + 1) % 65536 }
  let (s, smp) := if namesLine r then markSample s n r dl again else (s, false)
  let home := (routerSlice rt).getD 0
  let s := owe s n r dl false home no
  let k := { mkPacket rt u (BitVec.ofNat 5 n) dl r.prio (.req r) with
               series := BitVec.ofNat 16 series, reqNo := BitVec.ofNat 16 no, smp := smp }
  launch s n 4 k

/-- The realm and privilege checks of the port (R83). -/
def realmKinds (s : State) (n : Nat) (r : Req) : List Nat :=
  let k := r.realm.toNat
  let realm := if k < 32 then getBit s (portBase n + 4) k else getBit s (portBase n + 8) (k - 32)
  [(9, !realm), (10, decide (getFld s (portBase n) 10 2 < r.priv.toNat))].filterMap (fun t => if t.2 then some t.1 else none)

/-- A request that no violation stops: realm and privilege, the window, then the spine (R83, R108, R245). -/
def admitReq (s : State) (n : Nat) (r : Req) (dl : Bool) : State :=
  let kinds := realmKinds s n r
  if !kinds.isEmpty then bridgeRefuse (portDetect s n kinds 0 (opOf r) r.txn.toNat dl) n r dl 3
  else if namesLine r ∧ !inWindow s r.addr.toNat then bridgeRefuse s n r dl (if isWalkReq r then 4 else 7)
  else forwardReq s n r dl

/-- A request at a fenced port (R106, Table 15.8). Each request sets FENCED_REQ, also one that comes after software has
cleared it (DESIGN CHOICE, assumption 85). -/
def fencedReq (s : State) (n : Nat) (r : Req) (dl : Bool) : State :=
  let s := portDetect s n [11] 0 (opOf r) r.txn.toNat dl
  bridgeRefuse s n r dl (if inSafe s then 6 else 8)

/-- A `REQ` flit with the violations that apply to it. -/
def judgeReq (s : State) (n : Nat) (r : Req) (dl : Bool) (kinds : List Nat) : State :=
  let op := opOf r
  let s := portViolate s n kinds 0 op r.txn.toNat dl
  if kinds.any (fun k => decide (k < 3)) then fencePort s n
  else
    let dl' := dl && !kinds.contains 7
    let r := { r with prio := clampPrio s n r.prio, crd := r.crd && !kinds.contains 5 }
    if (port s n).fenced then fencedReq s n r dl'
    else if kinds.contains 3 ∨ kinds.contains 4 then bridgeRefuse s n r dl' 7
    else admitReq s n r dl'

/-- REQ_FLIT: a request flit is transferred. A fenced port detects violations of parity and of credit alone (DESIGN CHOICE,
assumption 85). -/
def reqFlitEffect (s : State) (n : Nat) (dl : Bool) (f : BitVec 128) : State :=
  if !portLive s n then s
  else
    let r := reqOf f
    let (s, inj) := parityInject s n 4
    let bad := !parityOk f
    underCredit s n 0 dl fun s none' =>
    if inj ∧ !bad ∧ !s.faults.blotSuppress then parityInjected s n 0 (opOf r) r.txn.toNat dl
    else
      let s := if inj ∧ !bad then parityInjected s n 0 (opOf r) r.txn.toNat dl else s
      if (port s n).fenced then
        let kinds := [(0, bad), (1, none')].filterMap (fun t => if t.2 then some t.1 else none)
        let s := portViolate s n kinds 0 (opOf r) r.txn.toNat dl
        if kinds.isEmpty then fencedReq s n { r with prio := clampPrio s n r.prio } dl else s
      else judgeReq s n r dl (reqKinds s n dl none' bad r)

/-- The meaning of REQ_FLIT. -/
def execReqFlit (n : PortId) (dl : Bool) (flit : BitVec 128) (s : State) : Host.Outcome State Fault Refusal :=
  guarded s (reqFlitEffect s n dl flit)

-- inbound `RSP` (R85)

/-- The snoop presented to the agent under HOME and ENTRY. -/
def snpRec (s : State) (n : Nat) (home : BitVec 3) (entry : BitVec 8) : Option SnpRec :=
  (port s n).snps.find? (fun r => r.home == home && r.entry == entry)

/-- A record with nothing left to come goes. -/
def snpDone (r : SnpRec) : Bool := r.acked && r.wb == 0 && r.fw == 0

/-- Replace a snoop record. -/
def setSnpRec (s : State) (n : Nat) (r : SnpRec) : State :=
  let p := port s n
  let l := mapIf (fun x => x.home == r.home && x.entry == r.entry) (fun _ => r) p.snps
  setPort s n { p with snps := l.filter (fun x => !snpDone x) }

/-- Send an agent's message to slice `home`. -/
def toHome (s : State) (n : Nat) (home : BitVec 3) (dl : Bool) (prio : BitVec 2) (mark : BitVec 2) (no : BitVec 16) (m : Msg) : State :=
  launch s n 4 { mkPacket (sliceRouter home.toNat) 1 (BitVec.ofNat 5 n) dl prio m with mark := mark, reqNo := no }

/-- MARK of an answer: a notice of the same line is busy at the port (R170, Table 9.2). -/
def answerMark (s : State) (n : Nat) (a : Addr) : BitVec 2 :=
  match (port s n).txns.find? (fun t => (opOf t.req == 8 || opOf t.req == 9) && !t.ended && t.homeLine == a.toNat / 64) with
  | some t => if opOf t.req = 8 then 1 else 2
  | none => 0

/-- The number under which a port's sample waits for its `GrantAck`. -/
def ackKey (home : BitVec 3) (entry : BitVec 8) : Nat := home.toNat * 256 + entry.toNat

/-- `GrantAck` ends the sample of its request, stamped where the agent has sent it (R427). -/
def ackSample (s : State) (n : Nat) (a : AckOwed) (stamp : Bool) : State :=
  let src := BitVec.ofNat 5 n
  match parkedSample s n (ackKey a.home a.entry) with
  | some x =>
    let (t, s) := if stamp then stampNow s n else (0, s)
    let d := min (t - (x.base * 16 + x.frac.toNat)) 0xFFFF
    let y := { x with offs := x.offs ++ (if stamp then [(2, BitVec.ofNat 16 d)] else []) }
    closeSlot { s with obs := { s.obs with samples := mapIf (fun z => z == x) (fun _ => y) s.obs.samples } } y
  | none =>
    if (txnOf s n a.txn).any (fun t => t.comp == some (a.home, a.entry)) then
      sampleClose (if stamp then sampleStamp s n src a.txn 2 else s) n src a.txn
    else s

/-- An inbound response without violations. -/
def takeRsp (s : State) (n : Nat) (dl : Bool) (r : Rsp) : State :=
  match r.opcode.toNat with
  | 1 =>
    match snpRec s n r.home r.entry with
    | some k =>
      let k' := { k with acked := true, wb := if r.snpdata.getLsbD 1 then k.wb else 0, fw := if r.snpdata.getLsbD 0 then k.fw else 0 }
      toHome (setSnpRec s n k') n r.home dl r.prio (answerMark s n k.snp.addr) 0 (.rsp { r with txn := 0, err := 0, cls := false })
    | none => s
  | 8 =>
    match snpRec s n r.home r.entry with
    | some k => toHome (setSnpRec s n { k with acked := true, wb := 0, fw := 0 }) n r.home dl r.prio 0 0
                  (.rsp { r with txn := 0, err := 0, state := 0, snpdata := 0, cls := false })
    | none => s
  | _ =>
    match (port s n).acks.find? (fun a => a.home == r.home && a.entry == r.entry) with
    | some a =>
      let p := port s n
      let s := ackSample (setPort s n { p with acks := dropFirst (fun x => x == a) p.acks }) n a true
      toHome s n r.home dl r.prio 0 0 (.rsp { r with txn := 0, err := 0, state := 0, snpdata := 0, cls := false })
    | none => s

/-- The response names an open snoop or an owed `GrantAck`. -/
def rspKnown (s : State) (n : Nat) (r : Rsp) : Bool :=
  match r.opcode.toNat with
  | 1 => (snpRec s n r.home r.entry).any (fun k => !k.acked && k.snp.opcode != 8)
  | 8 => (snpRec s n r.home r.entry).any (fun k => !k.acked && k.snp.opcode == 8)
  | 3 => (port s n).acks.any (fun a => a.home == r.home && a.entry == r.entry)
  | _ => false

/-- The violations of an inbound response (R78, R85). -/
def rspKinds (s : State) (n : Nat) (noCredit badPar : Bool) (r : Rsp) : List Nat :=
  let op := r.opcode.toNat
  let reserved := op == 0 || decide (9 ≤ op)
  [(0, badPar), (1, noCredit), (3, reserved), (4, (op == 1 || op == 2) && decide (6 ≤ r.state.toNat)), (6, !reserved && !rspKnown s n r)].filterMap
    (fun t => if t.2 then some t.1 else none)

/-- RSP_INBOUND_FLIT: an inbound response flit is transferred. A reserved opcode names no request that could end in
`CompErr`: the flit is discarded (DESIGN CHOICE, assumption 85). -/
def rspFlitEffect (s : State) (n : Nat) (dl : Bool) (f : BitVec 128) : State :=
  if !portLive s n then s
  else
    let r := rspOf f
    let (s, inj) := parityInject s n 4
    let bad := !parityOk f
    underCredit s n 1 dl fun s none' =>
    let fenced := (port s n).fenced
    let s := if inj ∧ !bad then parityInjected s n 1 r.opcode.toNat r.txn.toNat dl else s
    if inj ∧ !bad ∧ !s.faults.blotSuppress then s
    else
      let kinds := (rspKinds s n none' bad r).filter (fun k => !fenced || decide (k < 2))
      let s := portViolate s n kinds 1 r.opcode.toNat r.txn.toNat dl
      if kinds.any (fun k => decide (k < 2)) then fencePort s n
      else if !kinds.isEmpty ∨ (port s n).fenced then s
      else takeRsp s n dl { r with prio := clampPrio s n r.prio }

/-- The meaning of RSP_INBOUND_FLIT. -/
def execRspInboundFlit (n : PortId) (dl : Bool) (flit : BitVec 128) (s : State) : Host.Outcome State Fault Refusal :=
  guarded s (rspFlitEffect s n dl flit)

-- inbound `DAT` (R80, R82, R86)

/-- The mask of half `h`. -/
def halfBit (h : Bool) : BitVec 2 := if h then 2 else 1

/-- Write data owed under a TXN that lacks half `h`, that of the oldest such request first (R82, R95). -/
def owedOf (s : State) (n : Nat) (t : BitVec 8) (h : Bool) : Option Owed :=
  (port s n).owed.find? (fun o => o.txn == t && o.miss &&& halfBit h != 0)

/-- A TXN is free once its terminating message and every data half have been presented and its own data has come (R82,
R93); the port packet of a sampled request that needs no `GrantAck` leaves (R427). -/
def txnSettle (s : State) (n : Nat) (x : BitVec 8) : State :=
  match txnOf s n x with
  | some t =>
    let p := port s n
    if t.ended ∧ t.want = 0 ∧ !p.owed.any (fun o => o.txn == x) then
      let due := fun (a : AckOwed) => { a with due := s.tick + wdogTicks s n }
      let s := setPort s n { p with txns := p.txns.filter (fun y => y.txn != x),
                                    acks := mapIf (fun a => t.comp == some (a.home, a.entry)) due p.acks }
      match t.comp with
      | some (h, k) => if t.needAck then samplePark s n (BitVec.ofNat 5 n) x (ackKey h k) else sampleClose s n (BitVec.ofNat 5 n) x
      | none => sampleClose s n (BitVec.ofNat 5 n) x
    else s
  | none => s

/-- Replace one record of owed data. -/
def setOwed (s : State) (n : Nat) (o o' : Owed) : State :=
  let p := port s n
  let l := (p.owed.takeWhile (fun x => x != o)) ++ o' :: (p.owed.dropWhile (fun x => x != o)).drop 1
  txnSettle (setPort s n { p with owed := l.filter (fun x => x.miss != 0) }) n o.txn

/-- One half of owed data has come. -/
def owedTake (s : State) (n : Nat) (o : Owed) (h : Bool) : State :=
  setOwed s n o { o with miss := o.miss &&& ~~~ (halfBit h) }

/-- Owed data passes to where its request went, on VC `dl`: that of its request, to which it belongs (R75); of a demoted
request the other VC, on which it is carried (Table 4.14; DEDUCED, assumption 85). -/
def sendOwed (s : State) (n : Nat) (o : Owed) (dl : Bool) (d : Dat) : State :=
  if o.drop then s
  else if o.ap then launch s n 4 { mkPacket 23 5 (BitVec.ofNat 5 n) dl d.prio (.dat d) with reqNo := o.reqNo }
  else toHome s n o.home dl d.prio 0 o.reqNo (.dat d)

/-- The flit names an open snoop, with the destination that snoop gave (R86), or data that is owed. A half of `DataFwd` may
come again while the snoop is open. -/
def datKnown (s : State) (n : Nat) (d : Dat) : Bool :=
  match d.kind.toNat with
  | 1 => (snpRec s n d.home d.entry).any (fun k => k.snp.fwd && d.dst == k.snp.fwdTo && (k.fw != 0 || !k.acked))
  | 3 =>
    if d.snpwb then (snpRec s n d.home d.entry).any (fun k => k.wb &&& halfBit d.half != 0)
    else (owedOf s n d.txn d.half).isSome
  | _ => false

/-- The byte enables that the request of the data demands. -/
def beLegal (s : State) (n : Nat) (d : Dat) : Bool :=
  if d.kind = 3 ∧ !d.snpwb then (owedOf s n d.txn d.half).all (fun o => o.be.all (fun b => b == d.be)) else true

/-- Data with byte enables that its request forbids is discarded, and the request ends in `CompErr` `UNMAPPED` (Table 4.14). Its
home, which the request has reached, gets a half that writes nothing: no byte enabled, and for an `Atomic` or an aperture write
poisoned (DEDUCED, assumption 35). -/
def badData (s : State) (n : Nat) (o : Owed) (d : Dat) : State × Dat :=
  if o.drop ∨ o.be.all (fun b => b == d.be) then (s, d)
  else
    let s := match txnOf s n d.txn with
      | some t => setTxn s n { t with bad := true }
      | none => s
    (s, { d with be := 0, data := 0, poison := o.opcode == 0x18 || o.ap })

/-- The violations of an inbound data flit. -/
def datKinds (s : State) (n : Nat) (noCredit badPar : Bool) (d : Dat) : List Nat :=
  [(0, badPar), (1, noCredit), (3, d.kind == 0), (4, ((d.kind == 1 || d.kind == 2) && decide (6 ≤ d.state.toNat)) || !beLegal s n d),
   (6, d.kind != 0 && !datKnown s n d)].filterMap (fun t => if t.2 then some t.1 else none)

/-- An inbound data flit that is not discarded. -/
def takeDat (s : State) (n : Nat) (dl : Bool) (d : Dat) : State :=
  if d.kind = 1 then
    match snpRec s n d.home d.entry with
    | some k =>
      let s := setSnpRec s n { k with fw := k.fw &&& ~~~ (halfBit d.half) }
      let (r, u) := srcDest d.dst
      launch s n 4 (mkPacket r u (BitVec.ofNat 5 n) dl d.prio (.dat { d with snpwb := false }))
    | none => s
  else if d.snpwb then
    match snpRec s n d.home d.entry with
    | some k =>
      let s := setSnpRec s n { k with wb := k.wb &&& ~~~ (halfBit d.half) }
      toHome s n d.home dl d.prio 0 0 (.dat { d with dst := 0, state := 0, txn := 0 })
    | none => s
  else
    match owedOf s n d.txn d.half with
    | some o =>
      let (s, d) := badData s n o d
      sendOwed (owedTake s n o d.half) n o o.dl { d with dst := 0, state := 0, home := o.home, entry := 0 }
    | none => s

/-- DAT_INBOUND_FLIT: an inbound data flit is transferred. A fenced port discards it, counting what it was owed, and
a reserved KIND is discarded without `CompErr` (DESIGN CHOICE, assumption 85). -/
def datFlitEffect (s : State) (n : Nat) (dl : Bool) (f : BitVec 352) : State :=
  if !portLive s n then s
  else
    let d := datOf f
    let op := d.kind.toNat
    let (s, inj) := parityInject s n 11
    let bad := !parityDatOk f
    underCredit s n 2 dl fun s none' =>
    let s := if inj ∧ !bad then parityInjected s n 2 op d.txn.toNat dl else s
    if inj ∧ !bad ∧ !s.faults.blotSuppress then s
    else
      let fenced := (port s n).fenced
      let kinds := (datKinds s n none' bad d).filter (fun k => !fenced || decide (k < 2))
      let s := portViolate s n kinds 2 op d.txn.toNat dl
      if kinds.any (fun k => decide (k < 2)) then fencePort s n
      else if fenced then
        match (owedOf s n d.txn d.half).filter (fun _ => d.kind == 3 && !d.snpwb) with
        | some o => owedTake s n o d.half
        | none => s
      else if kinds.contains 3 ∨ kinds.contains 6 ∨ (d.kind = 1 ∧ kinds.contains 4) then s
      else takeDat s n dl { d with prio := clampPrio s n d.prio }

/-- The meaning of DAT_INBOUND_FLIT. -/
def execDatInboundFlit (n : PortId) (dl : Bool) (flit : BitVec 352) (s : State) : Host.Outcome State Fault Refusal :=
  guarded s (datFlitEffect s n dl flit)

-- credits of the agent (R89, R90)

/-- CREDIT_RETURN: a `CRET` pulse on outbound channel `ch` (0 `SNP`, 1 `RSP`, 2 `DAT`). Each counts toward the minimum of
Table 4.12, also one that returns a credit used before (DESIGN CHOICE, assumption 92). -/
def creditReturnEffect (s : State) (n ch : Nat) (dl : Bool) : State :=
  if !portLive s n then s
  else
    let p := port s n
    let i := credIdx ch dl
    let s := setPort s n { p with granted := vecSet p.granted i (min 63 (vecGet p.granted i + 1)) }
    let p := port s n
    if 63 ≤ vecGet p.outCred i then fencePort (portViolate s n [1] (3 + ch) 0 0 dl) n
    else setPort s n { p with outCred := vecSet p.outCred i (vecGet p.outCred i + 1) }

/-- The meaning of CREDIT_RETURN. -/
def execCreditReturn (n : PortId) (chan : Fin 3) (dl : Bool) (s : State) : Host.Outcome State Fault Refusal :=
  guarded s (creditReturnEffect s n chan dl)

end Sys2Proof.Machine
end

