-- ==== Sys2Proof/Machine/Egress.lean ====
section
/-! DEFINITION. The agent port bridge, outbound (chapter 4): delivery, the `DAT` egress arbiter (R318 to R322), what leaves
under an agent credit (R93, R317, R466), the port watchdog (R109), and the port's reset (R36, R88, R103). -/

namespace Sys2Proof.Machine

-- delivery

/-- A message of source `src` is a `DataFwd` half from a fenced port, for a TXN that is not busy or a request accepted since the
fence (R190). -/
def staleFwd (s : State) (n : Nat) (m : Msg) (src : BitVec 5) : Bool :=
  match m with
  | .dat d =>
    d.kind == 1 && decide (src.toNat < 24) && (port s src.toNat).fenced &&
      (match txnOf s n d.txn with
       | some t => !t.before.getLsbD src.toNat
       | none => true)
  | _ => false

/-- A packet reaches port `n`: it waits at the egress, or is discarded (R106, R190). -/
def portDeliver (s : State) (n : Nat) (p : Packet) : State :=
  if (port s n).fenced ∨ staleFwd s n p.msg p.src then s else toEgress s n p.msg p.dl p.prio p.src

-- what leaves

/-- Outbound channel of a message: 0 `SNP`, 1 `RSP`, 2 `DAT`. -/
def outChan (m : Msg) : Nat := msgChan m - 1

/-- The messages waiting on a channel and VC. -/
def waitingOn (s : State) (n ch : Nat) (dl : Bool) : List EgMsg :=
  (port s n).egress.filter (fun e => outChan e.msg == ch && e.dl == dl)

/-- Drop a message from the egress; a grant it holds ends. -/
def egDrop (s : State) (n id : Nat) : State :=
  let p := port s n
  let a := if p.arb.holder = some id then { p.arb with holder := none } else p.arb
  setPort s n { p with egress := p.egress.filter (fun e => e.id != id), arb := a }

/-- The tick from which the egress-stall condition of a channel and VC holds. -/
def setEgDue (s : State) (n ch : Nat) (dl : Bool) : State :=
  let p := port s n
  setPort s n { p with egDue := p.egDue.filter (fun d => d.1 != credIdx ch dl) ++ [(credIdx ch dl, s.tick)] }

/-- An overrun of the Deadline class (R317). -/
def countOverrun (s : State) (n : Nat) : State := report (satAdd s (dlBase n + 8) 0 16 1) 24 12

/-- The presented message is later than `limit` ns after the request. -/
def checkOverrun (s : State) (n : Nat) (t : Txn) (limit : Nat) : State :=
  if t.dl ∧ t.since + limit < s.tick ∧ !t.overran then setTxn (countOverrun s n) n { t with overran := true } else s

/-- The snoop is presented: its answers and data are acceptable from now on (R170), write-back data for any line snoop, since the
home uses what an answer that is not permitted announces (R116). -/
def presentSnp (s : State) (n : Nat) (m : Snp) (dl : Bool) : State :=
  let wb : BitVec 2 := if m.opcode = 8 then 0 else 3
  let r : SnpRec := ⟨m.home, m.entry, m, dl, false, wb, if m.fwd then 3 else 0⟩
  let p := port s n
  setPort s n { p with snps := p.snps.filter (fun x => !(x.home == m.home && x.entry == m.entry)) ++ [r] }

/-- The terminating message of a sampled request: TERM, and what it was (Table 17.3). -/
def sampleTerm (s : State) (n : Nat) (r : Rsp) : State :=
  let a := BitVec.ofNat 5 n
  let s := sampleStamp s n a r.txn 1
  sampleSet s n a r.txn (fun x =>
    { x with info := x.info ||| BitVec.ofNat 64 (r.opcode.toNat + 2 ^ 4 * r.err.toNat + 2 ^ 8 * r.home.toNat) })

/-- `CompErr` codes that no data accompanies (R198 and the bridge's own). -/
def errDataless (e : BitVec 4) : Bool := [3, 4, 6, 7, 8].contains e.toNat

/-- A terminating message ends the request (R93). `Comp` of a request that needs it arms the `GrantAck` watchdog. -/
def presentTerm (s : State) (n : Nat) (t : Txn) (r : Rsp) : State :=
  let s := sampleTerm s n r
  let s := if r.opcode ≠ 2 then s
    else if opOf t.req = 4 then checkOverrun s n t 600
    else if isWriteReq t.req then checkOverrun s n t 400 else s
  let dataless := (opOf t.req = 4 ∧ r.state ≠ 0) ∨ (r.opcode = 7 ∧ errDataless r.err)
  let ack := decide (r.opcode = 2) && t.needAck
  let s := setTxn s n { t with ended := true, want := if dataless then 0 else t.want,
                               comp := if ack then some (r.home, r.entry) else none }
  let s := if ack then
      let p := port s n
      let a : AckOwed := ⟨t.txn, r.home, r.entry, r.prio, t.dl, s.tick + wdogTicks s n⟩
      setPort s n { p with acks := p.acks ++ [a] }
    else s
  txnSettle s n t.txn

/-- The request of TXN `t` has been refused: the data that it still owes is discarded by the bridge (R82), that of the oldest
such request of the TXN. -/
def refuseData (s : State) (n : Nat) (t : BitVec 8) : State :=
  let p := port s n
  match p.owed.find? (fun o => o.txn == t && !o.drop) with
  | some o => setPort s n { p with owed := mapIf (fun x => x == o) (fun x => { x with drop := true }) p.owed }
  | none => s

/-- A response is presented (R93, R94, R97). -/
def presentRsp (s : State) (n : Nat) (r : Rsp) : State :=
  match txnOf s n r.txn with
  | none => s
  | some t =>
    let s := if r.opcode = 5 ∨ r.opcode = 7 then refuseData s n r.txn else s
    if r.opcode = 5 ∨ (r.opcode = 7 ∧ r.err = 9) then
      sampleStamp (setTxn s n { t with held := true, waitGrant := t.grant.isNone }) n (BitVec.ofNat 5 n) r.txn 3
    else if r.opcode = 6 then
      setTxn s n { t with grant := some r.cls, waitGrant := false, grantDue := s.tick + wdogTicks s n }
    else presentTerm s n t r

/-- A data half is presented; the first one of a Deadline read is measured (R317). -/
def presentDat (s : State) (n : Nat) (d : Dat) : State :=
  match txnOf s n d.txn with
  | none => s
  | some t =>
    let s := sampleStamp s n (BitVec.ofNat 5 n) d.txn 0
    let s := if isReadReq t.req ∧ t.want = wantMask t.req then checkOverrun s n t 600 else s
    let t := (txnOf s n d.txn).getD t
    txnSettle (setTxn s n { t with want := t.want &&& ~~~ (halfBit d.half) }) n d.txn

/-- The half of a message that moves next. -/
def movingHalf (e : EgMsg) : Dat :=
  match e.msg with
  | .dat d => d
  | .datPair a b => if e.flit = 0 then a else b
  | _ => default

/-- What the port presents for a message: the terminating message of a request whose data was discarded for its byte enables is
`CompErr` `UNMAPPED` (Table 4.14). -/
def asPresented (s : State) (n : Nat) (m : Msg) : Msg :=
  match m with
  | .rsp r =>
    if (txnOf s n r.txn).any (·.bad) && (r.opcode == 2 || r.opcode == 4 || (r.opcode == 7 && r.err != 9)) then
      bridgeErr 7 r.txn r.prio
    else m
  | m => m

/-- What the port shows of a message: a `CompErr` without the home's STATE. -/
def asShown (m : Msg) : Msg :=
  match m with
  | .rsp r => if r.opcode = 7 then .rsp { r with state := 0 } else m
  | m => m

/-- One flit of `e` leaves under a credit: presented on the outbound pins, recorded, and dropped once its last flit has
moved, which ends a grant at the line boundary (R319). -/
def presentMsg (s : State) (n : Nat) (e : EgMsg) : State :=
  let ch := outChan e.msg
  let p := port s n
  let i := credIdx ch e.dl
  let e := { e with msg := asPresented s n e.msg }
  let out := if h : ch < 3 then p.lastOut.set ch (flitOf (asShown e.msg) (e.flit != 0)) else p.lastOut
  let s := setPort s n { p with outCred := vecSet p.outCred i (vecGet p.outCred i - 1), lastOut := out }
  let s := setEgDue s n ch e.dl
  let s := if e.flit + 1 < msgFlits e.msg then
      let p := port s n
      setPort s n { p with egress := mapIf (fun x => x.id == e.id) (fun x => { x with flit := x.flit + 1 }) p.egress }
    else egDrop s n e.id
  match e.msg with
  | .snp m => presentSnp s n m e.dl
  | .rsp r => presentRsp s n r
  | _ => presentDat s n (movingHalf e)

/-- The TXN of an outbound `RSP` or `DAT` is not busy at the port (R466), or returns no data half because its request ends in
`CompErr` `UNMAPPED` (R198); or the message is a half whose sender has been fenced while it waited (R190). -/
def notBusy (s : State) (n : Nat) (e : EgMsg) : Bool :=
  staleFwd s n e.msg e.src || match txnOf s n (msgTxn e.msg) with
  | none => outChan e.msg != 0
  | some t => outChan e.msg == 2 && t.bad

/-- What may leave next on a channel and VC: the oldest, and on `DAT` the line that holds the grant. -/
def nextOut (s : State) (n ch : Nat) (dl : Bool) : Option EgMsg :=
  let l := waitingOn s n ch dl
  if ch = 2 then l.find? (fun e => (port s n).arb.holder == some e.id) else l.head?

/-- EGRESS_PRESENT: a flit whose TXN is not busy is discarded, and any other leaves under an agent credit. -/
def egressEffect (s : State) (n ch : Nat) (dl : Bool) : State :=
  if !portLive s n then s
  else match (waitingOn s n ch dl).find? (notBusy s n) with
  | some e => egDrop s n e.id
  | none =>
    match nextOut s n ch dl with
    | some e => if vecGet (port s n).outCred (credIdx ch dl) = 0 then s else presentMsg s n e
    | none => s

/-- The meaning of EGRESS_PRESENT. -/
def execEgressPresent (n : PortId) (chan : Fin 3) (dl : Bool) (s : State) : Host.Outcome State Fault Refusal :=
  guarded s (egressEffect s n chan dl)

-- the return arbiters

/-- The next line in R318's order: a Deadline line, then the higher PRIO, then round-robin from the line after `last`.
Each requester is its number, whether it is a Deadline line, and its priority. -/
def arbPick (last : Nat) (l : List (Nat × Bool × Nat)) : Option Nat :=
  let rank := fun (e : Nat × Bool × Nat) => 4 * b2n e.2.1 + e.2.2
  let best := l.foldl (fun b e => max b (rank e)) 0
  let top := l.filter (fun e => rank e == best)
  match top.find? (fun e => decide (last < e.1)) with
  | some e => some e.1
  | none => top.head?.map (·.1)

/-- A decision of the `DAT` egress arbiter of port `n`. A requester is one line, so that a grant ends with its line, before or as
BURST_LIMIT lines have passed (R318, R319). -/
def portArbiter (s : State) (n : Nat) : State :=
  let p := port s n
  let lines := p.egress.filter (fun e => outChan e.msg == 2)
  if getBit s (dlBase n + 4) 8 then s
  else
    let holder := lines.find? (fun e => p.arb.holder == some e.id)
    let revoke := holder.any (fun e => !e.dl && decide (0 < e.flit)) && lines.any (·.dl)
    if holder.isSome && !revoke then s
    else
      let back := fun (e : EgMsg) => { e with flit := 0, restarted := true }
      let s := match holder with
        | some e => setPort s n { p with egress := mapIf (fun x => x.id == e.id) back p.egress }
        | none => s
      match arbPick p.arb.last (lines.map (fun e => (e.id, e.dl, e.prio.toNat))) with
      | none => setPort s n { port s n with arb := { p.arb with holder := none } }
      | some id =>
        let q := port s n
        let again := q.egress.any (fun e => e.id == id && e.restarted)
        let s := if again then satAdd s (dlBase n + 8) 16 16 1 else s
        setPort s n { q with arb := ⟨some id, id⟩,
                             egress := mapIf (fun e => e.id == id) (fun e => { e with restarted := false }) q.egress }

/-- Channel `c` has a return arbiter now: its pair is joined (R318). -/
def chanArbited (s : State) (c : Nat) : Bool := pairJoined s (c / 4)

/-- A decision of the read-return arbiter of channel `c`: its lines are the reads issued to DRAM. -/
def chanArbiter (s : State) (c : Nat) : State :=
  let x := chan s c
  let lines := x.rdq.filter (·.issued)
  if !chanArbited s c ∨ getBit s (mcBase c + 0x94) 8 then s
  else
    let holder := lines.find? (fun r => x.arb.holder == some r.id)
    let revoke := holder.any (fun r => !r.dl) && lines.any (·.dl)
    if holder.isSome && !revoke then s
    else match arbPick x.arb.last (lines.map (fun r => (r.id, r.dl, r.prio.toNat))) with
    | none => setChan s c { x with arb := { x.arb with holder := none } }
    | some id => setChan s c { x with arb := ⟨some id, id⟩ }

/-- RETURN_ARBITER_DECISION. -/
def arbiterEffect (s : State) (a : ArbiterId) : State :=
  match a with
  | .port n => if portLive s n then portArbiter s n else s
  | .chan c => if running s then chanArbiter s c else s

/-- The meaning of RETURN_ARBITER_DECISION. -/
def execReturnArbiterDecision (a : ArbiterId) (s : State) : Host.Outcome State Fault Refusal := guarded s (arbiterEffect s a)

-- the watchdog (R109)

/-- SPN_PORT_WDOG.ACTION. -/
def wdogFences (s : State) (n : Nat) : Bool := getBit s (portBase n + 0xC) 15

/-- A bite sets its bit, is captured, and reports one event; with ACTION 1 it fences the port (R109, R110). -/
def wdogBite (s : State) (n bit : Nat) (info : Word) : State :=
  let s := report (raiseErr s (portBase n + 0x14) bit (portBase n + 0x18) info) 24 4
  if wdogFences s n then fencePort s n else s

/-- The capture of a bite that no one flit causes: its channel and opcode are not stated. -/
def biteInfo (s : State) (bit : Nat) (txn : BitVec 8) (dl : Bool) : Word × State :=
  let (f, s) := takeFree s
  (portInfo bit (f.toNat % 8) (f.toNat / 8 % 64) txn.toNat dl, s)

/-- The opcode or KIND of an outbound message. -/
def outOpcode (m : Msg) : Nat :=
  match m with
  | .snp x => x.opcode.toNat
  | .rsp r => r.opcode.toNat
  | .dat d => d.kind.toNat
  | .datPair d _ => d.kind.toNat
  | _ => 0

/-- WDOG_EGRESS: a flit has waited on a channel and VC, with none leaving, for the period. -/
def wdogEgressEffect (s : State) (n ch : Nat) (dl : Bool) : State :=
  match (waitingOn s n ch dl).head? with
  | some e =>
    let left := ((port s n).egDue.find? (fun d => d.1 == credIdx ch dl)).elim 0 (·.2)
    if wdogOn s n ∧ portLive s n ∧ max e.since left + wdogTicks s n ≤ s.tick then
      wdogBite (setEgDue s n ch dl) n 12 (portInfo 12 (3 + ch) (outOpcode e.msg) (msgTxn e.msg).toNat dl)
    else s
  | none => s

/-- The meaning of WDOG_EGRESS. -/
def execWdogEgress (n : PortId) (chan : Fin 3) (dl : Bool) (s : State) : Host.Outcome State Fault Refusal :=
  guarded s (wdogEgressEffect s n chan dl)

/-- The bridge supplies a missing half, poisoned and with no byte enabled; its bytes are open (R102). -/
def supplyHalf (o : Owed) (s : State) (n : Nat) (h : Bool) : State :=
  if o.miss &&& halfBit h = 0 then s
  else
    let (f, s) := takeFree256 s
    let d : Dat := { kind := 3, half := h, poison := true, home := o.home, txn := o.txn, entry := 0, snpwb := false, dst := 0,
                     state := 0, prio := o.prio, be := 0, data := f }
    sendOwed s n o o.dl d

/-- WDOG_DATA: the data of a write has not all come within the period. -/
def wdogDataEffect (s : State) (n : Nat) (txn : BitVec 8) : State :=
  match (port s n).owed.find? (fun o => o.txn == txn && decide (o.due ≤ s.tick)) with
  | some o =>
    if wdogOn s n ∧ portLive s n then
      let (info, s) := biteInfo s 13 txn o.dl
      let fences := wdogFences s n
      let s := wdogBite s n 13 info
      if fences then s else supplyHalf o (supplyHalf o (setOwed s n o { o with miss := 0 }) n false) n true
    else s
  | none => s

/-- The meaning of WDOG_DATA. -/
def execWdogData (n : PortId) (txn : BitVec 8) (s : State) : Host.Outcome State Fault Refusal :=
  guarded s (wdogDataEffect s n txn)

/-- A `GrantAck` that port `n` sends, or the bridge in its place. -/
def ackMsg (a : AckOwed) : Msg :=
  .rsp { opcode := 3, txn := 0, home := a.home, entry := a.entry, prio := a.prio, err := 0, state := 0, snpdata := 0, cls := false }

/-- WDOG_GRANTACK: the request has ended and its `GrantAck` has not come within the period. -/
def wdogAckEffect (s : State) (n : Nat) (home : BitVec 3) (entry : BitVec 8) : State :=
  let p := port s n
  let open' := p.txns.any (fun t => t.comp == some (home, entry))
  match p.acks.find? (fun a => a.home == home && a.entry == entry && decide (a.due ≤ s.tick)) with
  | some a =>
    if wdogOn s n ∧ portLive s n ∧ !open' then
      let (info, s) := biteInfo s 14 a.txn a.dl
      let fences := wdogFences s n
      let s := wdogBite s n 14 info
      if fences then s
      else
        let p := port s n
        let s := setPort s n { p with acks := dropFirst (fun x => x == a) p.acks }
        toHome (ackSample s n a false) n home a.dl a.prio 0 0 (ackMsg a)
    else s
  | none => s

/-- The meaning of WDOG_GRANTACK. -/
def execWdogGrantack (n : PortId) (home : BitVec 3) (entry : BitVec 8) (s : State) : Host.Outcome State Fault Refusal :=
  guarded s (wdogAckEffect s n home entry)

/-- The bridge returns an unused retry credit: the home's reserved entry goes back to its pool (R180, R306). -/
def returnCredit (s : State) (n : Nat) (txn : BitVec 8) : State :=
  forEach 8 s (fun s k =>
    match (slice s k).entries.find? (fun e => e.stage == .reserved && e.src.toNat == n && e.req.txn == txn) with
    | some e => returnReserved s k e
    | none => s)

/-- WDOG_CREDIT: a grant has gone unused for the period. -/
def wdogCreditEffect (s : State) (n : Nat) (txn : BitVec 8) : State :=
  match (txnOf s n txn).filter (fun t => t.grant.isSome && decide (t.grantDue ≤ s.tick)) with
  | some t =>
    if wdogOn s n ∧ portLive s n then
      let (info, s) := biteInfo s 15 txn t.dl
      let fences := wdogFences s n
      let s := wdogBite s n 15 info
      if fences then s else returnCredit (setTxn s n { t with grant := none }) n txn
    else s
  | none => s

/-- The meaning of WDOG_CREDIT. -/
def execWdogCredit (n : PortId) (txn : BitVec 8) (s : State) : Host.Outcome State Fault Refusal :=
  guarded s (wdogCreditEffect s n txn)

-- reset of a port

/-- The bridge grants its credits: at `READY_LINK`, or at a later release of the port (R88). -/
def grantCredits (s : State) (n : Nat) : State :=
  if portEnabled s n ∧ !(port s n).resetLow then setPort s n { port s n with inCred := initCredits (portHolds s n) } else s

/-- CACHING, XLAT and XLAT_SLICE are latched (R103). A slice that holds no translation slot of the port starts from the
port's next number (R210). -/
def latchPort (s : State) (n : Nat) : State :=
  let a := portBase n
  let k := getFld s a 4 3
  let p := port s n
  let s := setPort s n { p with caching := getBit s a 0, xlat := getBit s a 1, xlatSlice := BitVec.ofNat 3 k }
  let x := slice s k
  if x.xslots.any (fun t => t.src.toNat == n) then s
  else setSlice s k { x with xdone := cellsSet (fun _ => 0) x.xdone n p.series, xsince := x.xsince.filter (fun q => q.1.toNat != n) }

/-- No credit on either side (R88), and none owed for what the bridge still passes on. -/
def zeroCredits (s : State) (n : Nat) : State :=
  let z : Vector Nat 6 := Vector.replicate 6 0
  let s := { s with spine := { s.spine with
    arrive := mapIf (fun f => f.router == n && f.input == 4) (fun f => { f with cred := none }) s.spine.arrive } }
  setPort s n { port s n with inCred := z, outCred := z, granted := z }

/-- `AGENT_REVIVE` (0x61) waits for port `n`. -/
def reviving (s : State) (n : Nat) : Bool := s.seq.run.any (fun r => bitsOf r.hdr 0 8 == 0x61 && r.arg == n)

/-- AGENT_RESET_ASSERT: the port is fenced at once and every open transaction abandoned, those of a port already fenced too (R36);
a revive that waits for it is refused (R192). -/
def agentResetEffect (s : State) (n : Nat) : State :=
  let s := if running s ∧ portEnabled s n then fencePort s n else setPort s n { port s n with fenced := true }
  let s := setPort s n { port s n with txns := [], owed := [], egress := [], arb := freshArb, egDue := [] }
  let s := { s with obs := { s.obs with samples := s.obs.samples.filter (fun x => x.unit != n) } }
  let s := zeroCredits (setPort s n { port s n with resetLow := true }) n
  if reviving s n then finishCmd s stBadParam [] else s

/-- The meaning of AGENT_RESET_ASSERT. -/
def execAgentResetAssert (n : PortId) (s : State) : Host.Outcome State Fault Refusal := guarded s (agentResetEffect s n)

/-- AGENT_RESET_RELEASE: the port comes out of reset, still fenced, with its credits granted anew (R36, R88, R103). -/
def agentReleaseEffect (s : State) (n : Nat) : State :=
  if !(port s n).resetLow then s
  else
    let s := zeroCredits (setPort s n { port s n with resetLow := false }) n
    if running s ∧ portEnabled s n then
      let s := latchPort s n
      if readyLink s then grantCredits s n else s
    else s

/-- The meaning of AGENT_RESET_RELEASE. -/
def execAgentResetRelease (n : PortId) (s : State) : Host.Outcome State Fault Refusal := guarded s (agentReleaseEffect s n)

end Sys2Proof.Machine
end

