-- ==== Sys2Proof/Machine/SpineHop.lean ====
section
/-! DEFINITION. The routers (chapter 9): arrival at an input, header and CRC checks, redirection, the bypass, arbitration at
an output, delivery, and the probes. -/

namespace Sys2Proof.Machine

-- probes (R240)

/-- Base of the probe block of router `r`. -/
def probeBase (r : Nat) : Nat := 0x301000 + r * 0x20

/-- The header fields in the layout of SPN_PROBE_MATCH (Table 9.15). -/
def probeFields (p : Packet) : Word :=
  BitVec.ofNat 32 (p.src.toNat + 2 ^ 5 * dstRouter p + 2 ^ 10 * p.dstUnit.toNat + 2 ^ 13 * msgChan p.msg + 2 ^ 15 * b2n p.dl
    + 2 ^ 16 * p.prio.toNat + 2 ^ 18 * b2n p.smp + 2 ^ 19 * b2n p.redir)

/-- The packet matches the filter of the probe of router `r`. -/
def probeMatch (s : State) (r : Nat) (p : Packet) : Bool :=
  (probeFields p ^^^ getReg s (probeBase r + 4)) &&& getReg s (probeBase r + 8) == 0

/-- The probe of router `r` looks at output `o`. -/
def probeSees (s : State) (r o : Nat) : Bool := decide (6 ≤ getFld s (probeBase r) 1 3) || getFld s (probeBase r) 1 3 == o

/-- The 48-bit count of a probe. -/
def probeCount (s : State) (r : Nat) : Nat := cellsGet (fun _ => 0) s.spine.probe r

/-- Replace the count of a probe. -/
def setProbe (s : State) (r v : Nat) : State :=
  { s with spine := { s.spine with probe := cellsSet (fun _ => 0) s.spine.probe r (v % 2 ^ 48) } }

/-- A packet leaves output `o` of router `r`: counted and traced, both only while EN = 1 (DESIGN CHOICE, assumption 90). -/
def probeLeave (s : State) (r o : Nat) (p : Packet) : State :=
  if getBit s (probeBase r) 0 && probeSees s r o && probeMatch s r p then
    let s := if getBit s (probeBase r) 4 then s else setProbe s r (probeCount s r + 1)
    if getBit s (probeBase r) 10 then hwPacket s (0x40 + r) 0x10 9 [headerWord p, BitVec.ofNat 64 o] 8 12 else s
  else s

/-- Matching packets waiting for the outputs that the probe of router `r` looks at. -/
def probeWaiting (s : State) (r : Nat) : Nat :=
  (s.spine.queued.filter (fun f => f.router == r && probeSees s r f.out && probeMatch s r f.pkt)).length

/-- A tick at the probe of router `r` in mode 1. -/
def probeTick (s : State) (r : Nat) : State :=
  if getBit s (probeBase r) 0 && getBit s (probeBase r) 4 && decide (getFld s (probeBase r) 5 5 ≤ probeWaiting s r) then
    setProbe s r (probeCount s r + 1)
  else s

-- detections

/-- A detection of kind `k` on a packet at input `i` of router `r`: its bit and its capture (Table 9.13). -/
def spineDetect (s : State) (k r i : Nat) (p : Packet) (src syn : Nat) : State :=
  raiseErr s 0x300010 k 0x300014 (BitVec.ofNat 32 (r + 2 ^ 5 * i + 2 ^ 8 * (2 * msgChan p.msg + b2n p.dl) + 2 ^ 11 * k
    + 2 ^ 14 * src + 2 ^ 19 * (syn % 256) + 2 ^ 31))

/-- A corrected header: counted and captured (R230). -/
def headerCorrected (s : State) (r i : Nat) (p : Packet) (syn : Nat) : State :=
  spineDetect (satAdd s 0x300018 0 16 1) 0 r i p p.src.toNat syn

/-- An uncorrectable header: the captured source is meaningless (R232). -/
def headerLost (s : State) (r i : Nat) (p : Packet) (syn : Nat) : State :=
  let (f, s) := takeFree s
  spineDetect s 1 r i p (f.toNat % 32) syn

/-- The verdict of a header check that the blotter reaches: reported alone, in place of the real one (R388). -/
def headerVerdict (s : State) (r i : Nat) (p : Packet) (v : Nat) : State :=
  let sup := s.faults.blotSuppress
  let (f, s) := takeFree s
  match v with
  | 1 => injectedEvent (if sup then s else headerCorrected s r i p f.toNat) 24 6
  | 2 => injectedEvent (if sup then s else headerLost s r i p f.toNat) 24 7
  | _ => s

-- delivery

/-- The flits of a packet as messages of their own: the halves of a line that was sent as one packet. -/
def flitMsgs (m : Msg) : List Msg :=
  match m with
  | .datPair a b => [.dat a, .dat b]
  | m => [m]

/-- A packet reaches slice `n`; a redirected `RSP` or `DAT` is a late answer and is discarded (Table 9.8). -/
def sliceDeliver (s : State) (r n : Nat) (p : Packet) : State :=
  if p.redir ∧ 2 ≤ msgChan p.msg then logRecord (satAdd s 0x30001C 16 16 1) 3 24 p.src.toNat r 0
  else
    let l := (flitMsgs p.msg).map (fun m => (⟨{ p with msg := m }, p.redir, s.tick⟩ : InMsg))
    let s := setSlice s n { slice s n with inbox := (slice s n).inbox ++ l }
    match p.msg with
    | .req r => if opOf r = 0x29 then xlatSyncs s n p.src else s
    | _ => s

/-- A packet for a fenced unit without a successor (R239). -/
def dropFenced (s : State) (r i : Nat) (p : Packet) : State :=
  report (spineDetect (satAdd s 0x30001C 16 16 1) 5 r i p p.src.toNat 0) 24 11

/-- The granule of a mirrored line that never reaches the mirror queue is marked, where its window stands. -/
def mirrorMissed (s : State) (m : Msg) : State :=
  match m with
  | .mirror w a _ _ _ => if mwOf s a.toNat = some w.toNat then markGranule s w.toNat a.toNat else s
  | _ => s

/-- A packet reaches the twin port. Behind its fence it is dropped (R239): of a mirrored line the granule is marked (R364), and
what waits for its confirmation goes on. -/
def twinDeliver (s : State) (r i : Nat) (m : InMsg) : State :=
  if getBit s 0x300008 8 then
    let s := dropFenced (mirrorMissed s m.pkt.msg) r i m.pkt
    if msgIsMirror m.pkt.msg then pumpAll s else s
  else { s with twin := { s.twin with inbox := s.twin.inbox ++ [m] } }

/-- A packet whose CRC held leaves router `r` for its unit. -/
def unitDeliver (s : State) (r i : Nat) (p : Packet) : State :=
  let m : InMsg := ⟨p, p.redir, s.tick⟩
  match p.dstUnit.toNat with
  | 0 => portDeliver s r p
  | 1 =>
    match routerSlice r with
    | some n => sliceDeliver s r n p
    | none => s
  | 2 => twinDeliver s r i m
  | 4 => { s with obs := { s.obs with dumpInbox := s.obs.dumpInbox ++ [m] } }
  | 5 => { s with obs := { s.obs with apInbox := s.obs.apInbox ++ [m] } }
  | _ => s

/-- The packet where a flit is discarded: the other flit goes on with its header, in which a router changes no LEN (R220). None:
nothing is left (DESIGN CHOICE, assumption 80). -/
def dropFlits (f : Flight) (first second : Bool) : Option Flight :=
  let f := { f with gone := f.gone ||| BitVec.ofNat 2 (b2n first + 2 * b2n second) }
  if flitsLeft f = 0 then none else some f

/-- The message that is left at the destination: of a line in two flits the half that came, of a mirrored or
watched line nothing. -/
def msgLeft (f : Flight) : Option Msg :=
  match f.pkt.msg with
  | .datPair a b => if f.gone = 3 then none else if f.gone = 1 then some (.dat b) else if f.gone = 2 then some (.dat a) else some (.datPair a b)
  | .mirror w a img y o => if f.gone = 0 then some (.mirror w a img y o) else none
  | .watched d => if f.gone = 0 then some (.watched d) else none
  | m => if f.gone.getLsbD 0 then none else some m

/-- What the CRC field of a flit of the packet differs by from the flit; 0 for a flit that is not there. -/
def crcDiff (f : Flight) (second : Bool) : BitVec 16 :=
  if f.gone.getLsbD (b2n second) ∨ (second ∧ msgFlits f.pkt.msg ≠ 2) then 0
  else (if second then f.crc2 else f.crc) ^^^ flitCrc f.pkt second

/-- The CRC field of a flit of the packet does not agree with the flit. -/
def crcFails (f : Flight) (second : Bool) : Bool := crcDiff f second != 0

/-- The flit is there and its CRC is checked. -/
def crcChecked (f : Flight) (second : Bool) : Bool :=
  !f.gone.getLsbD (b2n second) && (!second || msgFlits f.pkt.msg == 2)

/-- The CRC check of a flit at its destination, where checker instance `inst` has the one verdict of the field with the mask
applied (R232, R388). -/
def crcDetect (s : State) (f : Flight) (inst : Option Nat) (second : Bool) : State :=
  let detect := fun (s : State) => spineDetect s 2 f.router f.input f.pkt f.pkt.src.toNat 0
  match inst.filter (fun k => blotArmed s 3 k && crcChecked f second) with
  | some k =>
    let m := blotMask s 3 k
    let s := blotUse s 3 k
    if maskWeight m 16 = 0 then (if crcFails f second then report (detect s) 24 8 else s)
    else if crcDiff f second = m.setWidth 16 then s
    else injectedEvent (if s.faults.blotSuppress then s else detect s) 24 8
  | none => if crcFails f second then report (detect s) 24 8 else s

/-- Delivery at the destination: the CRC of each flit is checked there (R231, R232). A bridge discards what was on its way as its
port was fenced (R106). -/
def deliver (s : State) (f : Flight) : State :=
  let r := f.router
  let inst := if f.pkt.dstUnit = 0 then some r else if f.pkt.dstUnit = 1 then (routerSlice r).map (24 + ·) else none
  let s := crcDetect (crcDetect s f inst false) f inst true
  match (dropFlits f (crcFails f false) (crcFails f true)).bind msgLeft with
  | some m => if f.dead then s else unitDeliver s r f.input { f.pkt with msg := m }
  | none => s

-- leaving a router

/-- Requests of a VC in an inbox. -/
def reqsHeld (l : List InMsg) (dl : Bool) : Nat := (l.filter (fun i => msgChan i.pkt.msg == 0 && i.pkt.dl == dl)).length

/-- Flits that a unit's queue holds of the packet's VC: requests at a slice or at the aperture, snoops at a bridge. A unit takes
`RSP` and `DAT` packets at once (R226). -/
def unitHeld (s : State) (f : Flight) : Nat :=
  match f.pkt.dstUnit.toNat, msgChan f.pkt.msg with
  | 0, 1 => (waitingOn s f.router 0 f.pkt.dl).length
  | 1, 0 => (routerSlice f.router).elim 0 (fun n => reqsHeld (slice s n).inbox f.pkt.dl)
  | 5, 0 => reqsHeld s.obs.apInbox f.pkt.dl
  | _, _ => 0

/-- Credits for the whole packet are there beyond its output (R222): at a link those of the next input, at an attachment those of
the unit's queue, which is as deep as an input's (DESIGN CHOICE, assumption 21). -/
def canLeave (s : State) (f : Flight) : Bool :=
  match neighbour f.router f.out with
  | some (r, i) => decide (flitsLeft f ≤ creditsFree s r i (msgChan f.pkt.msg) f.pkt.dl)
  | none => decide (unitHeld s f + flitsLeft f ≤ queueDepth (msgChan f.pkt.msg) f.pkt.dl)

/-- The packet leaves by its output: counted by the probe, then over a link or into a unit. -/
def leave (s : State) (f : Flight) : State :=
  match neighbour f.router f.out with
  | some (r, i) => onward (probeLeave s f.router f.out (routed s r f.pkt)) r i f
  | none => deliver (probeLeave s f.router f.out f.pkt) f

/-- The slice that a packet at router `r` is addressed to, where it is fenced. -/
def fencedTarget (s : State) (r : Nat) (p : Packet) : Option Nat :=
  if dstRouter p = r ∧ p.dstUnit = 1 then (routerSlice r).filter (sliceFenced s) else none

/-- Redirection to the successor (R235): the packet with its new destination, or none where it is discarded. Its route is that of
R224 from here on, also west for a packet that came in from the north or south (DESIGN CHOICE, assumption 91). -/
def redirect (s : State) (f : Flight) (n : Nat) : State × Option Flight :=
  let p := f.pkt
  let k := getFld s 0x30000C (4 * n) 3
  if p.redir then (report (spineDetect s 3 f.router f.input p p.src.toNat 0) 24 9, none)
  else if k = n then (dropFenced s f.router f.input p, none)
  else
    let t := sliceRouter k
    let p := { p with redir := true, dstX := BitVec.ofNat 3 (t % 6), dstY := BitVec.ofNat 2 (t / 6) }
    let o := chooseOut s f.router p
    (satAdd s 0x30001C 0 16 1, some { f with pkt := { p with next := BitVec.ofNat 3 o }, out := o })

/-- The packets that wait at the attachment of a slice that has been fenced are redirected (Table 9.7 step 5). -/
def redirectQueued (s : State) (n : Nat) : State :=
  let r := sliceRouter n
  let here := fun (f : Flight) => f.router == r && f.out == 5 && (fencedTarget s r f.pkt).isSome
  let l := s.spine.queued
  let s := { s with spine := { s.spine with queued := [] } }
  l.foldl (fun s f =>
    let (s, o) := if here f then redirect s f n else (s, some f)
    { s with spine := { s.spine with queued := s.spine.queued ++ o.toList } }) s

/-- Names a destination that exists (Table 9.13, DEST). -/
def destOk (p : Packet) : Bool := decide (p.dstX.toNat < 6) && unitPresent (dstRouter p) p.dstUnit.toNat

/-- Place of a packet in the round-robin order over inputs and channels. -/
def rrPlace (f : Flight) : Nat := f.input * 4 + msgChan f.pkt.msg

/-- Output `f.out` has served packet `f`: the round-robin order goes on behind it. -/
def served (s : State) (f : Flight) : State :=
  { s with spine := { s.spine with rr := cellsSet (fun _ => 0) s.spine.rr (f.router * 6 + f.out) (rrPlace f) } }

/-- The bypass of R223. -/
def bypassOk (s : State) (f : Flight) : Bool :=
  getBit s 0x300000 0 && queued s f.router f.input (msgChan f.pkt.msg) f.pkt.dl == 0
    && !s.spine.queued.any (fun g => g.router == f.router && g.out == f.out) && canLeave s f

/-- A packet whose header stands enters the router: by the bypass, which changes no later arbitration, or into the queue of
its VC (R223). -/
def enterRouter (s : State) (f : Flight) : State :=
  if bypassOk s f then leave (served s f) f
  else { s with spine := { s.spine with queued := s.spine.queued ++ [{ f with since := s.tick }] } }

/-- Two packets travel on one channel and VC. -/
def sameVc (f g : Flight) : Bool := msgChan f.pkt.msg == msgChan g.pkt.msg && f.pkt.dl == g.pkt.dl

/-- The packet that reaches input `i` of router `r` next: the first of its VC whose queue has room. On a link its credits are
already taken; a unit's packet waits for them, and those of another VC pass it (R222); at a bridge those of the Deadline VC go
first (R99). -/
def hopNext (s : State) (r i : Nat) : Option Flight :=
  let l := s.spine.arrive.filter (fun f => f.router == r && f.input == i)
  let ok := fun (f : Flight) => l.find? (sameVc f) == some f &&
    (decide (i < 4) || decide (queued s r i (msgChan f.pkt.msg) f.pkt.dl + flitsLeft f ≤ queueDepth (msgChan f.pkt.msg) f.pkt.dl))
  match l.find? (fun f => i == 4 && f.pkt.dl && ok f) with
  | some f => some f
  | none => l.find? ok

/-- The check of one flit's header: corrected and counted, or lost (R230, R232). Under the blotter the verdict alone is that of
the field with the mask applied (R388). -/
def headerCheck (s : State) (r i : Nat) (p : Packet) (hdr : CodeErr) : State × Bool :=
  let m := blotMask s 2 r
  let armed := blotArmed s 2 r
  let s := blotUse s 2 r
  if armed && maskWeight m 8 != 0 then
    (headerVerdict s r i p (codeVerdict hdr m 8), match hdr with
      | .multi _ => true
      | _ => false)
  else match hdr with
  | .clean => (s, false)
  | .single syn => (report (headerCorrected s r i p syn.toNat) 24 6, false)
  | .multi syn => (report (headerLost s r i p syn.toNat) 24 7, true)

/-- A packet that has passed its header checks: redirected where its unit is fenced (R235), then into the router. -/
def arrived (s : State) (f : Flight) : State :=
  if !destOk f.pkt then report (spineDetect s 4 f.router f.input f.pkt f.pkt.src.toNat 0) 24 10
  else match fencedTarget s f.router f.pkt with
  | none => enterRouter s f
  | some n =>
    match redirect s f n with
    | (s, some f) => enterRouter s f
    | (s, none) => s

/-- ROUTER_HOP: the next packet on its way to input `i` of router `r` arrives. `hdr` and `hdr2` are what the header checks of
its flits find, `crc` and `crc2` the errors that their CRC fields pick up. -/
def routerHopEffect (s : State) (r i : Nat) (hdr hdr2 : CodeErr) (crc crc2 : BitVec 16) : State :=
  if !running s then s
  else match hopNext s r i with
  | none => s
  | some f =>
    let s := { s with spine := { s.spine with arrive := dropFirst (fun g => g == f) s.spine.arrive } }
    let s := f.cred.elim s (returnCred s r)
    let two := msgFlits f.pkt.msg == 2
    let g := { f with crc := f.crc ^^^ crc, crc2 := if two then f.crc2 ^^^ crc2 else 0, cred := none }
    let (s, lost) := if f.gone.getLsbD 0 then (s, false) else headerCheck s r i f.pkt hdr
    let (s, lost2) := if two && !f.gone.getLsbD 1 then headerCheck s r i f.pkt hdr2 else (s, false)
    match dropFlits g lost lost2 with
    | some g => arrived s g
    | none => s

/-- The meaning of ROUTER_HOP. -/
def execRouterHop (r : RouterId) (input : Fin 6) (hdr : PerFlit CodeErr) (crc : PerFlit (BitVec 16)) (s : State) :
    Host.Outcome State Fault Refusal :=
  guarded s (routerHopEffect s r input hdr.first hdr.second crc.first crc.second)

-- arbitration (R228)

/-- Queue of a packet at its router: input, channel, VC. -/
def queueOf (f : Flight) : Nat × Nat × Bool := (f.input, msgChan f.pkt.msg, f.pkt.dl)

/-- Two packets wait in one queue. -/
def sameQueue (f g : Flight) : Bool := f.router == g.router && queueOf f == queueOf g

/-- The heads of the queues of router `r` that want output `o` and can leave. -/
def contenders (s : State) (r o : Nat) : List Flight :=
  let q := s.spine.queued.filter (fun f => f.router == r)
  q.filter (fun f => f.out == o && (q.find? (sameQueue f)) == some f && canLeave s f)

/-- Rank of a packet at an output: the Deadline VC, then the priority, served as 3 when it has aged (R228). -/
def outRank (s : State) (f : Flight) : Nat :=
  let age := getFld s 0x300000 4 10
  if f.pkt.dl then 4 else if 0 < age ∧ age < s.tick - f.since then 3 else f.pkt.prio.toNat

/-- The winner at output `o` of router `r`. -/
def outWinner (s : State) (r o : Nat) : Option Flight :=
  let l := contenders s r o
  let best := l.foldl (fun b f => max b (outRank s f)) 0
  let top := l.filter (fun f => outRank s f == best)
  let last := cellsGet (fun _ => 0) s.spine.rr (r * 6 + o)
  let turn := fun (f : Flight) => (rrPlace f + 24 - (last + 1)) % 24
  top.foldl (fun b f => match b with
    | some g => if turn f < turn g then some f else some g
    | none => some f) none

/-- A packet leaves its queue; the one behind it becomes its head now. -/
def dequeue (s : State) (f : Flight) : State :=
  let l := dropFirst (fun g => g == f) s.spine.queued
  let l := match l.find? (sameQueue f) with
    | some h => (l.takeWhile (fun g => g != h)) ++ { h with since := s.tick } :: (l.dropWhile (fun g => g != h)).drop 1
    | none => l
  { s with spine := { s.spine with queued := l } }

/-- OUTPUT_ARBITRATION: output `o` of router `r` grants one packet. -/
def outputEffect (s : State) (r o : Nat) : State :=
  if !running s then s
  else match outWinner s r o with
  | none => s
  | some f => leave (served (dequeue s f) f) f

/-- The meaning of OUTPUT_ARBITRATION. -/
def execOutputArbitration (r : RouterId) (out : Fin 6) (s : State) : Host.Outcome State Fault Refusal :=
  guarded s (outputEffect s r out)

end Sys2Proof.Machine
end

