-- ==== Sys2Proof/Machine/Dram.lean ====
section
/-! DEFINITION. What comes back from DRAM (R12, R264 to R266, R275, R278, R282, R299): the checkers with their reports, the
blotter on them, and the delivery of a line to its entry, its merge or the scrub. -/

namespace Sys2Proof.Machine

/-- The image of a line that is read: its decode, then its unsealing; none where it cannot be delivered. A corrected codeword
is offered a corrective write, but for a line that fails its tag or node, of which nothing is written (R264, R266, R299). -/
def imageOf (s : State) (r : RdReq) (c : Nat) (dec : Decoded) (badNode : Option (Fin 10)) : State × Option LineImg :=
  let of := fun (mu : Nat) (d : LineData) (k : Nat) =>
    let (s, img) := unsealLine s c r.m mu d badNode r.src.toNat
    (if img.isSome ∧ 0 < k then wqCorrective s c r.m mu d r else s, img)
  match dec with
  | .uncorrectable => (s, none)
  | .marked mu d k => of mu d k
  | .data d k => of 0 d k

-- delivery

/-- An admitted read leaves the PENDING count (R305). -/
def leavePending (s : State) (n id : Nat) : State :=
  match findEntry s n id with
  | some e => if e.pend then setEntry (pendEnd s n e) n { e with pend := false } else s
  | none => s

/-- Set a flag of the home sample of an entry. -/
def entryFlag (s : State) (n id b : Nat) : State :=
  match findEntry s n id with
  | some e => sampleFlag s (32 + n) e.src e.req.txn b
  | none => s

/-- Stamp a stage of the home sample of an entry. -/
def entryStamp (s : State) (n id i : Nat) : State :=
  match findEntry s n id with
  | some e => sampleStamp s (32 + n) e.src e.req.txn i
  | none => s

/-- Reads that have not issued and are served without DRAM: their line is in the write queue in full (R250), or lies above
the watermark (R394); scrub reads of a queued line are skipped (R267). -/
def readServed (s : State) (c : Nat) (r : RdReq) : Option (Option LineImg × Bool) :=
  if r.issued then none
  else match r.use with
  | .entry _ _ =>
    match forwardRead s c r.m with
    | some img => some (some img, false)
    | none => if (wrqFind s c r.m).isNone ∧ !unitInit s c (r.m / 28) then some (some ⟨0, 0, false⟩, true) else none
  | .merge =>
    if (wrqFind s c r.m).all (·.full) then some (none, false)
    else if !unitInit s c (r.m / 28) then some (some ⟨0, 0, false⟩, true) else none
  | .scrub => if (wrqFind s c r.m).isSome then some (none, false) else none
  | .check _ => none

/-- The last read that the scrub has in the queue for its row unit is done with: the row is precharged next (R267, step 3). -/
def scrubRowEnd (s : State) (c m : Nat) : State :=
  let p := placeOf s c (m / 28)
  let k := bankAt (chan s c) p.rank p.bank
  if (chan s c).rdq.any (fun r => isScrubRead r.use && !r.issued) ∨ k.row ≠ some p.row then s
  else setBank s c p.rank p.bank { k with close := true }

/-- One such read is served. -/
def serveRead (s : State) (c : Nat) (r : RdReq) : State :=
  match readServed s c r with
  | none => s
  | some (img, zero) =>
    let s := setChan s c { chan s c with rdq := (chan s c).rdq.filter (fun x => x.id != r.id) }
    let s := if isScrubRead r.use then scrubRowEnd s c r.m else s
    let s := if zero then countZero s c else s
    match r.use, img with
    | .entry n id, some i =>
      let s := if zero then s else entryFlag (pmuEvent s (8 + c) 0x0A) n id 5
      memArrived (leavePending s n id) n id i false false
    | .merge, some i => wqMerged s c r.m i
    | _, _ => s

/-- Every read of channel `c` that DRAM need not serve. -/
def serveReads (s : State) (c : Nat) : State := (chan s c).rdq.foldl (fun s r => serveRead s c r) s

/-- The read whose data comes next: in Accord the line that holds the channel's return grant (R318), otherwise the first
one issued. -/
def nextReturn (s : State) (c : Nat) : Option RdReq :=
  let x := chan s c
  x.rdq.find? (fun r => r.issued && (!chanArbited s c || x.arb.holder == some r.id))

/-- A failed tree node was found on a merge read: the write beneath it changes nothing (Table 11.6). -/
def mergeRefused (s : State) (c m : Nat) : Bool := sealBroken s c m

/-- The line of read `r` goes to what it was read for. -/
def deliverRead (s : State) (c : Nat) (r : RdReq) (img : Option LineImg) : State :=
  match r.use with
  | .entry n id =>
    let s := entryStamp s n id 3
    let s := if (sealedRegion s c r.m).isSome then entryFlag s n id 6 else s
    match img with
    | some i => memArrived s n id i false r.overtaken
    | none => memArrived s n id ⟨0, 3, false⟩ true r.overtaken
  | .merge =>
    if mergeRefused s c r.m then setWrq s c ((chan s c).wrq.filter (fun w => w.m != r.m || w.full))
    else wqMerged s c r.m (img.getD ⟨0, 3, false⟩)
  | _ => s

/-- The data and check bursts of a read are decoded (R278). Scrub reads end with the codeword (R267). -/
def decodeRead (s : State) (c : Nat) (r : RdReq) (errData errCheck : LineData) (badNode : Option (Fin 10)) : State :=
  let u := r.m / 28
  let slot := r.m % 28
  let scrub := !isEntryRead r.use && r.use != .merge
  let src := r.src.toNat
  let (s, l, cached) := checkLine s c u (slot / 7) errCheck scrub src
  let s := match r.use with
    | .entry n id => if cached then entryFlag s n id 4 else s
    | _ => s
  let (s, dec) := dataDecode s c r.m (dramGet s (dramKey c u slot) ^^^ errData) l scrub src
  if scrub then
    match dec with
    | .uncorrectable => s
    | .marked mu d k => if 0 < k then wqCorrective s c r.m mu d r else s
    | .data d k => if 0 < k then wqCorrective s c r.m 0 d r else s
  else
    let (s, img) := imageOf s r c dec badNode
    deliverRead s c r img

/-- A scrub read of a check line. Where the cache holds the line, its copy there is newer: a corrected line in DRAM makes the
copy dirty, and that is its corrective write (R267, R278). -/
def scrubCheck (s : State) (c u k : Nat) (err : LineData) : State :=
  match ccFind s c u k with
  | some l =>
    match checkDecode s c u k (dramGet s (dramKey c u (28 + k)) ^^^ err) true 0 with
    | (s, some (_, n)) => if n = 0 ∨ l.bad then s else ccPut s { l with dirty := true }
    | (s, none) => loseSlot (eccUncorrectable s c u (28 + k) true 0 false) c u (28 + k)
  | none =>
    let (s, l, _) := checkLine s c u k err true 0
    if l.bad then eccUncorrectable s c u (28 + k) true 0 false else s

/-- LINE_READ_COMPLETE: the line that returns next is decoded, verified and delivered; the channel and what waited for it
go on. -/
def lineReadEffect (s : State) (c : Nat) (errData errCheck : LineData) (badNode : Option (Fin 10)) : State :=
  if !running s then s
  else match nextReturn s c with
  | none => s
  | some r =>
    let x := chan s c
    let arb := if x.arb.holder = some r.id then { x.arb with holder := none } else x.arb
    let s := setChan s c { x with rdq := x.rdq.filter (fun y => y.id != r.id), arb := arb }
    let s := match r.use with
      | .check k => scrubCheck s c (r.m / 28) k errCheck
      | _ => decodeRead s c r errData errCheck badNode
    pumpChan (serveReads (sealOwed s) c) c

/-- The meaning of LINE_READ_COMPLETE. -/
def execLineReadComplete (c : ChanId) (errData errCheck : LineData) (badNode : Option (Fin 10)) (s : State) :
    Host.Outcome State Fault Refusal :=
  guarded s (lineReadEffect s c errData errCheck badNode)

end Sys2Proof.Machine
end

