-- ==== Sys2Proof/Machine/Sched.lean ====
section
/-! DEFINITION. The scheduler of a channel (R248 to R263, R267, R309, R310, R394, R395): which DRAM command issues next, its
effect, and the timers of the channel. Times are picoseconds of timebase; a decision is made at a tick. -/

namespace Sys2Proof.Machine

-- timings

/-- CK period in picoseconds of the trained rate (Table 10.1). -/
def ckPs (s : State) (c : Nat) : Nat := [1875, 1455, 1250, 1067, 938, 833, 750].getD (getFld s (mcBase c) 4 3) 750

/-- Field `lo`, `n` of MC_TIM`i` in picoseconds. -/
def timPs (s : State) (c i lo n : Nat) : Nat := getFld s (mcBase c + 0x10 + 4 * i) lo n * ckPs s c

/-- One BL32 burst. -/
def burstPs (s : State) (c : Nat) : Nat := 4 * ckPs s c

/-- Now. -/
def nowPs (s : State) : Nat := s.tick * 1000

/-- Refresh interval of the form in use under the multiplier (R257, R258): per-bank form refreshes one of eight pairs. -/
def refInterval (s : State) (c : Nat) : Nat :=
  let b := mcBase c
  timPs s c 3 16 13 / 2 ^ getFld s (b + 0x48) 5 2 / (if getBit s (b + 0x48) 0 then 1 else 8)

/-- MC_REF.POSTPONE, above 8 acting as 8. -/
def postponeMax (s : State) (c : Nat) : Nat := min 8 (getFld s (mcBase c + 0x48) 1 4)

/-- MC_REF.FORM: all-bank refresh. -/
def allBankForm (s : State) (c : Nat) : Bool := getBit s (mcBase c + 0x48) 0

/-- Ranks of the channel. -/
def ranksOf (s : State) (c : Nat) : List Nat := if twoRanks s c then [0, 1] else [0]

/-- The bank that shares per-bank refreshes with bank `b` (assumption 31). -/
def pairBank (b : Nat) : Nat := (b + 8) % 16

-- banks

/-- Refresh state of rank `r`. -/
def refreshAt (x : Chan) (r : Nat) : Refresh := if h : r < 2 then x.refresh[r] else freshRefresh

/-- Replace the refresh state of rank `r`. -/
def setRefresh (s : State) (c r : Nat) (f : Refresh) : State :=
  if h : r < 2 then setChan s c { chan s c with refresh := (chan s c).refresh.set r f } else s

/-- The banks a refresh of rank `r` needs: all, or the pair next in rotation. -/
def refreshBanks (s : State) (c r : Nat) : List Nat :=
  if allBankForm s c then List.range 16
  else
    let p := (refreshAt (chan s c) r).pair
    [p, pairBank p]

-- slots (R308)

/-- Slot `i` of the active table is reserved. -/
def slotReserved (s : State) (c i : Nat) : Bool := getBit s (mcBase c + 0x84 + 4 * (i / 32)) (i % 32)

/-- The active table reserves any slot. -/
def tableInUse (s : State) (c : Nat) : Bool := (List.range 125).any (slotReserved s c)

/-- The slot of the present tick. -/
def slotNow (s : State) : Nat := s.tick % 1000 / 8

/-- Now lies in a reserved slot. -/
def inReserved (s : State) (c : Nat) : Bool := slotReserved s c (slotNow s)

/-- Start of the first reserved slot after time `t`, in picoseconds. -/
def reservedAfter (s : State) (c t : Nat) : Option Nat :=
  ((List.range 125).map (· + 1)).findSome? fun d =>
    let slot := t / 8000 + d
    if slotReserved s c (slot % 125) then some (slot * 8000) else none

/-- Starts of the reserved slots after time `t`, at most `w` later. -/
def reservedWithin (s : State) (c t w : Nat) : List Nat :=
  (((List.range 125).map (fun d => t / 8000 + d + 1)).filter (fun i => slotReserved s c (i % 125) && decide (i * 8000 ≤ t + w))).map
    (· * 8000)

/-- Start of the first reserved slot after now. -/
def nextReserved (s : State) (c : Nat) : Option Nat := reservedAfter s c (nowPs s)

/-- A moment within 2 ns before a reserved slot starts, or at its start. -/
def endsAtSlot (s : State) (c t : Nat) : Bool :=
  let slot := (t + 7999) / 8000
  slotReserved s c (slot % 125) && decide (slot * 8000 ≤ t + 2000)

-- requests

/-- Who a command is issued for. -/
inductive Who where
  | read (id : Nat)
  | write (m : Nat)
  deriving DecidableEq, Repr, Inhabited

/-- A DRAM command. -/
inductive Cmd where
  | precharge (who : Option Who) (rank bank : Nat)
  | activate (who : Who) (rank bank row : Nat)
  | read (id rank bank : Nat)
  | write (m rank bank : Nat)
  | refresh (rank : Nat)
  | neighbour (rank bank : Nat)
  | initUnit (u : Nat)
  deriving DecidableEq, Repr, Inhabited

/-- A queued request as the scheduler weighs it. -/
structure Want where
  who : Who
  isWrite : Bool
  p : Place
  m : Nat
  dl : Bool
  urgency : Nat
  arrival : Nat
  first : Bool
  forced : Bool
  scrub : Bool
  deriving DecidableEq, Repr, Inhabited

/-- Urgency of a request that is not in the Deadline class (R256). -/
def urgencyOf (s : State) (src : BitVec 5) (prio : BitVec 2) (arrival : Nat) : Nat :=
  let t := getFld s (0x240100 + 4 * src.toNat) 0 16
  let age := s.tick - arrival
  let level := if t = 0 then 0 else if t ≤ age then 3 else if 3 * t ≤ 4 * age then 2 else if t ≤ 2 * age then 1 else 0
  max level (prio.toNat / 2)

/-- A read waits for the merge of its line (R250). -/
def waitsMerge (x : Chan) (r : RdReq) : Bool := isEntryRead r.use && x.wrq.any (fun w => w.m == r.m && !w.full)

/-- Urgency of a read by itself; scrub reads stand at 0, or 3 when their row unit waited a whole interval (R267). -/
def readUrgency (s : State) (x : Chan) (r : RdReq) : Nat :=
  match r.use with
  | .scrub => if x.scrubUrgent then 3 else 0
  | .check _ => if x.scrubUrgent then 3 else 0
  | .merge => if x.wrq.any (fun w => w.m == r.m && w.dl) then 3 else urgencyOf s r.src r.prio r.arrival
  | .entry _ _ => if r.dl then 3 else urgencyOf s r.src r.prio r.arrival

/-- The read as the scheduler weighs it: a merge read that a waiting read forces goes ahead of every other read, with the
urgency of that read or of the merge's write (R250, R256). -/
def wantRead (s : State) (c : Nat) (r : RdReq) : Want :=
  let x := chan s c
  let waiting := x.rdq.filter (fun q => q.m == r.m && waitsMerge x q)
  let forced := r.use == .merge && !waiting.isEmpty
  let u := (waiting.map (readUrgency s x)).foldl max (readUrgency s x r)
  ⟨.read r.id, false, placeOf s c (r.m / 28), r.m, r.dl && isEntryRead r.use, u, r.arrival, r.first, forced,
    isScrubRead r.use⟩

/-- The write as the scheduler weighs it: Deadline entries drain at urgency 3 (R309). -/
def wantWrite (s : State) (c : Nat) (w : WrReq) : Want :=
  ⟨.write w.m, true, placeOf s c (w.m / 28), w.m, w.dl, if w.dl then 3 else urgencyOf s w.src w.prio w.arrival, w.arrival,
    w.first, false, false⟩

/-- The requests of the channel that DRAM is to serve; in M10 the scrub is paused (Table 15.8). -/
def wants (s : State) (c : Nat) : List Want :=
  let x := chan s c
  (x.rdq.filter (fun r => !r.issued && !waitsMerge x r && !(inSafe s && isScrubRead r.use))).map (wantRead s c)
    ++ (x.wrq.filter (fun w => w.full && !writeHeld s c w.m)).map (wantWrite s c)

/-- Pending admitted Deadline reads: those whose first command has not issued (R305). -/
def dlPending (s : State) (c : Nat) : List RdReq :=
  (chan s c).rdq.filter (fun r => r.dl && isEntryRead r.use && r.first && !r.issued)

/-- The oldest of a list of reads. -/
def oldestRead (l : List RdReq) : Option RdReq :=
  l.foldl (fun b r => match b with
    | none => some r
    | some q => if r.arrival < q.arrival then some r else some q) none

-- rules on a command

/-- A request to another row of an open bank is queued. -/
def missWaits (s : State) (c : Nat) (k : Bank) (r b : Nat) : Bool :=
  (wants s c).any (fun w => w.p.rank == r && w.p.bank == b && k.row.isSome && k.row != some w.p.row)

/-- tRRD and tFAW of rank `r` permit an activate at time `t`, and so does R309: at most two in the window that ends at the start
of each reserved slot. -/
def actFits (s : State) (c r t : Nat) : Bool :=
  let x := chan s c
  let mine := (x.acts.filter (fun a => a.1 == r)).map (·.2)
  let far := fun (u : Nat) => decide (u + timPs s c 1 8 8 ≤ t) || decide (t + timPs s c 1 8 8 ≤ u)
  let faw := timPs s c 1 16 8
  mine.all far && decide ((mine.filter (fun u => decide (t < u + faw) && decide (u ≤ t))).length < 4)
    && decide ((mine.filter (fun u => decide (t ≤ u) && decide (u < t + faw))).length < 4)
    && (reservedWithin s c t faw).all (fun t0 =>
      decide ((x.acts.filter (fun a => decide (t0 ≤ a.2 + faw) && decide (a.2 < t0))).length < 2))

/-- An activate of rank `r` may issue now. -/
def actSpacing (s : State) (c r : Nat) : Bool := actFits s c r (nowPs s)

/-- While a Deadline read of a bank waits for its first command, only the oldest such read activates the bank (R310). -/
def dlHoldsBank (s : State) (c r b : Nat) (who : Who) : Bool :=
  let here := (dlPending s c).filter (fun q => let p := placeOf s c (q.m / 28); p.rank == r && p.bank == b)
  match oldestRead here with
  | some q => who != .read q.id
  | none => false

/-- A Deadline read waits for its first command in a bank that a refresh of rank `r` needs (R310). -/
def dlHoldsRefresh (s : State) (c r : Nat) : Bool :=
  let l := refreshBanks s c r
  tableInUse s c && (dlPending s c).any (fun q => let p := placeOf s c (q.m / 28); p.rank == r && l.contains p.bank)

/-- A refresh of rank `r` is owed and R310 lets it go ahead of what waits, at most eight intervals late. -/
def refreshFree (s : State) (c r : Nat) : Bool :=
  let f := refreshAt (chan s c) r
  decide (0 < f.owed) && (!dlHoldsRefresh s c r || decide (8 < f.owed))

/-- A refresh of rank `r` has reached its postponement limit (rank 1 of Table 10.3). -/
def refreshLimit (s : State) (c r : Nat) : Bool :=
  refreshFree s c r && decide (postponeMax s c < (refreshAt (chan s c) r).owed)

/-- A refresh at its limit keeps requests from activating the banks it needs. -/
def refreshHolds (s : State) (c r b : Nat) : Bool := refreshLimit s c r && (refreshBanks s c r).contains b

/-- While a Deadline read is pending, a burst ends before the next reserved slot starts (R309). -/
def burstFits (s : State) (c : Nat) (endAt : Nat) : Bool :=
  (dlPending s c).isEmpty || (match nextReserved s c with
    | some t0 => decide (endAt ≤ t0)
    | none => true)

/-- The check line of the line is not in the check cache: one more burst (R247, R279). -/
def checkMiss (s : State) (c m : Nat) : Bool := (ccFind s c (m / 28) (m % 28 / 7)).isNone

/-- A place in the check cache can be had for the check line of line `m`: fewer than eight check lines of its set are in use
by outstanding bursts, or it is there (R279). -/
def checkRoom (s : State) (c m : Nat) : Bool :=
  let st := checkSet c (m / 28) (m % 28 / 7)
  let used := ((List.range 16).filter (fun d => engineOf s d == engineOf s c)).flatMap (fun d =>
    ((chan s d).rdq.filter (·.issued)).map (fun r => (d, r.m / 28, r.m % 28 / 7)))
  !checkMiss s c m || decide ((used.eraseDups.filter (fun t => checkSet t.1 t.2.1 t.2.2 == st)).length < 8)

/-- Bursts a read or write of line `m` puts on the data bus. -/
def burstsOf (s : State) (c m : Nat) : Nat := if checkMiss s c m then 2 else 1

/-- The column command of a request may issue now. -/
def columnOk (s : State) (c : Nat) (w : Want) (k : Bank) : Bool :=
  let x := chan s c
  let now := nowPs s
  let start := now + (if w.isWrite then timPs s c 0 8 8 else timPs s c 0 0 8)
  decide (k.ready ≤ now) && decide (x.busFree ≤ start)
    && (w.isWrite || decide (x.lastWrite = 0) || decide (x.lastWrite + timPs s c 2 8 8 ≤ now))
    && burstFits s c (start + burstsOf s c w.m * burstPs s c) && checkRoom s c w.m

/-- The command that request `w` needs next, where it may issue now. -/
def wantCmd (s : State) (c : Nat) (w : Want) : Option Cmd :=
  let k := bankAt (chan s c) w.p.rank w.p.bank
  match k.row with
  | some row =>
    if row = w.p.row then
      if columnOk s c w k then
        match w.who with
        | .read id => some (.read id w.p.rank w.p.bank)
        | .write m => some (.write m w.p.rank w.p.bank)
      else none
    else if k.preAt ≤ nowPs s then some (.precharge (some w.who) w.p.rank w.p.bank)
    else none
  | none =>
    if k.pend.isNone && decide (k.ready ≤ nowPs s) && actSpacing s c w.p.rank
        && !(tableInUse s c && dlHoldsBank s c w.p.rank w.p.bank w.who)
        && (w.dl || !refreshHolds s c w.p.rank w.p.bank) then
      some (.activate w.who w.p.rank w.p.bank w.p.row)
    else none

/-- Whether rank 5 of Table 10.3 prefers the request: a hit, unless the bank has reached HIT_LIMIT with a miss waiting; then
the miss. -/
def rowFirst (s : State) (c : Nat) (w : Want) : Bool :=
  let k := bankAt (chan s c) w.p.rank w.p.bank
  let hit := k.row == some w.p.row
  let limit := max 1 (getFld s (mcBase c + 0x40) 16 5)
  if decide (limit ≤ k.hits) && missWaits s c k w.p.rank w.p.bank then !hit else hit

-- candidates

/-- A command that may issue, with its place in the order: class and rules, then arrival. -/
structure Cand where
  key : Nat
  arrival : Nat
  cmd : Cmd
  urgent : Bool
  deriving DecidableEq, Repr, Inhabited

/-- Classes of candidates: 0 a pending neighbour action, 1 a refresh at its limit, 2 Deadline commands with rank 2, 3
Deadline writes in a reserved slot, 4 a refresh that nothing urgent postpones, 5 the rest. -/
def inClass (k : Nat) : Nat := k * 64

/-- Neighbour actions take the RFM form (R261). -/
def rfmForm (s : State) (c : Nat) : Bool := getBit s (mcBase c) 7 && !getBit s (mcBase c + 0x4C) 5

/-- The neighbours of row `row` that lie inside the bank. -/
def neighbourRows (s : State) (c row : Nat) : List Nat :=
  (if 2 ≤ row then [row - 2] else []) ++ (if 1 ≤ row then [row - 1] else [])
    ++ [row + 1, row + 2].filter (fun x => decide (x < rowsPerBank s c))

/-- From one activate of a self-issued action to the next: its row is open for tRAS and closes in tRP. -/
def neighbourStep (s : State) (c : Nat) : Nat := timPs s c 1 0 8 + timPs s c 0 24 8

/-- Every activate of a self-issued action for row `row` of rank `r` that starts now keeps the spacing of activates (R253,
R309). -/
def neighbourFits (s : State) (c r row : Nat) : Bool :=
  (List.range (neighbourRows s c row).length).all (fun i => actFits s c r (nowPs s + i * neighbourStep s c))

/-- Neighbour actions: after the row has closed, before anything else goes to the bank (R262). In the RFM form the pair
bank is precharged too. -/
def candNeighbour (s : State) (c : Nat) : List Cand :=
  let x := chan s c
  let now := nowPs s
  let rfm := rfmForm s c
  (ranksOf s c).flatMap fun r => (List.range 16).flatMap fun b =>
    let k := bankAt x r b
    if k.pend.isSome && k.row.isNone && decide (k.ready ≤ now) then
      let q := bankAt x r (pairBank b)
      if rfm && q.row.isSome then
        if q.preAt ≤ now then [⟨inClass 0, 0, .precharge none r (pairBank b), false⟩] else []
      else if rfm && !decide (q.ready ≤ now) then []
      else if !rfm && !neighbourFits s c r (k.pend.getD 0) then []
      else [⟨inClass 0, 0, .neighbour r b, false⟩]
    else []

/-- Where a refresh may start: its end lies within 2 ns before a reserved slot, and not in the last 300 ns before a swap
(R310). -/
def refreshMoment (s : State) (c : Nat) : Bool :=
  let t := if allBankForm s c then timPs s c 3 0 10 else timPs s c 2 16 10
  !tableInUse s c
    || (endsAtSlot s c (nowPs s + t) && !((chan s c).shadow.isSome && decide (700 ≤ s.tick % 1000)))

/-- A refresh of rank `r`, or the next precharge it needs (R257, R262). -/
def candRefresh (s : State) (c r cls : Nat) : List Cand :=
  let x := chan s c
  let now := nowPs s
  let l := refreshBanks s c r
  match l.find? (fun b => (bankAt x r b).row.isSome && decide ((bankAt x r b).preAt ≤ now)) with
  | some b => [⟨inClass cls, 0, .precharge none r b, false⟩]
  | none =>
    if l.all (fun b => let k := bankAt x r b; k.row.isNone && k.pend.isNone && decide (k.ready ≤ now)) && refreshMoment s c
    then [⟨inClass cls, 0, .refresh r, false⟩] else []

/-- Refreshes: at their limit, or with no request of rank 2 or 3 to postpone them. -/
def candRefreshes (s : State) (c : Nat) : List Cand :=
  let urgent := (wants s c).any (fun w => w.dl || decide (0 < w.urgency))
  (ranksOf s c).flatMap fun r =>
    if refreshLimit s c r then candRefresh s c r 1
    else if refreshFree s c r && (!urgent || postponeMax s c == 0) then candRefresh s c r 4
    else []

/-- The class of a request's command (Table 10.3 rank 2, R309). -/
def wantClass (s : State) (c : Nat) (w : Want) : Nat :=
  let x := chan s c
  if !w.dl then 5
  else if !w.first then 2
  else if !(inReserved s c && x.slotOpen) then 5
  else if w.isWrite then 3
  else
    match oldestRead (dlPending s c) with
    | some q => if w.who = .read q.id then 2 else 5
    | none => 5

/-- A queued request targets the open row of the bank: a read that has not issued, or a write or a merge (R254). -/
def rowTargeted (s : State) (c r b : Nat) : Bool :=
  let x := chan s c
  let here := fun (m : Nat) =>
    let p := placeOf s c (m / 28)
    p.rank == r && p.bank == b && (bankAt x r b).row == some p.row
  x.rdq.any (fun q => !q.issued && here q.m) || x.wrq.any (fun w => here w.m)

/-- The candidate of one request: its urgency, then ranks 4 and 5 of Table 10.3, which a scrub read loses to every request
(R267), then its arrival. -/
def candWant (s : State) (c : Nat) (w : Want) : List Cand :=
  match wantCmd s c w with
  | none => []
  | some cmd =>
    let x := chan s c
    let u := min 3 w.urgency
    let u' := if w.forced then ((wants s c).filter (fun v => !v.isWrite)).foldl (fun a v => max a (min 3 v.urgency)) u else u
    let flip := u' == 3
    let kind := if x.drain then w.isWrite != flip else w.isWrite == flip
    let key := (3 - u') * 4 + (if w.scrub then 3 else (if kind then 0 else 2) + (if w.forced || rowFirst s c w then 0 else 1))
    [⟨inClass (wantClass s c w) + key, if w.forced then 0 else w.arrival, cmd, u == 3⟩]

/-- A request whose row is open waits for its column command: the data bus is kept for it (R395). -/
def columnWaits (s : State) (c : Nat) : Bool :=
  (wants s c).any (fun w => (bankAt (chan s c) w.p.rank w.p.bank).row == some w.p.row)

/-- The bank of a row unit that the scrub has read is precharged, unless a request targets the row (R267, step 3). -/
def candScrubEnd (s : State) (c : Nat) : List Cand :=
  let x := chan s c
  (ranksOf s c).flatMap fun r => (List.range 16).flatMap fun b =>
    let k := bankAt x r b
    if k.close && k.row.isSome && decide (k.preAt ≤ nowPs s) && !rowTargeted s c r b then
      [⟨inClass 5 + 15, s.tick, .precharge none r b, false⟩] else []

/-- The next row unit of background initialisation (R394, R395): last of all requests, with the data bus free for its
writes. -/
def candInit (s : State) (c : Nat) : List Cand :=
  let u := initWm s c
  let x := chan s c
  if !initActive s c then []
  else if x.early.contains u then [⟨inClass 6, 0, .initUnit u, false⟩]
  else
    let p := placeOf s c u
    let k := bankAt x p.rank p.bank
    if k.pend.isNone && decide (k.ready ≤ nowPs s) && decide (k.preAt ≤ nowPs s) && actSpacing s c p.rank
        && (dlPending s c).isEmpty && !refreshHolds s c p.rank p.bank && !dlHoldsBank s c p.rank p.bank (.write 0)
        && decide (x.busFree ≤ nowPs s + timPs s c 0 8 8) && !columnWaits s c then
      [⟨inClass 6, 0, .initUnit u, false⟩]
    else []

/-- Every command that may issue now. -/
def schedCands (s : State) (c : Nat) : List Cand :=
  let traffic := if curMode s = 2 then [] else (wants s c).flatMap (candWant s c)
  candNeighbour s c ++ candRefreshes s c ++ traffic ++ candScrubEnd s c ++ candInit s c

/-- First in the order of Table 10.3; equals in list order, one outcome of the mutual-exclusion element (R253). -/
def bestCand (l : List Cand) : Option Cand :=
  l.foldl (fun b x => match b with
    | none => some x
    | some y => if x.key < y.key ∨ (x.key = y.key ∧ x.arrival < y.arrival) then some x else some y) none

-- effects

/-- A bank is precharged at time `t`. -/
def prechargeAt (s : State) (c r b t : Nat) : State :=
  let k := bankAt (chan s c) r b
  setBank s c r b { k with row := none, ready := t + timPs s c 0 24 8, hits := 0, close := false }

/-- A bank is precharged now. -/
def doPrecharge (s : State) (c r b : Nat) : State := prechargeAt s c r b (nowPs s)

/-- Remember an activate for tRRD, tFAW and R309. -/
def pushAct (s : State) (c r t : Nat) : State :=
  let x := chan s c
  let keep := x.acts.filter (fun a => decide (nowPs s < a.2 + timPs s c 1 16 8 + 16000))
  pmuEvent (setChan s c { x with acts := keep ++ [(r, t)] }) (8 + c) 0x03

/-- MC_PAGE.IDLE_NS, rounded up to whole CK periods (R254). -/
def idlePs (s : State) (c : Nat) : Nat :=
  let ck := ckPs s c
  (getFld s (mcBase c + 0x40) 0 11 * 1000 + ck - 1) / ck * ck

/-- MC_NREF.EN in force: it reads 1 outside Develop and Return (R263). -/
def nrefOn (s : State) (c : Nat) : Bool := getBit s (mcBase c + 0x4C) 6 || !(lcState s == 1 || lcState s == 3)

/-- The draw of R260: with probability 2^-K the activate triggers a neighbour action. -/
def neighbourDraw (s : State) (c : Nat) : Bool × State :=
  if !nrefOn s c then (false, s)
  else
    let k := max 8 (min 16 (getFld s (mcBase c + 0x4C) 0 5))
    let (f, s) := takeFree s
    (f.toNat % 2 ^ k == 0, s)

/-- A request or a scrub activates a row (R260). -/
def doActivate (s : State) (c r b row : Nat) : State :=
  let now := nowPs s
  let (hit, s) := neighbourDraw s c
  let s := pushAct s c r now
  let k := bankAt (chan s c) r b
  let pend := if hit then some row else k.pend
  setBank s c r b { k with row := some row, ready := now + timPs s c 0 16 8, preAt := now + timPs s c 1 0 8, hits := 0,
                           idleDue := now + idlePs s c, pend := pend, close := false }

/-- The first command of a request: its PENDING place and its stamp, and how it found its row (R305, R426). -/
def firstCommand (s : State) (c : Nat) (who : Who) (hit conflict : Bool) : State :=
  let x := chan s c
  let flag := if hit then 1 else if conflict then 3 else 2
  let ev := if hit then 0x04 else if conflict then 0x06 else 0x05
  match who with
  | .read id =>
    match x.rdq.find? (fun r => r.id == id) with
    | some r =>
      if r.first then
        let s := pmuEvent (setChan s c { x with rdq := mapIf (fun q => q.id == id) (fun q => { q with first := false }) x.rdq })
          (8 + c) ev
        match r.use with
        | .entry n e => entryFlag (entryStamp (leavePending s n e) n e 2) n e flag
        | _ => s
      else s
    | none => s
  | .write m =>
    match x.wrq.find? (fun w => w.m == m) with
    | some w =>
      if w.first then
        pmuEvent (setChan s c { x with wrq := mapIf (fun q => q.m == m) (fun q => { q with first := false }) x.wrq }) (8 + c) ev
      else s
    | none => s

/-- A first command in a reserved slot uses the slot (R309). -/
def useSlot (s : State) (c : Nat) (who : Option Who) : State :=
  match who with
  | some (.read id) =>
    match oldestRead (dlPending s c) with
    | some q => if q.id = id && inReserved s c then setChan s c { chan s c with slotOpen := false } else s
    | none => s
  | _ => s

/-- An access to the open row: data bus, idle timer, precharge time and hit count. A check line that is not cached is a second
burst of the row, and tRTP counts from the last read, tWR from the end of the last burst. -/
def touchRow (s : State) (c r b m : Nat) (write first : Bool) : State :=
  let now := nowPs s
  let x := chan s c
  let k := bankAt x r b
  let start := now + (if write then timPs s c 0 8 8 else timPs s c 0 0 8)
  let n := burstsOf s c m
  let bus := start + n * burstPs s c
  let pre := if write then bus + timPs s c 2 0 8 else now + (n - 1) * burstPs s c + timPs s c 1 24 8
  let hits := if first && missWaits s c k r b then k.hits + 1 else if first then 0 else k.hits
  let s := setChan s c { x with busFree := bus, lastWrite := if write then bus else x.lastWrite }
  setBank s c r b { k with idleDue := now + idlePs s c, preAt := max k.preAt pre, hits := hits }

/-- The read command of read `id`. -/
def doRead (s : State) (c id r b : Nat) : State :=
  match (chan s c).rdq.find? (fun q => q.id == id) with
  | none => s
  | some q =>
    let s := touchRow s c r b q.m false q.first
    let s := firstCommand s c (.read id) true false
    let x := chan s c
    let s := setChan s c { x with rdq := mapIf (fun y => y.id == id) (fun y => { y with issued := true }) x.rdq }
    match q.use with
    | .check _ => scrubRowEnd (pmuEvent (pmuEvent s (8 + c) 0x09) (8 + c) 0x0E) c q.m
    | .scrub => scrubRowEnd (pmuEvent (pmuEvent s (8 + c) 0x01) (8 + c) 0x0E) c q.m
    | _ => pmuEvent s (8 + c) 0x01

/-- The write command of the entry of line `m`: the burst, with its check bytes, and the entry leaves the queue (R251,
R279). The sealed lines that a rebuild has poisoned are sealed as such (R280, R293). What waited for room goes on. -/
def doWrite (s : State) (c m r b : Nat) : State :=
  match (chan s c).wrq.find? (fun w => w.m == m && w.full) with
  | none => s
  | some w =>
    let s := touchRow s c r b m true w.first
    let s := firstCommand s c (.write m) true false
    let s := sealOwed (writeBurst s c m w.stored w.check w.src.toNat)
    let s := setWrq s c ((chan s c).wrq.filter (fun q => q.m != m))
    pumpChan s c

/-- A refresh of rank `r`, with the ZQ latch and the oscillator read that use its gap (R257, R259). -/
def doRefresh (s : State) (c r : Nat) : State :=
  let t := nowPs s + (if allBankForm s c then timPs s c 3 0 10 else timPs s c 2 16 10)
  let s := (refreshBanks s c r).foldl (fun s b => setBank s c r b { bankAt (chan s c) r b with ready := t }) s
  let f := refreshAt (chan s c) r
  let pair := if allBankForm s c then f.pair else (f.pair + 1) % 8
  pmuEvent (setRefresh s c r { f with owed := f.owed - 1, pair := pair, zqPend := false, oscPend := false,
                                      osc := if f.oscPend then f.oscNew else f.osc }) (8 + c) 0x07

/-- One neighbour action is counted (R261). -/
def countNeighbour (s : State) (c : Nat) : State :=
  let s := pmuEvent (satAdd s (mcBase c + 0x50) 0 32 1) (8 + c) 0x08
  { s with aon := { s.aon with nref := bump16 (2 ^ 64 - 1) s.aon.nref c } }

/-- A neighbour action at time `at` (R261, R262). -/
def neighbourAt (s : State) (c r b start : Nat) : State :=
  let x := chan s c
  let k := bankAt x r b
  if rfmForm s c then
    let t := start + timPs s c 2 16 10
    let q := bankAt x r (pairBank b)
    let s := setBank s c r b { k with pend := none, ready := t }
    let s := setBank s c r (pairBank b) { q with pend := none, ready := t }
    let s := countNeighbour s c
    if q.pend.isSome then countNeighbour s c else s
  else
    let step := neighbourStep s c
    let rows := neighbourRows s c (k.pend.getD 0)
    let s := forEach rows.length s (fun s i => pushAct s c r (start + i * step))
    let s := setBank s c r b { bankAt (chan s c) r b with pend := none, ready := start + rows.length * step }
    countNeighbour s c

/-- A neighbour action now. -/
def doNeighbour (s : State) (c r b : Nat) : State := neighbourAt s c r b (nowPs s)

/-- Bank `b` of rank `r` is closed, a row that is open at the first time its precharge may issue. -/
def closeBank (s : State) (c r b : Nat) : State :=
  let k := bankAt (chan s c) r b
  if k.row.isSome then prechargeAt s c r b (max (nowPs s) k.preAt) else s

/-- The first time from which a neighbour action of bank `b` of rank `r` keeps tRP of its banks, and tRRD and tFAW after every
activate so far. -/
def pendingTime (s : State) (c r b : Nat) : Nat :=
  let x := chan s c
  let banks := if rfmForm s c then max (bankAt x r b).ready (bankAt x r (pairBank b)).ready else (bankAt x r b).ready
  let gap := max (timPs s c 1 8 8) (timPs s c 1 16 8)
  ((x.acts.filter (fun a => a.1 == r)).map (fun a => a.2 + gap)).foldl max (max (nowPs s) banks)

/-- The neighbour actions that wait in the banks of channel `c` issue, each after its row has closed and in its timings: none is
dropped when the ranks leave operation (R253, R262, R269). The model makes these commands within the event that ends the
operation, at the times they take (DESIGN CHOICE, assumption 95). -/
def issuePending (s : State) (c : Nat) : State :=
  (ranksOf s c).foldl (fun s r => forEach 16 s (fun s b =>
    if (bankAt (chan s c) r b).pend.isNone then s
    else
      let s := closeBank s c r b
      let s := if rfmForm s c then closeBank s c r (pairBank b) else s
      neighbourAt s c r b (pendingTime s c r b))) s

/-- The ranks of channel `c` enter self-refresh: pending actions issue, every row closes (R262, R269). -/
def sleepChan (s : State) (c : Nat) : State :=
  let s := issuePending s c
  setChan s c { chan s c with selfRef := true, banks := Vector.replicate 32 freshBank, acts := [], drain := false }

/-- READY_FULL: every active channel's watermark has passed its last row unit (R393). -/
def checkReadyFull (s : State) : State :=
  let l := (List.range 16).filter (chanActive s)
  if !l.isEmpty && l.all (fun c => !initActive s c && initWm s c == rowUnits s c) && getBit s 0x14 1 then setBit s 0x14 2 true
  else s

/-- The initialiser passes row unit `u` (R394): written unless it was early, and the watermark moves. -/
def doInit (s : State) (c u : Nat) : State :=
  let x := chan s c
  let now := nowPs s
  let p := placeOf s c u
  let s := if x.early.contains u then s
    else
      let bus := now + timPs s c 0 16 8 + timPs s c 0 8 8 + 32 * burstPs s c
      let s := unitBursts (pushAct s c p.rank now) c
      let s := setChan s c { chan s c with busFree := bus, lastWrite := bus }
      setBank s c p.rank p.bank { bankAt (chan s c) p.rank p.bank with
        row := none, ready := bus + timPs s c 2 0 8 + timPs s c 0 24 8, hits := 0 }
  let s := setChan s c { chan s c with early := (chan s c).early.filter (· != u) }
  let s := setFld s (mcBase c + 0xA0) 0 24 (u + 1)
  if u + 1 = rowUnits s c then
    let s := checkReadyFull (setBit s (mcBase c + 0xA0) 24 false)
    if curMode s = 2 then sleepChan s c else s
  else s

/-- Who a command is for. -/
def cmdWho (k : Cmd) : Option Who :=
  match k with
  | .precharge w _ _ => w
  | .activate w _ _ _ => some w
  | .read id _ _ => some (.read id)
  | .write m _ _ => some (.write m)
  | _ => none

/-- A command issues in a reserved slot (Table 17.1). -/
def countReserved (s : State) (c : Nat) : State := if inReserved s c then pmuEvent s (8 + c) 0x0D else s

/-- A command issues. -/
def issue (s : State) (c : Nat) (k : Cand) : State :=
  let s := countReserved s c
  let s := if k.urgent then pmuEvent s (8 + c) 0x0F else s
  let s := useSlot s c (cmdWho k.cmd)
  match k.cmd with
  | .precharge w r b =>
    let s := match w with
      | some w => firstCommand s c w false true
      | none => s
    doPrecharge s c r b
  | .activate w r b row => doActivate (firstCommand s c w false false) c r b row
  | .read id r b => doRead s c id r b
  | .write m r b => doWrite s c m r b
  | .refresh r => doRefresh s c r
  | .neighbour r b => doNeighbour s c r b
  | .initUnit u => doInit s c u

/-- Start and end of drain batches (R252); M7 Drain empties the queue. -/
def drainUpdate (s : State) (c : Nat) : State :=
  let x := chan s c
  let w := x.wrq.length
  let hi := min 56 (getFld s (mcBase c + 0x44) 0 6)
  let lo := getFld s (mcBase c + 0x44) 8 6
  let lo := if hi ≤ lo then hi - 1 else lo
  if x.drain then
    if w ≤ lo ∧ rdqTaken x ≠ 0 ∧ (curMode s ≠ 7 ∨ w = 0) then setChan s c { x with drain := false } else s
  else if w ≠ 0 ∧ (hi ≤ w ∨ rdqTaken x = 0 ∨ curMode s = 7) then
    pmuEvent (setChan s c { x with drain := true }) (8 + c) 0x11
  else s

/-- The channel takes commands. -/
def chanLive (s : State) (c : Nat) : Bool := running s && chanActive s c && !(chan s c).selfRef

/-- The reads that DRAM need not serve leave the queue, and what waited for their room goes on (R248). -/
def serveQueued (s : State) (c : Nat) : State :=
  let t := serveReads s c
  if (chan t c).rdq.length < (chan s c).rdq.length then pumpChan t c else t

/-- In M10 a channel whose write queue is empty has its engine write its caches back (Table 15.8). -/
def safeFlush (s : State) (c : Nat) : State :=
  if inSafe s && (chan s c).wrq.isEmpty then flushCaches s (engineOf s c) else s

/-- SCHEDULER_DECISION: reads that DRAM need not serve are served, the drain batch is judged, and the command that Table 10.3
puts first issues. -/
def schedulerEffect (s : State) (c : Nat) : State :=
  if !chanLive s c then s
  else
    let s := safeFlush (drainUpdate (serveQueued s c) c) c
    match bestCand (schedCands s c) with
    | some k => issue s c k
    | none => s

/-- The meaning of SCHEDULER_DECISION. -/
def execSchedulerDecision (c : ChanId) (s : State) : Host.Outcome State Fault Refusal := guarded s (schedulerEffect s c)

-- the timers of a channel

/-- COMMAND_SLOT: a slot begins; a reserved one serves one first command of a Deadline read (R308, R309). -/
def commandSlotEffect (s : State) (c : Nat) : State :=
  if chanLive s c ∧ (chan s c).slotDue ≤ s.tick then
    setChan s c { chan s c with slotOpen := inReserved s c, slotDue := s.tick / 8 * 8 + 8 }
  else s

/-- The meaning of COMMAND_SLOT. -/
def execCommandSlot (c : ChanId) (s : State) : Host.Outcome State Fault Refusal := guarded s (commandSlotEffect s c)

/-- REFRESH_INTERVAL: an interval of rank `r` elapses and one more refresh is owed (R257). -/
def refreshIntervalEffect (s : State) (c r : Nat) : State :=
  let f := refreshAt (chan s c) r
  if chanLive s c ∧ r < (ranksOf s c).length ∧ f.nextDue ≤ nowPs s then
    setRefresh s c r { f with owed := f.owed + 1, nextDue := f.nextDue + refInterval s c }
  else s

/-- The meaning of REFRESH_INTERVAL. -/
def execRefreshInterval (c : ChanId) (rank : Fin 2) (s : State) : Host.Outcome State Fault Refusal :=
  guarded s (refreshIntervalEffect s c rank)

/-- ROW_IDLE_TIMEOUT: the row is precharged when no queued request targets it (R254). -/
def rowIdleEffect (s : State) (c r b : Nat) : State :=
  let k := bankAt (chan s c) r b
  if chanLive s c ∧ k.row.isSome ∧ k.idleDue ≤ nowPs s ∧ k.preAt ≤ nowPs s ∧ !rowTargeted s c r b then
    doPrecharge (countReserved s c) c r b
  else s

/-- The meaning of ROW_IDLE_TIMEOUT. -/
def execRowIdleTimeout (c : ChanId) (rank : Fin 2) (bank : Fin 16) (s : State) : Host.Outcome State Fault Refusal :=
  guarded s (rowIdleEffect s c rank bank)

/-- MR4_READ: the refresh rate that a rank reports; the channel runs at the highest (R258). -/
def mr4Effect (s : State) (c r : Nat) (mult : BitVec 2) (out : Bool) : State :=
  let f := refreshAt (chan s c) r
  if chanLive s c ∧ r < (ranksOf s c).length ∧ f.mr4Due ≤ s.tick then
    let m := if out then 2 else if mult = 3 then 2 else mult
    let s := setRefresh s c r { f with mr4Due := s.tick + 4000000, multAt := m }
    let top := (ranksOf s c).foldl (fun a k => max a (refreshAt (chan s c) k).multAt.toNat) 0
    let s := setFld s (mcBase c + 0x48) 5 2 top
    if out then report s (8 + c) 6 else s
  else s

/-- The meaning of MR4_READ. -/
def execMr4Read (c : ChanId) (rank : Fin 2) (mult : BitVec 2) (outOfRange : Bool) (s : State) :
    Host.Outcome State Fault Refusal :=
  guarded s (mr4Effect s c rank mult outOfRange)

/-- ZQ_LATCH: a latch is due and goes with the next refresh of the rank (R259). -/
def zqEffect (s : State) (c r : Nat) : State :=
  let f := refreshAt (chan s c) r
  if chanLive s c ∧ r < (ranksOf s c).length ∧ f.zqDue ≤ s.tick then
    setRefresh s c r { f with zqPend := true, zqDue := s.tick + 32000000 }
  else s

/-- The meaning of ZQ_LATCH. -/
def execZqLatch (c : ChanId) (rank : Fin 2) (s : State) : Host.Outcome State Fault Refusal := guarded s (zqEffect s c rank)

/-- DQS_OSCILLATOR_READ: a readout is due and goes with the next refresh; its count sets the write DQ delays (R259). -/
def dqsEffect (s : State) (c r : Nat) (count : BitVec 16) : State :=
  let f := refreshAt (chan s c) r
  if chanLive s c ∧ r < (ranksOf s c).length ∧ f.oscDue ≤ s.tick then
    setRefresh s c r { f with oscPend := true, oscNew := count, oscDue := s.tick + 4000000 }
  else s

/-- The meaning of DQS_OSCILLATOR_READ. -/
def execDqsOscillatorRead (c : ChanId) (rank : Fin 2) (count : BitVec 16) (s : State) : Host.Outcome State Fault Refusal :=
  guarded s (dqsEffect s c rank count)

-- the scrub (R267)

/-- READY_FULL stands and the scrub is enabled; in M10 it is paused (R267, Table 15.8). -/
def scrubOn (s : State) (c : Nat) : Bool := getBit s 0x14 2 && getBit s (mcBase c + 0x68) 16 && !inSafe s

/-- A read of the scrub. -/
def scrubRead (s : State) (m : Nat) (use : ReadFor) : RdReq :=
  { id := 0, m := m, use := use, src := 0, prio := 0, dl := false, arrival := s.tick, first := true,
    issued := false, overtaken := false }

/-- The four check lines and 28 data lines of a row unit are to be read. -/
def pushScrub (s : State) (c u : Nat) : State :=
  let s := forEach 4 s (fun s k => pushRead s c (scrubRead s (28 * u + 7 * k) (.check k)))
  forEach 28 s (fun s i => pushRead s c (scrubRead s (28 * u + i) .scrub))

/-- SCRUB_INTERVAL: the next row unit is scrubbed; one left unscrubbed for a whole interval gains urgency 3. -/
def scrubEffect (s : State) (c : Nat) : State :=
  let x := chan s c
  let b := mcBase c
  if !(chanLive s c && scrubOn s c && decide (x.scrubDue ≤ s.tick)) then s
  else
    let s := setChan s c { x with scrubDue := s.tick + max 1 (getFld s (b + 0x68) 0 16) * 1000 }
    if x.rdq.any (fun r => isScrubRead r.use) then setChan s c { chan s c with scrubUrgent := true }
    else
      let u := getFld s (b + 0x6C) 0 23
      let s := pushScrub (setChan s c { chan s c with scrubUrgent := false }) c u
      if u + 1 < rowUnits s c then setFld s (b + 0x6C) 0 23 (u + 1)
      else setFld (setFld s (b + 0x6C) 0 23 0) (b + 0x6C) 24 8 (getFld s (b + 0x6C) 24 8 + 1)

/-- The meaning of SCRUB_INTERVAL. -/
def execScrubInterval (c : ChanId) (s : State) : Host.Outcome State Fault Refusal := guarded s (scrubEffect s c)

end Sys2Proof.Machine
end

