-- ==== Sys2Proof/Machine/Deadline.lean ====
section
/-! DEFINITION. Slot tables and budgets (R303, R304, R311 to R313): their checks, their install through the shadow, and the
epoch boundary. -/

namespace Sys2Proof.Machine

-- the check of a table (R311); times in picoseconds

/-- Longest distance between the starts of two cyclically consecutive reserved slots. -/
def longestGap (t : SlotTable) : Nat :=
  let gap := fun (i : Nat) => ((List.range 125).find? (fun d => t.slots.getLsbD ((i + d + 1) % 125))).getD 124 + 1
  ((List.range 125).filter (fun i => t.slots.getLsbD i)).foldl (fun a i => max a (gap i)) 0 * 8000

/-- Reserved slots of a table. -/
def slotCount (t : SlotTable) : Nat := ((List.range 125).filter (fun i => t.slots.getLsbD i)).length

/-- Largest SNP_RESP_NS over enabled caching ports; 0 acts as 1 (R311, Table 12.11). -/
def snpResp (s : State) : Nat :=
  (cachingAgents s).foldl (fun a n => max a (max 1 (getFld s (dlBase n) 8 8))) 0

/-- The bounds of R311: plain, branch, sealed, fresh, write. -/
structure Bounds where
  plain : Nat
  branch : Nat
  sealRead : Nat
  fresh : Nat
  write : Nat
  deriving DecidableEq, Repr

/-- The bounds of channel `c` under table `t`, in mode M6 or not, by the procedure of R311. -/
def boundsOf (s : State) (c : Nat) (t : SlotTable) (m6 : Bool) : Bounds :=
  let ck := ckPs s c
  let tim := timPs s c
  let g := longestGap t
  let nb := if getBit s (mcBase c) 7 && !getBit s (mcBase c + 0x4C) 5 then tim 2 16 10 else 4 * (tim 1 0 8 + tim 0 24 8)
  let rel := tim 0 8 8 + 4 * ck + tim 2 0 8 + tim 0 24 8
  let rf := (if allBankForm s c then tim 3 0 10 else tim 2 16 10) + 2000
  let front := max (nb + t.limit * g + 8000) (max (rel + t.limit * g + 8000) (rf + (t.limit - 1) * g + 8000))
  let b := 4 * ck
  let ai := if m6 then 1100 else 0
  let ao := if m6 then 1040 else 0
  let w := 49880 + 1000 + snpResp s * 1000 + 3270 + 49880 + 540
  let hold := (getFld s (slcBase (c / 2) + 0x300) 0 8 + 2) * 1000
  let flight := getFld s (mcBase c + 0x20) 0 12
  let plain := 63420 + ai + front + tim 0 16 8 + tim 0 0 8 + b + flight + b + 1900 + ao + 54730
  { plain := plain,
    branch := 63420 + ai + hold + 2 * w + 5400 + 54730,
    sealRead := plain + 1350 + 2 * b + 5400,
    fresh := plain + 1350 + 2 * b + max (4 * b) (tim 1 16 8 + tim 1 8 8 - 2 * b) + 14700,
    write := 63420 + ai + hold + w + 1350 + 49880 + 1000 }

/-- R311 refuses the table. -/
def tableTooSlow (b : Bounds) : Bool := decide (500000 < max b.plain b.branch)

/-- MC_DL_STATUS that an install of table `t` brings: RESERVED, L (0 where the plain read no longer meets its bound), the
three class bits, and BOUND_NS. -/
def dlStatusOf (t : SlotTable) (b : Bounds) (active : Bool) : Word :=
  let top := max b.plain b.branch
  let l := if tableTooSlow b || !active then 0 else t.limit
  BitVec.ofNat 32 (slotCount t % 64 + 2 ^ 6 * (l % 8) + 2 ^ 9 * b2n (decide (max b.sealRead b.branch ≤ 500000))
    + 2 ^ 10 * b2n (decide (max b.fresh b.branch ≤ 600000)) + 2 ^ 11 * b2n (decide (b.write ≤ 400000))
    + 2 ^ 16 * (min ((top + 999) / 1000) 2047))

/-- The table mode whose tables mode `m` uses: M9 those of M3 (R407). -/
def tableMode (m : Nat) : Nat := if m = 9 then 3 else m

/-- The stored table of channel `c` for mode `m`. -/
def storedTable (s : State) (c m : Nat) : SlotTable :=
  let i := tableMode m - 3
  if h : i < 4 then (chan s c).tables[i] else defaultTable 16

-- budgets

/-- A stored budget word with RATE 0 and DEPTH 1. -/
def noBudget : Nat → Word := fun _ => 0x100

/-- Key of the stored budget of source `src` in slice `k` for mode `m`. -/
def budgetKey (m k src : Nat) : Nat := ((tableMode m - 3) * 8 + k) * 24 + src

/-- The stored budget: RATE in bits 7:0 and DEPTH in bits 15:8. -/
def storedBudget (s : State) (m k src : Nat) : Word := cellsGet noBudget s.seq.budgets (budgetKey m k src)

/-- Channels that slice `k` serves in mode `m`: its own two, in M6 those of its pair (R311, R243). -/
def servedChans (s : State) (m k : Nat) : List Nat :=
  (List.range 16).filter (fun c => slicePop s (c / 2) && (if m == 6 then c / 4 == k / 2 else c / 2 == k))

/-- The sum of RATE over sources. -/
def rateSum (f : Nat → Word) : Nat := ((List.range 24).map (fun i => bitsOf (f i) 0 8)).sum

-- installs

/-- The MC_DL_STATUS that the checks of R311 give channel `c` with table `t` of mode `m`. -/
def checkedStatus (s : State) (c : Nat) (t : SlotTable) (m : Nat) : Word :=
  dlStatusOf t (boundsOf s c t (m == 6)) (chanActive s c)

/-- The tables and budgets of mode `m` go to the shadows; they swap at the next epoch boundary (R312, R313). -/
def installMode (s : State) (m : Nat) : State :=
  let s := forEach 16 s (fun s c =>
    if slicePop s (c / 2) then
      let t := storedTable s c m
      setChan s c { chan s c with shadow := some (t, m, checkedStatus s c t m) }
    else s)
  let l := (List.range 8).flatMap (fun k => (List.range 24).map (fun i => (k * 24 + i, storedBudget s m k i)))
  { s with seq := { s.seq with swapBudget := l, swapDue := some (s.tick / 1000 * 1000 + 1000) } }

/-- A swap is pending (R313). -/
def swapPending (s : State) : Bool := s.seq.swapDue.isSome || (List.range 16).any (fun c => (chan s c).shadow.isSome)

/-- The active table and its status of channel `c`. -/
def writeTable (s : State) (c : Nat) (t : SlotTable) (w : Word) : State :=
  let b := mcBase c
  let s := forEach 4 s (fun s i => setReg s (b + 0x84 + 4 * i) (BitVec.ofNat 32 (t.slots.toNat / 2 ^ (32 * i))))
  let s := setChan s c { chan s c with limit := t.limit, shadow := none }
  setReg s (b + 0x80) (if chanActive s c then w else bitsTo w 6 3 0)

/-- A new budget of a source in a slice: TOKENS is cut to DEPTH, and to 0 with RATE 0 (R303). -/
def writeBudget (s : State) (k src : Nat) (w : Word) : State :=
  let r := budgetReg k (BitVec.ofNat 5 src)
  let rate := bitsOf w 0 8
  let depth := bitsOf w 8 8
  let tokens := if rate = 0 then 0 else min depth (getFld s r 16 8)
  setReg s r (BitVec.ofNat 32 (rate + 2 ^ 8 * depth + 2 ^ 16 * tokens))

/-- A port that has come to hold a Deadline budget is granted its `REQ` Deadline-VC credits; one that has lost it keeps
those the agent holds (R92, R304). -/
def budgetCredits (before : List Nat) (s : State) (n : Nat) : State :=
  if portHolds s n ∧ !before.contains n ∧ readyLink s ∧ portEnabled s n ∧ !(port s n).resetLow then
    setPort s n { port s n with inCred := vecSet (port s n).inCred 3 8 }
  else s

/-- The pending swap: every shadow takes effect together (R313, Table 12.4). -/
def swapTables (s : State) : State :=
  let before := (List.range 24).filter (portHolds s)
  let s := forEach 16 s (fun s c =>
    match (chan s c).shadow with
    | some (t, _, w) => writeTable s c t w
    | none => s)
  let s := s.seq.swapBudget.foldl (fun s p => writeBudget s (p.1 / 24) (p.1 % 24) p.2) s
  let s := { s with seq := { s.seq with swapBudget := [], swapDue := none } }
  forEach 24 s (budgetCredits before)

/-- Every bucket becomes min(DEPTH, TOKENS + RATE) (R303). -/
def refillBuckets (s : State) : State :=
  forEach 8 s (fun s k =>
    if slicePwr s k then
      forEach 24 s (fun s i =>
        let r := budgetReg k (BitVec.ofNat 5 i)
        let v := min (getFld s r 8 8) (getFld s r 16 8 + getFld s r 0 8)
        if v = getFld s r 16 8 then s else setFld s r 16 8 v)
    else s)

/-- EPOCH_BOUNDARY: the next tick multiple of 1,000 has come; a pending swap takes effect and the buckets refill. Each
boundary expires once, and none while the timebase stands (R60, R62). -/
def epochEffect (s : State) : State :=
  let b := s.seq.epochDue
  if running s ∧ s.pins.tbRun ∧ b ≤ s.tick then
    let s := { s with seq := { s.seq with epochDue := b + 1000 } }
    let s := match s.seq.swapDue with
      | some d => if d ≤ b then swapTables s else s
      | none => s
    refillBuckets s
  else s

/-- The meaning of EPOCH_BOUNDARY. -/
def execEpochBoundary (s : State) : Host.Outcome State Fault Refusal := guarded s (epochEffect s)

/-- The table in use of channel `c`, as MC_DL_TABLE shows it, with its limit. -/
def activeTable (s : State) (c : Nat) : SlotTable :=
  let w := fun i => (getReg s (mcBase c + 0x84 + 4 * i)).toNat * 2 ^ (32 * i)
  ⟨BitVec.ofNat 125 (w 0 + w 1 + w 2 + w 3), (chan s c).limit⟩

/-- After a training of channel `c` the checks run again, for the table in use in mode `m` and for one that waits in the
shadow: L is 0 where the plain read no longer meets its bound (R311). -/
def recheckTable (s : State) (c m : Nat) : State :=
  let s := if tableInUse s c then setReg s (mcBase c + 0x80) (checkedStatus s c (activeTable s c) m) else s
  match (chan s c).shadow with
  | some (t, k, _) => setChan s c { chan s c with shadow := some (t, k, checkedStatus s c t k) }
  | none => s

end Sys2Proof.Machine
end

