-- ==== Sys2Proof/Machine/Modes.lean ====
section
/-! DEFINITION. Shared work of the operating modes (chapter 16): settings and tables of a mode, entering a mode, draining,
back-invalidation by the sequencer, the start of initialisation, and the running command. -/

namespace Sys2Proof.Machine

-- the running command

/-- OPCODE of the running long command. -/
def cmdOp (s : State) : Option Nat := s.seq.run.map (fun r => bitsOf r.hdr 0 8)

/-- Parameter word `i` of a packet, W1 being 1. -/
def paramOf (l : List Word) (i : Nat) : Word := l.getD (i - 1) 0

/-- Change the running command. -/
def mapRun (s : State) (f : RunCmd → RunCmd) : State := { s with seq := { s.seq with run := s.seq.run.map f } }

/-- The command waits on traffic: its timer runs, with the time it has left (R453). -/
def waitCmd (s : State) : State :=
  mapRun s (fun r => match r.timer with
    | some _ => r
    | none => { r with timer := some (s.tick + r.tmo) })

/-- The command does not wait on traffic: its timer is paused (R453). -/
def pauseCmd (s : State) : State :=
  mapRun s (fun r => match r.timer with
    | some d => { r with timer := none, tmo := d - s.tick }
    | none => r)

/-- The command reaches phase `k`. -/
def setPhase (s : State) (k : Nat) : State := mapRun s (fun r => { r with phase := k })

/-- Replace the transition under way. -/
def setTrans (s : State) (t : Option Trans) : State := { s with seq := { s.seq with trans := t } }

-- settings and entry of a mode

/-- Table 10.4 for a mode: IDLE_NS, HIT_LIMIT, HI, LO, FORM, POSTPONE; M9 uses those of M3 (R407). -/
def modeSettings (m : Nat) : Nat × Nat × Nat × Nat × Nat × Nat :=
  match tableMode m with
  | 4 => (0, 4, 24, 8, 0, 0)
  | 5 => (1024, 16, 56, 8, 1, 8)
  | _ => (64, 16, 40, 16, 0, 4)

/-- MC_PAGE, MC_WQ and MC_REF of every channel take the settings of mode `m` (R255). -/
def loadSettings (s : State) (m : Nat) : State :=
  let (idle, hit, hi, lo, form, post) := modeSettings m
  forEach 16 s (fun s c =>
    if slicePop s (c / 2) then
      let b := mcBase c
      let s := setFld (setFld s (b + 0x40) 0 11 idle) (b + 0x40) 16 5 hit
      let s := setFld (setFld s (b + 0x44) 0 6 hi) (b + 0x44) 8 6 lo
      setFld (setFld s (b + 0x48) 0 1 form) (b + 0x48) 1 4 post
    else s)

/-- Initialisation of channel `c` runs. -/
def initRuns (s : State) (c : Nat) : Bool := getBit s (mcBase c + 0xA0) 24

/-- Every rank in service leaves self-refresh (R403). -/
def wakeAll (s : State) : State := forEach 16 s (fun s c => if chanActive s c then wakeChan s c else s)

/-- Every rank enters self-refresh, those of channels out of service among them; a channel that is being initialised enters it
at the end of that (R269). -/
def sleepAll (s : State) : State :=
  forEach 16 s (fun s c => if slicePop s (c / 2) && !initRuns s c then sleepChan s c else s)

/-- What entering run mode `m` loads: the channels wake, settings are loaded, tables go to the shadows (R255, R312). -/
def loadMode (s : State) (m : Nat) : State := installMode (loadSettings (wakeAll s) m) m

/-- CUR becomes `m`, the transition ends (R460); in M2 the ranks sleep. -/
def reachMode (s : State) (m : Nat) : State :=
  let s := setTrans (enterMode s m) none
  if m = 2 then sleepAll s else s

/-- CUR becomes run mode `m` with its settings and tables loaded, or another mode. -/
def arriveMode (s : State) (m : Nat) : State := reachMode (if runMode m then loadMode s m else s) m

-- initialisation (R246, R394)

/-- MC_MAP and MC_BASE take effect, and the window has the size of the populated channels (R246, R244). -/
def loadDecode (s : State) : State :=
  let map := getFld s 0x240000 0 7
  let base := getFld s 0x240008 30 2 + 4 * getFld s 0x24000C 0 16
  let s := setReg s 0x240004 (BitVec.ofNat 32 (map + 2 ^ 8 * base))
  let l := popChans s
  let c := (l.find? (chanActive s)).getD (l.headD 0)
  setReg s 0x240010 (BitVec.ofNat 32 (l.length * rowUnits s c * 28 * 64 / 2 ^ 26))

/-- What is listed of channel `c` in DRAM and in the caches of its engine goes: a channel being initialised reads as
zero until it is written (R394). -/
def clearChan (s : State) (c : Nat) : State :=
  let lo := dramKey c 0 0
  let hi := dramKey (c + 1) 0 0
  let s := { s with dram := cellsDrop (fun k => decide (lo ≤ k) && decide (k < hi)) s.dram }
  let s := setChan s c { chan s c with lost := [], toSeal := [] }
  forEach 8 s (fun s n =>
    let x := slice s n
    setSlice s n { x with cc := x.cc.filter (·.chan != c), ctc := x.ctc.filter (·.chan != c) })

/-- Background initialisation of channel `c` starts at row unit 0. -/
def startInit (s : State) (c : Nat) : State :=
  let s := clearChan s c
  let s := setReg s (mcBase c + 0xA0) (BitVec.ofNat 32 (2 ^ 24))
  wakeChan (setChan s c { chan s c with early := [] }) c

/-- Initialisation of every active channel starts; READY_FULL clears until it ends (R393). -/
def startInitAll (s : State) : State :=
  let s := setBit s 0x14 2 false
  checkReadyFull (forEach 16 s (fun s c => if chanActive s c then startInit s c else s))

-- back-invalidation by the sequencer (R159)

/-- Line of way key `k` of slice `n`. -/
def lineOfKey (s : State) (n k : Nat) (e : FEntry) : Nat := lineOfEntry s n (k / 12) e.tag

/-- The sequencer ends one entry: a walk entry is discarded, a lost one tries its marking write, a holder entry that is
not busy moves to a victim slot when one is free, with PRIO 0, on the other VC (R159; DESIGN CHOICE, assumption 86). -/
def endWay (s : State) (n k : Nat) : State :=
  let st := k / 12
  let w := k % 12
  let e := wayAt s n st w
  if isFree e then s
  else if e.lost then retryMark s n st w
  else if wayBusy s n st w then s
  else if isWalk e then wayWrite s n st w freeEntry
  else match freeVictimSlot s n (st % 4) false with
  | some slot => moveVictim s n st w slot 0
  | none => s

/-- The sequencer back-invalidates the entries of slice `n` that `sel` picks by line, as far as slots are free. -/
def endWays (s : State) (n : Nat) (sel : Nat → Bool) : State :=
  (slice s n).filter.foldl (fun s c => if sel (lineOfKey s n c.1 c.2) then endWay s n c.1 else s) s

/-- Slice `n` holds an entry, a victim or a reclamation of a line that `sel` picks. -/
def holdsLines (s : State) (n : Nat) (sel : Nat → Bool) : Bool :=
  let x := slice s n
  x.filter.any (fun c => sel (lineOfKey s n c.1 c.2)) || x.victims.any (fun v => sel v.line)
    || x.reclaims.any (fun r => sel r.line) || x.marking.any (fun m => sel m.2)

/-- An active transaction, or a notice in a lane, of a line that `sel` picks. -/
def worksOn (s : State) (n : Nat) (sel : Nat → Bool) : Bool :=
  let x := slice s n
  x.entries.any (fun e => isActive e && sel e.line) || x.lanes.any (fun t => sel t.line)

-- drain (R401)

/-- No active transaction in a powered slice. -/
def noActive (s : State) : Bool := (List.range 8).all (fun n => !(slice s n).entries.any isActive)

/-- Every write queue is empty, with every merge read done. -/
def queuesEmpty (s : State) : Bool := (List.range 16).all (fun c => (chan s c).wrq.isEmpty)

/-- R366: every mirrored line has reached the twin port; on a Lead with the link usable, everything is sent, what is held
confirmed, and a heartbeat has followed. -/
def mirrorDrained (s : State) : Bool :=
  (mirrorOnWay s).isEmpty
    && (twinRole s != 1 || !linkUsable s || (mirrorDepth s == 0 && (syncOpen s).isEmpty && s.mirror.beatAfter))

/-- R344: the link is down, no line request is open, no tag is outstanding or quarantined. -/
def twinQuiet (s : State) : Bool :=
  !s.twin.up && s.twin.txns.isEmpty && s.twin.rdTags.isEmpty && s.twin.quar.isEmpty

/-- Every read queue is empty (Table 10.6, step 1). -/
def readsEmpty (s : State) : Bool := (List.range 16).all (fun c => (chan s c).rdq.isEmpty)

/-- The further conditions of a Drain to M8 or M11. -/
def fullyDrained (s : State) : Bool :=
  (List.range 8).all (fun n =>
    let x := slice s n
    x.filter.isEmpty && x.victims.isEmpty && x.reclaims.isEmpty && x.entries.isEmpty && x.retry.isEmpty && x.lanes.isEmpty
      && x.xslots.isEmpty && x.marking.isEmpty)
    && (List.range 24).all (fun n => (port s n).txns.isEmpty) && twinQuiet s

/-- The Drain does what is left of it: back-invalidation for M8 and M11, the mirror lines of a link that cannot be used. -/
def drainWork (s : State) (target : Nat) : State :=
  let s := if target = 2 then s else forEach 8 s (fun s n => if slicePwr s n then endWays s n (fun _ => true) else s)
  if twinRole s = 1 ∧ !linkUsable s then pumpAll (mirrorDiscard s false) else s

/-- The Drain for `target` is complete, but for the caches, which are written back then, as far as R394 lets them. -/
def drained (s : State) (target : Nat) : Bool :=
  noActive s && queuesEmpty s && mirrorDrained s && (target == 2 || fullyDrained s) && (target != 8 || readsEmpty s)

/-- Every engine writes its caches back (R14). -/
def flushAll (s : State) : State := forEach 8 s flushCaches

/-- M7 is entered at once with its target (Table 16.2); ranks that slept in M2 wake, so that the write queues can empty (R252,
R403). -/
def startDrain (s : State) (target : Nat) : State :=
  let t : Trans := ⟨BitVec.ofNat 4 (curMode s), BitVec.ofNat 4 target, 0⟩
  waitCmd (setTrans (startTransit (wakeAll (enterMode s 7)) target) (some t))

/-- A Drain is abandoned: the block is in the mode it left (R402). -/
def abandonDrain (s : State) : State :=
  match s.seq.trans with
  | some t => arriveMode s t.source.toNat
  | none => s

/-- M11 is entered; it ends in M2. -/
def startWipe (s : State) : State :=
  let s := { s with seq := { s.seq with wipeCut := false } }
  pauseCmd (setTrans (startTransit (wakeAll (enterMode s 11)) 2) none)

-- Retention (R404, R405)

/-- The PHY keepers hold `MEMc_CS` low and `MEMc_RESET_N` high, so that the devices stay in self-refresh (R43). Elsewhere
`MEMc_CS` is part of the DRAM commands, each of which is one step. -/
def keepersHold (s : State) : Bool := curMode s == 8

/-- Registers that Retention keeps whole: those of the always-on domain, the straps, SPN_SUCC, the power and fence bits, dead
agents, trained settings and watermarks (R269), the decode in use, the region table and open realms (R288), role and mirror
windows (R349, R366). -/
def retainedWhole (a : Nat) : Bool :=
  regAon a || a == 0x48 || a == 0x300004 || a == 0x300008 || a == 0x30000C || a == 0x300300
    || (decide (0x200000 ≤ a) && decide (a < 0x240000)
        && (a % 0x4000 == 0 || (decide (0x10 ≤ a % 0x4000) && decide (a % 0x4000 ≤ 0x20)) || a % 0x4000 == 0xA0))
    || a == 0x240004 || a == 0x240010 || (decide (0x360000 ≤ a) && decide (a < 0x36040C))
    || a == 0x310060 || (decide (0x310074 ≤ a) && decide (a < 0x310084))
    || (decide (0x310300 ≤ a) && decide (a < 0x310400))

/-- The bits of register `a` that Retention keeps: every RW, RWL and LOCK bit, and those kept whole; of MC_CFG all but ACTIVE,
which step 10 of Table 10.6 sets; of GLB_BOUNDARY the lifecycle state (R50), of SPN_PORT_STATUS the fence (R405). -/
def retainedMask (a : Nat) : Word :=
  if decide (0x200000 ≤ a) && decide (a < 0x240000) && a % 0x4000 == 0 then 0xFFFFFEFF
  else if retainedWhole a then BitVec.allOnes 32
  else if a = 0x44 then 0x00070008
  else if 0x302000 ≤ a ∧ a < 0x302600 ∧ a % 64 = 0x10 then 1
  else match regDesc a with
  | some d => d.rw ||| d.rwl ||| d.w1s
  | none => 0

/-- The registers as Retention leaves them. -/
def retainRegs (l : Cells Word) : Cells Word :=
  l.filterMap (fun c =>
    let m := retainedMask c.1
    let v := (c.2 &&& m) ||| (regReset c.1 &&& ~~~m)
    if v = regReset c.1 then none else some (c.1, v))

/-- A channel as Retention leaves it: its ranks in self-refresh, its tables stored, its initialisation and the write DQ delays
of its trained settings as they stood (R259); `active` tells whether it was in service. -/
def retainChan (active : Bool) (x : Chan) : Chan :=
  { freshChan with tables := x.tables, selfRef := true, early := x.early, lost := x.lost, toSeal := x.toSeal, kept := active,
                   refresh := x.refresh.map (fun f => { freshRefresh with osc := f.osc }) }

/-- Periods of `AON_CLK` since the calendar's last second began, which the timebase has measured; a free number below 32,768
where no second has begun since the timebase locked (R59; assumption 51). -/
def secondPhase (s : State) : Nat × State :=
  match s.aon.secAt with
  | some t => (min 32767 ((s.tick - t) * 32768 / 1000000000), s)
  | none =>
    let (f, s) := takeFree s
    (f.toNat % 32768, s)

/-- Every channel as Retention leaves it. -/
def retainChans (s : State) : Vector Chan 16 := Vector.ofFn (fun c : Fin 16 => retainChan (chanActive s c) s.chans[c])

/-- A port as Retention leaves it: its fence and the level of its reset input. -/
def retainPort (p : Port) : Port :=
  { freshPort with fenced := p.fenced, dead := p.dead, resetLow := p.resetLow }

/-- Steps 1 to 5 of Table 10.6 and M8: what the always-on domain keeps stays, everything else returns to reset. -/
def enterRetention (s : State) : State :=
  let fault := faultN s
  let (phase, s) := secondPhase s
  let s := forEach 16 s (fun s w => if mwEn s w then mwMove s w 3 else s)
  let s := forEach 16 s (fun s c => if (chan s c).selfRef then s else issuePending s c)
  let s := setTrans (enterMode s 8) none
  { s with
    regs := retainRegs s.regs,
    ports := s.ports.map retainPort, spine := freshSpine, slices := s.slices.map (fun x => { freshSlice with nodeBad := x.nodeBad }),
    chans := retainChans s, faults := freshFaults,
    mirror := { freshMirror with dirty := s.mirror.dirty, lossBroken := s.mirror.lossBroken },
    twin := { freshTwin with perstLow := s.twin.perstLow },
    seq := { freshSeq with budgets := s.seq.budgets }, obs := freshObs,
    aon := { s.aon with tickSaved := s.tick, calSaved := s.aon.calendar, phaseSaved := phase },
    pins := { s.pins with heldFaultN := fault, heldSafe := false, live := false, cpAck := false, cpErr := false, keyAck := false, keyErr := false, cpRdata := 0,
                          keys := Vector.replicate 2 none, keyPart := Vector.replicate 2 [], pwrEn := false,
                          tbRun := false, tempDue := none, hotSince := none, tbHi := 0 } }

-- the twin port's domain

/-- The windows, shadow and active, and TWN_W_STATUS with OVERLAP are reset (Table 13.13). -/
def resetWindows (s : State) : State := setReg (resetRegs s 0x310100 0x310300) 0x31001C 0

/-- The twin port's domain is switched on: its own state is new, the fence is clear, and a `PERST_N` that is low resets the
windows (R341, R344). -/
def twinOn (s : State) : State :=
  let t := { s.twin with latched := getReg s 0x310000, cfg := [], msix := [], inbox := [] }
  let s := setBit (setBit { s with twin := t } 0x300004 12 true) 0x300008 8 false
  if s.twin.perstLow then resetWindows s else s

-- Wipe (Table 16.6)

/-- Generation of realm `r` rises by 1, saturating (R290). -/
def bumpGeneration (s : State) (r : Nat) : State := satAdd s (0x360500 + 4 * r) 0 16 1

/-- The region table returns to the state of R284 and every realm closes. -/
def resetRegions (s : State) : State := resetRegs s 0x360000 0x36040C

/-- A slice after a Wipe: its arrays and caches are clear; what serves translation and reclamation goes on, and the requests
that came in M11 wait on (R400; DEDUCED, assumption 73). -/
def wipeSlice (x : Slice) : Slice :=
  { freshSlice with
    entries := x.entries, lanes := x.lanes, retry := x.retry, retryLast := x.retryLast, nextOrder := x.nextOrder,
    inbox := x.inbox, xslots := x.xslots, xdone := x.xdone, xsince := x.xsince, watches := x.watches, scan := x.scan,
    scanPos := x.scanPos, scrubDue := x.scrubDue, away := x.away, leaving := x.leaving }

/-- Mirroring after a Wipe: nothing queued, every granule clear. -/
def wipeMirror (m : Mirror) : Mirror :=
  { m with
    queue := [], sent := [], waiting := [], flushOf := [], dirty := 0, copyGran := none, copyLines := [],
    copyNext := 0, lossBroken := 0 }

/-- Registers that hold an extreme and no count: the pace extremes and the worst pace (Tables 3.9, 3.11). -/
def isExtreme (a : Nat) : Bool :=
  a == 0x8C || (decide (0x100000 ≤ a) && decide (a < 0x180000) && a % 0x10000 == 0x108)
    || (decide (0x200000 ≤ a) && decide (a < 0x240000) && a % 0x4000 == 0x108) || (decide (0x300120 ≤ a) && decide (a < 0x300138))

/-- The registers with every count that a read clears at its reset value, and the overflow bits of the counters clear (Table
16.6; DEDUCED, assumption 99). -/
def clearCountRegs (l : Cells Word) : Cells Word :=
  l.filterMap (fun c =>
    let m := if isExtreme c.1 then 0
      else if 0x330000 ≤ c.1 ∧ c.1 < 0x331800 ∧ c.1 % 256 = 0x80 then BitVec.allOnes 32
      else ((regDesc c.1).map (·.rc)).getD 0
    let v := (c.2 &&& ~~~m) ||| (regReset c.1 &&& m)
    if v = regReset c.1 then none else some (c.1, v))

/-- The slot tables and budgets in use return to what a reset leaves, with nothing in a shadow (R312). -/
def resetTables (s : State) : State :=
  let s := forEach 8 s (fun s n => resetRegs s (slcBase n + 0x680) (slcBase n + 0x6E0))
  let s := forEach 16 s (fun s c =>
    setChan (resetRegs s (mcBase c + 0x80) (mcBase c + 0x94)) c { chan s c with
      tables := freshChan.tables, shadow := none, limit := freshChan.limit })
  { s with seq := { s.seq with budgets := [], swapBudget := [], swapDue := none } }

/-- Everything Table 16.6 lists is cleared. -/
def wipeState (s : State) : State :=
  let s := resetTables (forEach 64 (resetRegions s) bumpGeneration)
  let s := { s with regs := clearCountRegs s.regs, spine := { s.spine with probe := [] } }
  let s := resetRegs (resetRegs (resetWindows s) 0x310300 0x310400) 0x310060 0x310064
  let s := forEach 16 s (fun s c =>
    let s := setReg s (mcBase c + 0xA0) (BitVec.ofNat 32 (bitsOf (getReg s (mcBase c + 0xA0)) 0 24))
    let x := chan s c
    let s := if chanActive s c then setFld (setBit s (mcBase c + 0xA0) 24 false) (mcBase c + 0xA0) 0 24 (rowUnits s c) else s
    setChan s c { x with rdq := [], wrq := [], early := [], pending := 0, lost := [], toSeal := [] })
  { s with dram := [], slices := s.slices.map wipeSlice, mirror := wipeMirror s.mirror,
           aon := { s.aon with roots := [], wipePend := false },
           obs := { s.obs with counts := [], samples := [], storage := [], assembly := [], flushDue := none, dumpQ := [],
                               log := [], loss := 0 } }

/-- M2 with READY_MEM and READY_FULL set (R410). -/
def endWipe (s : State) : State := reachMode (setBit (setBit s 0x14 1 true) 0x14 2 true) 2

/-- WIPE_COMPLETE: every line has been written. An advance goes on with the fuse handshake (Table 16.8, step 4). -/
def wipeCompleteEffect (s : State) : State :=
  if curMode s = 11 ∧ !s.pins.lcAdvReq then
    let s := wipeState s
    match s.seq.lcTarget with
    | some t =>
      { s with pins := { s.pins with lcAdvReq := true, lcAdvTo := t },
               seq := { s.seq with lcDue := s.tick + 100000000, lcDone := false } }
    | none =>
      let s := endWipe s
      if cmdOp s = some 2 then finishCmd s stOk [2] else finishCmd s stOk []
  else s

/-- The meaning of WIPE_COMPLETE. -/
def execWipeComplete (s : State) : Host.Outcome State Fault Refusal := guarded s (wipeCompleteEffect s)

-- Drain

/-- The block enters the target of a complete Drain. -/
def drainEnd (s : State) (target : Nat) : State :=
  if target = 2 then
    let s := reachMode s 2
    finishCmd s stOk [2]
  else if target = 8 then enterRetention s
  else startWipe s

/-- DRAIN_COMPLETE: the Drain does what it can, and ends when its conditions hold, unless what it does puts the block in M10. -/
def drainCompleteEffect (s : State) : State :=
  if curMode s = 7 then
    match s.seq.trans with
    | some t =>
      let s := drainWork s t.target.toNat
      if drained s t.target.toNat then
        let s := flushAll s
        if curMode s ≠ 7 ∨ (List.range 8).any (metaDirty s) then s else drainEnd s t.target.toNat
      else s
    | none => s
  else s

/-- The meaning of DRAIN_COMPLETE. -/
def execDrainComplete (s : State) : Host.Outcome State Fault Refusal := guarded s (drainCompleteEffect s)

end Sys2Proof.Machine
end

