-- ==== Sys2Proof/Machine/Boundary.lean ====
section
/-! DEFINITION. The boundary (chapters 2 and 3): resets, supplies, clocks, the calendar, the temperature input, the
lifecycle fuses and the key port. -/

namespace Sys2Proof.Machine

-- resets

/-- Everything outside the always-on domain returns to its reset state, and the contents of DRAM are lost (Table 2.3,
R29). The levels of the inputs stay. -/
def coreReset (s : State) : State :=
  { s with
    regs := s.regs.filter (fun c => regAon c.1), tick := 0,
    ports := s.ports.map (fun p => { freshPort with resetLow := p.resetLow }),
    spine := freshSpine, slices := Vector.replicate 8 freshSlice, chans := Vector.replicate 16 freshChan, dram := [],
    faults := freshFaults, mirror := freshMirror, twin := { freshTwin with perstLow := s.twin.perstLow },
    seq := freshSeq, obs := freshObs, aon := { s.aon with roots := [], secAt := none },
    pins := { s.pins with live := false, fuseDue := 0, cpAck := false, cpErr := false, cpRdata := 0, keyAck := false,
                          keyErr := false, keys := Vector.replicate 2 none, keyPart := Vector.replicate 2 [],
                          lcAdvReq := false, lcAdvTo := 0, memResetN := false, pwrEn := false, tbRun := false,
                          calSeen := false, tempDue := none, hotSince := none, temp := 0, tbHi := 0 } }

/-- The block is in M0 (Table 16.2). -/
def toOff (s : State) : State := if curMode s = 0 then s else enterMode s 0

/-- A Wipe is writing. -/
def wiping (s : State) : Bool := curMode s == 11 && !s.pins.lcAdvReq

/-- RESET_ASSERT (R29, R30): the whole core is reset; a Wipe that it interrupts is recorded. -/
def resetAssertEffect (s : State) (brst : Bool) : State :=
  let s := if wiping s ∧ !s.undef then
      setBit { s with aon := { s.aon with wipePend := true } } 0x40 3 true
    else s
  let s := toOff (coreReset s)
  { s with pins := { s.pins with porstLow := s.pins.porstLow || !brst, brstLow := s.pins.brstLow || brst,
                                 heldFaultN := false, heldSafe := false } }

/-- The meaning of RESET_ASSERT. It acts in every state. -/
def execResetAssert (brst : Bool) (s : State) : Host.Outcome State Fault Refusal := resume s (resetAssertEffect s brst)

/-- The lifecycle state a fuse code stands for (R49). -/
def lcDecode (f : BitVec 16) : Option Nat :=
  if f = 0 then some 0 else if f = 0x000F then some 1 else if f = 0x00FF then some 2
  else if f = 0x0FFF then some 3 else if f = 0xFFFF then some 4 else none

/-- The fuse code of a lifecycle state. -/
def lcCode (n : Nat) : BitVec 16 := BitVec.ofNat 16 (2 ^ (4 * n) - 1)

/-- LC_VALID follows the last sample (Table 2.8). -/
def setLcValid (s : State) (f : BitVec 16) : State := setBit s 0x44 3 (lcDecode f).isSome

/-- The code `f` decides the lifecycle state in use; an invalid one acts as Retire and is reported (R49, R50). -/
def applyFuse (s : State) (f : BitVec 16) : State :=
  let s := { s with pins := { s.pins with fuse := f, fuseAt := f } }
  let s := setFld (setLcValid s f) 0x44 16 3 ((lcDecode f).getD 4)
  if (lcDecode f).isSome then s else report s 26 3

/-- The slice that takes the packets of the unpopulated slice `n`: the other of its pair, or the lowest populated
(R237). -/
def absentSucc (s : State) (n : Nat) : Nat :=
  let p := n / 2 * 2 + (1 - n % 2)
  if slicePop s p then p else (popSlices s).headD n

/-- Domains of the populated slices and of the twin port are on; unpopulated slices are fenced, with a successor (R42,
R237, R344). -/
def powerUp (s : State) : State :=
  let s := setFld s 0x300004 0 8 s.pins.straps.chPop.toNat
  let s := setBit s 0x300004 12 (getBit s 0x310000 9)
  let s := setBit s 0x300008 8 (!getBit s 0x310000 9)
  forEach 8 s (fun s n =>
    if slicePop s n then s else setBit (setFld s 0x30000C (4 * n) 3 (absentSucc s n)) 0x300008 n true)

/-- The start of M1 at a release (Table 2.4 step 3): straps and fuses are sampled. -/
def startCold (s : State) (straps : Straps) (fuse : BitVec 16) : State :=
  let s := { s with pins := { s.pins with straps := straps } }
  let s := setReg s 0x48 (straps.chPop ++ straps.portEn)
  let s := powerUp (enterMode s 1)
  let s := { s with seq := { s.seq with boot := .lock } }
  applyFuse s fuse

/-- RESET_RELEASE (R19, R27, R28, R50). `heldLong`: the input was low for at least 1 µs; `refclkOk`: `REFCLK` has run
within tolerance for 100 µs. -/
def resetReleaseEffect (s : State) (brst : Bool) (straps : Straps) (fuse : BitVec 16) (heldLong refclkOk : Bool) : State :=
  if (if brst then s.pins.brstLow else s.pins.porstLow) then
    let valid := heldLong && refclkOk
    let s := { s with pins := { s.pins with porstLow := s.pins.porstLow && brst, brstLow := s.pins.brstLow && !brst } }
    let s := setBit s 0x40 (b2n brst) true
    let s := if valid ∧ (!brst ∨ !s.pins.needPorst) then { s with undef := false } else s
    let s := if valid ∧ !brst then
        { s with pins := { s.pins with needPorst := false, boundsVoid := false } }
      else s
    if s.pins.porstLow || s.pins.brstLow then s
    else
      let s := { s with pins := { s.pins with coreOn := true, needPorst := s.pins.needPorst || !refclkOk },
                        undef := s.undef || !valid }
      startCold s straps fuse
  else s

/-- The meaning of RESET_RELEASE. It acts in every state. -/
def execResetRelease (brst : Bool) (straps : Straps) (fuse : BitVec 16) (heldLong refclkOk : Bool) (s : State) :
    Host.Outcome State Fault Refusal :=
  resume s (resetReleaseEffect s brst straps fuse heldLong refclkOk)

/-- ALWAYS_ON_POWER_ON (Table 2.3): the always-on domain starts from reset. A core that was powered without it, or whose
resets are released when it comes up, is in the undefined state of R28. -/
def aonPowerOnEffect (s : State) : State :=
  let ran := running s
  let s := coreReset s
  let s := { s with regs := [], aon := freshAon }
  { s with undef := s.undef || ran,
           pins := { s.pins with needPorst := s.pins.needPorst || ran, heldFaultN := false, heldSafe := false,
                                 aonClk := true, calSeen := false } }

/-- The meaning of ALWAYS_ON_POWER_ON. It acts in every state. -/
def execAlwaysOnPowerOn (s : State) : Host.Outcome State Fault Refusal := resume s (aonPowerOnEffect s)

-- supplies

/-- SUPPLY_EXCURSION (R20, R21, R28). In M8 the devices lose their contents with `VDDQ_PHY` or their own supply (R43). -/
def supplyEffect (s : State) (k : SupplyCause) : State :=
  match k with
  | .dramSupplyLost =>
    if curMode s = 8 then { s with dram := [] }
    else if curMode s = 0 then s
    else { s with pins := { s.pins with boundsVoid := true } }
  | .coreRiseReleased =>
    if s.pins.coreOn || s.pins.porstLow || s.pins.brstLow then s
    else if curMode s = 8 then { s with pins := { s.pins with coreOn := true } }
    else { s with undef := true, pins := { s.pins with coreOn := true, needPorst := true, boundsVoid := true } }
  | _ =>
    if curMode s = 0 ∨ curMode s = 8 then s else { s with pins := { s.pins with boundsVoid := true } }

/-- The meaning of SUPPLY_EXCURSION. It acts in every state. -/
def execSupplyExcursion (cause : SupplyCause) (s : State) : Host.Outcome State Fault Refusal := resume s (supplyEffect s cause)

/-- VDD_CORE_REMOVE (R22, R23): `FAULT_N` and `SAFE_ACT` keep their levels; outside M0 and M8 everything in the core and
in DRAM is lost. -/
def coreRemoveEffect (s : State) : State :=
  if !s.pins.coreOn then s
  else
    let fault := faultN s
    let safe := safeAct s
    let s := if curMode s = 8 ∨ curMode s = 0 then s else toOff (coreReset s)
    { s with pins := { s.pins with coreOn := false, heldFaultN := fault, heldSafe := safe } }

/-- The meaning of VDD_CORE_REMOVE. It acts in every state. -/
def execVddCoreRemove (s : State) : Host.Outcome State Fault Refusal := resume s (coreRemoveEffect s)

-- the timebase

/-- Periods of `AON_CLK` spent in Retention when the calendar advanced by `secs` seconds: 32,768 a second from the period at the
entry to that at the exit. No command tells the period of its second in which Retention ended, so it is free, and none before
the entry (assumption 51). -/
def retainedPeriods (s : State) (secs : Nat) : State × Nat :=
  let (f, s) := takeFree s
  let at0 := s.aon.phaseSaved
  (s, if secs = 0 then f.toNat % (32768 - at0) else 32768 * secs + f.toNat % 32768 - at0)

/-- Tick at which the counter restarts: 0, or after Retention its value at the entry and the calendar time since, in whole
periods of `AON_CLK` (R58, R59). -/
def lockTick (s : State) : State × Nat :=
  if s.seq.exit8 then
    let (s, p) := retainedPeriods s (s.aon.calendar - s.aon.calSaved).toNat
    (s, s.aon.tickSaved + p * 1000000000 / 32768)
  else (s, 0)

/-- The next stage of M1 after the lock: retraining after Retention (R405), calibration otherwise. -/
def afterLock (s : State) : Boot :=
  if s.seq.exit8 && (popChans s).any (fun c => (chan s c).kept) then .train else .calibrate

/-- The dump period in ticks; 0 acts as 1 µs. -/
def dumpPeriod (s : State) : Nat := max 1 (getFld s 0x332010 1 20) * 1000

/-- TIMEBASE_LOCK (R58, R59, Table 16.3 step 1). -/
def timebaseLockEffect (s : State) : State :=
  if running s ∧ curMode s = 1 ∧ s.seq.boot = .lock then
    let (s, t) := lockTick s
    { s with tick := t, obs := { s.obs with dumpDue := t + dumpPeriod s }, aon := { s.aon with secAt := none },
             pins := { s.pins with tbRun := true, tempDue := some (t + 10000000), fuseDue := t + 950000,
                                   hotSince := s.pins.hotSince.map (fun _ => t) },
             seq := { s.seq with boot := afterLock s, epochDue := (t + 999) / 1000 * 1000 } }
  else s

/-- The meaning of TIMEBASE_LOCK. -/
def execTimebaseLock (s : State) : Host.Outcome State Fault Refusal := guarded s (timebaseLockEffect s)

/-- M1 waits for the lock. -/
def waitsLock (s : State) : Bool := curMode s == 1 && s.seq.boot == .lock

/-- TIMEBASE_LOSS (R26, R60): the tick counter stops and the loss is reported. -/
def timebaseLossEffect (s : State) : State :=
  if running s ∧ (s.pins.tbRun ∨ waitsLock s) then
    report { s with pins := { s.pins with tbRun := false }, aon := { s.aon with secAt := none } } 26 0
  else s

/-- The meaning of TIMEBASE_LOSS. -/
def execTimebaseLoss (s : State) : Host.Outcome State Fault Refusal := guarded s (timebaseLossEffect s)

/-- REFCLK_RETURN (R60): the tick counter goes on from where it stopped. -/
def refclkReturnEffect (s : State) : State :=
  if running s ∧ !waitsLock s then { s with pins := { s.pins with tbRun := true } } else s

/-- The meaning of REFCLK_RETURN. -/
def execRefclkReturn (s : State) : Host.Outcome State Fault Refusal := guarded s (refclkReturnEffect s)

-- the calendar

/-- CALENDAR_LOSS (R26): noticed against the timebase, so only while that runs, and once for each loss. -/
def calendarLossEffect (s : State) : State :=
  let seen := running s && s.pins.tbRun && !s.undef
  let new := seen && !(s.pins.calSeen && !s.pins.aonClk)
  let s := { s with pins := { s.pins with aonClk := false, calSeen := seen || s.pins.calSeen },
                    aon := { s.aon with secAt := none } }
  if new then report s 26 1 else s

/-- The meaning of CALENDAR_LOSS. It acts in every state. -/
def execCalendarLoss (s : State) : Host.Outcome State Fault Refusal := resume s (calendarLossEffect s)

/-- AON_CLK_RETURN (Table 2.8). -/
def aonReturnEffect (s : State) : State := { s with pins := { s.pins with aonClk := true, calSeen := false } }

/-- The meaning of AON_CLK_RETURN. It acts in every state. -/
def execAonClkReturn (s : State) : Host.Outcome State Fault Refusal := resume s (aonReturnEffect s)

/-- A 32-bit count rises by 1, saturating (R414). -/
def sat32 (n : Nat) : Nat := min (n + 1) (2 ^ 32 - 1)

/-- Histogram bin of a temperature (R414). -/
def tempBin (t : BitVec 9) : Nat := (max 0 (min 17 ((t.toInt + 40) / 10))).toNat

/-- Element `i` of a vector of counts rises by 1. -/
def bumpVec {n : Nat} (v : Vector Nat n) (i : Nat) : Vector Nat n := if h : i < n then v.set i (sat32 v[i]) else v

/-- CALENDAR_SECOND (R25, R414). -/
def calendarSecondEffect (s : State) : State :=
  if s.pins.aonClk then
    let m := curMode s
    let a := s.aon
    let powered := if m = 0 ∨ m = 8 then a.powered else sat32 a.powered
    let temp := if getBit s 0x44 2 then bumpVec a.temp (tempBin s.pins.temp) else a.temp
    let secAt := if s.pins.tbRun then some s.tick else none
    { s with aon := { a with calendar := a.calendar + 1, modeSec := bumpVec a.modeSec m, powered := powered, temp := temp,
                             secAt := secAt } }
  else s

/-- The meaning of CALENDAR_SECOND. It acts in every state: the always-on domain runs by itself. -/
def execCalendarSecond (s : State) : Host.Outcome State Fault Refusal := resume s (calendarSecondEffect s)

-- temperature

/-- TEMP_UPD (R51, R52). -/
def tempUpdEffect (s : State) (t : BitVec 9) : State :=
  if running s then
    let s := setFld (setBit s 0x44 2 true) 0x44 24 8 (t.toNat % 256)
    let hot := if 135 < t.toInt then some (s.pins.hotSince.getD s.tick) else none
    let due := if waitsLock s then s.pins.tempDue else some (s.tick + 10000000)
    { s with pins := { s.pins with temp := t, hotSince := hot, tempDue := due } }
  else s

/-- The meaning of TEMP_UPD. -/
def execTempUpd (temp : BitVec 9) (s : State) : Host.Outcome State Fault Refusal := guarded s (tempUpdEffect s temp)

/-- TEMP_STALE (R51): one event per pulse, or per lock, that 10 ms follow. -/
def tempStaleEffect (s : State) : State :=
  match s.pins.tempDue with
  | some d =>
    if running s ∧ d ≤ s.tick then
      report (setBit { s with pins := { s.pins with tempDue := none } } 0x44 2 false) 26 5
    else s
  | none => s

/-- The meaning of TEMP_STALE. -/
def execTempStale (s : State) : Host.Outcome State Fault Refusal := guarded s (tempStaleEffect s)

/-- OVER_TEMPERATURE (R52): above +135 °C for more than 1 ms, and each further 1 ms. -/
def overTempEffect (s : State) : State :=
  match s.pins.hotSince with
  | some d =>
    if running s ∧ d + 1000000 < s.tick then
      report { s with pins := { s.pins with hotSince := some s.tick } } 26 6
    else s
  | none => s

/-- The meaning of OVER_TEMPERATURE. -/
def execOverTemperature (s : State) : Host.Outcome State Fault Refusal := guarded s (overTempEffect s)

-- the lifecycle fuses (R50, R413)

/-- The sample `f` is part of the advance under way: every fuse of the current code, and beyond those only fuses that the
target adds. -/
def partOfAdvance (s : State) (f : BitVec 16) : Bool :=
  let cc := s.pins.fuseAt
  let tc := lcCode s.pins.lcAdvTo.toNat
  s.pins.lcAdvReq && (f &&& cc == cc) && (f &&& ~~~(cc ||| tc) == 0)

/-- The handshake is over: `LC_ADV_REQ` falls. In M11 the block goes to M2 and the command is answered; in M10 the command
has been answered already (R413). -/
def advanceEnds (s : State) (status : Nat) : State :=
  let s := { s with pins := { s.pins with lcAdvReq := false },
                    seq := { s.seq with lcTarget := none, lcDone := false, advHeld := false } }
  if curMode s = 11 then finishCmd (endWipe s) status [] else s

/-- A history entry of the ledger, the eight latest kept (Table 16.9). -/
def addHistory (s : State) (before after : Nat) : State :=
  let e := (BitVec.ofNat 32 (before + 2 ^ 4 * after + 2 ^ 7), BitVec.ofNat 32 s.aon.calendar.toNat)
  let l := s.aon.hist ++ [e]
  { s with aon := { s.aon with hist := l.drop (l.length - 8) } }

/-- The check that ends an advance (R413, Table 16.8 step 6): the code sampled decides the state in use. -/
def advanceCheck (s : State) (f : BitVec 16) : State :=
  let before := lcState s
  let target := s.pins.lcAdvTo.toNat
  let hit := f == lcCode target
  let s := if f = s.pins.fuseAt then { s with pins := { s.pins with fuse := f } } else applyFuse s f
  let s := if hit then addHistory s before target else s
  advanceEnds s (if hit then stOk else stHwFault)

/-- A sample of the regular series that is no part of an advance: a changed code is a tamper, and where it is none of the
five codes an invalid one too (R49, R50). The state in use stands. -/
def judgeSample (s : State) (f : BitVec 16) (changed : Bool) : State :=
  if changed then
    let s := if (lcDecode f).isSome then s else report s 26 3
    report s 26 4
  else s

/-- FUSE_SAMPLE (R50, R413). -/
def fuseSampleEffect (s : State) (f : BitVec 16) : State :=
  if running s ∧ s.pins.tbRun ∧ s.pins.fuseDue ≤ s.tick then
    let ends := s.pins.lcAdvReq && s.seq.lcDone
    let changed := f != s.pins.fuse && !partOfAdvance s f
    let s := { s with pins := { s.pins with fuse := f, fuseDue := s.pins.fuseDue + 1000000 } }
    let s := judgeSample (setLcValid s f) f changed
    if ends then advanceCheck s f else s
  else s

/-- The meaning of FUSE_SAMPLE. -/
def execFuseSample (fuse : BitVec 16) (s : State) : Host.Outcome State Fault Refusal := guarded s (fuseSampleEffect s fuse)

/-- LC_ADV_DONE: the next sample ends the advance. -/
def advDoneEffect (s : State) : State :=
  if running s && s.pins.lcAdvReq then { s with seq := { s.seq with lcDone := true } } else s

/-- The meaning of LC_ADV_DONE. -/
def execLcAdvDone (s : State) : Host.Outcome State Fault Refusal := guarded s (advDoneEffect s)

/-- LIFECYCLE_ADVANCE_TIMEOUT (R413): 100 ms have passed since step 4 without `LC_ADV_DONE`. The state in use stands, but
where the last sample lies between the two states it is invalid and the part acts as Retire (R50; assumption 76). -/
def advTimeoutEffect (s : State) : State :=
  if running s ∧ s.pins.lcAdvReq ∧ !s.seq.lcDone ∧ s.seq.lcDue ≤ s.tick then
    let between := partOfAdvance s s.pins.fuse && (lcDecode s.pins.fuse).isNone
    advanceEnds (if between then applyFuse s s.pins.fuse else s) stTimeout
  else s

/-- The meaning of LIFECYCLE_ADVANCE_TIMEOUT. -/
def execLifecycleAdvanceTimeout (s : State) : Host.Outcome State Fault Refusal := guarded s (advTimeoutEffect s)

-- the key port (R47, R48)

/-- Line `m` of channel `c` is held in the counter-tree cache from now on, up to 4,352 lines of a cache (R298). -/
def pinLine (s : State) (c m : Nat) : State :=
  let n := engineOf s c
  let x := slice s n
  if 4352 ≤ (x.ctc.filter (·.pinned)).length then s
  else setSlice s n { x with ctc := mapIf (fun e => e.chan == c && e.m == m) (fun e => { e with pinned := true }) x.ctc }

/-- Node `j` of level `l` of region `i` on channel `c` is fetched, verified and held; one that fails is recorded and reported
(R298, Table 11.6). -/
def pinNode (i c l : Nat) (s : State) (j : Nat) : State :=
  let m := nodeLine s i l j
  if (ctcFind s c m).isSome then pinLine s c m
  else if l ≠ topLevel s i ∧ (ctcFind s c (nodeLine s i (l + 1) (j / 8))).isNone then s
  else
    let (s, ok) := nodeEnter s i c l j false ⟨runStart s (getFld s (rgnBase i) 0 27) + j * 8 ^ l * 9, 27⟩
    if ok then pinLine s c m else failNode s i c l j

/-- Levels 2 and up of the trees of region `i` are fetched and held by each engine (R298). -/
def pinRegion (s : State) (i : Nat) : State :=
  if bitOf (rgnAttr s i) 0 && rgnSealed s i && rgnFresh s i && rgnPinned s i then
    (popChans s).foldl (fun s c =>
      (List.range (topLevel s i + 1)).reverse.foldl (fun s l =>
        if 2 ≤ l then forEach (levelSize s i l) s (pinNode i c l) else s) s) s
  else s

/-- The engines can use slot 0: pinned tree levels are fetched (R405). -/
def pinAll (s : State) : State := forEach 64 s pinRegion

/-- A refused beat: `KEY_ERR`, and a report (R47). -/
def keyRefuse (s : State) : State := report { s with pins := { s.pins with keyErr := true } } 26 2

/-- The four beats of a key, least significant first. -/
def keyOf (l : List (BitVec 64)) : BitVec 256 := BitVec.ofNat 256 (l.foldr (fun b a => b.toNat + 2 ^ 64 * a) 0)

/-- A beat that the port takes: the next of an unloaded slot is stored, and the fourth loads the key. A refused beat leaves
those already taken, so the key goes on with the beat that is next (DEDUCED, assumption 37). -/
def keyTake (s : State) (slot : Fin 2) (beat : BitVec 2) (data : BitVec 64) : State :=
  let part := s.pins.keyPart[slot]
  if (s.pins.keys[slot]).isSome || beat.toNat != part.length then keyRefuse s
  else
    let l := part ++ [data]
    if l.length < 4 then { s with pins := { s.pins with keyPart := s.pins.keyPart.set slot l } }
    else
      let s := { s with pins := { s.pins with keyPart := s.pins.keyPart.set slot [],
                                              keys := s.pins.keys.set slot (some (keyOf l)) } }
      if slot = 0 then pinAll s else s

/-- KEY_BEAT: `KEY_REQ` rises with a beat. In reset and in M8 nothing takes it. -/
def keyBeatEffect (s : State) (slot : Fin 2) (beat : BitVec 2) (data : BitVec 64) : State :=
  if s.pins.keyReq then s
  else
    let s := { s with pins := { s.pins with keyReq := true } }
    if running s then
      keyTake { s with pins := { s.pins with keyAck := true, keyErr := false } } slot beat data
    else s

/-- The meaning of KEY_BEAT. -/
def execKeyBeat (slot : Fin 2) (beat : BitVec 2) (data : BitVec 64) (s : State) : Host.Outcome State Fault Refusal :=
  guarded s (keyBeatEffect s slot beat data)

/-- KEY_REQ_RELEASE: the handshake ends, and the port is ready for the next beat. -/
def keyReleaseEffect (s : State) : State :=
  { s with pins := { s.pins with keyReq := false, keyAck := false, keyErr := false } }

/-- The meaning of KEY_REQ_RELEASE. -/
def execKeyReqRelease (s : State) : Host.Outcome State Fault Refusal := guarded s (keyReleaseEffect s)

end Sys2Proof.Machine
end

