-- ==== Sys2Proof/Machine/Boot.lean ====
section
/-! DEFINITION. M1 Calibrate (Table 16.3), the training of a channel (Table 10.5), and the exit from Retention (R405). -/

namespace Sys2Proof.Machine

-- calibration and self-test

/-- Step 5 of Table 2.4: the outputs leave their reset levels and the control port answers. -/
def outputsLive (s : State) : State := { s with pins := { s.pins with live := true, memResetN := true } }

/-- Replace the stage of M1. -/
def setBoot (s : State) (b : Boot) : State := { s with seq := { s.seq with boot := b } }

/-- CALIBRATION_COMPLETE (R68, R69): margins set, or the calibration stop. A smallest margin under 25 % is a stop (Table
3.12). -/
def calibrationEffect (s : State) (done : Bool) (margin : BitVec 8) (u : BitVec 5) : State :=
  if running s ∧ curMode s = 1 ∧ s.seq.boot = .calibrate then
    let ok := done && decide (25 ≤ margin.toNat)
    let s := setReg s 0x90 (BitVec.ofNat 32 (b2n ok + 2 * b2n (!ok) + 2 ^ 8 * margin.toNat + 2 ^ 16 * u.toNat))
    if ok then setBoot s .sram else report (outputsLive (setBoot s .stopped)) 26 7
  else s

/-- The meaning of CALIBRATION_COMPLETE. -/
def execCalibrationComplete (ok : Bool) (margin : BitVec 8) (unitCode : BitVec 5) (s : State) :
    Host.Outcome State Fault Refusal := guarded s (calibrationEffect s ok margin unitCode)

/-- The number of populated slices is one R41 allows. -/
def popCountOk (s : State) : Bool := [1, 2, 4, 8].contains (popSlices s).length

/-- `READY_LINK`: ports that are out of reset latch their fields and are granted credits (R88, R103). -/
def linkReady (s : State) : State :=
  let s := setBit (outputsLive s) 0x14 0 true
  forEach 24 s (fun s n =>
    if portEnabled s n && !(port s n).resetLow then grantCredits (latchPort s n) n else s)

/-- A channel that was in service before Retention failed its retraining twice (R392, R405). -/
def retrainFailed (s : State) : Bool :=
  (popChans s).any (fun c => (chan s c).kept && !(chan s c).trained && decide (2 ≤ (chan s c).attempts))

/-- The exit from Retention ends in M2, with all three ready flags (R393, R405); where a channel failed its retraining it ends
in M9, outside Retire (R392; DEDUCED, assumption 97). -/
def retentionEnds (s : State) : State :=
  let s := setBit (setBit s 0x14 1 true) 0x14 2 true
  let s := setBit s 0x40 4 true
  let t := if retrainFailed s ∧ lcState s ≠ 4 then 9 else 2
  arriveMode { s with seq := { s.seq with boot := .run, exit8 := false } } t

/-- A channel failed its retraining twice and M9 is not allowed, so M1 does not end (R392, R405). -/
def retrainStops (s : State) : Bool := !getBit s 0x370000 4 && retrainFailed s

/-- SRAM_SELF_TEST_COMPLETE (Table 16.3 steps 3 and 4): training follows, or after Retention M2. A population that R41
forbids stops M1; the manual names no register or source that shows this `HW_FAULT`, and the model shows it nowhere else
(assumption 77). -/
def selfTestEffect (s : State) : State :=
  if running s ∧ curMode s = 1 ∧ s.seq.boot = .sram then
    let s := linkReady s
    if s.seq.exit8 then (if retrainStops s then setBoot s .stopped else retentionEnds s)
    else setBoot s (if popCountOk s then .train else .stopped)
  else s

/-- The meaning of SRAM_SELF_TEST_COMPLETE. -/
def execSramSelfTestComplete (s : State) : Host.Outcome State Fault Refusal := guarded s (selfTestEffect s)

-- training

/-- The bits of the steps passed before the first that failed (Table 10.5). -/
def passedSteps (p : BitVec 6) : Nat :=
  2 ^ ((List.range 6).find? (fun i => !p.getLsbD i)).getD 6 - 1

/-- RL and WL of a data rate, in their places of MC_TIM0; those of 10,667 MT/s are stated (R465, Table 10.10). -/
def latencies (rate : BitVec 3) : BitVec 16 := if rate = 6 then (regReset 0x200010).setWidth 16 else Config.jedecLatency rate

/-- MC_TIM word `i` for a data rate and a density (R465): the manual states those of 10,667 MT/s and 8 GiB, and of another
density the latencies, which follow the rate alone. -/
def timingWord (rate : BitVec 3) (density : BitVec 2) (i : Fin 4) : Word :=
  if rate = 6 ∧ density = 2 then regReset (0x200010 + 4 * i.val)
  else
    let w := Config.jedecTiming rate density i
    match i with
    | 0 => (w.extractLsb' 16 16 ++ latencies rate : BitVec 32)
    | 1 => w
    | 2 => w &&& 0x03FFFFFF
    | 3 => w &&& 0x1FFF03FF

/-- The maintenance timers of both ranks of channel `c` begin with its operation: nothing is owed for the time before (R257 to
R259). -/
def startTimers (s : State) (c : Nat) : State :=
  let next := nowPs s + refInterval s c
  setChan s c { chan s c with
    refresh := (chan s c).refresh.map (fun f => { f with
      owed := 0, nextDue := next, mr4Due := s.tick + 4000000, zqDue := s.tick + 32000000, oscDue := s.tick + 4000000 }) }

/-- The outcome of a training goes into the registers of channel `c` (R268, R465), and its maintenance begins. A failing step
leaves the channel inactive and is reported. -/
def applyTraining (s : State) (c : Nat) (r : TrainResult) : State :=
  let b := mcBase c
  let pass := passedSteps r.pass
  let ok := pass == 63
  let s := setReg s (b + 0x24) (BitVec.ofNat 32 (pass + 2 ^ 6 * b2n ok + 2 ^ 7 * b2n (!ok)))
  if ok then
    let cfg := b2n r.ranks2 + 2 * r.density.toNat + 2 ^ 4 * r.rate.toNat + 2 ^ 7 * b2n r.rfm + 2 ^ 8
    let s := setReg s b (BitVec.ofNat 32 cfg)
    let s := setReg s (b + 0x20) (BitVec.ofNat 32 r.flight.toNat)
    startTimers (forEach 4 s (fun s i =>
      if h : i < 4 then setReg s (b + 0x10 + 4 * i) (timingWord r.rate r.density ⟨i, h⟩) else s)) c
  else report (setBit s b 8 false) (8 + c) 7

/-- Training passed every step. -/
def trainPass (r : TrainResult) : Bool := passedSteps r.pass == 63

/-- The attempts of channel `c` in M1 move on. -/
def noteAttempt (s : State) (c : Nat) (ok : Bool) : State :=
  let x := chan s c
  setChan s c { x with trained := ok, attempts := x.attempts + 1 }

/-- Channel `c` is done with training in M1: it passed, or failed twice (R392). -/
def trainDone (s : State) (c : Nat) : Bool := (chan s c).trained || decide (2 ≤ (chan s c).attempts)

/-- Ranks and density of channel `c`, and its rate. -/
def shapeOf (s : State) (c : Nat) : Nat × Nat := (getFld s (mcBase c) 0 3, getFld s (mcBase c) 4 3)

/-- Every trained channel has the same ranks and density (R242), and both channels of a slice one rate (R41). -/
def shapesAgree (s : State) : Bool :=
  let l := (popChans s).filter (fun c => (chan s c).trained)
  l.all (fun c => l.all (fun d => (shapeOf s c).1 == (shapeOf s d).1 && (c / 2 != d / 2 || (shapeOf s c).2 == (shapeOf s d).2)))

/-- Some populated channel failed training twice. -/
def someFailed (s : State) : Bool := (popChans s).any (fun c => !(chan s c).trained)

/-- The mode that ends M1 when no Wipe is pending (Table 16.2). -/
def bootTarget (s : State) : Nat :=
  let b := getFld s 0x370000 0 4
  if lcState s = 4 then 2 else if someFailed s then 9 else if 2 ≤ b ∧ b ≤ 5 then b else 3

/-- M1 ends after a cold start (Table 16.3 step 6, R392, R411): a pending Wipe runs instead of the initialisation. The manual
names no register or source that shows the `HW_FAULT` of channels that differ (R242); M1 stops, and the model shows it nowhere
else (DESIGN CHOICE, assumption 77). -/
def bootFinish (s : State) : State :=
  if !shapesAgree s || (someFailed s && !getBit s 0x370000 4) then setBoot s .stopped
  else
    let s := loadDecode (setBoot s .run)
    if s.aon.wipePend then startWipe s
    else
      let t := bootTarget s
      arriveMode (setBit (startInitAll s) 0x14 1 true) t

/-- M1 goes on to its calibration after the retraining of the exit from Retention (R68, R405), unless a second, full training
has left channels that differ (R242). -/
def retrainFinish (s : State) : State := setBoot s (if shapesAgree s then .calibrate else .stopped)

/-- The steps that the retraining from saved settings makes anew: ZQ latch, leveling and read DQ (Table 10.6 step 9). The
other steps stand as trained. -/
def retrainSteps (p : BitVec 6) : BitVec 6 := p ||| 0b110010#6

/-- Channel `c` is retrained from its saved settings and is in service again with its first refresh due (Table 10.6 steps
9 and 10); one that fails is inactive (R268) and is trained once more in full (R392). -/
def retrain (s : State) (c : Nat) (r : TrainResult) : State :=
  if (chan s c).attempts = 0 then
    let pass := passedSteps (retrainSteps r.pass)
    let ok := pass == 63
    let s := noteAttempt (setReg s (mcBase c + 0x24) (BitVec.ofNat 32 (pass + 2 ^ 6 * b2n ok + 2 ^ 7 * b2n (!ok)))) c ok
    if ok then wakeChan (setBit s (mcBase c) 8 true) c else report s (8 + c) 7
  else
    let s := noteAttempt (applyTraining s c r) c (trainPass r)
    if trainPass r then wakeChan s c else s

/-- A populated channel that M1 trains now: each after a cold start, those that were in service after Retention. -/
def inTraining (s : State) (c : Nat) : Bool :=
  s.seq.boot == .train && curMode s == 1 && slicePop s (c / 2) && !trainDone s c && (!s.seq.exit8 || (chan s c).kept)

/-- Every channel that M1 trains is done. -/
def allTrained (s : State) : Bool := !(List.range 16).any (inTraining s)

/-- One training in M1 ends. -/
def m1Training (s : State) (c : Nat) (r : TrainResult) : State :=
  if s.seq.exit8 then
    let s := retrain s c r
    if curMode s = 1 ∧ allTrained s then retrainFinish s else s
  else
    let s := noteAttempt (applyTraining s c r) c (trainPass r)
    if curMode s = 1 ∧ allTrained s then bootFinish s else s

/-- `TRAIN_CHANNEL` ends (R409): on success the channel is in service behind its own watermark. -/
def commandTraining (s : State) (c : Nat) (r : TrainResult) : State :=
  let s := applyTraining s c r
  if trainPass r then
    let s := setChan s c { chan s c with trained := true }
    let s := recheckTable (startInit s c) c (curMode s)
    finishCmd s stOk [getReg s (mcBase c + 0x24)]
  else finishCmd s stHwFault []

/-- TRAINING_COMPLETE. -/
def trainingEffect (s : State) (c : Nat) (r : TrainResult) : State :=
  if !running s then s
  else if inTraining s c then m1Training s c r
  else match s.seq.run with
  | some k => if bitsOf k.hdr 0 8 = 0x10 ∧ k.arg = c then commandTraining s c r else s
  | none => s

/-- The meaning of TRAINING_COMPLETE. -/
def execTrainingComplete (c : ChanId) (r : TrainResult) (s : State) : Host.Outcome State Fault Refusal :=
  guarded s (trainingEffect s c r)

-- the exit from Retention

/-- RETENTION_WAKE (R405): four periods of `AON_CLK` after `REFCLK`, M1 is entered, keeping what Retention kept; the twin port's
domain is switched on where it was on at the entry (R344). On supplies that are not yet there R20 applies. -/
def retentionWakeEffect (s : State) : State :=
  if coreResetFree s ∧ curMode s = 8 ∧ s.pins.aonClk then
    let s := enterMode s 1
    let s := if twinPwr s then twinOn s else if s.twin.perstLow then resetWindows s else s
    { s with pins := { s.pins with coreOn := true, boundsVoid := s.pins.boundsVoid || !s.pins.coreOn }, seq := { s.seq with boot := .lock, exit8 := true } }
  else s
where
  /-- Neither reset input is low. -/
  coreResetFree (s : State) : Bool := !s.pins.porstLow && !s.pins.brstLow

/-- The meaning of RETENTION_WAKE. -/
def execRetentionWake (s : State) : Host.Outcome State Fault Refusal := guarded s (retentionWakeEffect s)

end Sys2Proof.Machine
end

