-- ==== Sys2Proof/Machine/Health.lean ====
section
/-! DEFINITION. Pace monitors and canaries (chapter 3), events and sweeps of the fault units, and drydown (chapter 15). -/

namespace Sys2Proof.Machine

-- pace

/-- Fault unit, router column, and the pace and extremes registers of a monitor (Table 3.6). -/
def monitorAt (m : Monitor) : Nat × Nat × Nat × Nat :=
  match m with
  | .slice n => (n.val, 0, slcBase n.val + 0x100, slcBase n.val + 0x108)
  | .chan c => (8 + c.val, 0, mcBase c.val + 0x100, mcBase c.val + 0x108)
  | .column x => (24, x.val, 0x300100 + 4 * x.val, 0x300120 + 4 * x.val)

/-- The unit of a monitor is powered. -/
def monitorOn (s : State) (m : Monitor) : Bool :=
  match m with
  | .slice n => slicePwr s n.val
  | .chan c => slicePop s (c.val / 2)
  | .column _ => true

/-- Pace of a window in ps: 4,096,000 over its count, to the nearest (R63). -/
def paceOf (count : Nat) : Nat := (8192000 + count) / (2 * count)

/-- What PACE_PS shows: the pace, or a free value where a window has no count or its pace does not fit ten bits. The aging record,
GLB_PACE_WORST and the extremes take what PACE_PS shows (DESIGN CHOICE, assumption 49). -/
def paceShown (s : State) (count : Nat) : State × Nat :=
  if count ≠ 0 ∧ paceOf count ≤ 1023 then (s, paceOf count)
  else
    let (f, s) := takeFree s
    (s, f.toNat % 1024)

/-- The new state of a bit with threshold `t` at the end of a window (R64). -/
def paceBit (count t : Nat) (old : Bool) : Bool :=
  if count = 0 ∨ t < paceOf count then true else old && decide (t < paceOf count + 5)

/-- The aging record takes a slower pace (R72). -/
def noteAging (s : State) (p u x : Nat) : State :=
  if s.aon.aging.toNat % 1024 < p then
    { s with aon := { s.aon with aging := BitVec.ofNat 18 (p + 2 ^ 10 * u + 2 ^ 15 * x),
                                 agingAt := BitVec.ofNat 32 s.aon.calendar.toNat } }
  else s

/-- The extremes of a monitor, and the slowest pace of the device (Tables 3.9, 3.11). -/
def noteExtremes (s : State) (e p u x : Nat) : State :=
  let s := setFld s e 0 10 (min (getFld s e 0 10) p)
  let s := setFld s e 16 10 (max (getFld s e 16 10) p)
  if getFld s 0x8C 0 10 < p then setReg s 0x8C (BitVec.ofNat 32 (p + 2 ^ 16 * u + 2 ^ 21 * x)) else s

/-- PACE_WINDOW_END. -/
def paceEffect (s : State) (m : Monitor) (count : BitVec 16) (flight : BitVec 12) : State :=
  if running s && s.pins.tbRun && monitorOn s m then
    let (u, x, r, e) := monitorAt m
    let n := count.toNat
    let (s, p) := paceShown s n
    let warn := paceBit n (getFld s 0x88 0 10) (getBit s r 10)
    let slow := paceBit n 610 (getBit s r 11)
    let warned := warn && !getBit s r 10
    let slowed := slow && !getBit s r 11
    let s := setReg s r (BitVec.ofNat 32 (p + 2 ^ 10 * b2n warn + 2 ^ 11 * b2n slow + 2 ^ 16 * n))
    let s := if u < 8 then setReg s (r + 4) (BitVec.ofNat 32 flight.toNat) else s
    let s := noteAging (noteExtremes s e p u x) p u x
    let s := if warned then report s u 0 else s
    if slowed then report s u 1 else s
  else s

/-- The meaning of PACE_WINDOW_END. -/
def execPaceWindowEnd (m : Monitor) (count : BitVec 16) (flight : BitVec 12) (s : State) :
    Host.Outcome State Fault Refusal := guarded s (paceEffect s m count flight)

/-- The canary counter of a unit: slices, channels and the spine have one (Table 3.6). -/
def canaryReg (u : Nat) : Option Nat :=
  if u < 8 then some (slcBase u + 0x10C) else if u < 24 then some (mcBase (u - 8) + 0x10C)
  else if u = 24 then some 0x300140 else none

/-- The unit is powered. -/
def unitOn (s : State) (u : Nat) : Bool :=
  if u < 8 then slicePwr s u else if u < 24 then slicePop s ((u - 8) / 2) else true

/-- CANARY_EVENT (R70). -/
def canaryEffect (s : State) (u : Nat) : State :=
  match canaryReg u with
  | some r => if running s && unitOn s u then report (satAdd s r 0 16 1) u 2 else s
  | none => s

/-- The meaning of CANARY_EVENT. -/
def execCanaryEvent (u : UnitId) (s : State) : Host.Outcome State Fault Refusal := guarded s (canaryEffect s u.val)

-- fault units

/-- A parity error in a register of unit `u` (R383): REG_PAR enters fault and Safe is forced directly, whatever THRESH and
FLT_SAFE_EN hold; it is an event of its source (R372; DEDUCED, assumption 53). -/
def regParity (s : State) (u : Nat) (inj : Bool) : State :=
  safeEntry (restartQuiet (enterFault (countEvent s u 31) u 31 inj)) u 31 3 inj

/-- FAULT_EVENT: an event at a source. -/
def faultEventEffect (s : State) (u src : Nat) : State :=
  if running s && unitOn s u then (if src = 31 then regParity s u false else report s u src) else s

/-- The meaning of FAULT_EVENT. -/
def execFaultEvent (u : UnitId) (source : Fin 32) (s : State) : Host.Outcome State Fault Refusal :=
  guarded s (faultEventEffect s u.val source.val)

/-- CLASSIFICATION_WINDOW_EXPIRE (R374): the count returns to 0 and a fault stays. -/
def windowExpireEffect (s : State) (u src : Nat) : State :=
  let c := fltCount s u src
  if running s ∧ c.count ≠ 0 ∧ c.due ≤ s.tick then setCount s u src ⟨0, 0⟩ else s

/-- The meaning of CLASSIFICATION_WINDOW_EXPIRE. -/
def execClassificationWindowExpire (u : UnitId) (source : Fin 32) (s : State) : Host.Outcome State Fault Refusal :=
  guarded s (windowExpireEffect s u.val source.val)

/-- Bits of the parity field of unit `u` (R383). -/
def parityBits (u : Nat) : Nat := if u = 26 then 17 else 10

/-- A parity check of the items `items` of unit `u`, whose errors are `bad`: the blotter inverts (R388). A masked bit acts at
the next check of its item (Table 15.9), so a check of other items leaves the arming as it is (DEDUCED, assumption 53). -/
def parityCheck (s : State) (u : Nat) (items bad : Nat) : State :=
  let mask := (blotMask s 0x0C u).toNat % 2 ^ parityBits u &&& items
  let s := if mask = 0 then s else blotUse s 0x0C u
  let seen := (bad &&& items) ^^^ mask
  if seen = 0 then s
  else if bad &&& items = 0 then
    if s.faults.blotSuppress then injectedEvent s u 31 else regParity s u true
  else regParity s u false

/-- FAULT_UNIT_SWEEP (R383). -/
def sweepEffect (s : State) (u : Nat) (parity : BitVec 17) : State :=
  if running s && unitOn s u then parityCheck s u (2 ^ parityBits u - 1) parity.toNat else s

/-- The meaning of FAULT_UNIT_SWEEP. -/
def execFaultUnitSweep (u : UnitId) (parity : BitVec 17) (s : State) : Host.Outcome State Fault Refusal :=
  guarded s (sweepEffect s u.val parity)

-- drydown (R384)

/-- The mode drydown returns to. -/
def drydownTarget (s : State) : Nat :=
  if getFld s 0x320004 12 4 = 7 then getFld s 0x320004 18 4 else getFld s 0x320004 12 4

/-- FLT_RECOV.BLOCKED in M10. -/
def blockedCode (s : State) : Nat :=
  let limit := getFld s 0x320010 15 4
  if !getBit s 0x320010 0 then 1
  else if anyTerminal s then 2
  else if limit ≠ 0 ∧ limit ≤ getFld s 0x320014 0 8 then 3
  else if (List.range 24).any (reclaimPending s) then 4
  else if [2, 3, 4, 5, 6, 9].contains (drydownTarget s) then 0 else 5

/-- On leaving M10 the last code stays in FLT_RECOV. -/
def leaveSafe (s : State) : State := if inSafe s then setFld s 0x320014 9 3 (blockedCode s) else s

/-- The sources of `mask` of unit `u` leave fault; their counts are 0 and no window runs. With no source left in fault
the capture is released. -/
def clearFaults (s : State) (u : Nat) (mask : Word) : State :=
  let b := fltBase u
  let s := setReg s (b + 4) (getReg s (b + 4) &&& ~~~mask)
  let s := forEach 32 s (fun s i => if mask.getLsbD i then setCount s u i ⟨0, 0⟩ else s)
  if getReg s (b + 4) = 0 then setBit s (b + 0x14) 31 false else s

/-- The non-terminal sources of unit `u`. -/
def clearableMask (u : Nat) : Word :=
  BitVec.ofNat 32 ((List.range 32).foldl (fun m i => if srcClass u i = .terminal then m else m + 2 ^ i) 0)

/-- FLT_DRYDOWN.DRYDOWN_MS in ticks, within its limits. -/
def quietPeriod (s : State) : Nat := max 1 (min 10000 (getFld s 0x320010 1 14)) * 1000000

/-- DRYDOWN_EXPIRE: unblocked through the quiet period, the block leaves M10. -/
def drydownEffect (s : State) : State :=
  if running s ∧ inSafe s ∧ blockedCode s = 0 ∧ s.faults.quietStart + quietPeriod s ≤ s.tick then
    let t := drydownTarget s
    let s := leaveSafe s
    let s := forEach 27 s (fun s u => clearFaults s u (clearableMask u))
    let s := satAdd s 0x320014 0 8 1
    let s := { s with aon := { s.aon with recov := sat32 s.aon.recov } }
    arriveMode s t
  else s

/-- The meaning of DRYDOWN_EXPIRE. -/
def execDrydownExpire (s : State) : Host.Outcome State Fault Refusal := guarded s (drydownEffect s)

end Sys2Proof.Machine
end

