-- ==== Sys2Proof/Machine/Moves.lean ====
section
/-! DEFINITION. Accord moves and slice power (R158, R233 to R238, R396 to R399), and the end of a transition of mode
(Table 16.2). A command that moves entries goes through these phases: 1 Deadline admission stopped, 2 take-up stopped,
3 the move, 4 the drain of a slice, 5 the wait for its domain, 6 the change of mode. -/

namespace Sys2Proof.Machine

-- the command that moves

/-- The command that holds slices: one that a Safe entry left to run, or the running `SLICE_POWER` (0x38) or `ACCORD_CFG`
(0x39). -/
def mover (s : State) : Option RunCmd :=
  match s.seq.moveLeft with
  | some r => some r
  | none => s.seq.run.filter (fun r => bitsOf r.hdr 0 8 == 0x38 || bitsOf r.hdr 0 8 == 0x39)

/-- Change that command. -/
def mapMover (s : State) (f : RunCmd → RunCmd) : State :=
  if s.seq.moveLeft.isSome then { s with seq := { s.seq with moveLeft := s.seq.moveLeft.map f } } else mapRun s f

/-- That command reaches phase `k`. -/
def movePhase (s : State) (k : Nat) : State := mapMover s (fun r => { r with phase := k })

/-- W1 of a command. -/
def firstParam (r : RunCmd) : Word := paramOf r.params 1

/-- It is `ACCORD_CFG`. -/
def isAccordCfg (r : RunCmd) : Bool := bitsOf r.hdr 0 8 == 0x39

/-- ON of `SLICE_POWER`. -/
def powersOn (r : RunCmd) : Bool := bitOf (firstParam r) 8

/-- The pair that the command works on: of `SLICE_POWER` that of its slice. -/
def movePairOf (r : RunCmd) : Nat := if isAccordCfg r then r.arg else r.arg / 2

/-- The two slices of a pair. -/
def pairSlices (p : Nat) : List Nat := [2 * p, 2 * p + 1]

/-- The slices whose Deadline admission a command stops: those of the pair with a tracker in use (R315). -/
def heldSlices (s : State) (r : RunCmd) : List Nat := (pairSlices (movePairOf r)).filter (slicePwr s)

/-- The slices whose take-up it stops next: in Accord the pair's; otherwise the slice that is to power down. -/
def closedSlices (s : State) (r : RunCmd) : List Nat :=
  if isAccordCfg r || pairJoined s (movePairOf r) then heldSlices s r else if powersOn r then [] else [r.arg]

/-- Change each slice of a list. -/
def onSlices (s : State) (l : List Nat) (f : Slice → Slice) : State := l.foldl (fun s n => setSlice s n (f (slice s n))) s

/-- The command no longer holds any slice. -/
def releaseSlices (s : State) : State := onSlices s (List.range 8) (fun x => { x with closed := false, held := false })

/-- The command ends: an answer, unless it has been answered at a Safe entry. -/
def endMove (s : State) (data : List Word) : State :=
  let s := releaseSlices s
  if s.seq.moveLeft.isSome then { s with seq := { s.seq with moveLeft := none } } else finishCmd s stOk data

-- engines and fences

/-- Metadata and check lines of the channels of slice `n` that the engine of the pair's other slice holds, and has written
back, are dropped: the engine of slice `n` serves its channels again. -/
def engineBack (s : State) (n : Nat) : State :=
  let k := pairSlice n
  let x := slice s k
  setSlice s k { x with cc := x.cc.filter (fun l => l.chan / 2 != n), ctc := x.ctc.filter (fun l => l.chan / 2 != n) }

/-- The last completed numbers of the sources whose requests slice `a` serves, copied into slice `b` (Table 9.7 step 6). -/
def copySeries (s : State) (a b : Nat) (sources : List Nat) : State :=
  sources.foldl (fun s i =>
    let x := slice s b
    let y := slice s a
    setSlice s b { x with xdone := cellsSet (fun _ => 0) x.xdone i (xlatDoneTo s a i),
                          xsince := x.xsince.filter (fun t => t.1.toNat != i) ++ y.xsince.filter (fun t => t.1.toNat == i) }) s

/-- The ports whose translation requests go to slice `n`. -/
def xlatSources (s : State) (n : Nat) : List Nat := (List.range 24).filter (fun i => (port s i).xlatSlice.toNat == n)

/-- The successor that SPN_SUCC names for slice `n`. -/
def successorOf (s : State) (n : Nat) : Nat := getFld s 0x30000C (4 * n) 3

/-- The fence of slice `n` is cleared: SUCC_n is n again (R238). -/
def unfence (s : State) (n : Nat) : State :=
  let s := copySeries s (successorOf s n) n (xlatSources s n)
  setBit (setBit (setFld s 0x30000C (4 * n) 3 n) 0x300008 n false) 0x300004 (16 + n) false

-- phases 1 and 2

/-- Slice `n` has an admitted Deadline request (R315). -/
def dlAdmitted (s : State) (n : Nat) : Bool := (slice s n).entries.any (fun e => e.dl && e.stage != .tentative)

/-- Slice `n` has an active entry. -/
def activeHere (s : State) (n : Nat) : Bool := (slice s n).entries.any isActive

/-- Outside Accord a slice that is to power down leaves service: its requests end as at its successor (R399; DEDUCED, assumption
47). Its Deadline admission stays held (R315). -/
def leaveService (s : State) (n : Nat) : State := setSlice s n { slice s n with leaving := true, closed := false }

/-- The registers of slice `n` and the counts of its fault unit return to reset; a locked FLT_CLASS and the fields it locks
stay (Table 19.1, R463). -/
def resetSliceRegs (s : State) (n : Nat) : State :=
  let b := fltBase n
  let cls := getReg s (b + 0x10)
  let en := getReg s (b + 0xC)
  let s := resetRegs s (slcBase n) (slcBase n + 0x10000)
  let s := { s with faults := { s.faults with counts := cellsDrop (fun a => a / 32 == n) s.faults.counts } }
  if bitOf cls 31 then setReg (setReg s (b + 0x10) cls) (b + 0xC) en else s

/-- A slice's domain is switched on: its arrays are clear (R238). While its pair's entries have not moved, the other slice
homes the pair's lines. -/
def switchOn (s : State) (n : Nat) : State :=
  setBit (setSlice (resetSliceRegs s n) n { freshSlice with away := true, nodeBad := (slice s n).nodeBad }) 0x300004 n true

/-- `SLICE_POWER` on outside Accord: the slice and its unchanged contents return to service (R399), and its engine fetches the
pinned nodes (R298). -/
def serviceOn (s : State) (n : Nat) : State :=
  let s := unfence (switchOn s n) n
  let s := setSlice s n { slice s n with away := false }
  pinAll ([2 * n, 2 * n + 1].foldl (fun s c => recheckTable (wakeChan (setBit s (mcBase c) 8 true) c) c (curMode s)) s)

/-- What follows the wait for active entries. -/
def afterWait (s : State) (r : RunCmd) : State :=
  let s := pauseCmd s
  if isAccordCfg r then movePhase s 3
  else if pairJoined s (r.arg / 2) then movePhase (if powersOn r then switchOn s r.arg else s) 3
  else if powersOn r then endMove (serviceOn s r.arg) []
  else movePhase (leaveService s r.arg) 4

/-- The pairs that an `ACCORD_CFG` names, in ascending order. -/
def namedPairs (w : Word) : List Nat := (List.range 4).filter (fun p => bitOf w p || bitOf w (4 + p))

/-- An `ACCORD_CFG` of which a pair has moved: it is not timed further (R453). -/
def laterPair (r : RunCmd) : Bool := isAccordCfg r && (namedPairs (firstParam r)).head? != some r.arg

/-- The command waits, timed unless its move has started (R453). -/
def moveTimed (s : State) (r : RunCmd) : State := if laterPair r then s else waitCmd s

/-- Phases 1 and 2 as far as they go (R315, R396). -/
def moveWait (s : State) (r : RunCmd) : State :=
  let l := closedSlices s r
  let s := if r.phase = 1 then
      if (heldSlices s r).any (dlAdmitted s) then moveTimed s r
      else movePhase (onSlices s l (fun x => { x with closed := true })) 2
    else s
  match mover s with
  | some r => if r.phase = 2 then (if l.any (activeHere s) then moveTimed s r else afterWait s r) else s
  | none => s

/-- The configuration that the command gives its pair: joined or split, or with one slice's lines at the other. -/
def switchPair (s : State) (r : RunCmd) : State :=
  let p := movePairOf r
  if isAccordCfg r then setBit s 0x300004 (8 + p) (bitOf (firstParam r) p)
  else setSlice s r.arg { slice s r.arg with away := !powersOn r }

/-- Some pair is joined. -/
def anyJoined (s : State) : Bool := (List.range 4).any (pairJoined s)

/-- The mode of an `ACCORD_CFG` once its pair is joined or split in `s`: M6 while a pair is joined, else the mode it names
(R396). -/
def accordMode (s : State) (r : RunCmd) : Nat := if anyJoined s then 6 else bitsOf (firstParam r) 8 4

/-- An `ACCORD_CFG` whose next pair changes the mode starts that transition with its wait for the pair (R391, R460). -/
def accordTransit (s : State) (r : RunCmd) : State :=
  let t := accordMode (switchPair s r) r
  if isAccordCfg r ∧ t ≠ curMode s then startTransit s t else s

/-- A command starts to hold its slices. -/
def moveStart (s : State) (r : RunCmd) : State :=
  moveWait (movePhase (onSlices (accordTransit s r) (heldSlices s r) (fun x => { x with held := true })) 1) { r with phase := 1 }

-- phase 3: the move (R158)

/-- The entries of a pair with their channel, channel line and old way. -/
def pairEntries (s : State) (p : Nat) : List ((Nat × Nat) × (Nat × Nat) × FEntry) :=
  (pairSlices p).flatMap (fun n =>
    (slice s n).filter.map (fun c => (chanOfLine s n (lineOfKey s n c.1 c.2), (n, c.1), c.2)))

/-- Slice and set that configuration `t` gives a line. -/
def newSet (t : State) (c : Nat × Nat) : Nat × Nat :=
  let h := homeOfLine t c.1 c.2
  (h.slice, h.set)

/-- Walk entries are discarded during a move. -/
def dropWalks (s : State) (p : Nat) : State :=
  (pairSlices p).foldl (fun s n =>
    setSlice s n { slice s n with filter := (slice s n).filter.filter (fun c => !isWalk c.2) }) s

/-- Key by which an entry of a crowded set is chosen: entries without waiting requests first, then R143. -/
def crowdKey (s : State) (n k : Nat) (e : FEntry) : Nat :=
  100 * b2n (lineBusy s n (lineOfKey s n k e)) + victimKey e ((nruOf s n (k / 12)).getLsbD (k % 12))

/-- From each set of configuration `t` that more than twelve entries would enter, the entry with the lowest key is
back-invalidated, with PRIO 0, on the other VC (R159; DESIGN CHOICE, assumption 86); a lost one tries its marking write. -/
def thinCrowds (s : State) (t : State) (p : Nat) : State :=
  let l := (pairEntries s p).map (fun x => (newSet t x.1, x.2.1, x.2.2))
  let crowded := (l.map (·.1)).eraseDups.filter (fun a => decide (12 < (l.filter (fun x => x.1 == a)).length))
  crowded.foldl (fun s a =>
    let own := l.filter (fun x => x.1 == a)
    let best := (own.filter (fun x => !x.2.2.lost)).foldl
      (fun (b : Option (Nat × Nat × Nat)) x =>
        let key := crowdKey s x.2.1.1 x.2.1.2 x.2.2
        match b with
        | some (_, _, kb) => if key < kb then some (x.2.1.1, x.2.1.2, key) else b
        | none => some (x.2.1.1, x.2.1.2, key)) none
    let s := own.foldl (fun s x => retryMark s x.2.1.1 (x.2.1.2 / 12) (x.2.1.2 % 12)) s
    match best with
    | some (n, k, _) =>
      match freeVictimSlot s n (k / 12 % 4) false with
      | some slot => moveVictim s n (k / 12) (k % 12) slot 0
      | none => s
    | none => s) s

/-- No set of configuration `t` would hold more than twelve entries. -/
def fitsIn (s t : State) (p : Nat) : Bool :=
  let l := (pairEntries s p).map (fun x => newSet t x.1)
  l.all (fun a => decide ((l.filter (· == a)).length ≤ 12))

/-- No back-invalidation, notice, reclamation or marking write is under way in the pair. -/
def pairQuiet (s : State) (p : Nat) : Bool :=
  (pairSlices p).all (fun n =>
    let x := slice s n
    x.victims.isEmpty && x.lanes.isEmpty && x.reclaims.isEmpty && x.marking.isEmpty)

/-- A filter entry at its new place: the first free way of its set. -/
def placeEntry (s : State) (x : (Nat × Nat) × (Nat × Nat) × FEntry) : State :=
  let h := homeOfLine s x.1.1 x.1.2
  match (List.range 12).find? (fun w => isFree (wayAt s h.slice h.set w)) with
  | some w => wayWrite s h.slice h.set w { x.2.2 with tag := h.tag }
  | none => s

/-- Tracker entry `e` of slice `n` at its line's new home, under its number or another of its pool. Where the pool has no
entry left the request is refused; a reservation is dropped, and its reissue is treated as one without (R236). The list says
where each entry went. -/
def placeTracker (a : State × List ((Nat × Nat) × (Nat × Nat))) (x : Nat × Entry) :
    State × List ((Nat × Nat) × (Nat × Nat)) :=
  let (s, l) := a
  let (n, e) := x
  let h := homeOf s e.req.addr.toNat
  let k := (h.map (·.slice)).getD n
  let taken := (slice s k).entries.any (fun y => y.id == e.id)
  match if taken then freeEntryId s k e.pool else some e.id with
  | some i =>
    let y := slice s k
    let s := setSlice s k { y with entries := y.entries ++ [{ e with id := i, line := (h.map (·.line)).getD e.line, way := none }] }
    let samples := mapIf (fun t => t.unit == 32 + n && (t.park == some e.id || sampleIs (32 + n) e.src e.req.txn t))
      (fun t => { t with unit := 32 + k, park := t.park.map (fun _ => i) }) s.obs.samples
    let s := { s with obs := { s.obs with samples := samples } }
    (s, l ++ [((n, e.id), (k, i))])
  | none =>
    let s := sampleClose s (32 + n) e.src e.req.txn
    match e.stage with
    | .waiting => (sendRetry s k e.src e.dl e.req (some ⟨e.src, e.req.txn, false, e.req.prio, none, e.req⟩), l)
    | .tentative => (refuseAdmission s k e.src e.req 5 true none, l)
    | _ => (s, l)

/-- A refusal record at its line's new home; what it waited for is known there, or has ended. -/
def placeRecord (ids : List ((Nat × Nat) × (Nat × Nat))) (s : State) (x : Nat × RetryRec) : State :=
  let (n, r) := x
  let k := ((homeOf s r.req.addr.toNat).map (·.slice)).getD n
  let w := r.waits.bind (fun i => (ids.find? (fun t => t.1 == (n, i) && t.2.1 == k)).map (·.2.2))
  addRecord s k { r with waits := w }

/-- A hold window at its line's new home. -/
def placeHold (s : State) (x : (Nat × Nat) × Hold) : State :=
  let h := homeOfLine s x.1.1 x.1.2
  setSlice s h.slice { slice s h.slice with holds := (slice s h.slice).holds ++ [{ x.2 with line := h.line }] }

/-- A running reclamation starts again in both slices of a pair whose entries have moved. -/
def restartScans (s : State) (p : Nat) : State :=
  let agents := ((pairSlices p).flatMap (fun n => (slice s n).scan.map (·.1))).eraseDups
  onSlices s ((pairSlices p).filter (slicePwr s)) (fun x => { x with scan := agents.map (fun a => (a, scanLength)) })

/-- Everything of the pair goes to the place that the new configuration assigns, and the pair's logic is switched. -/
def relocate (s : State) (r : RunCmd) : State :=
  let p := movePairOf r
  let l := pairSlices p
  let es := pairEntries s p
  let ts := l.flatMap (fun n => (slice s n).entries.map (fun e => (n, e)))
  let rs := l.flatMap (fun n => (slice s n).retry.map (fun e => (n, e)))
  let hs := l.flatMap (fun n => (slice s n).holds.map (fun h => (chanOfLine s n h.line, h)))
  let top := l.foldl (fun a n => max a (slice s n).nextOrder) 0
  let s := onSlices s l (fun x => { x with filter := [], nru := [], entries := [], retry := [], holds := [], nextOrder := top })
  let s := es.foldl placeEntry (switchPair s r)
  let (s, ids) := ts.foldl placeTracker (s, [])
  let s := rs.foldl (placeRecord ids) s
  restartScans (hs.foldl placeHold s) p

/-- The next pair of an `ACCORD_CFG`, or its end (R396). -/
def accordNext (s : State) (r : RunCmd) : State :=
  match (namedPairs (firstParam r)).find? (fun p => decide (r.arg < p)) with
  | some p =>
    let s := mapMover s (fun r => { r with arg := p, phase := 1 })
    moveStart s { r with arg := p }
  | none => endMove s [BitVec.ofNat 32 (curMode s)]

/-- A pair has moved: take-up resumes in it; the first pair to join and the last to split change the mode. -/
def accordMoved (s : State) (r : RunCmd) : State :=
  let s := onSlices s (pairSlices r.arg) (fun x => { x with closed := false })
  if s.seq.moveLeft.isSome then endMove s []
  else
    let target := accordMode s r
    if target = curMode s then accordNext s r
    else movePhase (loadMode s target) 6

/-- A slice of a joined pair has moved: off, its drain follows; on, it is back. -/
def powerMoved (s : State) (r : RunCmd) : State :=
  if powersOn r then
    endMove (pinAll (unfence (engineBack s r.arg) r.arg)) []
  else movePhase (onSlices s [pairSlice r.arg] (fun x => { x with closed := false })) 4

/-- A slice of a joined pair comes back: the other slice's engine hands its channels over, with nothing dirty. -/
def backOn (r : RunCmd) : Bool := !isAccordCfg r && powersOn r

/-- ENTRY_MOVE_COMPLETE: the command goes as far as it can; the move ends when every entry fits its new set and no
back-invalidation it caused is left. -/
def entryMoveEffect (s : State) : State :=
  if !running s then s
  else
    let s := match mover s with
      | some r => moveWait s r
      | none => s
    match mover s with
    | some r =>
      if r.phase = 3 then
        let p := movePairOf r
        let s := dropWalks s p
        let t := switchPair s r
        let s := thinCrowds s t p
        let s := if backOn r then flushCaches s (pairSlice r.arg) else s
        if fitsIn s t p && pairQuiet s p && !(backOn r && metaDirty s (pairSlice r.arg)) then
          let s := relocate s r
          if isAccordCfg r then accordMoved s r else powerMoved s r
        else s
      else s
    | none => s

/-- The meaning of ENTRY_MOVE_COMPLETE. -/
def execEntryMoveComplete (s : State) : Host.Outcome State Fault Refusal := guarded s (entryMoveEffect s)

-- phase 4: drain and fence (Table 9.7)

/-- Step 3 of Table 9.7 for slice `n`: everything in it is empty, its output into the router among it. Refusals that wait for the
end of the command stay (R315; DEDUCED, assumption 81). -/
def sliceEmpty (s : State) (n : Nat) : Bool :=
  let x := slice s n
  x.entries.isEmpty && x.retry.all (·.cls) && x.victims.isEmpty && x.lanes.isEmpty && x.xslots.isEmpty && x.inbox.isEmpty
    && x.reclaims.isEmpty && x.marking.isEmpty && x.filter.isEmpty
    && !(s.spine.arrive ++ s.spine.queued).any (fun f => f.router == sliceRouter n && f.input == 5)

/-- Write data of a request to slice `n` is still owed or on its way: it is work of that request, so that what is redirected
after the closure are late answers alone (R234, R236; DEDUCED, assumption 81). Every other packet may still be waiting. -/
def dataComing (s : State) (n : Nat) : Bool :=
  (List.range 24).any (fun i => (port s i).owed.any (fun o => o.home.toNat == n && !o.drop && !o.ap))
    || (s.spine.arrive ++ s.spine.queued).any (fun f =>
        dstRouter f.pkt == sliceRouter n && f.pkt.dstUnit == 1 && (match f.pkt.msg with
          | .dat d => d.kind == 3 && !d.snpwb
          | .datPair d _ => d.kind == 3
          | _ => false))

/-- Outside Accord the sequencer back-invalidates the array of the slice (R159, R399). -/
def emptyArray (s : State) (n : Nat) : State := endWays s n (fun _ => true)

/-- The write queues of the channels of slice `n` are empty, with every merge read done. -/
def ownQueuesEmpty (s : State) (n : Nat) : Bool := (chan s (2 * n)).wrq.isEmpty && (chan s (2 * n + 1)).wrq.isEmpty

/-- Channel `c` is out of service: its pending neighbour actions have issued, it is inactive, L 0 (R262, R399, R407). -/
def stopChan (s : State) (c : Nat) : State := setFld (setBit (issuePending s c) (mcBase c) 8 false) (mcBase c + 0x80) 6 3 0

/-- The refusal records of slice `n` pass to slice `k`, which grants them at the end of the command. -/
def passRecords (s : State) (n k : Nat) : State :=
  let l := (slice s n).retry
  let s := setSlice s n { slice s n with retry := [] }
  l.foldl (fun s r => addRecord s k { r with waits := none }) s

/-- The fence of slice `n` is set: its caches have been written back, packets that wait for it are redirected, and its
translation series go on at the successor (steps 4 to 6). Outside Accord its channels end their service in self-refresh. -/
def fenceOff (s : State) (r : RunCmd) : State :=
  let n := r.arg
  let s := if pairJoined s (n / 2) then s
    else checkReadyFull (sleepChan (sleepChan (stopChan (stopChan s (2 * n)) (2 * n + 1)) (2 * n)) (2 * n + 1))
  let s := setBit (setBit s 0x300004 (16 + n) true) 0x300008 n true
  let s := passRecords (redirectQueued s n) n (successorOf s n)
  movePhase (copySeries s n (successorOf s n) (xlatSources s n)) 5

/-- SLICE_DRAINED: the slice empties, and is fenced when nothing is left and the command goes on: a fault that the write-back of
its caches finds may have ended it (R391). -/
def sliceDrainedEffect (s : State) (n : Nat) : State :=
  if !running s then s
  else match mover s with
  | some r =>
    if !isAccordCfg r ∧ r.phase = 4 ∧ r.arg = n then
      let accord := pairJoined s (n / 2)
      let s := if accord then s else emptyArray s n
      if sliceEmpty s n && (if accord then !dataComing s n else ownQueuesEmpty s n) then
        let s := flushCaches s n
        if metaDirty s n || (mover s).isNone then s else fenceOff s r
      else s
    else s
  | none => s

/-- The meaning of SLICE_DRAINED. -/
def execSliceDrained (n : SliceId) (s : State) : Host.Outcome State Fault Refusal := guarded s (sliceDrainedEffect s n)

/-- SLICE_DOMAIN_OFF (step 7): the domain is off and what it held is gone; failed tree nodes stay known. Under Accord the other
engine takes over, and fetches the pinned nodes; otherwise the refusals that waited for the end of the command are granted. -/
def sliceOffEffect (s : State) (n : Nat) : State :=
  if !running s then s
  else match mover s with
  | some r =>
    if !isAccordCfg r ∧ r.phase = 5 ∧ r.arg = n then
      let x := slice s n
      let s := setSlice s n { freshSlice with away := x.away, leaving := x.leaving, nodeBad := x.nodeBad }
      let s := dropCounts (setBit s 0x300004 n false) n
      endMove (if x.away then pinAll s else grantLeft s (successorOf s n) n) []
    else s
  | none => s

/-- The meaning of SLICE_DOMAIN_OFF. -/
def execSliceDomainOff (n : SliceId) (s : State) : Host.Outcome State Fault Refusal := guarded s (sliceOffEffect s n)

-- the end of a transition

/-- The channels that a `SET_MODE` to M9 names. -/
def leavingChans (s : State) : List Nat :=
  match s.seq.trans with
  | some t => (List.range 16).filter (fun c => t.chans.getLsbD c)
  | none => []

/-- A line of slice `n` decodes to one of the channels `l`. -/
def onChans (s : State) (l : List Nat) (n line : Nat) : Bool := l.contains (chanOfLine s n line).1

/-- The channels named are drained: no holder, no work, no queued write (R407). -/
def chansDrained (s : State) (l : List Nat) : Bool :=
  (List.range 8).all (fun n => !holdsLines s n (onChans s l n) && !worksOn s n (onChans s l n))
    && l.all (fun c => (chan s c).wrq.isEmpty)

/-- The channels named leave service, as far as they have been drained; then M9 takes the settings of M3 (R407). -/
def degradeStep (s : State) : State :=
  let l := leavingChans s
  let s := forEach 8 s (fun s n => if slicePwr s n then endWays s n (onChans s l n) else s)
  if chansDrained s l then
    let s := l.foldl (fun s c => flushCaches s (engineOf s c)) s
    if l.any (fun c => metaDirty s (engineOf s c)) then s
    else setPhase (loadMode (checkReadyFull (l.foldl stopChan s)) 9) 2
  else s

/-- A `SET_MODE` ends: in M10 a fault that has come meanwhile keeps the block there; a run mode waits for its tables. -/
def setModeEnd (s : State) : State :=
  let t := getFld s 0x10 8 4
  if inSafe s && anyFault s then finishCmd (setFld (setBit s 0x10 12 false) 0x10 8 4 10) stHwFault []
  else if runMode t && swapPending s then s
  else finishCmd (reachMode (leaveSafe s) t) stOk [BitVec.ofNat 32 t]

/-- The mode of an `ACCORD_CFG` changes once its tables are in use. -/
def accordModeEnd (s : State) (r : RunCmd) : State :=
  if swapPending s then s
  else
    let s := reachMode s (getFld s 0x10 8 4)
    accordNext s r

/-- MODE_TRANSITION_COMPLETE. -/
def modeTransitionEffect (s : State) : State :=
  if running s && inTransit s && curMode s != 7 && curMode s != 11 then
    match s.seq.run with
    | some r =>
      if bitsOf r.hdr 0 8 = 0x39 ∧ r.phase = 6 then accordModeEnd s r
      else if bitsOf r.hdr 0 8 = 2 then
        let s := if r.phase = 1 then degradeStep s else s
        match s.seq.run with
        | some r => if r.phase = 2 then setModeEnd s else s
        | none => s
      else s
    | none => s
  else s

/-- The meaning of MODE_TRANSITION_COMPLETE. -/
def execModeTransitionComplete (s : State) : Host.Outcome State Fault Refusal := guarded s (modeTransitionEffect s)

end Sys2Proof.Machine
end

