-- ==== Sys2Proof/Machine/TwinLink.lean ====
section
/-! DEFINITION. The twin port endpoint (chapter 13), first part: the configuration space, error reporting, link and
function resets, power states, the power domain, and the twin bay. -/

namespace Sys2Proof.Machine

-- the configuration space (R324, R325)

/-- A dword of the configuration space: the bits it always shows, the bits a configuration write replaces, those it clears by
writing 1, those only the endpoint sets, and the value after a reset of the writable ones. -/
structure CfgReg where
  fixed : Word
  rw : Word
  w1c : Word
  hw : Word
  dflt : Word
  deriving DecidableEq, Repr

/-- A dword that only shows a value. -/
def cfgFix (v : Word) : CfgReg := ⟨v, 0, 0, 0, 0⟩

/-- A dword with fixed and writable bits. -/
def cfgRw (v m : Word) : CfgReg := ⟨v, m, 0, 0, 0⟩

/-- log2 of the size of BAR4 in GiB, as last taken over (Table 13.11). -/
def bar4Log (s : State) : Nat := min 8 (bitsOf s.twin.latched 0 4)

/-- Size of BAR4 in bytes. -/
def bar4Size (s : State) : Nat := 2 ^ (30 + bar4Log s)

/-- Writable bits of the low and high dword of BAR4. -/
def bar4Mask (s : State) (high : Bool) : Word :=
  if high then BitVec.ofNat 32 (2 ^ 32 - 2 ^ (bar4Log s - 2)) else BitVec.ofNat 32 (2 ^ 32 - 2 ^ min 32 (30 + bar4Log s))

/-- The header (Table 13.2) and the power management, MSI-X and PCI Express capabilities (Table 13.3). Bits that the manual
does not state are those of the PCI Express Base Specification (PRESUMED, assumption 59). -/
def cfgLow (s : State) (a : Nat) : CfgReg :=
  match a with
  | 0x00 => cfgFix (s.pins.straps.did ++ s.pins.straps.vid)
  | 0x04 => ⟨0x00100000, 0x00000146, 0xF9000000, 0, 0⟩
  | 0x08 => cfgFix 0x058000B1
  | 0x0C => cfgRw 0 0xFF
  | 0x10 => cfgRw 0x4 0xFFFF0000
  | 0x14 => cfgRw 0 0xFFFFFFFF
  | 0x18 => cfgRw 0x4 0xFFFFC000
  | 0x1C => cfgRw 0 0xFFFFFFFF
  | 0x20 => cfgRw 0xC (bar4Mask s false)
  | 0x24 => cfgRw 0 (bar4Mask s true)
  | 0x2C => cfgFix (s.pins.straps.ssid ++ s.pins.straps.ssvid)
  | 0x34 => cfgFix 0x40
  | 0x3C => cfgRw 0 0xFF
  | 0x40 => cfgFix 0x48035001
  | 0x44 => ⟨0x8, 0x103, 0x8000, 0, 0⟩
  | 0x50 => cfgRw 0x00037011 0xC0000000
  | 0x58 => cfgFix 0x800
  | 0x70 => cfgFix 0x00020010
  | 0x74 => cfgFix 0x10008022
  | 0x78 => ⟨if s.twin.rdTags.isEmpty then 0 else 0x200000, 0x71EF, 0xF0000, 0, 0x2100⟩
  | 0x7C => cfgFix 0x00418845
  | 0x80 => ⟨BitVec.ofNat 32 (s.twin.speed.toNat * 2 ^ 16 + s.twin.width.toNat * 2 ^ 20), 0x2CB, 0, 0, 0⟩
  | 0x94 => cfgFix 0x00010013
  | 0x98 => cfgRw 0 0x1F
  | 0x9C => cfgFix 0x3E
  | 0xA0 => ⟨0, 0x3F, 0, 0, 5⟩
  | _ => cfgFix 0

/-- The capability of the margined lanes that starts at `a`: a lane's control in the low half, its status in the high one. -/
def cfgMargin : CfgReg := ⟨0, 0xFF7F, 0, 0xFF7F0000, 0x00009C38⟩

/-- The extended capabilities (Table 13.3). Bits that the manual does not state are those of the PCI Express Base
Specification (PRESUMED, assumption 59). -/
def cfgHigh (s : State) (a : Nat) : CfgReg :=
  match a with
  | 0x100 => cfgFix 0x14820001
  | 0x104 => ⟨0, 0, 0x001FF010, 0, 0⟩
  | 0x108 => cfgRw 0 0x001FF010
  | 0x10C => ⟨0, 0x001FF010, 0, 0, 0x00062010⟩
  | 0x110 => ⟨0, 0, 0x31C1, 0, 0⟩
  | 0x114 => ⟨0, 0x31C1, 0, 0, 0x2000⟩
  | 0x118 => ⟨0xA0, 0x140, 0, 0x1F, 0⟩
  | 0x11C => ⟨0, 0, 0, 0xFFFFFFFF, 0⟩
  | 0x120 => ⟨0, 0, 0, 0xFFFFFFFF, 0⟩
  | 0x124 => ⟨0, 0, 0, 0xFFFFFFFF, 0⟩
  | 0x128 => ⟨0, 0, 0, 0xFFFFFFFF, 0⟩
  | 0x148 => cfgFix 0x15810003
  | 0x14C => cfgFix (s.pins.straps.sn.extractLsb' 0 32)
  | 0x150 => cfgFix (s.pins.straps.sn.extractLsb' 32 32)
  | 0x158 => cfgFix 0x17810019
  | 0x160 => ⟨0, 0, 0xF, 0, 0⟩
  | 0x164 => cfgFix 0x7F007F00
  | 0x168 => cfgFix 0x7F007F00
  | 0x178 => cfgFix 0x1A010026
  | 0x184 => ⟨if decide (4 ≤ s.twin.speed.toNat) then 0xF else 0, 0, 0x10, 0, 0⟩
  | 0x188 => ⟨0, 0, 0xF, 0, 0⟩
  | 0x18C => ⟨0, 0, 0xF, 0, 0⟩
  | 0x190 => ⟨0, 0, 0xF, 0, 0⟩
  | 0x198 => cfgFix 0xF0F0F0F0
  | 0x1A0 => cfgFix 0x1C010027
  | 0x1A4 => cfgFix (if decide (4 ≤ s.twin.speed.toNat) then 0x30000 else 0)
  | 0x1A8 => cfgMargin
  | 0x1AC => cfgMargin
  | 0x1B0 => cfgMargin
  | 0x1B4 => cfgMargin
  | 0x1C0 => cfgFix 0x0001002A
  | 0x1C4 => cfgFix 0x100
  | 0x1CC => ⟨if s.twin.speed = 5 then 0xF else 0, 0, 0x10, 0, 0⟩
  | 0x1E0 => cfgFix 0xF0F0F0F0
  | _ => cfgFix 0

/-- The dword at `a`. -/
def cfgReg (s : State) (a : Nat) : CfgReg := if a < 0x100 then cfgLow s a else cfgHigh s a

/-- The stored bits of the dword at `a`. -/
def cfgStored (s : State) (a : Nat) : Word := cfgByte s (a + 3) ++ cfgByte s (a + 2) ++ cfgByte s (a + 1) ++ cfgByte s a

/-- What the configuration space shows at dword `a`. -/
def cfgRead (s : State) (a : Nat) : Word :=
  let r := cfgReg s a
  r.fixed ||| ((cfgStored s a ^^^ r.dflt) &&& (r.rw ||| r.w1c ||| r.hw))

/-- Store the dword at `a`. -/
def cfgStore (s : State) (a : Nat) (v : Word) : State :=
  forEach 4 s (fun s i => setCfgByte s (a + i) (v.extractLsb' (8 * i) 8))

/-- The endpoint itself sets the dword at `a` to show `v`. -/
def cfgPut (s : State) (a : Nat) (v : Word) : State :=
  let r := cfgReg s a
  cfgStore s a ((v ^^^ r.dflt) &&& (r.rw ||| r.w1c ||| r.hw))

/-- The endpoint sets bit `i` of the dword at `a`. -/
def cfgSet (s : State) (a i : Nat) : State := cfgPut s a (cfgRead s a ||| BitVec.ofNat 32 (2 ^ i))

/-- Byte enables spread over the bits of a dword. -/
def dwordMask (be : BitVec 4) : Word :=
  BitVec.ofNat 32 ((List.range 4).foldl (fun m i => if be.getLsbD i then m + 255 * 2 ^ (8 * i) else m) 0)

/-- A configuration write of the enabled bytes. -/
def cfgWrite (s : State) (a : Nat) (be : BitVec 4) (v : Word) : State :=
  let r := cfgReg s a
  let m := dwordMask be
  let old := cfgRead s a
  let new := (old &&& ~~~(r.rw &&& m)) ||| (v &&& r.rw &&& m)
  cfgPut s a (new &&& ~~~(v &&& r.w1c &&& m))

/-- Memory Space Enable. -/
def memEnable (s : State) : Bool := (cfgByte s 4).getLsbD 1

/-- Bus Master Enable. -/
def busMaster (s : State) : Bool := (cfgByte s 4).getLsbD 2

/-- Max_Payload_Size in bytes; values above 512 B act as 512 B. -/
def maxPayload (s : State) : Nat := 128 * 2 ^ min 2 (bitsOf (cfgRead s 0x78) 5 3)

/-- The completion timeout in ns (Table 13.8). -/
def cplTimeout (s : State) : Nat :=
  match bitsOf (cfgRead s 0x98) 0 4 with
  | 1 => 80000
  | 2 => 8000000
  | 6 => 160000000
  | _ => 40000000

/-- Completion Timeout Disable. -/
def cplDisabled (s : State) : Bool := bitOf (cfgRead s 0x98) 4

-- error reporting

/-- Device Control lets a message of severity `k` leave; of an Unsupported Request (`ur`) only with its reporting enabled
(PRESUMED, assumption 59). -/
def errEnabled (s : State) (k : Nat) (ur : Bool) : Bool := bitOf (cfgRead s 0x78) k && (!ur || bitOf (cfgRead s 0x78) 3)

/-- A correctable error `i` of the AER capability: status, and a message where it is not masked. -/
def aerCorr (s : State) (i : Nat) (ur : Bool) : State :=
  let s := cfgSet (cfgSet s 0x110 i) 0x78 16
  if !bitOf (cfgRead s 0x114) i && errEnabled s 0 ur then twinOut s (.errMsg 0 (ecrcOn s)) else s

/-- What is known of the header of a TLP: the value of each dword, and the mask of its known bits. -/
abbrev TlpHdr := List (Word × Word)

/-- The header of a memory TLP to BAR4. Its traffic class, its hints and whether it carries an ECRC are no operands. -/
def memHdr (s : State) (write : Bool) (t : MemTlp) : TlpHdr :=
  let base := (cfgRead s 0x24).toNat * 2 ^ 32 + (cfgRead s 0x20).toNat / 16 * 16
  let a := base + t.off.toNat
  let lead := t.off.toNat % 4
  let n := (lead + t.len + 3) / 4
  let on := fun (k : Nat) => decide (lead ≤ k) && decide (k < lead + t.len) && t.en.getD (k - lead) true
  let be := fun (d : Nat) => (List.range 4).foldl (fun m b => if on (4 * d + b) then m + 2 ^ b else m) 0
  let far := decide (2 ^ 32 ≤ a)
  [(BitVec.ofNat 32 (2 ^ 30 * b2n write + 2 ^ 29 * b2n far + 2 ^ 23 * b2n (t.tag.getLsbD 9) + 2 ^ 19 * b2n (t.tag.getLsbD 8)
      + 2 ^ 14 * b2n t.ep + 2 ^ 13 * b2n t.relaxed + n % 1024), 0xFF8863FF),
   (BitVec.ofNat 32 (t.rid.toNat * 2 ^ 16 + t.tag.toNat % 256 * 2 ^ 8 + (if n ≤ 1 then 0 else be (n - 1) * 2 ^ 4) + be 0), 0xFFFFFFFF),
   (if far then BitVec.ofNat 32 (a / 2 ^ 32) else BitVec.ofNat 32 (a / 4 * 4), 0xFFFFFFFF),
   (BitVec.ofNat 32 (a / 4 * 4), if far then 0xFFFFFFFC else 0)]

/-- The header of a request of which only requester and tag are known. -/
def idHdr (rid tag : Nat) : TlpHdr := [(0, 0), (BitVec.ofNat 32 (rid * 2 ^ 16 + tag % 256 * 2 ^ 8), 0xFFFFFF00)]

/-- The header of the TLP concerned enters the header log at the first unmasked error; bits that no operand tells are free. -/
def aerLog (s : State) (i : Nat) (h : TlpHdr) : State :=
  if cfgRead s 0x104 &&& ~~~(cfgRead s 0x108) = 0 then
    let s := cfgPut s 0x118 ((cfgRead s 0x118 &&& 0xFFFFFFE0) ||| BitVec.ofNat 32 i)
    forEach 4 s (fun s k =>
      let (f, s) := takeFree s
      let (v, m) := h.getD k (0, 0)
      cfgPut s (0x11C + 4 * k) ((v &&& m) ||| (f.setWidth 32 &&& ~~~m)))
  else s

/-- An error message of a severity leaves where Device Control or SERR# Enable lets it; under the latter Signaled System Error
is set. -/
def errMessage (s : State) (fatal ur : Bool) : State :=
  let serr := bitOf (cfgRead s 0x04) 8
  if errEnabled s (if fatal then 2 else 1) ur || serr then
    twinOut (if serr then cfgSet s 0x04 30 else s) (.errMsg (if fatal then 2 else 1) (ecrcOn s))
  else s

/-- An uncorrectable error `i`: logged, and reported as fatal or non-fatal by its severity. -/
def aerUncorr (s : State) (i : Nat) (h : TlpHdr) : State :=
  let s := cfgSet (aerLog s i h) 0x104 i
  let fatal := bitOf (cfgRead s 0x10C) i
  let s := cfgSet s 0x78 (if fatal then 18 else 17)
  let s := if i = 20 then cfgSet s 0x78 19 else s
  if bitOf (cfgRead s 0x108) i then s else errMessage s fatal (i == 20)

/-- An advisory non-fatal error: an uncorrectable error of non-fatal severity that is reported as correctable. -/
def aerAdvisory (s : State) (i : Nat) (h : TlpHdr) : State :=
  if bitOf (cfgRead s 0x10C) i then aerUncorr s i h
  else
    let s := if i = 20 then cfgSet s 0x78 19 else s
    let s := if bitOf (cfgRead s 0x114) 13 then s else cfgSet (aerLog s i h) 0x104 i
    aerCorr s 13 (i == 20)

/-- TWN_ERR bit `k` with its capture (Table 13.12). -/
def twinErr (s : State) (k tag rid : Nat) : State :=
  raiseErr s 0x310008 k 0x31000C (BitVec.ofNat 32 (k + 2 ^ 4 * (tag % 256) + 2 ^ 12 * rid + 2 ^ 31))

-- mirroring and the link (R364, R365)

/-- Table 14.4: queued and unconfirmed lines are discarded with their granule bits set, and every window breaks. -/
def mirrorBreak (s : State) : State := pumpAll (mwBreakAll (mirrorDiscard s false) false)

/-- Both devices are Lead, as a heartbeat has shown, and neither has been named Follow since (R368; DEDUCED, assumption 100). -/
def dualLead (s : State) : Bool := twinRole s == 1 && s.mirror.dual

/-- Windows that broke other than by partner loss return to BEHIND on a Lead whose link is usable, whose partner is not lost
and is no Lead too (Table 14.3, R368). -/
def mirrorRecover (s : State) : State :=
  if twinRole s = 1 && linkUsable s && !getBit s 0x310084 2 && !dualLead s then
    forEach 16 s (fun s w => if mwEn s w && mwState s w == 3 && !s.mirror.lossBroken.getLsbD w then mwMove s w 2 else s)
  else s

/-- Bus Master Enable has been cleared: windows fall behind (Table 14.4). -/
def busMasterLost (s : State) : State :=
  forEach 16 s (fun s w => if mwEn s w && mwState s w == 1 then mwMove s w 2 else s)

-- resets (Table 13.9)

/-- Mastered reads are abandoned: each tag waits in quarantine for its completion, to be discarded silently (R342). -/
def abandonReads (s : State) : State :=
  let until' := s.tick + (if cplDisabled s then 160000000 else cplTimeout s)
  { s with twin := { s.twin with quar := s.twin.quar ++ s.twin.rdTags.map (fun t => (t.1, until', true)), rdTags := [] },
           mirror := { s.mirror with flushTag := none } }

/-- Inbound requests run to their end without completions; lines of reads not yet issued are not read. -/
def muteJobs (s : State) : State :=
  { s with twin := { s.twin with
      jobs := s.twin.jobs.map (fun j => { j with mute := true, lines := if j.write then j.lines else j.lines.take j.next }) } }

/-- The jobs that have nothing left to do go. -/
def clearJobs (s : State) : State :=
  { s with twin := { s.twin with jobs := s.twin.jobs.filter (fun j => decide (j.parts.length < j.lines.length)) } }

/-- `PERST_N`, hot reset or link down (R32, R341). -/
def linkReset (s : State) : State :=
  let s := mirrorBreak (abandonReads s)
  let s := clearJobs (muteJobs (resetWindows s))
  { s with twin := { s.twin with
      up := false, training := false, speed := 0, width := 0, latched := getReg s 0x310000, cfg := [], msix := [],
      flrDue := none, d3 := false, l1 := false } }

/-- The bytes of the configuration space that a Function Level Reset keeps: the fields of the link (its controls, its lane and
equalisation status, its lane margining), Max_Payload_Size, and the sticky fields of AER. -/
def flrKeeps (a : Nat) : Bool :=
  (decide (0x80 ≤ a) && decide (a < 0x82)) || (decide (0xA0 ≤ a) && decide (a < 0xA4)) || (decide (0x104 ≤ a) && decide (a < 0x12C))
    || (decide (0x160 ≤ a) && decide (a < 0x164)) || (decide (0x184 ≤ a) && decide (a < 0x194))
    || (decide (0x1A8 ≤ a) && decide (a < 0x1B8)) || (decide (0x1CC ≤ a) && decide (a < 0x1D0))

/-- FLR (R342). -/
def flrEffect (s : State) : State :=
  if s.twin.up && s.twin.flrDue.isNone then
    let mps := cfgByte s 0x78 &&& 0xE0
    let s := mirrorBreak (abandonReads s)
    let s := clearJobs (muteJobs (resetWindows s))
    let s := { s with twin := { s.twin with
      cfg := cellsDrop (fun a => !flrKeeps a) s.twin.cfg, msix := [], d3 := false, flrDue := some (s.tick + 1000000) } }
    setCfgByte s 0x78 mps
  else s

/-- The meaning of FLR. -/
def execFlr (s : State) : Host.Outcome State Fault Refusal := guarded s (if running s then flrEffect s else s)

/-- FLR_COMPLETE: within 1 ms the function accepts configuration requests again. -/
def flrDoneEffect (s : State) : State := { s with twin := { s.twin with flrDue := none } }

/-- The meaning of FLR_COMPLETE. -/
def execFlrComplete (s : State) : Host.Outcome State Fault Refusal := guarded s (flrDoneEffect s)

/-- PERST_ASSERT (R32). With the domain off it resets the windows (R341); in reset and in M8 only the level counts, and it
resets them at the exit. -/
def perstAssertEffect (s : State) : State :=
  if s.twin.perstLow then s
  else
    let s := { s with twin := { s.twin with perstLow := true } }
    if !running s then s else if twinPwr s then linkReset s else resetWindows s

/-- The meaning of PERST_ASSERT. -/
def execPerstAssert (s : State) : Host.Outcome State Fault Refusal := guarded s (perstAssertEffect s)

/-- The meaning of PERST_RELEASE: training may begin (R31). -/
def execPerstRelease (s : State) : Host.Outcome State Fault Refusal :=
  guarded s { s with twin := { s.twin with perstLow := false } }

/-- `STRAP_VID` is one that a licensee may have (R54). -/
def vidValid (s : State) : Bool := s.pins.straps.vid != 0 && s.pins.straps.vid != 0xFFFF

/-- The twin link may train: domain on, LINK_EN 1, `PERST_N` released, a valid Vendor ID. -/
def linkPermitted (s : State) : Bool :=
  running s && twinPwr s && getBit s 0x310000 9 && !s.twin.perstLow && vidValid s

/-- LINK_TRAINING_START (R31). -/
def trainStartEffect (s : State) : State :=
  if linkPermitted s && !s.twin.up then { s with twin := { s.twin with training := true } } else s

/-- The meaning of LINK_TRAINING_START. -/
def execLinkTrainingStart (s : State) : Host.Outcome State Fault Refusal := guarded s (trainStartEffect s)

/-- The highest rate, coded 1 to 5 (Table 13.11). -/
def maxSpeed (s : State) : Nat := max 1 (min 5 (bitsOf s.twin.latched 4 3))

/-- The most lanes. -/
def maxWidth (s : State) : Nat := 2 ^ min 2 (bitsOf s.twin.latched 7 2)

/-- LINK_UP (R364): the rate and lanes negotiated, within the limits configured. -/
def linkUpEffect (s : State) (speed width : BitVec 3) : State :=
  if s.twin.training && linkPermitted s then
    let s := { s with twin := { s.twin with
      training := false, up := true, speed := BitVec.ofNat 3 (min speed.toNat (maxSpeed s)),
      width := BitVec.ofNat 3 (min width.toNat (maxWidth s)) } }
    mirrorRecover s
  else s

/-- The meaning of LINK_UP. -/
def execLinkUp (speed width : BitVec 3) (s : State) : Host.Outcome State Fault Refusal := guarded s (linkUpEffect s speed width)

/-- LINK_DOWN (R341). -/
def linkDownEffect (s : State) : State := if running s && (s.twin.up || s.twin.training) then linkReset s else s

/-- The meaning of LINK_DOWN. -/
def execLinkDown (s : State) : Host.Outcome State Fault Refusal := guarded s (linkDownEffect s)

/-- The meaning of HOT_RESET (R341): it comes over a link that is up, which then trains again. -/
def execHotReset (s : State) : Host.Outcome State Fault Refusal :=
  guarded s (if running s && s.twin.up then linkReset s else s)

-- power states

/-- The function enters D3hot (R339, Table 14.4). -/
def enterD3 (s : State) : State :=
  if s.twin.d3 then s
  else
    let s := mirrorBreak s
    { s with twin := { s.twin with d3 := true } }

/-- The function returns to D0, with everything kept. -/
def leaveD3 (s : State) : State := mirrorRecover { s with twin := { s.twin with d3 := false, l1 := false } }

/-- D3HOT_ENTRY: a configuration write of PowerState 3. -/
def d3Effect (s : State) : State :=
  if running s && s.twin.up && s.twin.flrDue.isNone then enterD3 (setCfgByte s 0x44 (cfgByte s 0x44 ||| 3)) else s

/-- The meaning of D3HOT_ENTRY. -/
def execD3hotEntry (s : State) : Host.Outcome State Fault Refusal := guarded s (d3Effect s)

/-- BUS_MASTER_ENABLE_CLEAR (R343): no mastered TLP starts from here on; one TLP is one step, so none is cut. -/
def bmeClearEffect (s : State) : State :=
  if running s && s.twin.up && s.twin.flrDue.isNone && busMaster s then busMasterLost (setCfgByte s 4 (cfgByte s 4 &&& 0xFB))
  else s

/-- The meaning of BUS_MASTER_ENABLE_CLEAR. -/
def execBusMasterEnableClear (s : State) : Host.Outcome State Fault Refusal := guarded s (bmeClearEffect s)

/-- ASPM_L1_REQUEST (R339): in D0 with ASPM L1 enabled and nothing to send. -/
def l1Effect (s : State) : State :=
  let idle := s.mirror.queue.isEmpty && s.twin.jobs.all (fun j => j.write)
  if running s && s.twin.up && (s.twin.d3 || (bitOf (cfgRead s 0x80) 1 && idle)) then
    { s with twin := { s.twin with l1 := true } }
  else s

/-- The meaning of ASPM_L1_REQUEST. -/
def execAspmL1Request (s : State) : Host.Outcome State Fault Refusal := guarded s (l1Effect s)

-- configuration requests

/-- A lane's margining status answers its control: the command is echoed, with a payload that the manual does not state; the
report of the capabilities shows voltage margining (Table 13.3, assumption 59). -/
def marginAnswer (s : State) (a : Nat) : State :=
  let v := cfgRead s a
  let (f, s) := takeFree s
  let report := bitsOf v 3 3 == 1 && bitsOf v 8 8 == 0x88
  let p := if report then f.toNat % 256 ||| 1 else f.toNat % 256
  cfgPut s a (BitVec.ofNat 32 (bitsOf v 0 16 + 2 ^ 16 * bitsOf v 0 7 + 2 ^ 24 * p))

/-- What a configuration write of dword `a` sets off: Bus Master Enable, the power state, Initiate FLR, and a margin command. -/
def cfgActs (s : State) (a : Nat) (be : BitVec 4) (v : Word) (bme : Bool) : State :=
  if a = 4 then
    if bme && !busMaster s then busMasterLost s else if !bme && busMaster s then mirrorRecover s else s
  else if a = 0x44 ∧ be.getLsbD 0 then
    if bitsOf v 0 2 = 3 then enterD3 s else if s.twin.d3 then leaveD3 s else s
  else if a = 0x78 ∧ be.getLsbD 1 ∧ bitOf v 15 then flrEffect s
  else if 0x1A8 ≤ a ∧ a ≤ 0x1B4 then marginAnswer s a
  else s

/-- PowerState takes only the states the function has: D1 and D2 change nothing. -/
def powerWord (s : State) (a : Nat) (v : Word) : Word :=
  if a = 0x44 ∧ (bitsOf v 0 2 = 1 ∨ bitsOf v 0 2 = 2) then bitsTo v 0 2 (bitsOf (cfgRead s 0x44) 0 2) else v

/-- CONFIG_REQUEST (R324 to R326): from the beginning of training. During an FLR it is answered with Configuration Request
Retry (status 2). -/
def configEffect (s : State) (write : Bool) (addr : BitVec 12) (be : BitVec 4) (data : Word) : State :=
  if !running s || !(s.twin.up || s.twin.training) then s
  else if s.twin.flrDue.isSome then twinOut s (.cpl 0 0 2 [] false)
  else
    let a := addr.toNat / 4 * 4
    if write then
      let bme := busMaster s
      let v := powerWord s a data
      twinOut (cfgActs (cfgWrite s a be v) a be v bme) (.cpl 0 0 0 [] false)
    else
      let v := cfgRead s a
      twinOut s (.cpl 0 0 0 ((List.range 4).map (fun i => v.extractLsb' (8 * i) 8)) false)

/-- The meaning of CONFIG_REQUEST. -/
def execConfigRequest (write : Bool) (addr : BitVec 12) (be : BitVec 4) (data : Word) (s : State) :
    Host.Outcome State Fault Refusal := guarded s (configEffect s write addr be data)

-- the power domain (R344)

/-- TWN_CFG.LINK_EN is written: 1 switches the domain on; 0 holds the link down (R344). -/
def linkEnEffect (s : State) (en : Bool) : State :=
  let old := getBit s 0x310000 9
  let s := setBit s 0x310000 9 en
  if en then (if !old && !twinPwr s then twinOn s else s)
  else if s.twin.up || s.twin.training then linkReset s else s

/-- TWIN_DOMAIN_OFF (R344): with the link down, no line request open and no tag outstanding or quarantined; then the fence
of R239. -/
def twinOffEffect (s : State) : State :=
  if running s && twinPwr s && !getBit s 0x310000 9 && twinQuiet s then
    let s := s.twin.inbox.foldl (fun s i => mirrorTake s i.pkt.msg) s
    let s := setBit (setBit s 0x300004 12 false) 0x300008 8 true
    { s with twin := { s.twin with cfg := [], msix := [], jobs := [], inbox := [], training := false } }
  else s

/-- The meaning of TWIN_DOMAIN_OFF. -/
def execTwinDomainOff (s : State) : Host.Outcome State Fault Refusal := guarded s (twinOffEffect s)

-- the twin bay (R345 to R348)

/-- TWN_BAY_STATUS.PRESENT. -/
def present (s : State) : Bool := getBit s 0x310044 0

/-- `PWR_EN` follows PWR_REQ and presence; after a surprise removal with AUTO_OFF 0 it stays high until PWR_REQ is
cleared (R346). -/
def drivePower (s : State) : State :=
  let keep := s.twin.surprise && s.pins.pwrEn && !getBit s 0x310040 5
  let on := getBit s 0x310040 0 && (present s || keep)
  setBit { s with pins := { s.pins with pwrEn := on }, twin := { s.twin with surprise := s.twin.surprise && !present s } } 0x310044 1 on

/-- A surprise removal: noted, the power indicator off, mirroring broken, and the partner lost where that is configured,
whatever the role (R346, R363, Table 14.4). -/
def surpriseRemoval (s : State) : State :=
  let s := setFld (setBit s 0x310044 4 true) 0x310040 3 2 0
  let s := mirrorBreak { s with twin := { s.twin with surprise := true } }
  if getBit s 0x310064 16 then pumpAll (partnerLost s) else s

/-- PRESENCE_CHANGE (R345): the level `now` has held for 20 ms. -/
def presenceEffect (s : State) (now : Bool) : State :=
  if running s && s.pins.tbRun && now != present s then
    let power := s.pins.pwrEn
    let s := setBit (setBit s 0x310044 0 now) 0x310044 2 true
    drivePower (if power && !now then surpriseRemoval s else s)
  else s

/-- The meaning of PRESENCE_CHANGE. -/
def execPresenceChange (present : Bool) (s : State) : Host.Outcome State Fault Refusal :=
  guarded s (presenceEffect s present)

/-- ATTENTION_PRESS (R345, R340). -/
def attentionEffect (s : State) : State :=
  if running s && s.pins.tbRun then wakePme (setBit s 0x310044 3 true) else s

/-- The meaning of ATTENTION_PRESS. -/
def execAttentionPress (s : State) : Host.Outcome State Fault Refusal := guarded s (attentionEffect s)

/-- The fault blink takes `ATTN_LED` (R440). -/
def faultBlinks (s : State) : Bool := !faultN s && getBit s 0x340070 0

/-- The level of an indicator: 1 on, 2 blink, else off. -/
def indicator (mode : Nat) (blink : Bool) : Bool := mode == 1 || (mode == 2 && blink)

/-- The LEDs have left the level of reset, which lasts until step 5 of Table 2.4, and of M8 (Table 2.5, R347, R440). -/
def ledsOut (s : State) : Bool := running s && (s.pins.live || s.seq.exit8)

/-- Level of `PWR_LED` (R347): off in reset and in M8. -/
def pwrLed (s : State) : Bool := ledsOut s && indicator (getFld s 0x310040 3 2) s.twin.blinkOn

/-- Level of `ATTN_LED` (R347, R440): off in reset and in M8 and until the next expiry after them, else the fault blink while that
has it, else its indicator. -/
def attnLed (s : State) : Bool :=
  ledsOut s && s.twin.attnOn &&
    (if s.twin.attnCase then s.twin.fltBlinkOn else indicator (getFld s 0x310040 1 2) s.twin.blinkOn)

/-- A timer of the comparator bank has expired and its action is still to come (Table 17.10): 0 drydown, 1 heartbeat
receive, 2 heartbeat transmit, 3 dump period, 4 indicator blink. -/
def comparatorDue (s : State) (k : Nat) : Bool :=
  match k with
  | 0 => inSafe s && blockedCode s == 0 && decide (s.faults.quietStart + quietPeriod s ≤ s.tick)
  | 1 => twinRole s != 0 && decide (s.mirror.hbRxDue ≤ s.tick)
  | 2 => twinRole s != 0 && decide (s.mirror.hbTxDue ≤ s.tick)
  | 3 => getBit s 0x332010 0 && decide (s.obs.dumpDue ≤ s.tick)
  | _ => decide (s.twin.blinkDue ≤ s.tick)

/-- The comparator at place `k` of the precedence acts: those before it have acted (R441). -/
def comparatorTurn (s : State) (k : Nat) : Bool := !(List.range k).any (comparatorDue s)

/-- `ATTN_LED` goes to the case that takes it, the fault blink or its indicator, at an expiry of the pattern of that case
(R440). -/
def attnTurn (s : State) (fault : Bool) (t : Twin) : Twin :=
  if ledsOut s && faultBlinks s == fault then { t with attnCase := fault, attnOn := true } else t

/-- BLINK_PHASE: the 320 ms phase toggles, and `ATTN_LED` goes to its indicator unless the fault blink takes it (R440). -/
def blinkEffect (s : State) : State :=
  if running s && s.pins.tbRun && comparatorTurn s 4 && decide (s.twin.blinkDue ≤ s.tick) then
    { s with twin := attnTurn s false { s.twin with blinkOn := !s.twin.blinkOn, blinkDue := s.tick + 320000000 } }
  else s

/-- The meaning of BLINK_PHASE. -/
def execBlinkPhase (s : State) : Host.Outcome State Fault Refusal := guarded s (blinkEffect s)

/-- FAULT_BLINK_PHASE: the 80 ms phase toggles, and `ATTN_LED` goes to the fault blink where that takes it (R440). -/
def faultBlinkEffect (s : State) : State :=
  if running s && s.pins.tbRun && comparatorTurn s 5 && decide (s.twin.fltBlinkDue ≤ s.tick) then
    { s with twin := attnTurn s true { s.twin with fltBlinkOn := !s.twin.fltBlinkOn, fltBlinkDue := s.tick + 80000000 } }
  else s

/-- The meaning of FAULT_BLINK_PHASE. -/
def execFaultBlinkPhase (s : State) : Host.Outcome State Fault Refusal := guarded s (faultBlinkEffect s)

end Sys2Proof.Machine
end

