-- ==== Sys2Proof/Machine/Twin.lean ====
section
/-! DEFINITION. The twin port endpoint (chapters 13 and 14), second part: inbound TLPs and their line requests, window
commits, mastered writes and reads, the copier and the heartbeat. -/

namespace Sys2Proof.Machine

-- windows (R328, R329)

/-- Registers of window `w`: shadow and active. -/
def winShadow (w : Nat) : Nat := 0x310100 + 16 * w
def winActive (w : Nat) : Nat := 0x310200 + 16 * w

/-- Window `w` as the block of registers at `b` has it: BASE, LIMIT and EN. -/
def winAt (s : State) (b : Nat) : Nat × Nat × Bool := (getFld s b 0 17, getFld s (b + 4) 0 17, getBit s (b + 0xC) 0)

/-- The registers that describe window `w` once the windows of `mask` are committed. -/
def winAfter (mask : BitVec 16) (w : Nat) : Nat := if mask.getLsbD w then winShadow w else winActive w

/-- Two enabled windows overlap, or a window, enabled or not, ends beyond BAR4 (R329). -/
def commitBad (s : State) (mask : BitVec 16) : Bool :=
  let l := (List.range 16).map (fun w => (w, winAt s (winAfter mask w)))
  let on := l.filter (fun x => x.2.2.2)
  l.any (fun x => decide (bar4Size s / 2 ^ 21 ≤ x.2.2.1))
    || on.any (fun x => on.any (fun y => x.1 != y.1 && decide (x.2.1 ≤ y.2.2.1) && decide (y.2.1 ≤ x.2.2.1)))

/-- ACTIVE_EN of TWN_W_STATUS follows the active copies. -/
def activeEnables (s : State) : State :=
  setFld s 0x31001C 0 16 ((List.range 16).foldl (fun m w => if getBit s (winActive w + 0xC) 0 then m + 2 ^ w else m) 0)

/-- TWN_W_COMMIT (R329). -/
def commitEffect (s : State) (mask : BitVec 16) : State :=
  if !running s || !s.pins.live then s
  else if commitBad s mask then setBit s 0x31001C 16 true
  else
    let s := forEach 16 s (fun s w =>
      if mask.getLsbD w then forEach 4 s (fun s i => setReg s (winActive w + 4 * i) (getReg s (winShadow w + 4 * i))) else s)
    activeEnables s

/-- The window that a TLP lies in (R328). -/
def windowOf (s : State) (off len : Nat) : Option Nat :=
  (List.range 16).find? (fun w =>
    let (lo, hi, en) := winAt s (winActive w)
    en && decide (lo ≤ off / 2 ^ 21 % 2 ^ 17) && decide ((off + len - 1) / 2 ^ 21 % 2 ^ 17 ≤ hi))

-- inbound TLPs (R327 to R333)

/-- The function claims memory TLPs: link up, D0, no reset under way, Memory Space Enable 1. -/
def claimsMemory (s : State) : Bool := s.twin.up && !s.twin.d3 && s.twin.flrDue.isNone && memEnable s

/-- A TLP that cannot reach the endpoint, or reaches it while it takes none. -/
def linkDead (s : State) : Bool := !running s || !s.twin.up || s.twin.flrDue.isSome

/-- An Unsupported Request (Table 13.7): a completion for a read, an error for a write. -/
def answerUr (s : State) (write : Bool) (rid : BitVec 16) (tag : BitVec 10) (h : TlpHdr) : State :=
  let s := twinErr s 6 tag.toNat rid.toNat
  if write then aerUncorr s 20 h else aerAdvisory (twinOut s (.cpl rid tag 1 [] false)) 20 h

/-- Signaled Target Abort. -/
def targetAbort (s : State) : State := cfgSet s 0x04 27

/-- A Completer Abort of the window decode, or in M10. -/
def answerCa (s : State) (write : Bool) (rid : BitVec 16) (tag : BitVec 10) (h : TlpHdr) : State :=
  let s := targetAbort s
  if write then aerUncorr s 15 h else aerAdvisory (twinOut s (.cpl rid tag 4 [] false)) 15 h

/-- A write line that a home refuses (Table 13.7). -/
def lineRefused (s : State) (tag : Nat) (rid : Nat) (h : TlpHdr) : State := aerUncorr (targetAbort (twinErr s 8 tag rid)) 15 h

/-- Line `i` of a write of bytes from `start`: its enabled bytes and their data. -/
def writeLine (start : Nat) (t : MemTlp) (i : Nat) : TlpLine :=
  let base := start / 64 * 64 + 64 * i
  let at' := fun (k : Nat) => base + k - start
  let here := fun (k : Nat) => decide (start ≤ base + k) && decide (at' k < t.len) && t.en.getD (at' k) true
  let be := (List.range 64).foldl (fun m k => if here k then m + 2 ^ k else m) 0
  let d := (List.range 64).foldl (fun m k => if here k then m + (t.bytes.getD (at' k) 0).toNat * 2 ^ (8 * k) else m) 0
  ⟨BitVec.ofNat 48 base, BitVec.ofNat 64 be, BitVec.ofNat 512 d, t.ep⟩

/-- The lines of a TLP from local byte `start`; a write line with no byte enabled is none. -/
def tlpLines (write : Bool) (start : Nat) (t : MemTlp) : List TlpLine :=
  let n := if t.len = 0 then 0 else (start % 64 + t.len + 63) / 64
  if write then ((List.range n).map (writeLine start t)).filter (fun l => l.be != 0)
  else (List.range n).map (fun i => ⟨BitVec.ofNat 48 (start / 64 * 64 + 64 * i), 0, 0, false⟩)

/-- A TLP that its window accepts becomes line requests (R330). -/
def acceptTlp (s : State) (write : Bool) (t : MemTlp) (w : Nat) : State :=
  let start := getFld s (winActive w + 8) 0 27 * 2 ^ 21 + t.off.toNat - getFld s (winActive w) 0 17 * 2 ^ 21
  let lines := tlpLines write start t
  if lines.isEmpty then s
  else
    let j : TlpJob := { id := s.twin.jobNext, write := write, rid := t.rid, tag := t.tag, relaxed := t.relaxed, hdr := memHdr s write t, start := start,
                        len := t.len, attr := getReg s (winActive w + 0xC), lines := lines, next := 0, parts := [], mute := false }
    { s with twin := { s.twin with jobs := s.twin.jobs ++ [j], jobNext := s.twin.jobNext + 1 } }

/-- An inbound memory TLP to BAR4, decoded once from its header (R327, R328). In M10 it is refused (Table 15.8). -/
def inboundTlp (s : State) (write : Bool) (t : MemTlp) : State :=
  let h := memHdr s write t
  if !claimsMemory s || decide (bar4Size s < t.off.toNat + t.len) then answerUr s write t.rid t.tag h
  else match windowOf s t.off.toNat t.len with
  | none => answerUr s write t.rid t.tag h
  | some w =>
    if !getBit s (winActive w + 0xC) (if write then 2 else 1) then
      answerCa (twinErr s 7 t.tag.toNat t.rid.toNat) write t.rid t.tag h
    else if inSafe s then
      if write then lineRefused s t.tag.toNat t.rid.toNat h else answerCa s false t.rid t.tag h
    else acceptTlp s write t w

/-- Posted data credits that a write of `len` bytes from `start` takes: one for each 16 bytes of its dwords. -/
def dataCredits (start len : Nat) : Nat := ((start % 4 + len + 3) / 4 + 3) / 4

/-- The TLPs in the receive buffers: those of which a line has not been issued (DESIGN CHOICE, assumption 82). -/
def tlpsHeld (s : State) (write : Bool) : List TlpJob :=
  s.twin.jobs.filter (fun j => j.write == write && decide (j.next < j.lines.length))

/-- The endpoint has credits for the TLP: 64 posted headers and 1,024 posted data, 64 non-posted headers (R334). Without them
the partner does not send it. -/
def tlpCredit (s : State) (write : Bool) (t : MemTlp) : Bool :=
  let l := tlpsHeld s write
  decide (l.length < 64) && (!write
    || decide ((l.map (fun j => dataCredits j.start j.len)).sum + dataCredits t.off.toNat t.len ≤ 1024))

/-- A poisoned TLP is accepted and noted (R338). -/
def notePoison (s : State) (t : MemTlp) : State :=
  aerAdvisory (twinErr (cfgSet s 0x04 31) 3 t.tag.toNat t.rid.toNat) 12 (memHdr s true t)

/-- INBOUND_MEM_WRITE. -/
def memWriteEffect (s : State) (t : MemTlp) : State :=
  if linkDead s || !tlpCredit s true t then s else inboundTlp (if t.ep then notePoison s t else s) true t

/-- The meaning of INBOUND_MEM_WRITE. -/
def execInboundMemWrite (t : MemTlp) (s : State) : Host.Outcome State Fault Refusal := guarded s (memWriteEffect s t)

/-- INBOUND_MEM_READ. -/
def memReadEffect (s : State) (t : MemTlp) : State := if linkDead s || !tlpCredit s false t then s else inboundTlp s false t

/-- The meaning of INBOUND_MEM_READ. -/
def execInboundMemRead (t : MemTlp) (s : State) : Host.Outcome State Fault Refusal := guarded s (memReadEffect s t)

/-- INBOUND_TLP_ERROR (R323, R338). -/
def tlpErrorEffect (s : State) (e : TlpError) : State :=
  if linkDead s then s
  else match e with
  | .poisoned t => memWriteEffect s { t with ep := true }
  | .unsupported posted tag rid => answerUr s posted rid tag (idHdr rid.toNat tag.toNat)
  | .malformed tag rid => report (aerUncorr (twinErr s 5 tag.toNat rid.toNat) 18 (idHdr rid.toNat tag.toNat)) 25 1
  | .ecrc tag rid =>
    if bitOf (cfgRead s 0x118) 8 then
      report (aerUncorr (twinErr s 4 tag.toNat rid.toNat) 19 (idHdr rid.toNat tag.toNat)) 25 1
    else s

/-- The meaning of INBOUND_TLP_ERROR. -/
def execInboundTlpError (e : TlpError) (s : State) : Host.Outcome State Fault Refusal := guarded s (tlpErrorEffect s e)

-- BAR0 (R371)

/-- A word of the partner status page (Table 14.7). -/
def statusPage (s : State) (i : Nat) : Word :=
  match i with
  | 0 => BitVec.ofNat 32 (getFld s 0x310060 0 3 + 2 ^ 3 * curMode s + 2 ^ 7 * getFld s 0x310084 2 1 + 2 ^ 8 * getFld s 0x310094 2 1)
  | 1 => getReg s 0x310088
  | 2 => getReg s 0x31008C
  | 3 => getReg s 0x310090
  | 4 => BitVec.ofNat 32 (dirtyCount s)
  | _ => BitVec.ofNat 32 ((List.range 16).foldl (fun a w => a + mwState s w * 2 ^ (2 * w)) 0)

/-- What a BAR0 offset holds: MSI-X table, PBA, status page, or nothing. -/
inductive Bar0 where
  | table (i : Nat)
  | pba
  | page (i : Nat)
  | nothing
  deriving DecidableEq, Repr

/-- The decode of a BAR0 offset (Table 13.4). -/
def bar0Of (off : Nat) : Bar0 :=
  let i := off / 4
  if off % 4 ≠ 0 then .nothing
  else if i < 16 then .table i
  else if off = 0x800 ∨ off = 0x804 then .pba
  else if 0x1000 ≤ off ∧ off ≤ 0x1014 then .page (i - 0x400)
  else .nothing

/-- Bytes of a word, least significant first. -/
def wordBytes (v : Word) : List (BitVec 8) := (List.range 4).map (fun i => v.extractLsb' (8 * i) 8)

/-- A word of the MSI-X table; the mask bit of each vector is 1 after reset. -/
def msixReset (i : Nat) : Word := if i % 4 = 3 then 1 else 0

/-- Writable bits of a word of the MSI-X table. -/
def msixMask (i : Nat) : Word := if i % 4 = 3 then 1 else if i % 4 = 0 then 0xFFFFFFFC else 0xFFFFFFFF

/-- BAR0_ACCESS. -/
def bar0Effect (s : State) (write : Bool) (off : Nat) (v : Word) : State :=
  if linkDead s then s
  else if !claimsMemory s then answerUr s write 0 0 []
  else match bar0Of off, write with
  | .table i, true => { s with twin := { s.twin with msix := cellsSet msixReset s.twin.msix i (v &&& msixMask i) } }
  | .table i, false => twinOut s (.cpl 0 0 0 (wordBytes (cellsGet msixReset s.twin.msix i)) false)
  | .pba, true => s
  | .pba, false => twinOut s (.cpl 0 0 0 (wordBytes 0) false)
  | .page i, false => twinOut s (.cpl 0 0 0 (wordBytes (statusPage s i)) false)
  | _, _ => answerUr s write 0 0 []

/-- The meaning of BAR0_ACCESS. -/
def execBar0Access (write : Bool) (off : BitVec 16) (data : Word) (s : State) : Host.Outcome State Fault Refusal :=
  guarded s (bar0Effect s write off.toNat data)

-- line requests (R330, R331)

/-- A half of the write data of a line request to slice `n`. -/
def twinHalf (t : TwinTxn) (n : Nat) (h : Bool) : Dat :=
  { kind := 3, half := h, poison := t.poison.getLsbD (b2n h), home := BitVec.ofNat 3 n, txn := t.txn, entry := 0,
    snpwb := false, dst := 0, state := 0, prio := t.req.prio, be := t.be.extractLsb' (if h then 32 else 0) 32,
    data := lineHalf t.data h }

/-- The request leaves for the home of its line, and both halves of its data as one packet (R221). A line that no slice homes
is answered here: no packet reaches a slice (R245). -/
def lineSend (s : State) (t : TwinTxn) : State :=
  match homeOf s t.req.addr.toNat with
  | none =>
    let i : InMsg := ⟨mkPacket 0 2 24 false t.req.prio (bridgeErr 7 t.req.txn t.req.prio), false, s.tick⟩
    { s with twin := { s.twin with inbox := s.twin.inbox ++ [i] } }
  | some h =>
    let n := h.slice
    let no := BitVec.ofNat 16 s.twin.reqNo
    let mk := fun (m : Msg) => { mkPacket (sliceRouter n) 1 24 false t.req.prio m with reqNo := no }
    let s := { s with twin := { s.twin with reqNo := (s.twin.reqNo + 1) % 65536 } }
    let s := launch s 0 5 (mk (.req t.req))
    if isWriteReq t.req then launch s 0 5 (mk (.datPair (twinHalf t n false) (twinHalf t n true))) else s

/-- A request of the twin port. -/
def twinReq (op : BitVec 6) (txn : BitVec 8) (prio : BitVec 2) (realm : BitVec 6) (priv : BitVec 2) (a : Addr) : Req :=
  { opcode := op, subop := 0, txn := txn, prio := prio, realm := realm, priv := priv, walk := false, crd := false,
    smp := false, addr := a, size := 6, xtag := 0 }

/-- Put a transaction among those in flight. -/
def addTwinTxn (s : State) (t : TwinTxn) : State := { s with twin := { s.twin with txns := s.twin.txns ++ [t] } }

/-- A job may issue a line (R331): a strictly ordered write after all strictly ordered writes before it, a read after all
writes before it. -/
def jobMayIssue (before : List TlpJob) (j : TlpJob) : Bool :=
  decide (j.next < j.lines.length)
    && (if j.write then j.relaxed || !before.any (fun k => k.write && !k.relaxed) else !before.any (·.write))

/-- The first job that may issue a line. -/
def nextJob : List TlpJob → List TlpJob → Option TlpJob
  | _, [] => none
  | before, j :: l => if jobMayIssue before j then some j else nextJob (before ++ [j]) l

/-- Replace a job. -/
def setJob (s : State) (j : TlpJob) : State :=
  { s with twin := { s.twin with jobs := mapIf (fun k => k.id == j.id) (fun _ => j) s.twin.jobs } }

/-- The request of the next line of job `j`. -/
def jobTxn (j : TlpJob) (txn : BitVec 8) (l : TlpLine) : TwinTxn :=
  let op : BitVec 6 := if !j.write then 3 else if l.be = BitVec.allOnes 64 then 0x10 else 0x11
  { txn := txn, job := some (j.id, j.next), copy := none,
    req := twinReq op txn (j.attr.extractLsb' 11 2) (j.attr.extractLsb' 3 6) (j.attr.extractLsb' 9 2) l.addr,
    be := l.be, data := l.data, poison := if l.poison then 3 else 0, half := 0, done := none, held := false, grant := false }

/-- Realm and privilege of a copier read: those of the line's own region. -/
def copierRights (s : State) (pa : Nat) : BitVec 6 × BitVec 2 :=
  match regionOf s pa with
  | some i => (BitVec.ofNat 6 (rgnRealm s i), 3)
  | none => (0, 3)

/-- Lines of the copier in the queue or being read. -/
def copierLoad (s : State) : Nat :=
  (s.mirror.queue.filter (fun i => match i with
    | .line l => l.copied
    | .beat _ => false)).length + (s.twin.txns.filter (fun t => t.copy.isSome)).length

/-- The copier may read a line: it holds at most 768 lines of the queue, and the line will find its place there (R356,
R357). -/
def copierReady (s : State) : Bool := !s.mirror.copyLines.isEmpty && decide (copierLoad s < 768) && decide (0 < mirrorRoom s)

/-- The copier reads its next line with `RdOnce`. -/
def copierIssue (s : State) (txn : BitVec 8) : State :=
  match s.mirror.copyLines with
  | (a, n) :: l =>
    let rest := if n ≤ 1 then l else (a + 64, n - 1) :: l
    let s := { s with mirror := { s.mirror with copyLines := rest } }
    let (realm, priv) := copierRights s a.toNat
    let q := twinReq 3 txn (BitVec.ofNat 2 (getFld s 0x310064 17 2)) realm priv a
    let t : TwinTxn := { txn := txn, job := none, copy := some (s.mirror.copyWin, s.mirror.copyRun), req := q, be := 0, data := 0, poison := 0,
                         half := 0, done := none, held := false, grant := false }
    addTwinTxn (lineSend s t) t
  | [] => s

/-- The reissue of a refused request under its grant (R95). -/
def reissue (s : State) (t : TwinTxn) : State :=
  let t := { t with req := { t.req with crd := true }, held := false, grant := false }
  lineSend { s with twin := { s.twin with txns := mapIf (fun x => x.txn == t.txn) (fun _ => t) s.twin.txns } } t

-- completions (R332, R333)

/-- The bytes of part `p` of a read of `len` bytes from `start`. -/
def partBytes (start len : Nat) (p : TlpPart) : List (BitVec 8) :=
  let base := start / 64 * 64 + 64 * p.index
  let lo := max start base
  let hi := min (start + len) (base + 64)
  (List.range (hi - lo)).map (fun i => lineByte p.data (lo - base + i))

/-- The bytes that a read of `len` bytes from `start` takes of part `p` include a poisoned half. -/
def partPoisoned (start len : Nat) (p : TlpPart) : Bool :=
  let base := start / 64 * 64 + 64 * p.index
  (p.poison.getLsbD 0 && decide (max start base < base + 32)) || (p.poison.getLsbD 1 && decide (base + 32 < min (start + len) (base + 64)))

/-- Completions of a read in address order: lines join up to Max_Payload_Size, one of which a poisoned half is read is sent
alone and whole with EP, and a refused one ends the read with Completer Abort (R283, R332, Table 13.7). -/
def readCpls (j : TlpJob) (mps : Nat) : List (BitVec 8) → List TlpPart → List TlpOut
  | acc, [] => if acc.isEmpty then [] else [.cpl j.rid j.tag 0 acc false]
  | acc, p :: l =>
    let done := if acc.isEmpty then [] else [TlpOut.cpl j.rid j.tag 0 acc false]
    let b := partBytes j.start j.len p
    if p.refused then done ++ [.cpl j.rid j.tag 4 [] false]
    else if partPoisoned j.start j.len p then
      done ++ .cpl j.rid j.tag 0 ((List.range 64).map (lineByte p.data)) true :: readCpls j mps [] l
    else if acc.length + b.length ≤ mps then readCpls j mps (acc ++ b) l
    else done ++ readCpls j mps b l

/-- The parts of a job in address order. -/
def partsInOrder (j : TlpJob) : List TlpPart :=
  (List.range j.lines.length).filterMap (fun i => j.parts.find? (fun p => p.index == i))

/-- A job whose every line has ended goes; a read is answered. -/
def jobEnd (s : State) (j : TlpJob) : State :=
  let out := if j.write || j.mute then [] else readCpls j (maxPayload s) [] (partsInOrder j)
  let s := { s with twin := { s.twin with jobs := s.twin.jobs.filter (fun k => k.id != j.id) } }
  let aborts := !out.isEmpty && j.parts.any (·.refused)
  let s := out.foldl twinOut (if aborts then targetAbort s else s)
  if aborts then aerAdvisory s 15 j.hdr else s

/-- A line of a TLP has ended. -/
def jobPart (s : State) (id : Nat) (p : TlpPart) : State :=
  match s.twin.jobs.find? (fun j => j.id == id) with
  | none => s
  | some j =>
    let s := if j.write ∧ p.refused then lineRefused s j.tag.toNat j.rid.toNat j.hdr else s
    let j := { j with parts := j.parts ++ [p] }
    let s := setJob s j
    if j.parts.length = j.lines.length then jobEnd s j else s

/-- In M10 no packet leaves for a home (R380): the next line of a TLP that came before ends as one that a home refuses (Table
15.8; DEDUCED, assumption 27). -/
def lineSafe (s : State) : State :=
  match nextJob [] s.twin.jobs with
  | some j => jobPart (setJob s { j with next := j.next + 1 }) j.id ⟨j.next, true, 0, 0⟩
  | none => s

/-- TWIN_LINE_ISSUE: a granted reissue, then the lines of TLPs, then those of the copier; at most 128 at homes (R330). -/
def lineIssueEffect (s : State) : State :=
  if !running s || !twinPwr s then s
  else if inSafe s then lineSafe s
  else match s.twin.txns.find? (fun t => t.held && t.grant) with
  | some t => reissue s t
  | none =>
    match firstFree 128 (s.twin.txns.map (fun t => t.txn.toNat)) with
    | none => s
    | some k =>
      let txn := BitVec.ofNat 8 k
      match nextJob [] s.twin.jobs with
      | some j =>
        match j.lines[j.next]? with
        | some l =>
          let t := jobTxn j txn l
          addTwinTxn (lineSend (setJob s { j with next := j.next + 1 }) t) t
        | none => s
      | none => if copierReady s then copierIssue s txn else s

/-- The meaning of TWIN_LINE_ISSUE. -/
def execTwinLineIssue (s : State) : Host.Outcome State Fault Refusal := guarded s (lineIssueEffect s)

/-- A line read by copy `run` joins the mirror queue (R357); the granule of one that could not be read stays dirty, and a copy
that has been stopped gives its place up. -/
def copierLine (s : State) (w run : Nat) (pa : Nat) (d : LineData) (poison : BitVec 2) (ok : Bool) : State :=
  if s.mirror.copyGran.isNone ∨ run ≠ s.mirror.copyRun then refillQueue s
  else if mwState s w ≠ 2 ∨ !ok then refillQueue (copyStop s)
  else
    let l : MirLine := ⟨w, BitVec.ofNat 48 pa, ⟨d, poison, false⟩, false, 0, s.tick, true⟩
    let s := { s with mirror := { s.mirror with queue := s.mirror.queue ++ [.line l] } }
    let more := !s.mirror.copyLines.isEmpty || s.twin.txns.any (fun t => t.copy == some (w, run))
    if more then s else { s with mirror := { s.mirror with copyGran := none } }

/-- A request has ended: `err` 0 for `Comp`. Poison covers `UNCORR` and `LOST` (Table 13.7). -/
def lineEnds (s : State) (t : TwinTxn) (err : Nat) : State :=
  let s := { s with twin := { s.twin with txns := s.twin.txns.filter (fun x => x.txn != t.txn) } }
  let read := !isWriteReq t.req
  let refused := err != 0 && !(read && (err == 1 || err == 2))
  let poison := if err = 0 then t.poison else 3
  let s := match t.job with
    | some (id, i) => jobPart s id ⟨i, refused, poison, t.data⟩
    | none => s
  match t.copy with
  | some (w, run) => copierLine s w run t.req.addr.toNat t.data poison (!refused)
  | none => s

/-- A read that ends with data waits for both halves. -/
def lineSettle (s : State) (t : TwinTxn) : State :=
  match t.done with
  | some e =>
    let wantsData := !isWriteReq t.req && (e == 0 || e == 1 || e == 2)
    if wantsData && t.half != 3 then s else lineEnds s t e.toNat
  | none => s

/-- Replace a transaction. -/
def setTwinTxn (s : State) (t : TwinTxn) : State :=
  { s with twin := { s.twin with txns := mapIf (fun x => x.txn == t.txn) (fun _ => t) s.twin.txns } }

/-- A half of data for a read. -/
def takeHalf (t : TwinTxn) (d : Dat) : TwinTxn :=
  { t with data := lineSetHalf t.data d.half d.data, half := t.half ||| BitVec.ofNat 2 (1 + b2n d.half),
           poison := if d.poison then t.poison ||| BitVec.ofNat 2 (1 + b2n d.half) else t.poison }

/-- What a message of a home or an agent does to the transaction it names. -/
def twinMessage (t : TwinTxn) (m : Msg) : TwinTxn :=
  match m with
  | .rsp r =>
    if r.opcode = 2 then { t with done := some 0 }
    else if r.opcode = 7 then { t with done := some r.err }
    else if r.opcode = 5 then { t with held := true }
    else if r.opcode = 6 then { t with grant := true }
    else t
  | .dat d => if isWriteReq t.req then t else takeHalf t d
  | .datPair a b => if isWriteReq t.req then t else takeHalf (takeHalf t a) b
  | _ => t

/-- The line watched for heartbeats reaches the twin port; what waits for confirmations of windows that break goes on. -/
def takeWatched (s : State) (d : LineData) : State := if twinRole s ≠ 0 then pumpAll (heartbeatReceive s d) else s

/-- TWIN_LINE_RESPONSE: the next message for source 24, or the next mirrored or watched line. One that names no request in
flight changes nothing. -/
def lineResponseEffect (s : State) : State :=
  match s.twin.inbox with
  | [] => s
  | i :: l =>
    let s := { s with twin := { s.twin with inbox := l } }
    match i.pkt.msg with
    | .mirror _ _ _ _ _ => pumpAll (mirrorTake s i.pkt.msg)
    | .watched d => takeWatched s d
    | m =>
      match s.twin.txns.find? (fun t => t.txn == msgTxn m) with
      | some t =>
        let t := twinMessage t m
        lineSettle (setTwinTxn s t) t
      | none => s

/-- The meaning of TWIN_LINE_RESPONSE. -/
def execTwinLineResponse (s : State) : Host.Outcome State Fault Refusal :=
  guarded s (if running s then lineResponseEffect s else s)

-- mastered reads (R336, R337)

/-- Every line of a synchronous window that is not confirmed is given up with its granule bit set (R360). -/
def syncGiveUp (s : State) : State :=
  let s := markLines s (syncOpen s)
  let keep := fun (i : MirItem) => match i with
    | .line l => !l.sync
    | .beat _ => true
  { s with mirror := { s.mirror with queue := s.mirror.queue.filter keep, waiting := [],
                                     sent := s.mirror.sent.filter (fun l => !l.sync),
                                     flushOf := s.mirror.flushOf.filter (fun l => !l.sync) } }

/-- A flush read has failed: every write sent and not confirmed has its granule bit set, and windows break (R360, Table
14.4). -/
def flushFailed (s : State) (tag : BitVec 8) : State :=
  if s.mirror.flushTag = some tag then
    let s := syncGiveUp (markLines s (s.mirror.flushOf ++ s.mirror.sent))
    let s := { s with mirror := { s.mirror with flushTag := none, flushOf := [], sent := [] } }
    pumpAll (mwBreakAll s false)
  else s

/-- A mastered read ends without its data, as an expiry ends it: AER Completion Timeout, TWN_ERR.CPL_TMO, one count, one event,
and the flush that it was has failed (R337). -/
def readFails (s : State) (tag : BitVec 8) : State :=
  let s := satAdd (aerUncorr (twinErr s 0 tag.toNat 0) 14 []) 0x310014 0 16 1
  report (flushFailed s tag) 25 0

/-- Drop a tag from those outstanding. -/
def dropTag (s : State) (tag : BitVec 8) : State :=
  { s with twin := { s.twin with rdTags := s.twin.rdTags.filter (fun t => t.1 != tag) } }

/-- A completion absorbed after its expiry (R337). -/
def absorbLate (s : State) (tag : BitVec 8) : State :=
  logRecord (satAdd (twinErr s 1 tag.toNat 0) 0x310014 16 16 1) 8 25 0 0 tag.toNat

/-- What the header shows of a poisoned completion: Detected Parity Error, and with Parity Error Response Master Data Parity
Error. -/
def parityNoted (s : State) : State :=
  let s := cfgSet s 0x04 31
  if bitOf (cfgRead s 0x04) 6 then cfgSet s 0x04 24 else s

/-- The header of a completion of which only the tag is known. -/
def cplHdr (tag : BitVec 8) : TlpHdr := [(0, 0), (0, 0), (BitVec.ofNat 32 (tag.toNat * 2 ^ 8), 0xFF00)]

/-- COMPLETION_RECEIVE: it confirms a flush, ends its read, or is absorbed (R337, R342, R359). During an FLR it only releases
its tag from quarantine. -/
def completionEffect (s : State) (tag : BitVec 8) (st : CplStatus) : State :=
  if !running s || !s.twin.up then s
  else if s.twin.rdTags.any (fun t => t.1 == tag) then
    let s := dropTag s tag
    match st with
    | .ok _ poisoned =>
      let s := if poisoned then aerAdvisory (twinErr (parityNoted s) 3 tag.toNat 0) 12 (cplHdr tag) else s
      if s.mirror.flushTag = some tag then
        pumpAll { s with mirror := { s.mirror with flushTag := none, flushOf := [] } }
      else s
    | .refused abort => readFails (twinErr (cfgSet s 0x04 (if abort then 28 else 29)) 2 tag.toNat 0) tag
  else match s.twin.quar.find? (fun t => t.1 == tag) with
  | some (_, _, silent) =>
    if silent then { s with twin := { s.twin with quar := s.twin.quar.filter (fun t => t.1 != tag) } } else absorbLate s tag
  | none => if s.twin.flrDue.isSome then s else aerAdvisory s 16 (cplHdr tag)

/-- The meaning of COMPLETION_RECEIVE. -/
def execCompletionReceive (tag : BitVec 8) (st : CplStatus) (s : State) : Host.Outcome State Fault Refusal :=
  guarded s (completionEffect s tag st)

/-- COMPLETION_TIMEOUT (R337): the read ends, its tag waits in quarantine. -/
def cplTimeoutEffect (s : State) (tag : BitVec 8) : State :=
  match s.twin.rdTags.find? (fun t => t.1 == tag) with
  | some (_, since) =>
    if running s && !cplDisabled s && decide (since + cplTimeout s ≤ s.tick) then
      let s := dropTag s tag
      readFails { s with twin := { s.twin with quar := s.twin.quar ++ [(tag, s.tick + cplTimeout s, false)] } } tag
    else s
  | none => s

/-- The meaning of COMPLETION_TIMEOUT. -/
def execCompletionTimeout (tag : BitVec 8) (s : State) : Host.Outcome State Fault Refusal := guarded s (cplTimeoutEffect s tag)

/-- QUARANTINE_EXPIRE: the tag is free. -/
def quarantineEffect (s : State) (tag : BitVec 8) : State :=
  if running s then
    { s with twin := { s.twin with quar := s.twin.quar.filter (fun t => !(t.1 == tag && decide (t.2.1 ≤ s.tick))) } }
  else s

/-- The meaning of QUARANTINE_EXPIRE. -/
def execQuarantineExpire (tag : BitVec 8) (s : State) : Host.Outcome State Fault Refusal := guarded s (quarantineEffect s tag)

-- the mirror engine (R353 to R361)

/-- Partner address of a mirrored line. -/
def partnerAddr (s : State) (l : MirLine) : Nat :=
  (getReg s (mwBase l.window + 8)).toNat * 2 ^ 21 + (l.addr.toNat - mwLo s l.window)

/-- The line goes alone with EP: a half is poisoned, or it is lost (R353). -/
def sendsAlone (l : MirLine) : Bool := l.img.poison != 0 || l.img.lost

/-- The lines that join line `l` in one TLP: consecutive in the queue and at the partner, within the payload size and a 4 KiB
block. -/
def joinLines (s : State) (next room : Nat) : Nat → List MirItem → List MirLine
  | 0, _ => []
  | fuel + 1, .line l :: rest =>
    if !sendsAlone l && partnerAddr s l == next && decide (64 ≤ room) && next % 4096 != 0 then
      l :: joinLines s (next + 64) (room - 64) fuel rest
    else []
  | _, _ => []

/-- A heartbeat has left: after one that says CLEAN, windows without dirty granules and unsent copies are in step
(Table 14.3). -/
def beatLeft (s : State) (d : LineData) : State :=
  let s := { s with mirror := { s.mirror with beatAfter := true } }
  if lineNat d 10 1 % 2 = 1 then
    let copying := fun (w : Nat) => (s.mirror.copyGran.isSome && s.mirror.copyWin == w)
      || s.mirror.queue.any (fun i => match i with
        | .line l => l.copied && l.window == w
        | .beat _ => false)
    forEach 16 s (fun s w => if mwEn s w && mwState s w == 2 && !mwDirty s w && !copying w then mwMove s w 1 else s)
  else s

/-- MIRROR_WRITE_SEND: the head of the queue leaves as one posted write. -/
def mirrorSendEffect (s : State) : State :=
  if !running s || !linkUsable s then s
  else match s.mirror.queue with
  | [] => s
  | .beat d :: rest =>
    let a := (getReg s 0x310074).toNat + (getReg s 0x310078).toNat * 2 ^ 32
    let s := twinOut { s with mirror := { s.mirror with queue := rest } } (.memWrite (BitVec.ofNat 64 a) [d] false (ecrcOn s))
    beatLeft s d
  | .line l :: rest =>
    let a := partnerAddr s l
    let more := if sendsAlone l then [] else joinLines s (a + 64) (maxPayload s - 64) 7 rest
    let all := l :: more
    let s := if sendsAlone l && bitOf (cfgRead s 0x04) 6 then cfgSet s 0x04 24 else s
    let s := twinOut s (.memWrite (BitVec.ofNat 64 a) (all.map (·.img.data)) (sendsAlone l) (ecrcOn s))
    let s := { s with mirror := { s.mirror with
      queue := rest.drop more.length, sent := s.mirror.sent ++ all, beatAfter := false } }
    pumpAll (refillQueue s)

/-- The meaning of MIRROR_WRITE_SEND. -/
def execMirrorWriteSend (s : State) : Host.Outcome State Fault Refusal := guarded s (mirrorSendEffect s)

/-- FLUSH_READ_ISSUE (R359): one 4-byte read of the partner's heartbeat line, after the writes sent, where a synchronous line
is among them. -/
def flushIssueEffect (s : State) : State :=
  if running s && linkUsable s && s.mirror.flushTag.isNone && s.mirror.sent.any (·.sync) then
    match firstFree 256 (s.twin.rdTags.map (fun t => t.1.toNat) ++ s.twin.quar.map (fun t => t.1.toNat)) with
    | some k =>
      let tag := BitVec.ofNat 8 k
      let a := (getReg s 0x310074).toNat + (getReg s 0x310078).toNat * 2 ^ 32
      let s := twinOut s (.memRead (BitVec.ofNat 64 a) 4 tag (ecrcOn s))
      { s with twin := { s.twin with rdTags := s.twin.rdTags ++ [(tag, s.tick)] },
               mirror := { s.mirror with flushTag := some tag, flushOf := s.mirror.sent, sent := [] } }
    | none => s
  else s

/-- The meaning of FLUSH_READ_ISSUE. -/
def execFlushReadIssue (s : State) : Host.Outcome State Fault Refusal := guarded s (flushIssueEffect s)

/-- TWN_MIR_CTL.SYNC_TMO_US in ticks. -/
def syncTimeout (s : State) : Nat := max 10 (min 10000 (getFld s 0x310064 0 14)) * 1000

/-- A line of a synchronous window has been in the mirror queue, or on its way from there to its confirmation, for the time
that R360 allows. -/
def syncLate (s : State) : Bool :=
  (syncOpen s).any (fun l => !s.mirror.waiting.contains l && decide (l.since + syncTimeout s ≤ s.tick))

/-- SYNC_TIMEOUT (R360): every synchronous window breaks, unconfirmed lines are marked, held messages are released. A flush
read in flight stays the one in flight (R359). -/
def syncTimeoutEffect (s : State) : State :=
  if running s && syncLate s then
    pumpAll (forEach 16 (syncGiveUp s) (fun s w => if mwSync s w then mwBreak false s w else s))
  else s

/-- The meaning of SYNC_TIMEOUT. -/
def execSyncTimeout (s : State) : Host.Outcome State Fault Refusal := guarded s (syncTimeoutEffect s)

/-- The lowest dirty granule of window `w` from number `i` on. -/
def granuleFrom (s : State) (w i : Nat) : Option (Nat × Nat) :=
  let first := getFld s (mwBase w + 0xC) 4 17
  ((List.range (mwGranules s w)).find? (fun k => decide (i ≤ k) && s.mirror.dirty.getLsbD (first + k))).map (fun k => (w, k))

/-- The granule to copy next, of the windows that are BEHIND: ascending from where the copier stands, and in a new pass from
the lowest (R357). -/
def nextGranule (s : State) : Option (Nat × Nat) :=
  let l := (List.range 16).filter (fun w => mwEn s w && mwState s w == 2 && mwDirty s w)
  let here := s.mirror.copyWin
  match (l.filter (fun w => decide (here ≤ w))).findSome? (fun w => granuleFrom s w (if w = here then s.mirror.copyNext else 0)) with
  | some g => some g
  | none => l.findSome? (fun w => granuleFrom s w 0)

/-- COPIER_GRANULE (R357): windows that may recover fall behind (Table 14.3), the next granule's bit is cleared and its 4,096
lines are to be read. -/
def copierEffect (s : State) : State :=
  let s := if running s && twinPwr s then mirrorRecover s else s
  if running s && twinPwr s && twinRole s == 1 && s.mirror.copyGran.isNone && !inSafe s then
    match nextGranule s with
    | some (w, i) =>
      let g := getFld s (mwBase w + 0xC) 4 17 + i
      let s := setDirtyMap s (s.mirror.dirty &&& ~~~(BitVec.ofNat 131072 (2 ^ g)))
      { s with mirror := { s.mirror with copyWin := w, copyGran := some g, copyNext := i + 1, copyRun := s.mirror.copyRun + 1,
                                         copyLines := [(BitVec.ofNat 48 (mwLo s w + i * 2 ^ 18), 4096)] } }
    | none => s
  else s

/-- The meaning of COPIER_GRANULE. -/
def execCopierGranule (s : State) : Host.Outcome State Fault Refusal := guarded s (copierEffect s)

/-- CLEAN of a heartbeat (R361). -/
def cleanNow (s : State) : Bool :=
  twinRole s == 1 && (List.range 16).all (fun w => !mwEn s w || (!mwDirty s w && mwState s w != 3))

/-- A heartbeat line with epoch `k` (Table 14.2). -/
def heartbeatLine (s : State) (k : Nat) : LineData :=
  let broken := (List.range 16).any (fun w => mwEn s w && mwState s w == 3)
  let flags := b2n (cleanNow s) + 2 * b2n (inSafe s) + 4 * b2n broken
  BitVec.ofNat 512 (0x4E495754 + 2 ^ 32 * k + 2 ^ 64 * twinRole s + 2 ^ 72 * curMode s + 2 ^ 80 * flags
    + 2 ^ 96 * dirtyCount s + 2 ^ 128 * (s.tick % 2 ^ 64))

/-- HEARTBEAT_TRANSMIT (R361): every 100 µs, behind the mirror writes queued; dropped while it cannot be mastered, and from a
surprise removal until a module is present again (Table 14.4; its end is a DESIGN CHOICE, assumption 84). -/
def beatEffect (s : State) : State :=
  if running s && s.pins.tbRun && twinRole s != 0 && comparatorTurn s 2 && decide (s.mirror.hbTxDue ≤ s.tick) then
    let s := { s with mirror := { s.mirror with hbTxDue := s.tick + 100000 } }
    if linkUsable s && !s.twin.surprise then
      let k := ((getReg s 0x310088).toNat + 1) % 2 ^ 32
      let s := setReg s 0x310088 (BitVec.ofNat 32 k)
      { s with mirror := { s.mirror with queue := s.mirror.queue ++ [.beat (heartbeatLine s k)] } }
    else s
  else s

/-- The meaning of HEARTBEAT_TRANSMIT. -/
def execHeartbeatTransmit (s : State) : Host.Outcome State Fault Refusal := guarded s (beatEffect s)

/-- HEARTBEAT_MISS (R363). -/
def missEffect (s : State) : State :=
  if running s && s.pins.tbRun && twinRole s != 0 && comparatorTurn s 1 && decide (s.mirror.hbRxDue ≤ s.tick) then
    let s := armHbRx (setFld s 0x310084 0 2 (min 3 (getFld s 0x310084 0 2 + 1)))
    if getFld s 0x310084 0 2 = 3 then pumpAll (partnerLost s) else s
  else s

/-- The meaning of HEARTBEAT_MISS. -/
def execHeartbeatMiss (s : State) : Host.Outcome State Fault Refusal := guarded s (missEffect s)

end Sys2Proof.Machine
end

