-- ==== Sys2Proof/Machine/Packets.lean ====
section
/-! DEFINITION. Command packets in their FIFOs (R444 to R447): framing, the packet that is next, refusals that need no
opcode's rules, and the writers of the sillage FIFO (R428 to R430, R443). -/

namespace Sys2Proof.Machine

-- words of a command FIFO

/-- Words in a command FIFO. -/
def fifoWords (m : Mail) : Nat := (m.cmd.map (·.count)).sum

/-- LENGTH of a header. -/
def hdrLength (h : Word) : Nat := bitsOf h 8 8

/-- OPCODE of a header. -/
def hdrOpcode (h : Word) : Nat := bitsOf h 0 8

/-- The opcodes of Table 18.4. -/
def knownOpcodes : List Nat :=
  [0x01, 0x02, 0x03, 0x10, 0x11, 0x12, 0x20, 0x21, 0x28, 0x29, 0x30, 0x31, 0x38, 0x39, 0x40, 0x41, 0x42, 0x48, 0x49, 0x50,
   0x51, 0x58, 0x60, 0x61]

/-- The packet under assembly. -/
def openPkt (m : Mail) : Option CmdPkt := (m.cmd.getLast?).filter (fun p => p.owed != 0)

/-- A word joins the packet under assembly: stored, lost for want of room, or discarded with a packet already answered. A
discarded packet goes with its last word. -/
def joinWord (m : Mail) (cap : Nat) (p : CmdPkt) (w : Word) : Mail × Bool :=
  let full := decide (cap ≤ fifoWords m)
  let p := { p with owed := p.owed - 1 }
  if p.dropped then ({ m with cmd := m.cmd.dropLast ++ (if p.owed = 0 then [] else [p]) }, false)
  else if full then ({ m with cmd := m.cmd.dropLast ++ [{ p with torn := true }] }, true)
  else ({ m with cmd := m.cmd.dropLast ++ [{ p with stored := p.stored ++ [w], count := p.count + 1 }] }, false)

/-- A header starts a packet; one that finds no room is lost and its packet torn. -/
def startPkt (m : Mail) (cap : Nat) (w : Word) : Mail × Bool :=
  let full := decide (cap ≤ fifoWords m)
  let p : CmdPkt := ⟨w, [], b2n (!full), hdrLength w, full, false⟩
  ({ m with cmd := m.cmd ++ [p] }, full)

/-- A partner header with LENGTH above 31 is answered at once (R454). -/
def refuseLong (s : State) (m : Mail) (w : Word) : State :=
  let s := setMail s .partner { m with cmd := m.cmd ++ [⟨w, [], 0, hdrLength w, false, true⟩] }
  sendReply s .partner w stDenied []

/-- A word is pushed into a command FIFO (R445). -/
def pushWord (s : State) (mb : Mailbox) (w : Word) : State :=
  let m := mailOf s mb
  match openPkt m with
  | some p =>
    let (m, lost) := joinWord m (mailCap mb) p w
    let s := setMail s mb m
    if lost then setBit s 0x35000C 1 true else s
  | none =>
    if mb = .partner ∧ 31 < hdrLength w then refuseLong s m w
    else
      let (m, lost) := startPkt m (mailCap mb) w
      let s := setMail s mb m
      if lost then setBit s 0x35000C 1 true else s

-- the packet that is next (R446, R450)

/-- The complete packet at the head of a mailbox, unless a reply of the mailbox waits for room. -/
def headPkt (s : State) (mb : Mailbox) : Option CmdPkt :=
  let m := mailOf s mb
  if m.held.isEmpty then (m.cmd.head?).filter (fun p => p.owed == 0 && !p.dropped) else none

/-- The mailbox whose packet is next: the host's goes first. -/
def nextMailbox (s : State) : Mailbox := if (headPkt s .host).isSome then .host else .partner

/-- Take the head packet out of its FIFO. -/
def popPkt (s : State) (mb : Mailbox) : State :=
  let m := mailOf s mb
  setMail s mb { m with cmd := m.cmd.tail }

/-- PARTNER_EN (R454). -/
def partnerOn (s : State) : Bool := getBit s 0x350014 16

/-- Role field and form that Table 18.6 permits for a packet of the partner. -/
def partnerForm (s : State) (p : CmdPkt) : Bool :=
  let op := hdrOpcode p.hdr
  let w := p.stored.headD 0
  if !partnerOn s then false
  else if op = 1 ∨ op = 3 then hdrLength p.hdr == 0
  else if op = 0x30 then hdrLength p.hdr == 1 && !bitOf w 4 && bitOf w 2 && bitsOf w 0 2 == twinRole s
  else if op = 0x31 then hdrLength p.hdr == 1 && bitsOf w 0 2 == 2 && getBit s 0x310094 2
  else false

/-- The status that an unlisted opcode gets (R464, 1 to 3). -/
def reservedStatus (s : State) (mb : Mailbox) (p : CmdPkt) : Nat :=
  if mb = .partner && !partnerForm s p then stDenied else if p.torn then stBadParam else stBadOpcode

/-- Packets at the head of a mailbox whose opcode is reserved are answered as they come up; at most `fuel` of them. -/
def answerReserved : Nat → State → State
  | 0, s => s
  | fuel + 1, s =>
    let mb := nextMailbox s
    match headPkt s mb with
    | some p =>
      if knownOpcodes.contains (hdrOpcode p.hdr) then s
      else answerReserved fuel (sendReply (popPkt s mb) mb p.hdr (reservedStatus s mb p) [])
    | none => s

/-- Every packet with a reserved opcode that comes up now is answered. -/
def settleMail (s : State) : State := answerReserved 300 s

-- the events of a mailbox

/-- A word is accepted from READY_LINK onward (R444). -/
def mailWrite (s : State) (mb : Mailbox) (w : Word) : State :=
  if readyLink s then settleMail (pushWord s mb w)
  else if mb = .host then setBit s 0x35000C 3 true else s

/-- The oldest reply word is popped; an empty FIFO gives 0 and sets UNDERFLOW (R446). -/
def mailRead (s : State) (mb : Mailbox) : State × Word :=
  let m := mailOf s mb
  match m.reply with
  | w :: l => (setMail s mb { m with reply := l }, w)
  | [] => (setBit s 0x35000C 2 true, 0)

/-- REPLY_MOVE: the oldest reply that waits moves whole once there is room (R446). -/
def replyMoveEffect (s : State) (mb : Mailbox) : State :=
  let m := mailOf s mb
  match m.held with
  | r :: l =>
    if m.reply.length + r.length ≤ mailCap mb then
      let s := setBit (setMail s mb { m with reply := m.reply ++ r, held := l }) 0x35000C (replyBit mb) true
      settleMail (if mb = .partner then wakePme s else s)
    else s
  | [] => s

/-- The meaning of REPLY_MOVE. -/
def execReplyMove (mb : Mailbox) (s : State) : Host.Outcome State Fault Refusal :=
  guarded s (if running s then replyMoveEffect s mb else s)

/-- CMD_CTL.FLUSH empties both host FIFOs; the reply of a host command that runs is discarded (R447). -/
def flushMail (s : State) : State :=
  let s := { s with seq := { s.seq with host := freshMail } }
  { s with seq := { s.seq with run := s.seq.run.map (fun r => if r.mb = .host then { r with dropReply := true } else r) } }

-- BAR2 (chapter 18)

/-- CMD_PTR_STATUS. -/
def ptrStatus (s : State) : Word :=
  BitVec.ofNat 32 (fifoWords s.seq.partner + 2 ^ 6 * s.seq.partner.reply.length)

/-- PARTNER_MAILBOX_WRITE: a write at BAR2 offset 0. -/
def partnerWriteEffect (s : State) (w : Word) : State :=
  if linkDead s then s else if !claimsMemory s then answerUr s true 0 0 [] else mailWrite s .partner w

/-- The meaning of PARTNER_MAILBOX_WRITE. -/
def execPartnerMailboxWrite (word : Word) (s : State) : Host.Outcome State Fault Refusal := guarded s (partnerWriteEffect s word)

/-- PARTNER_MAILBOX_READ: offset 4 pops a reply word, offset 8 is CMD_PTR_STATUS, any other is an Unsupported Request. -/
def partnerReadEffect (s : State) (off : Nat) : State :=
  if linkDead s then s
  else if !claimsMemory s then answerUr s false 0 0 []
  else if off = 4 then
    let (s, w) := mailRead s .partner
    twinOut s (.cpl 0 0 0 (wordBytes w) false)
  else if off = 8 then twinOut s (.cpl 0 0 0 (wordBytes (ptrStatus s)) false)
  else answerUr s false 0 0 []

/-- The meaning of PARTNER_MAILBOX_READ. -/
def execPartnerMailboxRead (off : BitVec 14) (s : State) : Host.Outcome State Fault Refusal :=
  guarded s (partnerReadEffect s off.toNat)

-- writers of the sillage FIFO

/-- A staging buffer once `w` has come, and the packet that it completes. -/
def stageWord (s : State) (o : Nat) (w : BitVec 64) : Stager × Option (List (BitVec 64)) :=
  let x := stagerOf s o
  if x.drop then (if x.need ≤ 1 then freshStager 0 else { x with need := x.need - 1 }, none)
  else if x.words.isEmpty then
    let h := acceptHeader s o w
    if hdrWords h = 0 then (freshStager 0, some [h]) else (⟨[h], hdrWords h, false⟩, none)
  else if x.need ≤ 1 then
    (freshStager 0, some (x.words.take 1 ++ trimLast (hdrBytes (x.words.headD 0)) (x.words.drop 1 ++ [w])))
  else ({ x with words := x.words ++ [w], need := x.need - 1 }, none)

/-- The word would complete a packet that storage has no room for (R429). -/
def stageFull (s : State) (o : Nat) (w : BitVec 64) : Bool :=
  match (stageWord s o w).2 with
  | some p => !sillageRoom s p.length
  | none => false

/-- A word of writer `o` is accepted; a packet that finds no room is dropped (the agents' wait instead). -/
def stagePush (s : State) (o : Nat) (w : BitVec 64) : State :=
  if !trcOn s then s
  else
    let (x, done) := stageWord s o w
    let s := setStager s o x
    match done with
    | some p => if sillageRoom s p.length then sillageMove s p else sillageDrop s 0 8
    | none => s

/-- DROP_REST for writer `o`: the staged words go, and those still owed as they arrive (R430). -/
def stageDrop (s : State) (o : Nat) : State :=
  let x := stagerOf s o
  if x.words.isEmpty then s else setStager s o { x with words := [], drop := true }

-- the aperture interface (R215 to R217, R422)

/-- The series number that the next aperture request of port `n` carries. -/
def apTurn (s : State) (n : Nat) : Nat := cellsGet (fun _ => 0) s.obs.apNext n

/-- The aperture request of port `n` that is next in series order, with its packet. -/
def apRequest (s : State) (n : Nat) : Option (Packet × Req) :=
  s.obs.apInbox.findSome? (fun i =>
    match i.pkt.msg with
    | .req r => if i.pkt.src.toNat = n ∧ i.pkt.series.toNat = apTurn s n then some (i.pkt, r) else none
    | _ => none)

/-- The operand of an aperture write. -/
def apOperand (s : State) (p : Packet) : Option Dat :=
  s.obs.apInbox.findSome? (fun i =>
    match i.pkt.msg with
    | .dat d => if i.pkt.src = p.src ∧ i.pkt.reqNo = p.reqNo then some d else none
    | _ => none)

/-- An aperture request has been served: its packets go, and the next in series is due. -/
def apServed (s : State) (n : Nat) (p : Packet) : State :=
  let l := s.obs.apInbox.filter (fun i => !(i.pkt.src == p.src && i.pkt.reqNo == p.reqNo))
  { s with obs := { s.obs with apInbox := l, apNext := cellsSet (fun _ => 0) s.obs.apNext n ((apTurn s n + 1) % 65536) } }

/-- A message to port `n`, with HOME 0 and ENTRY 0 (R217). -/
def apSend (s : State) (n : Nat) (p : Packet) (m : Msg) : State := launch s 23 5 (mkPacket n 0 25 p.dl p.prio m)

/-- The terminating message of an aperture request: `Comp`, or `CompErr` with a code. -/
def apRsp (r : Req) (err : BitVec 4) : Msg :=
  .rsp { opcode := if err = 0 then 2 else 7, txn := r.txn, home := 0, entry := 0, prio := r.prio, err := err, state := 0,
         snpdata := 0, cls := false }

/-- What an aperture write ends with: it serves TRC_AGW alone, in words of 64 bits (Table 8.5, Table 17.5). A poisoned operand
writes nothing (DEDUCED, assumption 35). -/
def apWriteError (r : Req) (d : Dat) : BitVec 4 :=
  if r.addr ≠ 0x340040 ∨ r.size ≠ 3 then 7 else if r.priv.toNat = 0 then 3 else if d.poison then 1 else 0

/-- The 64-bit word of an aperture write: at byte ADDR[4:0] of its half. -/
def apWord (r : Req) (d : Dat) : BitVec 64 := d.data.extractLsb' (8 * (r.addr.toNat % 32)) 64

/-- The final word of port `n` waits for storage (R429). -/
def waitRoom (s : State) (n : Nat) : State :=
  if s.obs.apWait.contains n then s else { s with obs := { s.obs with apWait := s.obs.apWait ++ [n] } }

/-- AP_WRITE. A word that completes a packet waits for room (R216); while TRC_CTL.EN is 0 words are discarded. -/
def apWriteEffect (s : State) (n : Nat) : State :=
  match apRequest s n with
  | some (p, r) =>
    match apOperand s p with
    | some d =>
      let e := apWriteError r d
      if r.opcode ≠ 0x31 then s
      else if (port s n).fenced then apServed s n p
      else if e ≠ 0 then apSend (apServed s n p) n p (apRsp r e)
      else if trcOn s && stageFull s n (apWord r d) then waitRoom s n
      else apSend (stagePush (apServed s n p) n (apWord r d)) n p (apRsp r 0)
    | none => if r.opcode = 0x31 ∧ (port s n).fenced then apServed s n p else s
  | none => s

/-- The final words that wait are looked at again, in their order: storage has room, or their packets are dropped (Table
17.6). -/
def wakeWriters (s : State) : State :=
  s.obs.apWait.foldl apWriteEffect { s with obs := { s.obs with apWait := [] } }

end Sys2Proof.Machine
end

