-- ==== Sys2Proof/Machine/CtlPort.lean ====
section
/-! DEFINITION. The control port (R33, R44 to R46) and the register accesses it makes (chapter 19): what each register reads
as, what a read does, and what a write does. -/

namespace Sys2Proof.Machine

/-- The sum of `f i` times 2^(w i) for `i` below `n`: fields of equal width side by side. -/
def packFields (n w : Nat) (f : Nat → Nat) : Nat := (List.range n).foldl (fun a i => a + f i % 2 ^ w * 2 ^ (w * i)) 0

-- registers whose value is a function of other state

/-- GLB_STATUS and GLB_BOUNDARY. -/
def glbView (s : State) (o : Nat) : Word :=
  match o with
  | 0x14 => BitVec.ofNat 32 (getFld s 0x14 0 3 + 2 ^ 3 * b2n (!faultN s) + 2 ^ 4 * b2n (safeAct s)
      + 2 ^ 16 * packFields 16 1 (fun c => b2n (chanActive s c && slicePop s (c / 2))))
  | 0x44 => bitsTo (bitsTo (getReg s 0x44) 0 2 (b2n s.pins.tbRun + 2 * b2n (s.pins.aonClk && curMode s != 0))) 8 2
      (b2n (s.pins.keys[0]).isSome + 2 * b2n (s.pins.keys[1]).isSome)
  | 0x80 => BitVec.ofNat 32 s.tick
  | 0x84 => s.pins.tbHi
  | _ => getReg s o

/-- Entries of a pool that are taken or reserved. -/
def poolTaken (x : Slice) (p : Pool) : Nat := (x.entries.filter (fun e => e.pool == p)).length

/-- Entries of a pool that a grant has reserved and no reissue has taken. -/
def poolGranted (x : Slice) (p : Pool) : Nat := (x.entries.filter (fun e => e.pool == p && e.stage == .reserved)).length

/-- The registers of slice `n` at offset `o`. -/
def slcView (s : State) (n o : Nat) : Word :=
  let x := slice s n
  match o with
  | 0x204 => BitVec.ofNat 32 x.filter.length
  | 0x20C => BitVec.ofNat 32 (packFields 16 1 (fun i => b2n (x.victims.any (fun v => v.slot == i))))
  | 0x304 => BitVec.ofNat 32 (poolTaken x .general + 2 ^ 8 * poolTaken x .deadline + 2 ^ 13 * poolTaken x .retry
      + 2 ^ 18 * x.lanes.length)
  | 0x308 => BitVec.ofNat 32 (x.retry.length + 2 ^ 13 * poolGranted x .retry + 2 ^ 18 * poolGranted x .deadline)
  | 0x404 => BitVec.ofNat 32 (x.xslots.length + 2 ^ 5 * x.watches.length
      + 2 ^ 9 * (x.entries.filter (fun e => e.buffer)).length)
  | 0x500 => BitVec.ofNat 32 ((x.cc.filter (·.dirty)).length + 2 ^ 12 * (x.ctc.filter (·.pinned)).length)
  | 0x504 => BitVec.ofNat 32 (x.ctc.length + 2 ^ 13 * (x.ctc.filter (·.dirty)).length)
  | 0x600 => BitVec.ofNat 32 (b2n x.held + 2 * b2n (paceRefuses s n))
  | _ => getReg s (slcBase n + o)

/-- The registers of channel `c` at offset `o`. -/
def mcView (s : State) (c o : Nat) : Word :=
  let x := chan s c
  let v := getReg s (mcBase c + o)
  match o with
  | 0x04 => BitVec.ofNat 32 (rdqTaken x + 2 ^ 7 * x.wrq.length
      + 2 ^ 14 * b2n x.drain + 2 ^ 15 * b2n x.selfRef)
  | 0x4C => bitsTo v 6 1 (b2n (nrefOn s c))
  | 0x6C => bitsTo v 23 1 (b2n (scrubOn s c && chanLive s c))
  | 0x80 => bitsTo v 12 4 (b2n x.shadow.isSome + 2 * min x.pending 7)
  | 0x94 => bitsTo v 9 1 (b2n x.arb.holder.isNone)
  | _ => v

/-- The registers of the block of port `n` at offset `o`. -/
def portView (s : State) (n o : Nat) : Word :=
  let p := port s n
  let cred := fun i => p.outCred.toList.getD i 0
  match o with
  | 0x10 => BitVec.ofNat 32 (b2n p.fenced + 2 * b2n (p.resetLow || !portEnabled s n) + 2 ^ 2 * b2n (portCreditInit s n)
      + 2 ^ 4 * p.txns.length + 2 ^ 16 * (p.txns.filter (·.waitGrant)).length)
  | 0x1C => BitVec.ofNat 32 (cred 0 % 64 + 2 ^ 6 * (cred 3 % 64) + 2 ^ 12 * (cred 1 % 64) + 2 ^ 18 * (cred 4 % 64))
  | 0x20 => BitVec.ofNat 32 (cred 2 % 64 + 2 ^ 6 * (cred 5 % 64))
  | _ => getReg s (portBase n + o)

/-- The SPN_ registers at offset `o`. -/
def spnView (s : State) (o : Nat) : Word :=
  let v := getReg s (0x300000 + o)
  if o = 0x304 then BitVec.ofNat 32 (packFields 24 1 (fun a => b2n (reclaimPending s a)))
  else if 0x400 ≤ o ∧ o < 0x580 then
    let n := (o - 0x400) / 16
    match o % 16 with
    | 0 => bitsTo v 0 1 (b2n (portHolds s n))
    | 4 => bitsTo v 9 1 (b2n (port s n).arb.holder.isNone)
    | _ => v
  else if 0x1000 ≤ o ∧ o < 0x1300 ∧ o % 32 = 0xC then BitVec.ofNat 32 (probeCount s ((o - 0x1000) / 32))
  else if 0x2000 ≤ o ∧ o < 0x2600 then portView s ((o - 0x2000) / 64) (o % 64)
  else v

/-- Terminating messages that a synchronous mirror window holds (R358): of requests, and `EvAck` of notices. -/
def mirrorHeld (s : State) : Nat :=
  ((List.range 8).map (fun n =>
    let x := slice s n
    let ns := x.lanes ++ x.entries.flatMap (·.notices) ++ x.victims.flatMap (·.notices) ++ x.reclaims.flatMap (·.notices)
    (x.entries.filter (fun e => e.stage == .term && e.reply.isSome)).length
      + (ns.filter (fun t => t.queued && t.syncs.any (syncHeld s))).length)).sum

/-- The TWN_ registers at offset `o`, and the configuration space. -/
def twnView (s : State) (o : Nat) : Word :=
  let t := s.twin
  match o with
  | 0x04 => BitVec.ofNat 32 ((if t.up then t.speed.toNat + 2 ^ 3 * t.width.toNat else 0) + 2 ^ 6 * b2n t.up
      + 2 ^ 7 * b2n (busMaster s) + 2 ^ 8 * b2n (memEnable s) + 2 ^ 9 * (if t.d3 then 3 else 0)
      + 2 ^ 11 * b2n t.flrDue.isSome + 2 ^ 12 * b2n t.perstLow)
  | 0x10 => BitVec.ofNat 32 (t.rdTags.length + 2 ^ 9 * t.quar.length)
  | 0x68 => BitVec.ofNat 32 (mirrorDepth s + 2 ^ 11 * mirrorHeld s + 2 ^ 22 * b2n s.mirror.flushTag.isSome
      + 2 ^ 23 * b2n s.mirror.copyGran.isSome)
  | 0x6C => BitVec.ofNat 32 (dirtyCount s)
  | o => if 0x8000 ≤ o ∧ o < 0x9000 then cfgRead s (o - 0x8000) else getReg s (0x310000 + o)

/-- FLT_SUMMARY and FLT_RECOV; in M10 BLOCKED is the code of the moment (R384). -/
def fltView (s : State) (o : Nat) : Word :=
  match o with
  | 0x00 => BitVec.ofNat 32 (packFields 27 1 (fun u => b2n (unitFault s u)) + 2 ^ 27 * b2n (anyTerminal s))
  | 0x14 =>
    let v := getReg s 0x320014
    if inSafe s then
      bitsTo (bitsTo v 8 1 (b2n (decide (s.tick < s.faults.quietStart + quietPeriod s)))) 9 3 (blockedCode s)
    else bitsTo v 8 1 0
  | _ => getReg s (0x320000 + o)

/-- Key of the copy of a counter's HI register on a path (R421); counter 8 is the elapsed one. -/
def hiKey (path : ReadPath) (k i : Nat) : Nat :=
  match path with
  | .control => k * 16 + i
  | .agent n => (n.val + 1) * 512 + k * 16 + i

/-- The counter whose LO or HI register lies at offset `o` of a set's block. -/
def counterAt (o : Nat) : Option (Nat × Bool) :=
  if o = 0 then some (8, false) else if o = 4 then some (8, true)
  else if 0x10 ≤ o ∧ o < 0x50 then some ((o - 0x10) / 8, o % 8 == 4) else none

/-- The PMU_ registers at offset `o`, as path `p` reads them. -/
def pmuView (s : State) (p : ReadPath) (o : Nat) : Word :=
  let k := o / 256
  match if o < 0x1800 then counterAt (o % 256) else none with
  | some (i, false) => BitVec.ofNat 32 (pmuCount s k i)
  | some (i, true) => cellsGet (fun _ => 0) s.obs.hiCopy (hiKey p k i)
  | none => getReg s (0x330000 + o)

/-- The TRC_ registers at offset `o`. -/
def trcView (s : State) (o : Nat) : Word :=
  let first := s.obs.log.headD 0
  match o with
  | 0x04 => BitVec.ofNat 32 (s.obs.storage.length + 2 ^ 10 * s.obs.assembly.length + 2 ^ 13 * b2n s.obs.ringStop)
  | 0x50 => first.extractLsb' 0 32
  | 0x54 => first.extractLsb' 32 32
  | 0x58 => first.extractLsb' 64 32
  | 0x5C => first.extractLsb' 96 32
  | 0x60 => BitVec.ofNat 32 (s.obs.log.length + 2 ^ 8 * s.obs.loss)
  | _ => getReg s (0x340000 + o)

/-- The CMD_ registers at offset `o`. -/
def cmdView (s : State) (o : Nat) : Word :=
  match o with
  | 0x08 => BitVec.ofNat 32 (fifoWords s.seq.host + 2 ^ 9 * s.seq.host.reply.length + 2 ^ 18 * b2n s.seq.run.isSome
      + 2 ^ 19 * b2n ((openPkt s.seq.host).any (·.torn)) + 2 ^ 20 * ((cmdOp s).getD 0))
  | 0x18 => ptrStatus s
  | 0x24 => bitsTo (getReg s 0x350024) 1 1 (b2n s.seq.patchBusy)
  | _ => getReg s (0x350000 + o)

/-- Low and high words of 64 bits. -/
def loHi (v : Nat) : List Word := [BitVec.ofNat 32 v, BitVec.ofNat 32 (v / 2 ^ 32)]

/-- Words 0 to 123 of the ledger record (Table 16.9). -/
def ledgerWords (s : State) : List Word :=
  let a := s.aon
  let w : Nat → Word := fun n => BitVec.ofNat 32 n
  let hist : List Word := (List.range 8).flatMap (fun e =>
    match a.hist[e]? with
    | some p => [p.1, p.2]
    | none => [0, 0])
  [w 0x4C454447, w (0x8001 + 2 ^ 16 * getFld s 0x37000C 1 2), getReg s 0x370010, w (lcState s)]
    ++ loHi s.pins.straps.sn.toNat ++ loHi a.calendar.toNat ++ [w a.powered, w a.calSets]
    ++ a.modeSec.toList.map w ++ a.corr.toList.map w ++ a.uncorr.toList.map w ++ a.nref.toList.flatMap loHi
    ++ [w a.safe, w a.recov] ++ a.temp.toList.map w ++ [a.aging.setWidth 32, a.agingAt] ++ hist

/-- The AON_ registers at offset `o`. -/
def aonView (s : State) (o : Nat) : Word :=
  if o = 4 then BitVec.ofNat 32 s.aon.calendar.toNat
  else if 0x100 ≤ o ∧ o < 0x2F0 then (ledgerWords s).getD ((o - 0x100) / 4) 0
  else getReg s (0x370000 + o)

/-- What the register at offset `a` holds, as path `p` reads it. -/
def regView (s : State) (p : ReadPath) (a : Nat) : Word :=
  if a < 0x100000 then glbView s a
  else if a < 0x180000 then slcView s ((a - 0x100000) / 0x10000) (a % 0x10000)
  else if a < 0x240000 then mcView s ((a - 0x200000) / 0x4000) (a % 0x4000)
  else if a < 0x300000 then getReg s a
  else if a < 0x310000 then spnView s (a - 0x300000)
  else if a < 0x320000 then twnView s (a - 0x310000)
  else if a < 0x330000 then fltView s (a - 0x320000)
  else if a < 0x340000 then pmuView s p (a - 0x330000)
  else if a < 0x350000 then trcView s (a - 0x340000)
  else if a < 0x360000 then cmdView s (a - 0x350000)
  else if a < 0x370000 then getReg s a
  else aonView s (a - 0x370000)

-- what a read does

/-- The stored 72-bit filter entry (Table 6.2): a free entry is the all-zero word, check bits included.
DEDUCED (assumption 15): the spec calls that word a free entry, and does not say that it is every free entry's word. -/
def rawEntry (e : FEntry) : BitVec 72 :=
  if isFree e then 0 else
  let sum : Nat := match e.summary with
    | .i => 0
    | .sh => 1
    | .ex => 2
    | .ow => 3
  let body := BitVec.ofNat 63 (b2n e.lost + 2 * b2n e.walked + 2 ^ 2 * e.fwd.toNat + 2 ^ 7 * e.presence.toNat + 2 ^ 31 * sum
    + 2 ^ 34 * e.tag.toNat)
  body ++ Config.filterCheck body

/-- The entry that SLC_SF_INSPECT_CTL names: a way, or the victim in a slot. -/
def inspected (s : State) (n : Nat) : Option FEntry :=
  let a := slcBase n + 0x220
  let st := getFld s a 0 14
  let w := getFld s a 14 4
  if w < 12 then some (wayAt s n st w)
  else ((slice s n).victims.find? (fun v => v.slot == st % 4 * 4 + (w - 12))).map (·.entry)

/-- A read of SLC_SF_INSPECT_DATA word `i` (R162): an empty victim slot holds no stated bits. -/
def inspectRead (s : State) (n i : Nat) : State × Word :=
  if lcState s = 1 ∨ lcState s = 3 then
    match inspected s n with
    | some e => (s, ((rawEntry e).extractLsb' (32 * i) 32))
    | none =>
      let (f, s) := takeFree s
      (s, BitVec.ofNat 32 (if i < 2 then f.toNat else f.toNat % 256))
  else (s, 0)

/-- The upper part of a counter is copied for path `p` (R421). -/
def copyHi (s : State) (p : ReadPath) (k i : Nat) : State :=
  let l := cellsSet (fun _ => 0) s.obs.hiCopy (hiKey p k i) (BitVec.ofNat 32 (pmuCount s k i / 2 ^ 32))
  { s with obs := { s.obs with hiCopy := l } }

/-- RC bits return to their reset value (R7). -/
def clearRc (s : State) (a : Nat) : State :=
  match regDesc a with
  | some d => if d.rc = 0 then s else setReg s a ((getReg s a &&& ~~~d.rc) ||| (d.reset &&& d.rc))
  | none => s

/-- What a read of the register at offset `a` changes beside RC bits: the copies of LO and HI pairs (R61, R241, R414, R421), and
the release of a hazard capture (R214). -/
def readEffects (s : State) (p : ReadPath) (a : Nat) : State :=
  if a = 0x80 then { s with pins := { s.pins with tbHi := BitVec.ofNat 32 (s.tick / 2 ^ 32) } }
  else if a = 0x370004 then setReg s 0x370008 (BitVec.ofNat 32 (s.aon.calendar.toNat / 2 ^ 32))
  else if 0x301000 ≤ a ∧ a < 0x301300 ∧ a % 32 = 0xC then
    setReg s (a + 4) (BitVec.ofNat 32 (probeCount s ((a - 0x301000) / 32) / 2 ^ 32))
  else if 0x330000 ≤ a ∧ a < 0x331800 then
    match counterAt (a % 256) with
    | some (i, false) => copyHi s p ((a - 0x330000) / 256) i
    | _ => s
  else if 0x100000 ≤ a ∧ a < 0x180000 ∧ a % 0x10000 = 0x410 then setBit s (a - 8) 31 false
  else s

/-- The fault unit and the bit of its parity field that an access of the register at offset `a` checks (R383). -/
def parityItem (a : Nat) : Option (Nat × Nat) :=
  if 0x100000 ≤ a ∧ a < 0x180000 ∧ 0x700 ≤ a % 0x10000 ∧ a % 0x10000 < 0x724 then
    some ((a - 0x100000) / 0x10000, (a % 0x10000 - 0x700) / 4)
  else if 0x321000 ≤ a ∧ a < 0x3214C0 ∧ a % 0x40 < 0x24 then some (8 + (a - 0x321000) / 0x40, a % 0x40 / 4)
  else if 0x320000 ≤ a ∧ a < 0x32001C then some (26, 10 + (a - 0x320000) / 4)
  else none

/-- The parity check of an access (R383). -/
def accessParity (s : State) (a : Nat) : State :=
  match parityItem a with
  | some (u, i) => parityCheck s u (2 ^ i) 0
  | none => s

/-- A read of the register at offset `a` on path `p`. -/
def regRead (s : State) (p : ReadPath) (a : Nat) : State × Word :=
  if a = 0x350004 then mailRead s .host
  else if 0x100000 ≤ a ∧ a < 0x180000 ∧ 0x224 ≤ a % 0x10000 ∧ a % 0x10000 ≤ 0x22C then
    inspectRead s ((a - 0x100000) / 0x10000) ((a % 0x10000 - 0x224) / 4)
  else
    let v := regView s p a
    (accessParity (readEffects (clearRc s a) p a) a, v)

-- what a write does

/-- The lock that fixes the RWL bits of a register is set (R463). -/
def regLocked (s : State) (d : RegDesc) : Bool := d.lock.any (fun l => getBit s l.1 l.2)

/-- The bits that a write may set freely: RW, RWL while unlocked, and MC_NREF.EN only in Develop and Return (R263). -/
def writeMask (s : State) (a : Nat) (d : RegDesc) : Word :=
  let m := d.rw ||| (if regLocked s d then 0 else d.rwl)
  if 0x200000 ≤ a ∧ a < 0x240000 ∧ a % 0x4000 = 0x4C ∧ !(lcState s == 1 || lcState s == 3) then m &&& ~~~0x40 else m

/-- The value that a write of `v` leaves in a register with description `d` (R7, R462, R463). -/
def written (s : State) (a : Nat) (d : RegDesc) (v : Word) : Word :=
  let m := writeMask s a d
  let old := getReg s a
  ((((old &&& ~~~m) ||| (v &&& m)) &&& ~~~(v &&& d.w1c)) ||| (v &&& d.w1s))

/-- The capture that belongs to a W1C error register, and its VALID bit (R110, R161 and the rules that apply it). -/
def captureOf (a : Nat) : Option (Nat × Nat) :=
  if 0x100000 ≤ a ∧ a < 0x180000 ∧ a % 0x10000 = 0x210 then some (a + 4, 31)
  else if 0x200000 ≤ a ∧ a < 0x240000 ∧ a % 0x4000 = 0x54 then some (a + 4, 31)
  else if a = 0x300010 ∨ a = 0x310008 ∨ a = 0x360410 then some (a + 4, 31)
  else if 0x302000 ≤ a ∧ a < 0x302600 ∧ a % 64 = 0x14 then some (a + 4, 4)
  else none

/-- A capture is held until its error register is all zeros. -/
def releaseCapture (s : State) (a : Nat) : State :=
  match captureOf a with
  | some (r, b) => if getReg s a = 0 then setBit s r b false else s
  | none => s

/-- The fields of a register take a written value. -/
def storeReg (s : State) (a : Nat) (v : Word) : State :=
  match regDesc a with
  | some d => releaseCapture (setReg s a (written s a d v)) a
  | none => s

/-- PMU_CTL.CLEAR: every counter of every set (R418). -/
def clearAllCounts (s : State) : State := { s with obs := { s.obs with counts := [] } }

/-- PMU_DUMP_CTL.EN from 0 to 1: the comparator starts; a stop ends, and the snapshot it cut short is given up (R424). -/
def dumpStart (s : State) : State :=
  { s with obs := { s.obs with dumpDue := s.tick + dumpPeriod s, dumpStop := false,
                               dumpQ := if s.obs.dumpStop then [] else s.obs.dumpQ,
                               dumpTxns := if s.obs.dumpStop then s.obs.dumpTxns.map (fun t => { t with gone := true })
                                           else s.obs.dumpTxns } }

/-- A write of TRC_CTL.EN: from 0 to 1 the drain restarts and a header is expected; at 0 staging is clear, and a word that waits
is discarded (R433, R443). -/
def trcSwitch (s : State) (was : Bool) : State :=
  let on := trcOn s
  if on && !was then { s with obs := { s.obs with stagers := [], ringStop := false } }
  else if on then s
  else wakeWriters { s with obs := { s.obs with stagers := [] } }

/-- TRC_LOG_POP (R436, R437): the oldest record goes, and a loss record that is due takes the place. -/
def logPop (s : State) : State :=
  match s.obs.log with
  | [] => s
  | _ :: l =>
    let n := s.obs.loss
    let s := { s with obs := { s.obs with log := l, loss := 0 } }
    if n = 0 then s else setBit (logRecord s 0xF 26 0 n 0) 0x340008 3 true

/-- CMD_PATCH_CTL.APPLY (R455): it fails outside M1 and M2, and while a verification runs it starts none. -/
def patchApplyEffect (s : State) : State :=
  if curMode s = 1 ∨ curMode s = 2 then { s with seq := { s.seq with patchBusy := true } }
  else report (setBit (setFld s 0x350024 2 3 5) 0x35000C 6 true) 26 9

/-- What a write of `v` does in the registers of chapters 9 and 17 beside its fields. -/
def observeWrite (s : State) (old : State) (a : Nat) (v : Word) : State :=
  if a = 0x332000 then (if bitOf v 5 then clearAllCounts s else s)
  else if a = 0x332010 then (if bitOf v 0 && !getBit old a 0 then dumpStart s else s)
  else if 0x330000 ≤ a ∧ a < 0x331800 then
    let r := a % 256
    if 0x60 ≤ r ∧ r < 0x80 ∧ bitOf v 31 then setPmuCount s ((a - 0x330000) / 256) ((r - 0x60) / 4) 0 else s
  else if 0x301000 ≤ a ∧ a < 0x301300 ∧ a % 32 = 0 then
    (if bitOf v 11 then setProbe s ((a - 0x301000) / 32) 0 else s)
  else match a with
  | 0x340000 => trcSwitch s (trcOn old)
  | 0x340030 => { s with obs := { s.obs with trcLo := v } }
  | 0x340034 => stagePush s 0x20 (v ++ s.obs.trcLo)
  | 0x340038 => if bitOf v 0 then stageDrop s 0x20 else s
  | 0x34003C => wakeWriters (forEach 24 s (fun s n => if bitOf v n then stageDrop s n else s))
  | 0x340064 => if bitOf v 0 then logPop s else s
  | _ => s

/-- What a write of `v` does in the registers of the sequencer and the twin port beside its fields. -/
def deviceWrite (s : State) (old : State) (a : Nat) (v : Word) : State :=
  if 0x352000 ≤ a ∧ a < 0x354000 then
    { s with seq := { s.seq with patch := cellsSet (fun _ => 0) s.seq.patch ((a - 0x352000) / 4) v } }
  else match a with
  | 0x350000 => mailWrite s .host v
  | 0x350014 => if bitOf v 17 then settleMail (flushMail s) else s
  | 0x350020 => if bitOf v 0 then patchApplyEffect s else s
  | 0x310000 => linkEnEffect (setBit s 0x310000 9 (getBit old 0x310000 9)) (bitOf v 9)
  | 0x310018 => commitEffect s (v.setWidth 16)
  | 0x310040 => drivePower s
  | _ => s

/-- A write of `v` to the register at offset `a`. -/
def regWrite (s : State) (a : Nat) (v : Word) : State :=
  let t := storeReg s a v
  accessParity (if 0x310000 ≤ a ∧ (a < 0x320000 ∨ 0x350000 ≤ a) then deviceWrite t s a v else observeWrite t s a v) a

-- the control port

/-- The domain of the offset, or of its part of a space, is off (Table 19.1). -/
def domainOff (s : State) (a : Nat) : Bool :=
  if 0x100000 ≤ a ∧ a < 0x180000 then !slicePwr s ((a - 0x100000) / 0x10000)
  else if 0x200000 ≤ a ∧ a < 0x240000 then !slicePop s ((a - 0x200000) / 0x8000)
  else if 0x318000 ≤ a ∧ a < 0x319000 then !twinPwr s
  else if 0x321000 ≤ a ∧ a < 0x321400 then !slicePop s ((a - 0x321000) / 0x80)
  else if 0x330000 ≤ a ∧ a < 0x330800 then !slicePwr s ((a - 0x330000) / 0x100)
  else if 0x330800 ≤ a ∧ a < 0x331800 then !slicePop s ((a - 0x330800) / 0x200)
  else false

/-- The offset lies in TWN_CFGSPACE. -/
def inCfgSpace (a : Nat) : Bool := decide (0x318000 ≤ a) && decide (a < 0x319000)

/-- An access ends with `CP_ERR` 1, and GLB_CP_ERR captures it unless it holds a capture (R461). -/
def cpFail (s : State) (a : Nat) (write off : Bool) : State :=
  let s := { s with pins := { s.pins with cpErr := true, cpRdata := if write then s.pins.cpRdata else 0 } }
  if getBit s 0x50 0 then s
  else setReg s 0x50 (BitVec.ofNat 32 (1 + 2 * b2n write + a % 2 ^ 22 / 4 * 4 + 2 ^ 22 * b2n off))

/-- A read: the data goes out with `CP_ACK`. -/
def cpGive (r : State × Word) : State := { r.1 with pins := { r.1.pins with cpRdata := r.2 } }

/-- The offset is one of a register, or of the 8 bytes of TRC_AGW, which read 0 here. -/
def offsetKnown (a : Nat) : Bool := (regDesc a).isSome || inCfgSpace a

/-- The access itself: R45 first, then R326 and R461. -/
def cpServe (s : State) (write : Bool) (a : Nat) (v : Word) : State :=
  if domainOff s a then cpFail s a write true
  else if (write && inCfgSpace a) || !offsetKnown a then cpFail s a write false
  else if write then regWrite s a v
  else cpGive (regRead s .control a)

/-- `CP_REQ` rises. The port answers from step 5 of Table 2.4 on, when it has seen `CP_REQ` low (R33); otherwise the request
stands unanswered. -/
def cpAccess (s : State) (write : Bool) (a : Nat) (v : Word) : State :=
  if s.pins.cpReq then s
  else
    let s := { s with pins := { s.pins with cpReq := true } }
    if running s && s.pins.live then
      cpServe { s with pins := { s.pins with cpAck := true, cpErr := false } } write (a / 4 * 4) v
    else s

/-- A control-port read. -/
def cpRead (s : State) (a : Nat) : State := cpAccess s false a 0

/-- A control-port write. -/
def cpWrite (s : State) (a : Nat) (v : Word) : State := cpAccess s true a v

/-- A write that gives the fields of a register as they read, but for `n` bits from bit `lo`. -/
def cpWriteField (s : State) (a lo n v : Nat) : State := cpWrite s a (bitsTo (getReg s a) lo n v)

/-- The meaning of REGISTER_WRITE. -/
def execRegisterWrite (addr : BitVec 22) (data : Word) (s : State) : Host.Outcome State Fault Refusal :=
  guarded s (cpWrite s addr.toNat data)

/-- CP_REQ_RELEASE: the handshake ends. -/
def cpReleaseEffect (s : State) : State :=
  { s with pins := { s.pins with cpReq := false, cpAck := false } }

/-- The meaning of CP_REQ_RELEASE. -/
def execCpReqRelease (s : State) : Host.Outcome State Fault Refusal := guarded s (cpReleaseEffect s)

/-- The meaning of RC_REGISTER_READ: a read of any register, which clears its RC bits. -/
def execRcRegisterRead (addr : BitVec 22) (s : State) : Host.Outcome State Fault Refusal := guarded s (cpRead s addr.toNat)

/-- The meaning of TB_LO_READ. -/
def execTbLoRead (s : State) : Host.Outcome State Fault Refusal := guarded s (cpRead s 0x80)

/-- The meaning of CAL_LO_READ. -/
def execCalLoRead (s : State) : Host.Outcome State Fault Refusal := guarded s (cpRead s 0x370004)

/-- The meaning of PROBE_CNT_LO_READ. -/
def execProbeCntLoRead (r : RouterId) (s : State) : Host.Outcome State Fault Refusal :=
  guarded s (cpRead s (probeBase r.val + 0xC))

/-- Number of a counter in its set. -/
def counterIndex (sel : CounterSel) : Nat :=
  match sel with
  | .elapsed => 8
  | .cnt i => i.val

/-- Offset of the LO register of a counter in its set's block. -/
def counterLo (sel : CounterSel) : Nat :=
  match sel with
  | .elapsed => 0
  | .cnt i => 0x10 + 8 * i.val

/-- COUNTER_LO_READ: a read on the control port, or the copy that an aperture read of a powered set makes. -/
def counterLoEffect (s : State) (path : ReadPath) (k : Nat) (sel : CounterSel) : State :=
  match path with
  | .control => cpRead s (pmuBase k + counterLo sel)
  | .agent _ => if running s && pmuPowered s k then copyHi s path k (counterIndex sel) else s

/-- The meaning of COUNTER_LO_READ. -/
def execCounterLoRead (path : ReadPath) (set : Fin 24) (sel : CounterSel) (s : State) :
    Host.Outcome State Fault Refusal := guarded s (counterLoEffect s path set.val sel)

/-- The meaning of HAZ_CNT_READ. -/
def execHazCntRead (n : SliceId) (s : State) : Host.Outcome State Fault Refusal := guarded s (cpRead s (slcBase n.val + 0x410))

/-- FILTER_INSPECT_READ: the stored word, uncorrected (R162): `flip` are the bits of the entry that stand wrong in the array
(assumption 15). -/
def inspectEffect (s : State) (n : Nat) (word : Nat) (flip : BitVec 72) : State :=
  let t := cpRead s (slcBase n + 0x224 + 4 * word)
  if !s.pins.cpReq ∧ t.pins.cpAck ∧ !t.pins.cpErr ∧ (lcState s = 1 ∨ lcState s = 3) ∧ (inspected s n).isSome then
    { t with pins := { t.pins with cpRdata := t.pins.cpRdata ^^^ flip.extractLsb' (32 * word) 32 } }
  else t

/-- The meaning of FILTER_INSPECT_READ. -/
def execFilterInspectRead (n : SliceId) (word : InspectWord) (s : State) : Host.Outcome State Fault Refusal :=
  guarded s (inspectEffect s n.val word.word.val word.flip)

/-- The meaning of TWN_W_COMMIT. -/
def execTwnWCommit (mask : BitVec 16) (s : State) : Host.Outcome State Fault Refusal :=
  guarded s (cpWrite s 0x310018 (mask.setWidth 32))

/-- The meaning of LINK_EN: a write of TWN_CFG that changes LINK_EN alone. -/
def execLinkEn (en : Bool) (s : State) : Host.Outcome State Fault Refusal := guarded s (cpWriteField s 0x310000 9 1 (b2n en))

/-- The meaning of PWR_REQ: a write of TWN_BAY_CTL that changes PWR_REQ alone. -/
def execPwrReq (req : Bool) (s : State) : Host.Outcome State Fault Refusal := guarded s (cpWriteField s 0x310040 0 1 (b2n req))

/-- PMU_CLEAR: CLEAR of PMU_CTL, or of one PMU_CFGi. -/
def pmuClearEffect (s : State) (sel : ClearSel) : State :=
  match sel with
  | .all => cpWriteField s 0x332000 5 1 1
  | .one k i => cpWriteField s (pmuBase k.val + 0x60 + 4 * i.val) 31 1 1

/-- The meaning of PMU_CLEAR. -/
def execPmuClear (sel : ClearSel) (s : State) : Host.Outcome State Fault Refusal := guarded s (pmuClearEffect s sel)

/-- The meaning of PROBE_CLEAR. -/
def execProbeClear (r : RouterId) (s : State) : Host.Outcome State Fault Refusal :=
  guarded s (cpWriteField s (probeBase r.val) 11 1 1)

/-- The meaning of DUMP_ENABLE. -/
def execDumpEnable (s : State) : Host.Outcome State Fault Refusal := guarded s (cpWriteField s 0x332010 0 1 1)

/-- The meaning of TRC_ENABLE. -/
def execTrcEnable (en : Bool) (s : State) : Host.Outcome State Fault Refusal := guarded s (cpWriteField s 0x340000 0 1 (b2n en))

/-- The meaning of TRC_WR_HI. -/
def execTrcWrHi (word : Word) (s : State) : Host.Outcome State Fault Refusal := guarded s (cpWrite s 0x340034 word)

/-- DROP_REST: TRC_WR_CTL for the firmware writer, TRC_AGW_DROP for agents. -/
def dropRestEffect (s : State) (sel : DropSel) : State :=
  match sel with
  | .firmware => cpWrite s 0x340038 1
  | .agents mask => cpWrite s 0x34003C (mask.setWidth 32)

/-- The meaning of DROP_REST. -/
def execDropRest (sel : DropSel) (s : State) : Host.Outcome State Fault Refusal := guarded s (dropRestEffect s sel)

/-- The meaning of TRC_LOG_POP. -/
def execTrcLogPop (s : State) : Host.Outcome State Fault Refusal := guarded s (cpWrite s 0x340064 1)

/-- The meaning of CMD_WR. -/
def execCmdWr (word : Word) (s : State) : Host.Outcome State Fault Refusal := guarded s (cpWrite s 0x350000 word)

/-- The meaning of CMD_RD. -/
def execCmdRd (s : State) : Host.Outcome State Fault Refusal := guarded s (cpRead s 0x350004)

/-- The meaning of FLUSH: a write of CMD_CTL with FLUSH 1 and its fields as they stand. -/
def execFlush (s : State) : Host.Outcome State Fault Refusal := guarded s (cpWriteField s 0x350014 17 1 1)

/-- The meaning of PATCH_APPLY. -/
def execPatchApply (s : State) : Host.Outcome State Fault Refusal := guarded s (cpWrite s 0x350020 1)

-- the end of a patch verification (R455)

/-- Word `i` of the patch buffer. -/
def patchWord (s : State) (i : Nat) : Word := cellsGet (fun _ => 0) s.seq.patch i

/-- RESULT of the image in the buffer, in the order that R455 lists its conditions. `sigOk`: the signature holds. -/
def patchResult (s : State) (sigOk : Bool) : Nat :=
  let rel := bitsOf (patchWord s 2) 0 16
  if patchWord s 0 ≠ 0x50415443 then 4
  else if bitsOf (patchWord s 1) 0 24 ≠ 0x0003B1 then 2
  else if rel < getFld s 0x350028 0 16 ∨ rel ≤ getFld s 0x350024 16 16 then 3
  else if 2048 < 4 + (patchWord s 3).toNat + 24 then 4
  else if !sigOk then 1 else 0

/-- PATCH_VERIFY_COMPLETE. A patch in force changes no behaviour of the model: which behaviour it changes is in its release
note (R2; DEDUCED, assumption 55). -/
def patchVerifyEffect (s : State) (sigOk : Bool) : State :=
  if running s ∧ s.seq.patchBusy then
    let r := patchResult s sigOk
    let s := { s with seq := { s.seq with patchBusy := false } }
    let s := setBit (setFld s 0x350024 2 3 r) 0x35000C 6 true
    if r = 0 then setFld (setBit s 0x350024 0 true) 0x350024 16 16 (bitsOf (patchWord s 2) 0 16) else report s 26 9
  else s

/-- The meaning of PATCH_VERIFY_COMPLETE. -/
def execPatchVerifyComplete (sigOk : Bool) (s : State) : Host.Outcome State Fault Refusal :=
  guarded s (patchVerifyEffect s sigOk)

end Sys2Proof.Machine
end

