-- ==== Sys2Proof/Machine/Commands.lean ====
section
/-! DEFINITION. Take-up of a command packet and the order of its refusals (R448 to R450, R464), and the commands that end
at take-up: information, scrub, calendar, ledger, blotter, faults, slot tables and `AGENT_FENCE`. -/

namespace Sys2Proof.Machine

-- take-up

/-- A packet taken up: its mailbox, header and parameter words. -/
structure Taken where
  mb : Mailbox
  hdr : Word
  params : List Word
  deriving DecidableEq, Repr

/-- What the rules say of one opcode: whether it is long, the LENGTH and parameter values it admits, the mode or role it requires,
what denies it, a pending state that occupies what it needs (step 8 of R464), and what it does then. -/
structure CmdRule where
  long : Bool
  shape : State → Nat → List Word → Bool
  busy : State → Bool
  mode : State → List Word → Bool
  denied : State → List Word → Bool
  act : State → Taken → State

/-- The commands that M1 accepts (R449). -/
def m1Accepts (op : Nat) : Bool := [0x01, 0x03, 0x40, 0x41, 0x42, 0x51].contains op

/-- The refusal that decides the status of a packet, if one applies (R464 up to step 7, and a pending state of step 8). -/
def refusalOf (s : State) (mb : Mailbox) (p : CmdPkt) (r : CmdRule) : Option Nat :=
  if mb = .partner ∧ !partnerForm s p then some stDenied
  else if p.torn then some stBadParam
  else if bitsOf p.hdr 25 7 ≠ 0 ∨ !r.shape s (hdrLength p.hdr) p.stored then some stBadParam
  else if r.long ∧ s.seq.run.isSome then some stBusy
  else if (curMode s = 1 ∧ !m1Accepts (hdrOpcode p.hdr)) ∨ !r.mode s p.stored then some stWrongMode
  else if r.denied s p.stored then some stDenied
  else if r.busy s then some stBusy
  else none

/-- The packet that the sequencer takes next, when it lies in mailbox `mb` and has opcode `op`. -/
def nextPkt (s : State) (mb : Mailbox) (op : Nat) : Option CmdPkt :=
  if running s && readyLink s && nextMailbox s == mb then (headPkt s mb).filter (fun p => hdrOpcode p.hdr == op) else none

/-- The sequencer takes the next packet, when it is the one named, and executes or refuses it. -/
def takePacket (s : State) (mb : Mailbox) (op : Nat) (r : CmdRule) : State :=
  match nextPkt s mb op with
  | some p =>
    let s := popPkt s mb
    settleMail (match refusalOf s mb p r with
      | some st => sendReply s mb p.hdr st []
      | none => r.act s ⟨mb, p.hdr, p.stored⟩)
  | none => s

/-- A command that ends at take-up. -/
def answer (s : State) (c : Taken) (status : Nat) (data : List Word) : State := sendReply s c.mb c.hdr status data

/-- A long command goes on after take-up, with its timer latched (R453). -/
def startRun (s : State) (c : Taken) (phase arg : Nat) : State :=
  let tmo := max 1 (getFld s 0x350014 0 16) * 1000000
  { s with seq := { s.seq with run := some ⟨c.mb, c.hdr, c.params, phase, none, arg, false, tmo⟩ } }

/-- Parameter word `i` of a packet taken up, W1 being 1. -/
def Taken.w (c : Taken) (i : Nat) : Word := paramOf c.params i

/-- A command with `n` parameter words, all values admitted. -/
def wordsOnly (n : Nat) (_ : State) (len : Nat) (_ : List Word) : Bool := len == n

/-- Accepted in every mode. -/
def anyMode (_ : State) (_ : List Word) : Bool := true

/-- Accepted in the modes listed. -/
def inModes (l : List Nat) (s : State) (_ : List Word) : Bool := l.contains (curMode s)

/-- M2 to M6 and M9. -/
def workModes : List Nat := [2, 3, 4, 5, 6, 9]

/-- M2 to M7 and M9 to M11. -/
def latterModes : List Nat := [2, 3, 4, 5, 6, 7, 9, 10, 11]

/-- No lifecycle, key or freshness rule applies. -/
def noDenial (_ : State) (_ : List Word) : Bool := false

/-- No pending state occupies what the command needs. -/
def notBusyState (_ : State) : Bool := false

-- information

/-- The data of `GET_INFO` (Table 18.5). -/
def infoWords (s : State) : List Word :=
  [0x3B1, BitVec.ofNat 32 (getFld s 0x350024 16 16), getReg s 0x48,
   BitVec.ofNat 32 (packFields 16 1 (fun c => b2n (chanActive s c && slicePop s (c / 2))) + 2 ^ 16 * lcState s),
   BitVec.ofNat 32 (getFld s 0x240010 0 16), BitVec.ofNat 32 (b2n (linkPermitted s) + 2 * b2n (!vidValid s))]

/-- `GET_INFO`. -/
def getInfoRule : CmdRule :=
  { long := false, shape := wordsOnly 0, busy := notBusyState, mode := anyMode, denied := noDenial,
    act := fun s c => answer s c stOk (infoWords s) }

/-- The meaning of GET_INFO. -/
def execGetInfo (mb : Mailbox) (s : State) : Host.Outcome State Fault Refusal := guarded s (takePacket s mb 0x01 getInfoRule)

/-- The data of `GET_MODE` (Table 18.4). -/
def modeWord (s : State) : Word :=
  BitVec.ofNat 32 (curMode s + 2 ^ 4 * twinRole s + 2 ^ 6 * lcState s + 2 ^ 9 * getFld s 0x14 0 3
    + 2 ^ 12 * getFld s 0x300004 8 4 + 2 ^ 16 * getFld s 0x300004 0 8)

/-- `GET_MODE`. -/
def getModeRule : CmdRule :=
  { long := false, shape := wordsOnly 0, busy := notBusyState, mode := anyMode, denied := noDenial,
    act := fun s c => answer s c stOk [modeWord s] }

/-- The meaning of GET_MODE. -/
def execGetMode (mb : Mailbox) (s : State) : Host.Outcome State Fault Refusal := guarded s (takePacket s mb 0x03 getModeRule)

-- scrub and calendar

/-- The scrub of channel `c` takes interval and enable; the interval runs anew. -/
def setScrub (s : State) (c : Nat) (en : Bool) (interval : Nat) : State :=
  let s := setReg s (mcBase c + 0x68) (BitVec.ofNat 32 (interval + 2 ^ 16 * b2n en))
  setChan s c { chan s c with scrubDue := s.tick + interval * 1000 }

/-- What `SCRUB_CTL` does. -/
def scrubAct (s : State) (c : Taken) : State :=
  let s := forEach 16 s (fun s k =>
    if bitOf (c.w 1) k && slicePop s (k / 2) then setScrub s k (bitOf (c.w 1) 16) (bitsOf (c.w 2) 0 16) else s)
  answer s c stOk []

/-- `SCRUB_CTL`. -/
def scrubCtlRule : CmdRule :=
  { long := true, shape := fun _ len l => len == 2 && bitsOf (paramOf l 2) 0 16 != 0, busy := notBusyState,
    mode := inModes latterModes, denied := noDenial, act := scrubAct }

/-- The meaning of SCRUB_CTL. -/
def execScrubCtl (mb : Mailbox) (s : State) : Host.Outcome State Fault Refusal := guarded s (takePacket s mb 0x12 scrubCtlRule)

/-- `CALENDAR_SET` (R417). -/
def calendarAct (s : State) (c : Taken) : State :=
  answer { s with aon := { s.aon with calendar := c.w 2 ++ c.w 1, calSets := sat32 s.aon.calSets } } c stOk []

/-- The rule of `CALENDAR_SET`. -/
def calendarSetRule : CmdRule :=
  { long := true, shape := wordsOnly 2, busy := notBusyState, mode := anyMode, denied := noDenial, act := calendarAct }

/-- The meaning of CALENDAR_SET. -/
def execCalendarSet (mb : Mailbox) (s : State) : Host.Outcome State Fault Refusal := guarded s (takePacket s mb 0x42 calendarSetRule)

-- the ledger (R415, R416)

/-- The four bytes of a word, least significant first. -/
def bytesOfWord (w : Word) : List Nat := natBytes 4 w.toNat

/-- The tag over words 0 to 123: AES-CMAC keyed by slot 1, as four words (Table 16.9). -/
def ledgerTag (s : State) (l : List Word) : List Word :=
  let t := unswap (cmac ((s.pins.keys[1]).getD 0) (l.flatMap bytesOfWord))
  (List.range 4).map (fun i => BitVec.ofNat 32 (t / 2 ^ (32 * i)))

/-- Key slot 1 is empty. -/
def noLedgerKey (s : State) (_ : List Word) : Bool := (s.pins.keys[1]).isNone

/-- The number that the next export carries, with the flags that it sets. -/
def exportNumber (s : State) : State :=
  if getBit s 0x37000C 0 then setReg s 0x370010 (getReg s 0x370010 + 1)
  else setReg (setBit (setBit s 0x37000C 0 true) 0x37000C 1 true) 0x370010 1

/-- `LEDGER_EXPORT`. -/
def exportAct (s : State) (c : Taken) : State :=
  let s := exportNumber s
  let l := ledgerWords s
  answer s c stOk (l ++ ledgerTag s l)

/-- The rule of `LEDGER_EXPORT`. -/
def ledgerExportRule : CmdRule :=
  { long := true, shape := wordsOnly 0, busy := notBusyState, mode := anyMode, denied := noLedgerKey, act := exportAct }

/-- The meaning of LEDGER_EXPORT. -/
def execLedgerExport (mb : Mailbox) (s : State) : Host.Outcome State Fault Refusal := guarded s (takePacket s mb 0x40 ledgerExportRule)

/-- Word `i` of a record. -/
def recWord (l : List Word) (i : Nat) : Nat := (l.getD i 0).toNat

/-- A count of `n` bits after an import: added to its own with KNOWN 0, the larger with KNOWN 1. -/
def mergeCount (known : Bool) (n a b : Nat) : Nat := if known then max a b else min (a + b) (2 ^ n - 1)

/-- Merge a vector of counts with the words of a record from word `at'`, `k` words each. -/
def mergeVec {n : Nat} (known : Bool) (k at' : Nat) (v : Vector Nat n) (l : List Word) : Vector Nat n :=
  Vector.ofFn (fun i : Fin n =>
    mergeCount known (32 * k) v[i] (recWord l (at' + k * i) + if k = 2 then 2 ^ 32 * recWord l (at' + k * i + 1) else 0))

/-- Put an entry among others in calendar order, after those of the same time. -/
def insertHist (e : Word × Word) : List (Word × Word) → List (Word × Word)
  | [] => [e]
  | x :: l => if e.2.toNat < x.2.toNat then e :: x :: l else x :: insertHist e l

/-- The history entries of a record. -/
def recHist (l : List Word) : List (Word × Word) :=
  ((List.range 8).map (fun i => (l.getD (108 + 2 * i) 0, l.getD (109 + 2 * i) 0))).filter (fun e => bitOf e.1 7)

/-- The eight latest of both histories in calendar order; an entry that both hold is kept once. -/
def mergeHist (a b : List (Word × Word)) : List (Word × Word) :=
  let l := (b.filter (fun e => !a.contains e)).foldl (fun l e => insertHist e l) (a.foldl (fun l e => insertHist e l) [])
  l.drop (l.length - 8)

/-- The ledger takes a record in (R416). -/
def importRecord (s : State) (l : List Word) : State :=
  let a := s.aon
  let known := getBit s 0x37000C 0
  let slower := a.aging.toNat % 1024 < recWord l 106 % 1024
  let one := fun (own i : Nat) => mergeCount known 32 own (recWord l i)
  let a := { a with
    powered := one a.powered 8, calSets := one a.calSets 9, modeSec := mergeVec known 1 10 a.modeSec l,
    corr := mergeVec known 1 22 a.corr l, uncorr := mergeVec known 1 38 a.uncorr l, nref := mergeVec known 2 54 a.nref l,
    safe := one a.safe 86, recov := one a.recov 87, temp := mergeVec known 1 88 a.temp l,
    aging := if slower then BitVec.ofNat 18 (recWord l 106) else a.aging,
    agingAt := if slower then l.getD 107 0 else a.agingAt, hist := mergeHist a.hist (recHist l) }
  let s := { s with aon := a }
  let s := if known then s else setFld s 0x37000C 0 3 7
  let s := if bitOf (l.getD 1 0) 16 then setBit s 0x37000C 1 true else s
  setReg s 0x370010 (l.getD 2 0)

/-- The record is refused: its tag, its SERIAL, or with KNOWN 1 its NUMBER. -/
def recordRefused (s : State) (l : List Word) : Bool :=
  l.drop 124 != ledgerTag s (l.take 124) || l.getD 5 0 ++ l.getD 4 0 != s.pins.straps.sn
    || (getBit s 0x37000C 0 && decide (recWord l 2 < (getReg s 0x370010).toNat))

/-- `LEDGER_IMPORT`. -/
def importAct (s : State) (c : Taken) : State :=
  if recordRefused s c.params then answer s c stDenied [] else answer (importRecord s c.params) c stOk []

/-- The rule of `LEDGER_IMPORT`. -/
def ledgerImportRule : CmdRule :=
  { long := true, shape := wordsOnly 128, busy := notBusyState, mode := anyMode, denied := noLedgerKey, act := importAct }

/-- The meaning of LEDGER_IMPORT. -/
def execLedgerImport (mb : Mailbox) (s : State) : Host.Outcome State Fault Refusal := guarded s (takePacket s mb 0x41 ledgerImportRule)

-- the blotter and faults

/-- Instances of a checker of Table 15.9; 0 for one that it does not list. -/
def checkerInstances (k : Nat) : Nat :=
  match k with
  | 1 => 24
  | 2 => 24
  | 3 => 32
  | 4 => 8
  | 5 => 8
  | 6 => 8
  | 7 => 8
  | 8 => 16
  | 9 => 16
  | 10 => 8
  | 11 => 8
  | 12 => 27
  | _ => 0

/-- `BLOTTER_ARM` (R387). -/
def blotterAct (s : State) (c : Taken) : State :=
  let w := c.w 1
  if getBit s 0x320018 0 then answer s c stBusy []
  else if checkerInstances (bitsOf w 0 6) ≤ bitsOf w 8 5 then answer s c stBadParam []
  else
    let s := setFld s 0x320018 0 20 (1 + 2 * bitsOf w 0 6 + 2 ^ 7 * bitsOf w 8 5 + 2 ^ 12 * bitsOf w 16 8)
    answer { s with faults := { s.faults with blotMask := c.w 3 ++ c.w 2, blotSuppress := bitOf w 24 } } c stOk []

/-- The rule of `BLOTTER_ARM`. -/
def blotterArmRule : CmdRule :=
  { long := true, shape := fun _ len l => len == 3 && bitsOf (paramOf l 1) 16 8 != 0, busy := notBusyState,
    mode := inModes latterModes, denied := fun s _ => lcState s == 4, act := blotterAct }

/-- The meaning of BLOTTER_ARM. -/
def execBlotterArm (mb : Mailbox) (s : State) : Host.Outcome State Fault Refusal := guarded s (takePacket s mb 0x50 blotterArmRule)

/-- `FAULT_CLEAR` (R386). -/
def faultClearAct (s : State) (c : Taken) : State :=
  let u := bitsOf (c.w 1) 0 5
  let stays := c.w 2 &&& getReg s (fltBase u + 4) &&& ~~~clearableMask u
  let s := clearFaults s u (c.w 2 &&& clearableMask u)
  answer s c (if stays = 0 then stOk else stPartial) [getReg s (fltBase u + 4)]

/-- The rule of `FAULT_CLEAR`. -/
def faultClearRule : CmdRule :=
  { long := false, shape := fun _ len l => len == 2 && decide (bitsOf (paramOf l 1) 0 5 < 27), busy := notBusyState,
    mode := anyMode, denied := noDenial, act := faultClearAct }

/-- The meaning of FAULT_CLEAR. -/
def execFaultClear (mb : Mailbox) (s : State) : Host.Outcome State Fault Refusal := guarded s (takePacket s mb 0x51 faultClearRule)

/-- `AGENT_FENCE` (R191). -/
def agentFenceAct (s : State) (c : Taken) : State :=
  let n := bitsOf (c.w 1) 0 5
  if n < 24 ∧ portEnabled s n then answer (fencePort s n) c stOk [] else answer s c stBadParam []

/-- The rule of `AGENT_FENCE`. -/
def agentFenceRule : CmdRule :=
  { long := false, shape := wordsOnly 1, busy := notBusyState, mode := inModes [2, 3, 4, 5, 6, 7, 9, 11],
    denied := noDenial, act := agentFenceAct }

/-- The meaning of AGENT_FENCE. -/
def execAgentFence (mb : Mailbox) (s : State) : Host.Outcome State Fault Refusal := guarded s (takePacket s mb 0x60 agentFenceRule)

-- slot tables and budgets (R311 to R313)

/-- The channels that a table load names. -/
def loadChans (w : Word) : List Nat := (List.range 16).filter (fun c => bitOf w (5 + c))

/-- The table of the `i`th channel that a load names. -/
def loadTable (l : List Word) (i : Nat) : SlotTable :=
  let g := fun k => (paramOf l (2 + 4 * i + k)).toNat
  ⟨BitVec.ofNat 125 (g 0 + 2 ^ 32 * g 1 + 2 ^ 64 * g 2 + 2 ^ 96 * g 3), bitsOf (paramOf l 1) 21 3⟩

/-- The tables of a load with their channels. -/
def loadTables (l : List Word) : List (Nat × SlotTable) :=
  let cs := loadChans (paramOf l 1)
  (List.range cs.length).map (fun i => (cs.getD i 0, loadTable l i))

/-- Store a table of channel `c` for mode `m`. -/
def storeTable (s : State) (m : Nat) (p : Nat × SlotTable) : State :=
  let x := chan s p.1
  setChan s p.1 { x with tables := if h : m - 3 < 4 then x.tables.set (m - 3) p.2 else x.tables }

/-- The slot of each budget of a load: RATE and DEPTH of source `i`. -/
def loadBudget (l : List Word) (i : Nat) : Word := BitVec.ofNat 32 (bitsOf (paramOf l (2 + i)) 0 16)

/-- Store the budgets of slice `k` for mode `m`. -/
def storeBudgets (s : State) (m k : Nat) (l : List Word) : State :=
  let b := (List.range 24).foldl (fun b i => cellsSet noBudget b (budgetKey m k i) (loadBudget l i)) s.seq.budgets
  { s with seq := { s.seq with budgets := b } }

/-- No slice grants more in mode `m` than the channels that it serves reserve; an unpopulated slice serves none (R312). -/
def ratesFit (s : State) (m : Nat) : Bool :=
  (List.range 8).all (fun k =>
    decide (rateSum (storedBudget s m k) ≤ ((servedChans s m k).map (fun c => slotCount (storedTable s c m))).sum))

/-- A table that R312 refuses for channel `c` in mode `m`. -/
def tableRefused (s : State) (m : Nat) (p : Nat × SlotTable) : Bool :=
  decide (slotCount p.2 < 13) || decide (31 < slotCount p.2) || p.2.limit == 0 || decide (4 < p.2.limit)
    || (slicePop s (p.1 / 2) && tableTooSlow (boundsOf s p.1 p.2 (m == 6)))

/-- A stored table goes to the shadow of its channel (R313). -/
def shadowTable (s : State) (m : Nat) (c : Nat) : State :=
  if slicePop s (c / 2) then
    let t := storedTable s c m
    setChan s c { chan s c with shadow := some (t, m, checkedStatus s c t m) }
  else s

/-- The shadows swap at the next epoch boundary. -/
def swapSoon (s : State) : State := { s with seq := { s.seq with swapDue := some (s.tick / 1000 * 1000 + 1000) } }

/-- Tables of the mode in use are installed through the shadow. -/
def installTables (s : State) (m : Nat) (l : List Nat) : State :=
  if tableMode (curMode s) = m then swapSoon (l.foldl (fun s c => shadowTable s m c) s) else s

/-- Budgets of the mode in use are installed through the shadow. -/
def installBudgets (s : State) (m k : Nat) : State :=
  if tableMode (curMode s) = m then
    let l := (List.range 24).map (fun i => (k * 24 + i, storedBudget s m k i))
    swapSoon { s with seq := { s.seq with swapBudget := l } }
  else s

/-- KIND 0: tables. -/
def loadTablesAct (s : State) (c : Taken) : State :=
  let m := bitsOf (c.w 1) 0 4
  let l := loadTables c.params
  let t := l.foldl (fun s p => storeTable s m p) s
  if l.any (tableRefused s m) || !ratesFit t m then answer s c stBadParam []
  else if swapPending s then answer s c stBusy []
  else answer (installTables t m (l.map (·.1))) c stOk []

/-- KIND 1: budgets. -/
def loadBudgetsAct (s : State) (c : Taken) : State :=
  let m := bitsOf (c.w 1) 0 4
  let k := bitsOf (c.w 1) 25 3
  let t := storeBudgets s m k c.params
  if !ratesFit t m || (List.range 24).any (fun i => bitsOf (loadBudget c.params i) 8 8 == 0) then answer s c stBadParam []
  else if swapPending s then answer s c stBusy []
  else answer (installBudgets t m k) c stOk []

/-- `SLOT_TABLE_LOAD`. -/
def slotTableAct (s : State) (c : Taken) : State := if bitOf (c.w 1) 4 then loadBudgetsAct s c else loadTablesAct s c

/-- The mode is 3 to 6, and LENGTH fits the kind and the mask. -/
def slotTableShape (_ : State) (len : Nat) (l : List Word) : Bool :=
  let w := paramOf l 1
  decide (3 ≤ bitsOf w 0 4) && decide (bitsOf w 0 4 ≤ 6)
    && (if bitOf w 4 then len == 25 else len == 1 + 4 * (loadChans w).length)

/-- The rule of `SLOT_TABLE_LOAD`. -/
def slotTableLoadRule : CmdRule :=
  { long := true, shape := slotTableShape, busy := notBusyState, mode := inModes workModes, denied := noDenial,
    act := slotTableAct }

/-- The meaning of SLOT_TABLE_LOAD. -/
def execSlotTableLoad (mb : Mailbox) (s : State) : Host.Outcome State Fault Refusal :=
  guarded s (takePacket s mb 0x58 slotTableLoadRule)

end Sys2Proof.Machine
end

