-- ==== Sys2Proof/Machine/Regions.lean ====
section
/-! DEFINITION. The commands of regions and realms (R284 to R290): the table that a `REGION_SET` would leave, what it
back-invalidates and zeroes, and its completion. -/

namespace Sys2Proof.Machine

-- the table (R284, R287)

/-- Region `i` is valid. -/
def rgnValid (s : State) (i : Nat) : Bool := bitOf (rgnAttr s i) 0

/-- First and last 2 MiB block of region `i`. -/
def rgnFirst (s : State) (i : Nat) : Nat := getFld s (rgnBase i) 0 27
def rgnLast (s : State) (i : Nat) : Nat := getFld s (rgnBase i + 4) 0 27

/-- Blocks of region `i`. -/
def rgnSize (s : State) (i : Nat) : Nat := rgnLast s i + 1 - rgnFirst s i

/-- First block of the metadata area of region `i`. -/
def rgnMeta (s : State) (i : Nat) : Nat := getFld s (rgnBase i + 0xC) 0 27

/-- Root slot of region `i`. -/
def rgnTree (s : State) (i : Nat) : Nat := bitsOf (rgnAttr s i) 16 3

/-- The valid regions. -/
def validRegions (s : State) : List Nat := (List.range 64).filter (rgnValid s)

/-- Two ranges of blocks share one. -/
def rangesMeet (a b c d : Nat) : Bool := decide (a ≤ d) && decide (c ≤ b)

/-- Region `i` is described as R284 and R287 require, as far as it alone shows. -/
def regionAlone (s : State) (i : Nat) : Bool :=
  decide (rgnFirst s i ≤ rgnLast s i)
    && (if rgnSealed s i then
        rgnSize s i % 4 == 0 && !bitOf (rgnAttr s i) 6 && (!rgnPinned s i || rgnFresh s i)
          && (validRegions s).any (fun k => rgnBacking s k == 3 && rgnFirst s k == rgnMeta s i
              && rgnLast s k + 1 == rgnMeta s i + rgnSize s i / 4)
          && !(List.range 16).any (fun w => mwEn s w
              && rangesMeet (rgnFirst s i) (rgnLast s i) (getFld s (mwBase w) 0 27) (getFld s (mwBase w + 4) 0 27))
      else !rgnFresh s i && !rgnPinned s i && rgnTree s i == 0 && rgnMeta s i == 0)

/-- Regions `i` and `k` do not stand against each other: their ranges, and for sealed ones the metadata area and for fresh
ones the root slot, are their own. -/
def regionsApart (s : State) (i k : Nat) : Bool :=
  i == k
    || (!rangesMeet (rgnFirst s i) (rgnLast s i) (rgnFirst s k) (rgnLast s k)
        && !(rgnSealed s i && rgnSealed s k && rgnMeta s i == rgnMeta s k)
        && !(rgnFresh s i && rgnFresh s k && rgnTree s i == rgnTree s k))

/-- The size of the regions that `p` picks. -/
def sizeOf (s : State) (p : Nat → Bool) : Nat := (((validRegions s).filter p).map (rgnSize s)).sum

/-- The table as a whole is one that R284 and R287 allow. -/
def tableLegal (s : State) : Bool :=
  let l := validRegions s
  l.all (regionAlone s) && l.all (fun i => l.all (regionsApart s i))
    && decide (sizeOf s (rgnFresh s) ≤ 4096) && decide ((l.filter (rgnFresh s)).length ≤ 8)
    && decide (sizeOf s (rgnPinned s) ≤ min 512 (32 * (popChans s).length))

/-- Store an entry of the table. -/
def putRegion (s : State) (i : Nat) (base limit attr meta' : Word) : State :=
  let b := rgnBase i
  let s := setReg (setReg s b (base &&& 0x07FFFFFF)) (b + 4) (limit &&& 0x07FFFFFF)
  setReg (setReg s (b + 8) (attr &&& 0x0007FFFF)) (b + 0xC) (meta' &&& 0x07FFFFFF)

/-- The entry that a `REGION_SET` names. -/
def setIndex (l : List Word) : Nat := bitsOf (paramOf l 1) 0 6

/-- The metadata entry that it names. -/
def setMetaIndex (l : List Word) : Nat := bitsOf (paramOf l 1) 8 6

/-- The entry that it writes describes a sealed region. -/
def setsSealed (l : List Word) : Bool := bitOf (paramOf l 4) 0 && bitOf (paramOf l 4) 3

/-- The entries that it writes. -/
def setEntries (l : List Word) : List Nat := if setsSealed l then [setMetaIndex l, setIndex l] else [setIndex l]

/-- The metadata region that a sealed region brings (R287): valid, BACKING metadata, not sealed; its SHARED, WALK, MIN_PRIV and
REALM are not stated, and free (assumption 71). -/
def putMetaRegion (s : State) (l : List Word) : State :=
  let m := bitsOf (paramOf l 5) 0 27
  let n := (bitsOf (paramOf l 3) 0 27 + 1 - bitsOf (paramOf l 2) 0 27) / 4
  putRegion s (setMetaIndex l) (BitVec.ofNat 32 m) (BitVec.ofNat 32 (m + n - 1))
    (7 ||| ((Config.freeWord s.free).setWidth 32 &&& 0xFFC0)) 0

/-- The table after the command: the metadata entry first. -/
def tableAfter (s : State) (l : List Word) : State :=
  let s := if setsSealed l then putMetaRegion s l else s
  putRegion s (setIndex l) (paramOf l 2) (paramOf l 3) (paramOf l 4) (paramOf l 5)

/-- The command breaks R284 or R287. -/
def setRefused (s : State) (l : List Word) : Bool :=
  (setsSealed l && (decide (bitsOf (paramOf l 3) 0 27 < bitsOf (paramOf l 2) 0 27) || setMetaIndex l == setIndex l))
    || !tableLegal (tableAfter s l)

-- the ranges that change (R286)

/-- Block `b` lies in one of the entries that the command writes, before (`s`) or after (`t`). -/
def blockChanges (s t : State) (l : List Word) (b : Nat) : Bool := (setEntries l).any (fun k => rgnHolds s b k || rgnHolds t b k)

/-- Sealing of a block: none, or FRESH with the place of its metadata. -/
def sealClass (s : State) (o : Option Nat) : Option (Bool × Nat × Nat × Nat) :=
  match o with
  | some i => if rgnSealed s i then some (rgnFresh s i, rgnMeta s i, rgnFirst s i, rgnLast s i) else none
  | none => none

/-- SEALED, FRESH, REALM or the metadata area changes at block `b`. -/
def blockRekeyed (s t : State) (b : Nat) : Bool :=
  let x := regionOf s (b * 2 ^ 21)
  let y := regionOf t (b * 2 ^ 21)
  sealClass s x != sealClass t y
    || (match x, y with
      | some i, some k => rgnRealm s i != rgnRealm t k
      | _, _ => false)

/-- Entry `k` describes a sealed region, and describes it otherwise in the other table. -/
def sealChanges (s t : State) (k : Nat) : Bool :=
  rgnValid s k && rgnSealed s k
    && (!rgnValid t k || sealClass s (some k) != sealClass t (some k) || rgnRealm s k != rgnRealm t k)

/-- Block `b` lies in the metadata area of entry `k` of `s`. -/
def inMeta (s : State) (k b : Nat) : Bool := decide (rgnMeta s k ≤ b) && decide (b < rgnMeta s k + rgnSize s k / 4)

/-- Block `b` is written with zero codewords. -/
def blockZeroed (s t : State) (l : List Word) (b : Nat) : Bool :=
  (blockChanges s t l b && blockRekeyed s t b)
    || (setEntries l).any (fun k => (sealChanges s t k && inMeta s k b) || (sealChanges t s k && inMeta t k b))

/-- Block of channel line `m` of channel `c`. -/
def blockOfLine (s : State) (c m : Nat) : Nat := encodeAddr s c m / 2 ^ 21

-- zero-fill

/-- Channel, row unit and number of a check line that is listed, cached or known as lost. -/
def listedChecks (s : State) : List (Nat × Nat × Nat) :=
  let d := s.dram.filterMap (fun e =>
    if 28 ≤ e.1 % 32 then some (e.1 / 32 / 2 ^ 23, e.1 / 32 % 2 ^ 23, e.1 % 32 - 28) else none)
  let lost := (List.range 16).flatMap (fun c =>
    (chan s c).lost.filterMap (fun k => if 28 ≤ k % 32 then some (c, k / 32, k % 32 - 28) else none))
  let l := d ++ lost ++ (List.range 8).flatMap (fun n => (slice s n).cc.map (fun e => (e.chan, e.unit, e.k)))
  l.eraseDups

/-- How many of the seven data lines of a check line `z` picks. -/
def checkHits (z : Nat → Nat → Bool) (c u k : Nat) : Nat :=
  ((List.range 7).filter (fun i => z c (28 * u + 7 * k + i))).length

/-- The DRAM slot under `key` holds what the zero-fill of the lines `z` writes whole. -/
def slotZeroed (z : Nat → Nat → Bool) (key : Nat) : Bool :=
  let c := key / 32 / 2 ^ 23
  let u := key / 32 % 2 ^ 23
  if key % 32 < 28 then z c (28 * u + key % 32) else checkHits z c u (key % 32 - 28) == 7

/-- A zero codeword is written over line `m` of channel `c`. -/
def zeroLine (s : State) (c m : Nat) : State := writeBurst s c m 0 (dataCheck 0 c m 0) 27

/-- The lines `z` that a check line covers in part become zero lines. -/
def zeroPart (z : Nat → Nat → Bool) (s : State) (p : Nat × Nat × Nat) : State :=
  (List.range 7).foldl (fun s i =>
    let m := 28 * p.2.1 + 7 * p.2.2 + i
    if z p.1 m then zeroLine s p.1 m else s) s

/-- Every line that `z` picks is written with a zero codeword; what is queued or cached of it goes. -/
def zeroFill (s : State) (z : Nat → Nat → Bool) : State :=
  let edges := (listedChecks s).filter (fun p =>
    let n := checkHits z p.1 p.2.1 p.2.2
    n != 0 && n != 7)
  let s := { s with dram := cellsDrop (slotZeroed z) s.dram }
  let s := forEach 16 s (fun s c =>
    let x := chan s c
    setChan s c { x with lost := x.lost.filter (fun k => !slotZeroed z (dramKey c (k / 32) (k % 32))),
                         toSeal := x.toSeal.filter (fun m => !z c m) })
  let s := forEach 8 s (fun s n =>
    let x := slice s n
    setSlice s n { x with cc := x.cc.filter (fun e => checkHits z e.chan e.unit e.k != 7),
                          ctc := x.ctc.filter (fun e => !z e.chan e.m) })
  let s := forEach 16 s (fun s c => setWrq s c ((chan s c).wrq.filter (fun w => !z c w.m)))
  edges.foldl (zeroPart z) s

/-- The granules of a mirror window that the zero-fill changes are set, and the window falls behind. -/
def zeroMirror (z : Nat → Bool) (s : State) (w : Nat) : State :=
  let lo := getFld s (mwBase w) 0 27
  let l := (List.range (getFld s (mwBase w + 4) 0 27 + 1 - lo)).filter (fun i => z (lo + i))
  if twinRole s ≠ 1 ∨ !mwEn s w ∨ l.isEmpty then s
  else
    let s := l.foldl (fun s i => forEach 8 s (fun s g => markGranule s w ((lo + i) * 2 ^ 21 + g * 2 ^ 18))) s
    if mwState s w = 1 then mwMove s w 2 else s

-- completion

/-- RGN_FRESH follows the table (Table 11.12). -/
def noteFresh (s : State) : State :=
  setReg s 0x360408 (BitVec.ofNat 32 (sizeOf s (rgnFresh s) + 2 ^ 13 * sizeOf s (rgnPinned s)
    + 2 ^ 23 * ((validRegions s).filter (rgnFresh s)).length))

/-- The roots of tree slot `t` are cleared on every channel. -/
def clearRoots (s : State) (t : Nat) : State := forEach 16 s (fun s c => rootSet s t c 0)

/-- The tree slots whose roots a change clears. -/
def treesCleared (s t : State) (l : List Word) : List Nat :=
  (setEntries l).flatMap (fun k =>
    (if sealChanges s t k && rgnFresh s k then [rgnTree s k] else [])
      ++ (if sealChanges t s k && rgnFresh t k then [rgnTree t k] else []))

/-- Metadata lines of a region that is no longer pinned may be evicted again. -/
def unpin (s : State) (k : Nat) : State :=
  if rgnValid s k && rgnSealed s k && rgnPinned s k then s
  else
    onSlices s (List.range 8) (fun x =>
      { x with ctc := mapIf (fun e => inMeta s k (blockOfLine s e.chan e.m)) (fun e => { e with pinned := false }) x.ctc })

/-- Failed nodes of the entries written are forgotten with the tree they stood in. -/
def forgetNodes (s t : State) (l : List Word) (u : State) : State :=
  let gone := fun k => (setEntries l).contains k && (sealChanges s t k || sealChanges t s k)
  onSlices u (List.range 8) (fun x => { x with nodeBad := x.nodeBad.filter (fun r => !gone r.region) })

/-- The change is made: zeroed, written, its roots cleared, its pinned levels fetched (R286, R298). -/
def regionDone (s : State) (l : List Word) : State :=
  let t := tableAfter s l
  let z := blockZeroed s t l
  let u := forEach 16 (zeroFill s (fun c m => z (blockOfLine s c m))) (zeroMirror z)
  let u := forgetNodes s t l ((treesCleared s t l).foldl clearRoots u)
  let u := noteFresh (tableAfter u l)
  let u := if setsSealed l then { u with free := u.free + 1 } else u
  (setEntries l).foldl (fun u k => pinRegion (unpin u k) k) u

/-- No holder, work or open merge is left of the lines that change. -/
def regionQuiet (s : State) (l : List Word) : Bool :=
  let t := tableAfter s l
  let z := blockZeroed s t l
  (List.range 8).all (fun n =>
    let sel := fun k => blockChanges s t l (addrOfLine s n k / 2 ^ 21)
    !holdsLines s n sel && !worksOn s n sel)
    && (List.range 16).all (fun c => (chan s c).wrq.all (fun w => w.full || !z (blockOfLine s c w.m)))

/-- The running `REGION_SET` back-invalidates what is left, and ends when nothing is. -/
def regionStep (s : State) : State :=
  match s.seq.run with
  | some r =>
    if bitsOf r.hdr 0 8 = 0x20 then
      let l := r.params
      let t := tableAfter s l
      let s := forEach 8 s (fun s n =>
        if slicePwr s n then endWays s n (fun k => blockChanges s t l (addrOfLine s n k / 2 ^ 21)) else s)
      if regionQuiet s l then finishCmd (regionDone s l) stOk [] else s
    else s
  | none => s

/-- `REGION_SET` at take-up. -/
def regionSetAct (s : State) (c : Taken) : State :=
  if setRefused s c.params then answer s c stBadParam [] else regionStep (startRun s c 1 0)

/-- The rule of `REGION_SET`. -/
def regionSetRule : CmdRule :=
  { long := true, shape := wordsOnly 5, busy := notBusyState, mode := inModes [3, 4, 5, 6, 9], denied := noDenial,
    act := regionSetAct }

/-- REGION_SET: the packet is taken up, or the command that runs goes on. -/
def regionSetEffect (s : State) (mb : Mailbox) : State :=
  if (nextPkt s mb 0x20).isSome then takePacket s mb 0x20 regionSetRule
  else if running s then settleMail (regionStep s) else s

/-- The meaning of REGION_SET. -/
def execRegionSet (mb : Mailbox) (s : State) : Host.Outcome State Fault Refusal := guarded s (regionSetEffect s mb)

/-- `REGION_GET`. -/
def regionGetAct (s : State) (c : Taken) : State :=
  let b := rgnBase (bitsOf (c.w 1) 0 6)
  answer s c stOk [getReg s b, getReg s (b + 4), getReg s (b + 8), getReg s (b + 0xC)]

/-- The rule of `REGION_GET`. -/
def regionGetRule : CmdRule :=
  { long := false, shape := wordsOnly 1, busy := notBusyState, mode := anyMode, denied := noDenial, act := regionGetAct }

/-- The meaning of REGION_GET. -/
def execRegionGet (mb : Mailbox) (s : State) : Host.Outcome State Fault Refusal := guarded s (takePacket s mb 0x21 regionGetRule)

-- realms (R290)

/-- The realm that a packet names. -/
def realmParam (l : List Word) : Nat := bitsOf (paramOf l 1) 0 6

/-- Generation of realm `r`. -/
def realmGen (s : State) (r : Nat) : Nat := getFld s (0x360500 + 4 * r) 0 16

/-- Realm `r` is marked open or closed. -/
def markRealm (s : State) (r : Nat) (b : Bool) : State :=
  if r < 32 then setBit s 0x360400 r b else setBit s 0x360404 (r - 32) b

/-- `REALM_OPEN` is denied: the lifecycle state, an empty slot 0, or a generation at its end. -/
def realmDenied (s : State) (l : List Word) : Bool :=
  !(lcState s == 1 || lcState s == 2) || (s.pins.keys[0]).isNone || realmGen s (realmParam l) == 0xFFFF

/-- `REALM_OPEN`. -/
def realmOpenAct (s : State) (c : Taken) : State :=
  let r := realmParam c.params
  answer (markRealm s r true) c stOk [BitVec.ofNat 32 (realmGen s r)]

/-- The rule of `REALM_OPEN`. -/
def realmOpenRule : CmdRule :=
  { long := true, shape := wordsOnly 1, busy := notBusyState, mode := inModes workModes, denied := realmDenied,
    act := realmOpenAct }

/-- The meaning of REALM_OPEN. -/
def execRealmOpen (mb : Mailbox) (s : State) : Host.Outcome State Fault Refusal := guarded s (takePacket s mb 0x28 realmOpenRule)

/-- A valid region with SHARED 0 names realm `r`. -/
def realmNamed (s : State) (r : Nat) : Bool := (validRegions s).any (fun i => !bitOf (rgnAttr s i) 6 && rgnRealm s i == r)

/-- `REALM_RETIRE`. -/
def realmRetireAct (s : State) (c : Taken) : State :=
  let r := realmParam c.params
  if realmNamed s r then answer s c stBadParam []
  else
    let s := bumpGeneration (markRealm s r false) r
    answer s c stOk [BitVec.ofNat 32 (realmGen s r)]

/-- The rule of `REALM_RETIRE`. -/
def realmRetireRule : CmdRule :=
  { long := true, shape := wordsOnly 1, busy := notBusyState, mode := inModes workModes, denied := noDenial,
    act := realmRetireAct }

/-- The meaning of REALM_RETIRE. -/
def execRealmRetire (mb : Mailbox) (s : State) : Host.Outcome State Fault Refusal :=
  guarded s (takePacket s mb 0x29 realmRetireRule)

end Sys2Proof.Machine
end

