-- ==== Sys2Proof/Machine/Roles.lean ====
section
/-! DEFINITION. `MIRROR_CFG` and `FAILOVER` (R349, R351, R362, R364, R367 to R369): the twin role, the mirror windows and
resynchronisation. -/

namespace Sys2Proof.Machine

-- the role

/-- What every role command does: the role, PROMOTED and LOST cleared, and the heartbeat watch started anew (R349, R362). A
device that leaves Lead breaks its windows (Table 14.3); dual leadership ends with a command that names Follow (R368). -/
def takeRole (s : State) (r : Nat) : State :=
  let s := if twinRole s = 1 ∧ r ≠ 1 then pumpAll (mwBreakAll (mirrorDiscard s (linkUsable s)) false) else s
  let s := setFld (setReg s 0x310060 (BitVec.ofNat 32 r)) 0x310084 0 3 0
  { s with mirror := { s.mirror with hbSeen := false, dual := s.mirror.dual && r != 2, hbTxDue := s.tick + 100000, hbRxDue := s.tick + 100000 } }

/-- Every granule of window `w` is set. -/
def markWindow (s : State) (w : Nat) : State := setDirtyMap s (s.mirror.dirty ||| mwMask s w)

/-- `MIRROR_CFG` makes the device Lead: every window that was OFF is BEHIND with all granules set; one that is BROKEN ends that
by its own row (Table 14.3). -/
def enableWindows (s : State) : State :=
  forEach 16 s (fun s w => if mwEn s w && mwState s w == 0 then mwMove (markWindow s w) w 2 else s)

-- loading windows (R351)

/-- The windows that a mask names. -/
def maskWindows (l : List Word) : List Nat := (List.range 16).filter (fun w => bitOf (paramOf l 1) (16 + w))

/-- BASE, SYNC, LIMIT and TGT of the `i`th window of a packet. -/
structure WinSpec where
  base : Nat
  sync : Bool
  limit : Nat
  tgt : Word
  deriving DecidableEq, Repr

/-- The `i`th window of a packet. -/
def winSpec (l : List Word) (i : Nat) : WinSpec :=
  let w := fun k => paramOf l (6 + 3 * i + k)
  ⟨bitsOf (w 0) 0 27, bitOf (w 0) 31, bitsOf (w 1) 0 27, w 2⟩

/-- The windows of a packet with their numbers. -/
def winSpecs (l : List Word) : List (Nat × WinSpec) :=
  let ws := maskWindows l
  (List.range ws.length).map (fun i => (ws.getD i 0, winSpec l i))

/-- Every block of a range lies in DRAM-backed regions that are not sealed. From the block at hand the check goes on behind
the region that holds it, so that 64 steps decide it. -/
def dramBacked (s : State) : Nat → Nat → Nat → Bool
  | 0, _, _ => false
  | fuel + 1, b, last =>
    if last < b then true
    else match regionOf s (b * 2 ^ 21) with
    | some i => rgnBacking s i == 1 && !rgnSealed s i && dramBacked s fuel (rgnLast s i + 1) last
    | none => false

/-- The set of windows breaks R351. -/
def windowsRefused (s : State) (l : List (Nat × WinSpec)) : Bool :=
  l.any (fun p => decide (p.2.limit < p.2.base) || !dramBacked s 65 p.2.base p.2.limit)
    || l.any (fun p => l.any (fun q => p.1 != q.1 && rangesMeet p.2.base p.2.limit q.2.base q.2.limit))
    || decide (16384 < (l.map (fun p => p.2.limit + 1 - p.2.base)).sum)

/-- Store window `p`, its granules from bit `at'` of the dirty map; on a Lead it is BEHIND. -/
def putWindow (lead : Bool) (a : State × Nat) (p : Nat × WinSpec) : State × Nat :=
  let (s, at') := a
  let b := mwBase p.1
  let s := setReg (setReg s b (BitVec.ofNat 32 p.2.base)) (b + 4) (BitVec.ofNat 32 p.2.limit)
  let s := setReg (setReg s (b + 8) p.2.tgt) (b + 0xC)
    (BitVec.ofNat 32 (1 + 2 * b2n p.2.sync + 2 ^ 2 * (if lead then 2 else 0) + 2 ^ 4 * at'))
  (if lead then markWindow s p.1 else s, at' + 8 * (p.2.limit + 1 - p.2.base))

/-- The windows of a packet replace those in use, and the heartbeat addresses are loaded. -/
def loadWindows (s : State) (l : List Word) : State :=
  let s := pumpAll (mirrorDiscard s (linkUsable s))
  let s := setDirtyMap (resetRegs s 0x310300 0x310400) 0
  let s := { s with mirror := { s.mirror with lossBroken := 0, sent := [], flushOf := [] } }
  let s := setReg (setReg s 0x310074 (paramOf l 2 &&& 0xFFFFFFC0)) 0x310078 (paramOf l 3)
  let s := setReg (setReg s 0x31007C (paramOf l 4 &&& 0xFFFFFFC0)) 0x310080 (paramOf l 5 &&& 0x001FFFFF)
  ((winSpecs l).foldl (putWindow (twinRole s == 1)) (s, 0)).1

-- resynchronisation (R369)

/-- BROKEN may end for window `w`: after partner loss by a partner that shows itself as Follow, otherwise with a usable
link (Table 14.3). -/
def resyncAllowed (s : State) (w : Nat) : Bool :=
  if s.mirror.lossBroken.getLsbD w then getFld s 0x310084 3 2 == 2 else linkUsable s && !getBit s 0x310084 2

/-- Resync of window `w`. -/
def resyncWindow (markAll : Bool) (s : State) (w : Nat) : State :=
  if mwEn s w then
    let s := if markAll then markWindow s w else s
    if mwState s w = 3 then
      if resyncAllowed s w then
        let s := mwMove s w 2
        { s with mirror := { s.mirror with lossBroken := s.mirror.lossBroken &&& ~~~ (BitVec.ofNat 16 (2 ^ w)) } }
      else s
    else if mwState s w = 1 ∧ mwDirty s w then mwMove s w 2 else s
  else s

-- the commands

/-- LENGTH of `MIRROR_CFG`, and a role that Table 14.1 names. -/
def mirrorShape (_ : State) (len : Nat) (l : List Word) : Bool :=
  let w := paramOf l 1
  bitsOf w 0 2 != 3 && len == (if bitOf w 4 then 5 + 3 * (maskWindows l).length else 1)

/-- M2 to M6 and M9, and for a resync the role Lead. -/
def mirrorMode (s : State) (l : List Word) : Bool :=
  workModes.contains (curMode s) && (!bitOf (paramOf l 1) 2 || twinRole s == 1)

/-- `MIRROR_CFG`. -/
def mirrorCfgAct (s : State) (c : Taken) : State :=
  let w := c.w 1
  let load := bitOf w 4
  if load && windowsRefused s (winSpecs c.params) then answer s c stBadParam []
  else
    let was := twinRole s
    let s := takeRole s (bitsOf w 0 2)
    let s := if twinRole s = 1 ∧ was ≠ 1 then enableWindows s else s
    let s := if load then loadWindows s c.params else s
    let s := if bitOf w 2 ∧ twinRole s = 1 then (maskWindows c.params).foldl (resyncWindow (bitOf w 3)) s else s
    answer s c stOk []

/-- The rule of `MIRROR_CFG`. -/
def mirrorCfgRule : CmdRule :=
  { long := true, shape := mirrorShape, busy := notBusyState, mode := mirrorMode, denied := noDenial, act := mirrorCfgAct }

/-- The meaning of MIRROR_CFG. -/
def execMirrorCfg (mb : Mailbox) (s : State) : Host.Outcome State Fault Refusal := guarded s (takePacket s mb 0x30 mirrorCfgRule)

/-- A Follow, or a Solo device, becomes Lead by command as by promotion (R367): its windows are BROKEN with every granule
clear; those that no partner loss broke may fall behind at once. -/
def failoverLead (s : State) : State :=
  let lost := getBit s 0x310084 2
  let was := s.mirror.lossBroken
  let s := takeRole (promote s) 1
  if lost then s else mirrorRecover { s with mirror := { s.mirror with lossBroken := was } }

/-- `FAILOVER`. -/
def failoverAct (s : State) (c : Taken) : State :=
  let r := bitsOf (c.w 1) 0 2
  let s := if r = 1 ∧ twinRole s ≠ 1 then failoverLead s else takeRole s r
  answer s c stOk [BitVec.ofNat 32 r]

/-- The rule of `FAILOVER`: the new role is Lead or Follow. -/
def failoverRule : CmdRule :=
  { long := true, shape := fun _ len l => len == 1 && (bitsOf (paramOf l 1) 0 2 == 1 || bitsOf (paramOf l 1) 0 2 == 2),
    busy := notBusyState, mode := inModes [2, 3, 4, 5, 6, 7, 9, 10], denied := noDenial, act := failoverAct }

/-- The meaning of FAILOVER. -/
def execFailover (mb : Mailbox) (s : State) : Host.Outcome State Fault Refusal := guarded s (takePacket s mb 0x31 failoverRule)

end Sys2Proof.Machine
end

