-- ==== Sys2Proof/Machine/Sequencer.lean ====
section
/-! DEFINITION. The commands that change the mode, train and initialise memory, power slices and join pairs, and revive a
port; the completion of a revive, and the command timer (R390 to R413, R453, R192). -/

namespace Sys2Proof.Machine

/-- Work that a Safe entry left to run, or an advance whose handshake stands, occupies the modes (R391, R413). -/
def modesHeld (s : State) : Bool := s.seq.moveLeft.isSome || s.pins.lcAdvReq

-- training and initialisation

/-- The channel that `TRAIN_CHANNEL` names. -/
def trainParam (l : List Word) : Nat := bitsOf (paramOf l 1) 0 4

/-- The rule of `TRAIN_CHANNEL`: TRAINING_COMPLETE ends it. -/
def trainChannelRule : CmdRule :=
  { long := true,
    shape := fun s len l => len == 1 && slicePop s (trainParam l / 2) && !chanActive s (trainParam l),
    busy := notBusyState, mode := inModes [2, 9], denied := noDenial,
    act := fun s c => startRun s c 1 (trainParam c.params) }

/-- The meaning of TRAIN_CHANNEL. -/
def execTrainChannel (mb : Mailbox) (s : State) : Host.Outcome State Fault Refusal :=
  guarded s (takePacket s mb 0x10 trainChannelRule)

/-- `INIT_MEMORY`: the decode takes effect and initialisation starts (R246, R393, R394). The manual does not say what becomes of
requests that wait in slices, of filter entries and of queued writes when the decode changes: they keep their slice and line
number, and a request that waits is served at its old home (DESIGN CHOICE, assumption 98). -/
def initMemoryAct (s : State) (c : Taken) : State := answer (startInitAll (loadDecode s)) c stOk []

/-- The rule of `INIT_MEMORY`: M2, role Solo. -/
def initMemoryRule : CmdRule :=
  { long := true, shape := wordsOnly 0, busy := notBusyState, mode := fun s _ => curMode s == 2 && twinRole s == 0,
    denied := noDenial, act := initMemoryAct }

/-- The meaning of INIT_MEMORY. -/
def execInitMemory (mb : Mailbox) (s : State) : Host.Outcome State Fault Refusal :=
  guarded s (takePacket s mb 0x11 initMemoryRule)

-- SET_MODE (R390, Table 16.2)

/-- The target that `SET_MODE` names. -/
def modeParam (l : List Word) : Nat := bitsOf (paramOf l 1) 0 4

/-- The channels that it names. -/
def modeChans (l : List Word) : List Nat := (List.range 16).filter (fun c => bitOf (paramOf l 1) (16 + c))

/-- Every populated channel is active. -/
def allActive (s : State) : Bool := (popChans s).all (chanActive s)

/-- M10 may be left by a command to target `t` (R385, R391). -/
def safeLeaves (s : State) (t : Nat) : Bool :=
  !anyFault s && getFld s 0x320004 12 4 != 1 && (!s.seq.wipeCut || t == 11)

/-- `SET_MODE` along a transition that Table 16.2 permits. -/
def setModeOk (s : State) (l : List Word) : Bool :=
  let cur := curMode s
  let t := modeParam l
  let run := t == 3 || t == 4 || t == 5
  let steady := !run || (allActive s && !anyJoined s)
  if cur = 10 then (t == 2 || run || t == 9 || t == 11) && safeLeaves s t && steady
  else if workModes.contains cur then
    if t = 9 then
      (cur == 2 && !allActive s) || (decide (3 ≤ cur) && decide (cur ≤ 6) && !(modeChans l).isEmpty
        && (cur != 6 || !(modeChans l).any (fun c => pairJoined s (c / 4))))
    else t == 2 || t == 8 || (run && steady && cur != 6)
  else false

/-- The channels named are for M9 from a run mode only. -/
def setModeShape (s : State) (len : Nat) (l : List Word) : Bool :=
  len == 1 && ((modeChans l).isEmpty || (modeParam l == 9 && decide (3 ≤ curMode s) && decide (curMode s ≤ 6)))

/-- Run modes and M9 are denied in Retire, M8 without RET_EN (R404, R412). -/
def setModeDenied (s : State) (l : List Word) : Bool :=
  let t := modeParam l
  (runMode t && lcState s == 4) || (t == 8 && !getBit s 0x370000 5)

/-- A transition that needs no Drain: it starts, with the settings and tables of its target. -/
def beginMode (s : State) (t : Nat) : State :=
  let s := startTransit s t
  setPhase (if runMode t then loadMode s t else s) 2

/-- M9 from a run mode: the channels named are drained first (R407). -/
def beginDegrade (s : State) (l : List Word) : State :=
  let mask := BitVec.ofNat 16 (bitsOf (paramOf l 1) 16 16)
  setTrans (startTransit s 9) (some ⟨BitVec.ofNat 4 (curMode s), 9, mask⟩)

/-- The transition of a `SET_MODE` that has been accepted. -/
def setModeBegin (s : State) (l : List Word) : State :=
  let t := modeParam l
  if t = 11 then startWipe s
  else if t = 8 ∨ (t = 2 ∧ curMode s ≠ 10) then startDrain s t
  else if !(modeChans l).isEmpty then beginDegrade s l
  else beginMode s t

/-- `SET_MODE`. -/
def setModeAct (s : State) (c : Taken) : State :=
  if curMode s = 2 ∧ modeParam c.params = 2 then answer s c stOk [2]
  else if !(modeChans c.params).all (fun k => slicePop s (k / 2) && chanActive s k) then answer s c stBadParam []
  else
    let s := startRun s c 1 0
    setModeBegin { s with seq := { s.seq with lcTarget := none } } c.params

/-- The rule of `SET_MODE`. -/
def setModeRule : CmdRule :=
  { long := true, shape := setModeShape, busy := modesHeld, mode := setModeOk, denied := setModeDenied, act := setModeAct }

/-- The meaning of SET_MODE. -/
def execSetMode (mb : Mailbox) (s : State) : Host.Outcome State Fault Refusal := guarded s (takePacket s mb 0x02 setModeRule)

-- WIPE and LIFECYCLE_ADVANCE

/-- `WIPE`: from M10 at once, otherwise after a Drain (R410). -/
def wipeAct (s : State) (c : Taken) : State :=
  let s := startRun s c 1 0
  let s := { s with seq := { s.seq with lcTarget := none } }
  if inSafe s then startWipe s else startDrain s 11

/-- The rule of `WIPE`. -/
def wipeRule : CmdRule :=
  { long := true, shape := wordsOnly 0, busy := modesHeld,
    mode := fun s _ => workModes.contains (curMode s) || (inSafe s && safeLeaves s 0), denied := noDenial, act := wipeAct }

/-- The meaning of WIPE. -/
def execWipe (mb : Mailbox) (s : State) : Host.Outcome State Fault Refusal := guarded s (takePacket s mb 0x49 wipeRule)

/-- `LIFECYCLE_ADVANCE`: the target is later than the state in use (R413). -/
def advanceAct (s : State) (c : Taken) : State :=
  let t := bitsOf (c.w 1) 0 3
  if t ≤ lcState s ∨ 4 < t then answer s c stBadParam []
  else
    let s := startRun s c 1 0
    startDrain { s with seq := { s.seq with lcTarget := some (BitVec.ofNat 3 t) } } 11

/-- The rule of `LIFECYCLE_ADVANCE`. -/
def lifecycleAdvanceRule : CmdRule :=
  { long := true, shape := wordsOnly 1, busy := modesHeld, mode := inModes workModes, denied := noDenial, act := advanceAct }

/-- The meaning of LIFECYCLE_ADVANCE. -/
def execLifecycleAdvance (mb : Mailbox) (s : State) : Host.Outcome State Fault Refusal :=
  guarded s (takePacket s mb 0x48 lifecycleAdvanceRule)

-- SLICE_POWER (R237, R398, R399)

/-- Slice that `SLICE_POWER` names, and the successor. -/
def powerSlice (l : List Word) : Nat := bitsOf (paramOf l 1) 0 3
def powerSucc (l : List Word) : Nat := bitsOf (paramOf l 1) 12 3

/-- Slice `n` is populated, its domain on, and its packets come to it. -/
def inService (s : State) (n : Nat) : Bool := slicePop s n && slicePwr s n && !sliceFenced s n

/-- Slice `n` is the successor of a fenced slice. -/
def succeeds (s : State) (n : Nat) : Bool :=
  (List.range 8).any (fun m => m != n && sliceFenced s m && getFld s 0x30000C (4 * m) 3 == n)

/-- Slice `n` may be switched off with successor `m`. -/
def powerOffOk (s : State) (n m : Nat) : Bool :=
  inService s n && n != m && inService s m && !succeeds s n && (!pairJoined s (n / 2) || m == pairSlice n)

/-- `SLICE_POWER`: off writes the successor, and the drain follows; on moves entries back, or returns the slice to service.
Either stops the pair's Deadline admission first (R315). -/
def slicePowerAct (s : State) (c : Taken) : State :=
  let n := powerSlice c.params
  if bitOf (c.w 1) 8 then
    if !slicePop s n ∨ slicePwr s n then answer s c stBadParam []
    else
      let s := startRun s c 1 n
      match s.seq.run with
      | some r => moveStart s r
      | none => s
  else if !powerOffOk s n (powerSucc c.params) then answer s c stBadParam []
  else
    let s := startRun (setFld s 0x30000C (4 * n) 3 (powerSucc c.params)) c 1 n
    match s.seq.run with
    | some r => moveStart s r
    | none => s

/-- The rule of `SLICE_POWER`. -/
def slicePowerRule : CmdRule :=
  { long := true, shape := wordsOnly 1, busy := modesHeld, mode := inModes [3, 4, 5, 6], denied := noDenial,
    act := slicePowerAct }

/-- The meaning of SLICE_POWER. -/
def execSlicePower (mb : Mailbox) (s : State) : Host.Outcome State Fault Refusal :=
  guarded s (takePacket s mb 0x38 slicePowerRule)

-- ACCORD_CFG (R396)

/-- Pair `p` may do what the command names for it: joined pairs split, others join, with both slices in service. -/
def pairMayMove (s : State) (w : Word) (p : Nat) : Bool :=
  bitOf w p != bitOf w (4 + p) && bitOf w p != pairJoined s p && inService s (2 * p) && inService s (2 * p + 1)

/-- Some pair is joined once the pairs up to `p` have moved. -/
def joinedThrough (s : State) (w : Word) (p : Nat) : Bool :=
  (List.range 4).any (fun q => if q ≤ p && (namedPairs w).contains q then bitOf w q else pairJoined s q)

/-- The command names a pair, each pair it names may move, and where the last joined pair splits a mode follows. -/
def accordOk (s : State) (w : Word) : Bool :=
  let l := namedPairs w
  let t := bitsOf w 8 4
  !l.isEmpty && l.all (pairMayMove s w)
    && (l.all (joinedThrough s w) || (decide (3 ≤ t) && decide (t ≤ 5)))

/-- `ACCORD_CFG` starts with the lowest pair. -/
def accordAct (s : State) (c : Taken) : State :=
  if !accordOk s (c.w 1) then answer s c stBadParam []
  else
    let s := startRun s c 1 ((namedPairs (c.w 1)).headD 0)
    match s.seq.run with
    | some r => moveStart s r
    | none => s

/-- The rule of `ACCORD_CFG`. -/
def accordCfgRule : CmdRule :=
  { long := true, shape := wordsOnly 1, busy := modesHeld, mode := inModes [3, 4, 5, 6], denied := noDenial,
    act := accordAct }

/-- The meaning of ACCORD_CFG. -/
def execAccordCfg (mb : Mailbox) (s : State) : Host.Outcome State Fault Refusal :=
  guarded s (takePacket s mb 0x39 accordCfgRule)

-- AGENT_REVIVE (R192)

/-- `AGENT_REVIVE`: refused for a port that is absent or in reset; otherwise it waits. -/
def reviveAct (s : State) (c : Taken) : State :=
  let n := bitsOf (c.w 1) 0 5
  if n < 24 ∧ portEnabled s n ∧ !(port s n).resetLow then waitCmd (startRun s c 1 n) else answer s c stBadParam []

/-- The rule of `AGENT_REVIVE`. -/
def agentReviveRule : CmdRule :=
  { long := true, shape := wordsOnly 1, busy := notBusyState, mode := inModes workModes, denied := noDenial,
    act := reviveAct }

/-- The meaning of AGENT_REVIVE. -/
def execAgentRevive (mb : Mailbox) (s : State) : Host.Outcome State Fault Refusal :=
  guarded s (takePacket s mb 0x61 agentReviveRule)

/-- A packet of port `n` waits in an inbox of a slice, or is in the spine. -/
def portPackets (s : State) (n : Nat) : Bool :=
  inFlight s n != 0 || (List.range 8).any (fun k => (slice s k).inbox.any (fun i => i.pkt.src.toNat == n))

/-- Reclamation of the agent of port `n` has ended everywhere, and nothing of the port is on its way. -/
def reviveReady (s : State) (n : Nat) : Bool := !reclaimPending s n && !portPackets s n

/-- The revive of port `n`: the fence and the marks of death go, every TXN is free, and R190 no longer applies. Aperture
requests start anew from the port's next number. -/
def revivePort (s : State) (n : Nat) : State :=
  let s := setBit (setBit s 0x300300 n false) (portBase n + 0x10) 0 false
  let s := setPort s n { port s n with fenced := false, dead := false, txns := [], owed := [], acks := [],
                                         snps := [], egress := [], egDue := [] }
  let s := forEach 8 s (fun s k =>
    let x := slice s k
    setSlice s k { x with late := x.late.filter (fun r => r.agent.toNat != n) })
  let ap := s.obs.apInbox.filter (fun i => i.pkt.src.toNat != n)
  let s := { s with obs := { s.obs with apInbox := ap, apNext := cellsSet (fun _ => 0) s.obs.apNext n (port s n).apSeries } }
  latchPort s n

/-- AGENT_REVIVE_COMPLETE. -/
def reviveDoneEffect (s : State) : State :=
  match s.seq.run with
  | some r =>
    if running s ∧ bitsOf r.hdr 0 8 = 0x61 ∧ reviveReady s r.arg then settleMail (finishCmd (revivePort s r.arg) stOk []) else s
  | none => s

/-- The meaning of AGENT_REVIVE_COMPLETE. -/
def execAgentReviveComplete (s : State) : Host.Outcome State Fault Refusal := guarded s (reviveDoneEffect s)

-- the command timer (R453)

/-- What the expiry undoes: a Drain, or an accord or power command whose move has not started. -/
def undoCommand (s : State) (r : RunCmd) : State :=
  let op := bitsOf r.hdr 0 8
  if curMode s = 7 then abandonDrain { s with seq := { s.seq with lcTarget := none } }
  else if op = 0x38 ∨ op = 0x39 then endTransit (undoPower s)
  else s

/-- COMMAND_TIMEOUT: the timer of the waiting command has run out. -/
def timeoutEffect (s : State) : State :=
  match s.seq.run with
  | some r =>
    if running s ∧ timerDue s r.timer then
      let s := settleMail (finishCmd (undoCommand s r) stTimeout [])
      report (setBit s 0x35000C 4 true) 26 8
    else s
  | none => s

/-- The meaning of COMMAND_TIMEOUT. -/
def execCommandTimeout (s : State) : Host.Outcome State Fault Refusal := guarded s (timeoutEffect s)

end Sys2Proof.Machine
end

