-- ==== Sys2Proof/Machine/Observe.lean ====
section
/-! DEFINITION. The tick, the dump writer, the idle timer of the sillage FIFO, the aperture interface, and the interrupt
lines of chapter 17 (R58, R215 to R217, R418 to R442). -/

namespace Sys2Proof.Machine

-- the tick (R58, R418, R419)

/-- The occupancy of code `e` at the unit of set `k` (Table 17.1); 0 for a code that names none, which counts nothing. -/
def occupancy (s : State) (k e : Nat) : Nat :=
  if k < 8 then
    let x := slice s k
    match e with
    | 0x80 => poolTaken x .general
    | 0x81 => poolTaken x .deadline
    | 0x82 => poolTaken x .retry
    | 0x83 => x.lanes.length
    | 0x84 => x.victims.length
    | 0x85 => x.xslots.length
    | _ => 0
  else
    let x := chan s (k - 8)
    match e with
    | 0x80 => rdqTaken x
    | 0x81 => x.wrq.length
    | 0x82 => (x.banks.toList.filter (fun b => b.row.isSome)).length
    | 0x83 => x.pending
    | _ => 0

/-- Counter `i` of set `k` at a tick: with MODE 1 it adds one while the occupancy exceeds THRESH (R419). -/
def tickCounter (k : Nat) (s : State) (i : Nat) : State :=
  let c := pmuCfg s k i
  if bitOf c 8 && !pmuChained s k i && decide (bitsOf c 10 10 < occupancy s k (bitsOf c 0 8)) then pmuAdd 8 s k i 1 else s

/-- Counter set `k` at a tick. -/
def tickSet (s : State) (k : Nat) : State :=
  if pmuOn s k then forEach 8 (setPmuCount s k 8 ((pmuCount s k 8 + 1) % 2 ^ 48)) (tickCounter k) else s

/-- TICK: one more ns on the tick counter, seen by every counter set and probe. None comes while the timebase is lost or
the core domain has no clock (R60). -/
def tickEffect (s : State) : State :=
  if running s && s.pins.tbRun then forEach 24 (forEach 24 { s with tick := s.tick + 1 } tickSet) probeTick else s

/-- The meaning of TICK. -/
def execTick (s : State) : Host.Outcome State Fault Refusal := guarded s (tickEffect s)

-- snapshots (R423, R424)

/-- The dump writer writes, and a dump tick takes a snapshot, in M3 to M6 and M9. -/
def dumpMode (s : State) : Bool := [3, 4, 5, 6, 9].contains (curMode s)

/-- Line 0 of a slot of the counter ring. -/
def snapHeader (s : State) : LineData :=
  BitVec.ofNat 512 (0x504D5544 + 2 ^ 32 * (s.obs.dumpNo % 2 ^ 32) + 2 ^ 64 * (s.tick % 2 ^ 64)
    + 2 ^ 128 * getFld s 0x33201C 16 8)

/-- The line of a powered set. -/
def snapSet (s : State) (k : Nat) : LineData :=
  BitVec.ofNat 512 (pmuCount s k 8 + 2 ^ 48 * packFields 8 48 (pmuCount s k)
    + 2 ^ 432 * getFld s (pmuBase k + 0x80) 0 8 + 2 ^ 440 + 2 ^ 448 * packFields 8 8 (fun i => bitsOf (pmuCfg s k i) 0 8))

/-- The line of set `k`: of one without power only VALID is stated. -/
def snapLine (s : State) (k : Nat) : State × LineData :=
  if pmuPowered s k then (s, snapSet s k)
  else
    let (a, s) := takeFree256 s
    let (b, s) := takeFree256 s
    (s, (b ++ a) &&& ~~~(BitVec.ofNat 512 (255 * 2 ^ 440)))

/-- The lines of sets 0 to 23 in order. -/
def snapLines : Nat → State → State × List LineData
  | 0, s => (s, [])
  | n + 1, s =>
    let (s, l) := snapLines n s
    let (s, d) := snapLine s n
    (s, l ++ [d])

/-- Address of the slot of the counter ring for the snapshot taken last. -/
def slotBase (s : State) : Nat :=
  let slots := 2 ^ min 12 (getFld s 0x332010 21 4)
  getFld s 0x332014 11 21 * 2 ^ 11 + getFld s 0x332018 0 16 * 2 ^ 32 + s.obs.dumpNo % slots * 2048

/-- The snapshot before is not wholly written. -/
def snapPending (s : State) : Bool :=
  s.obs.dumpStop || !s.obs.dumpQ.isEmpty || s.obs.dumpTxns.any (fun t => !t.ring && !t.gone)

/-- Every set captures its counters: 25 lines wait for the dump writer. -/
def takeSnapshot (s : State) : State :=
  let n := (s.obs.dumpNo + 1) % 2 ^ 32
  let s := setFld { s with obs := { s.obs with dumpNo := n } } 0x33201C 0 16 n
  let (s, l) := snapLines 24 s
  let b := slotBase s
  let q := (snapHeader s :: l).zipIdx.map (fun d => (BitVec.ofNat 48 (b + 64 * d.2), d.1))
  { s with obs := { s.obs with dumpQ := q } }

/-- DUMP_TICK. -/
def dumpTickEffect (s : State) : State :=
  if running s && s.pins.tbRun && getBit s 0x332010 0 && comparatorTurn s 3 && decide (s.obs.dumpDue ≤ s.tick) then
    let s := { s with obs := { s.obs with dumpDue := s.obs.dumpDue + dumpPeriod s } }
    if dumpMode s && !snapPending s then takeSnapshot s else satAdd s 0x33201C 16 8 1
  else s

/-- The meaning of DUMP_TICK. -/
def execDumpTick (s : State) : Host.Outcome State Fault Refusal := guarded s (dumpTickEffect s)

-- aperture reads and the events of the interface (R215, R422)

/-- The counter register that an aperture read names: set, counter, and whether it is the HI register (R422). -/
def apCounter (r : Req) : Option (Nat × Nat × Bool) :=
  let a := r.addr.toNat
  if 0x330000 ≤ a ∧ a < 0x331800 then (counterAt (a % 256)).map (fun c => ((a - 0x330000) / 256, c.1, c.2)) else none

/-- Privilege for a read of counters (Table 8.5). -/
def apReadAllowed (s : State) (r : Req) : Bool := getBit s 0x332000 2 || decide (1 ≤ r.priv.toNat)

/-- What an aperture read ends with: 0, or a `CompErr` code. -/
def apReadError (s : State) (r : Req) : BitVec 4 :=
  match apCounter r with
  | some (k, _, hi) =>
    if !pmuPowered s k ∨ (r.size = 3 ∧ hi) then 7 else if apReadAllowed s r then 0 else 3
  | none => 7

/-- The value of an aperture read, and the copy that it makes on the port's own path (R421, R422). -/
def apValue (s : State) (n : PortId) (r : Req) : State × Nat :=
  match apCounter r with
  | some (k, i, _) =>
    let (s, w) := regRead s (.agent n) r.addr.toNat
    (s, if r.size = 3 then pmuCount s k i else w.toNat)
  | none => (s, 0)

/-- The one data flit of an aperture read (R81): other bytes than those returned are not stated. -/
def apData (s : State) (r : Req) (v : Nat) : State × Dat :=
  let k := 2 ^ r.size.toNat
  let a := r.addr.toNat % 32
  let be := BitVec.ofNat 32 ((2 ^ k - 1) * 2 ^ a)
  let (f, s) := takeFree256 s
  let d := lineHalf (mergeBytes (f.setWidth 512) (BitVec.ofNat 512 (v * 2 ^ (8 * a))) (be.setWidth 64)) false
  (s, homeHalf 0 0 r (r.addr.getLsbD 5) d false 0 be)

/-- AP_READ. Requests of a fenced port are dropped (R106). -/
def apReadEffect (s : State) (n : PortId) : State :=
  match apRequest s n.val with
  | some (p, r) =>
    if r.opcode ≠ 0x30 then s
    else
      let s := apServed s n.val p
      let e := apReadError s r
      if (port s n.val).fenced then s
      else if e ≠ 0 then apSend s n.val p (apRsp r e)
      else
        let (s, v) := apValue s n r
        let (s, d) := apData s r v
        apSend (apSend s n.val p (.dat d)) n.val p (apRsp r 0)
  | none => s

/-- The meaning of AP_READ. -/
def execApRead (n : PortId) (s : State) : Host.Outcome State Fault Refusal :=
  guarded s (if running s then apReadEffect s n else s)

/-- The meaning of AP_WRITE. -/
def execApWrite (n : PortId) (s : State) : Host.Outcome State Fault Refusal :=
  guarded s (if running s then apWriteEffect s n.val else s)

-- the dump writer (R433, R439)

/-- Lines of the sillage ring. -/
def ringLines (s : State) : Nat := 2 ^ max 4 (getFld s 0x340000 13 4)

/-- Address of the line for the next item: past those in flight. -/
def ringNext (s : State) : Nat :=
  let ahead := (s.obs.dumpTxns.filter (·.ring)).length
  getFld s 0x340018 12 20 * 2 ^ 12 + getFld s 0x34001C 0 16 * 2 ^ 32
    + 64 * ((getFld s 0x340020 0 15 + ahead) % ringLines s)

/-- Eight words of an item as a line. -/
def itemLine (ws : List (BitVec 64)) : LineData := BitVec.ofNat 512 (packFields 8 64 (fun i => (ws.getD i 0).toNat))

/-- An item may leave storage. -/
def itemReady (s : State) : Bool := trcOn s && !s.obs.ringStop && !s.obs.storage.isEmpty

/-- A snapshot line may be written. -/
def snapReady (s : State) : Bool := !s.obs.dumpStop && !s.obs.dumpQ.isEmpty

/-- An item goes before a snapshot line (R439). -/
def itemFirst (s : State) : Bool :=
  itemReady s && (decide (384 < s.obs.storage.length) || !snapReady s || decide (8 ≤ s.obs.dumpRun))

/-- A half of the data of a dump write to slice `n`. -/
def dumpHalf (t : DumpTxn) (n : Nat) (h : Bool) : Dat :=
  { kind := 3, half := h, poison := false, home := BitVec.ofNat 3 n, txn := t.txn, entry := 0, snpwb := false, dst := 0,
    state := 0, prio := t.req.prio, be := BitVec.allOnes 32, data := lineHalf t.data h }

/-- The request leaves for the home of the line, and both halves of its data as one packet (R221). A line that no slice homes
is answered here (R245). -/
def dumpSend (s : State) (t : DumpTxn) : State :=
  match homeOf s t.req.addr.toNat with
  | none =>
    let i : InMsg := ⟨mkPacket 23 4 26 false t.req.prio (bridgeErr 7 t.req.txn t.req.prio), false, s.tick⟩
    { s with obs := { s.obs with dumpInbox := s.obs.dumpInbox ++ [i] } }
  | some h =>
    let n := h.slice
    let no := BitVec.ofNat 16 s.obs.dumpReqNo
    let mk := fun (m : Msg) => { mkPacket (sliceRouter n) 1 26 false t.req.prio m with reqNo := no }
    let s := { s with obs := { s.obs with dumpReqNo := (s.obs.dumpReqNo + 1) % 65536 } }
    launch (launch s 23 5 (mk (.req t.req))) 23 5 (mk (.datPair (dumpHalf t n false) (dumpHalf t n true)))

/-- A new write of the dump writer: `WrInvFull` with the priority of PMU_DUMP_CTL and the realm of the line's region. -/
def dumpTxn (s : State) (k : Nat) (pa : Addr) (d : LineData) (ring : Bool) : DumpTxn :=
  let (realm, priv) := copierRights s pa.toNat
  { txn := BitVec.ofNat 8 k,
    req := twinReq 0x10 (BitVec.ofNat 8 k) (BitVec.ofNat 2 (getFld s 0x332010 25 2)) realm priv pa,
    data := d, ring := ring, gone := false, held := false, grant := false }

/-- The write leaves, and is in flight. -/
def dumpLaunch (s : State) (t : DumpTxn) : State :=
  let s := dumpSend s t
  { s with obs := { s.obs with dumpTxns := s.obs.dumpTxns ++ [t] } }

/-- The reissue of a refused write under its grant (R95). -/
def dumpReissue (s : State) (t : DumpTxn) : State :=
  let t := { t with req := { t.req with crd := true }, held := false, grant := false }
  let s := { s with obs := { s.obs with dumpTxns := mapIf (fun x => x.txn == t.txn) (fun _ => t) s.obs.dumpTxns } }
  dumpSend s t

/-- The next piece of work under transaction number `k`. -/
def dumpNext (s : State) (k : Nat) : State :=
  if itemFirst s then
    match s.obs.storage with
    | [] => s
    | i :: l =>
      let t := dumpTxn s k (BitVec.ofNat 48 (ringNext s)) (itemLine i) true
      wakeWriters (dumpLaunch { s with obs := { s.obs with storage := l, dumpRun := 0 } } t)
  else if snapReady s then
    match s.obs.dumpQ with
    | [] => s
    | (a, d) :: l => dumpLaunch { s with obs := { s.obs with dumpQ := l, dumpRun := s.obs.dumpRun + 1 } } (dumpTxn s k a d false)
  else s

/-- DUMP_WRITER_ISSUE: a granted reissue, else the next line or item, at most 4 in flight. -/
def dumpIssueEffect (s : State) : State :=
  if !running s || !dumpMode s then s
  else match s.obs.dumpTxns.find? (fun t => t.held && t.grant) with
  | some t => dumpReissue s t
  | none =>
    match firstFree 4 (s.obs.dumpTxns.map (fun t => t.txn.toNat)) with
    | some k => dumpNext s k
    | none => s

/-- The meaning of DUMP_WRITER_ISSUE. -/
def execDumpWriterIssue (s : State) : Host.Outcome State Fault Refusal := guarded s (dumpIssueEffect s)

/-- TRC_RING_PTR moves to the next line; a wrap counts (R433). -/
def ringAdvance (s : State) : State :=
  let p := getFld s 0x340020 0 15 + 1
  if p < ringLines s then setFld s 0x340020 0 15 p
  else setFld (setFld s 0x340020 0 15 0) 0x340020 16 16 (getFld s 0x340020 16 16 + 1)

/-- A write of the dump writer has ended: `ok` with `Comp`. -/
def dumpEnds (s : State) (t : DumpTxn) (ok : Bool) : State :=
  let s := { s with obs := { s.obs with dumpTxns := s.obs.dumpTxns.filter (fun x => x.txn != t.txn) } }
  if t.ring then (if ok then ringAdvance s else { s with obs := { s.obs with ringStop := true } })
  else if t.gone then s
  else if !ok then setBit { s with obs := { s.obs with dumpStop := true } } 0x33201C 24 true
  else if snapPending s then s else setBit s 0x33201C 25 true

/-- What a message does to the write it names. -/
def dumpMessage (s : State) (t : DumpTxn) (r : Rsp) : State :=
  let set := fun (t : DumpTxn) =>
    { s with obs := { s.obs with dumpTxns := mapIf (fun x => x.txn == t.txn) (fun _ => t) s.obs.dumpTxns } }
  if r.opcode = 2 then dumpEnds s t true
  else if r.opcode = 7 then dumpEnds s t false
  else if r.opcode = 5 then set { t with held := true }
  else if r.opcode = 6 then set { t with grant := true }
  else s

/-- DUMP_WRITER_RESPONSE: the next message for source 26. One that names no write in flight changes nothing. -/
def dumpResponseEffect (s : State) : State :=
  match s.obs.dumpInbox with
  | [] => s
  | i :: l =>
    let s := { s with obs := { s.obs with dumpInbox := l } }
    match i.pkt.msg with
    | .rsp r =>
      match s.obs.dumpTxns.find? (fun t => t.txn == r.txn) with
      | some t => dumpMessage s t r
      | none => s
    | _ => s

/-- The meaning of DUMP_WRITER_RESPONSE. -/
def execDumpWriterResponse (s : State) : Host.Outcome State Fault Refusal :=
  guarded s (if running s then dumpResponseEffect s else s)

-- the idle timer of the assembly register (R431)

/-- SILLAGE_FLUSH: pad words fill the item, and it is stored once storage has room. -/
def flushEffect (s : State) : State :=
  if running s && s.pins.tbRun && s.obs.flushDue.any (fun d => decide (d ≤ s.tick)) && decide (s.obs.storage.length < 512) then
    let item := s.obs.assembly ++ List.replicate (8 - s.obs.assembly.length) 0
    { s with obs := { s.obs with storage := s.obs.storage ++ [item], assembly := [], flushDue := none } }
  else s

/-- The meaning of SILLAGE_FLUSH. -/
def execSillageFlush (s : State) : Host.Outcome State Fault Refusal := guarded s (flushEffect s)

-- interrupt lines (R442)

/-- `IRQ_PMU`. -/
def irqPmu (s : State) : Bool :=
  s.pins.live && ((getBit s 0x332000 3 && (List.range 24).any (fun k => getFld s (pmuBase k + 0x80) 0 8 != 0))
    || (getBit s 0x332000 4 && (getBit s 0x33201C 24 || getBit s 0x33201C 25)))

/-- `IRQ_TRC`. -/
def irqTrc (s : State) : Bool := s.pins.live && (getReg s 0x340008 &&& getReg s 0x34000C != 0 || s.obs.ringStop)

end Sys2Proof.Machine
end

