-- ==== Sys2Proof/Machine/Dispatch.lean ====
section
/-! DEFINITION. The dispatch: one arm per command, one direct call of its meaning. -/

namespace Sys2Proof.Machine

/-- The effect of a command on everything but the queue of waiting commands. -/
def exec (i : Instr) (s : State) : Host.Outcome State Fault Refusal :=
  match i with
  | .resetAssert brst => Sys2Proof.Machine.execResetAssert brst s
  | .resetRelease brst straps fuse heldLong refclkOk => Sys2Proof.Machine.execResetRelease brst straps fuse heldLong refclkOk s
  | .alwaysOnPowerOn => Sys2Proof.Machine.execAlwaysOnPowerOn s
  | .supplyExcursion cause => Sys2Proof.Machine.execSupplyExcursion cause s
  | .vddCoreRemove => Sys2Proof.Machine.execVddCoreRemove s
  | .perstAssert => Sys2Proof.Machine.execPerstAssert s
  | .perstRelease => Sys2Proof.Machine.execPerstRelease s
  | .agentResetAssert n => Sys2Proof.Machine.execAgentResetAssert n s
  | .agentResetRelease n => Sys2Proof.Machine.execAgentResetRelease n s
  | .timebaseLock => Sys2Proof.Machine.execTimebaseLock s
  | .timebaseLoss => Sys2Proof.Machine.execTimebaseLoss s
  | .refclkReturn => Sys2Proof.Machine.execRefclkReturn s
  | .calendarLoss => Sys2Proof.Machine.execCalendarLoss s
  | .calendarSecond => Sys2Proof.Machine.execCalendarSecond s
  | .tempUpd temp => Sys2Proof.Machine.execTempUpd temp s
  | .tempStale => Sys2Proof.Machine.execTempStale s
  | .overTemperature => Sys2Proof.Machine.execOverTemperature s
  | .fuseSample fuse => Sys2Proof.Machine.execFuseSample fuse s
  | .lcAdvDone => Sys2Proof.Machine.execLcAdvDone s
  | .lifecycleAdvanceTimeout => Sys2Proof.Machine.execLifecycleAdvanceTimeout s
  | .keyBeat slot beat data => Sys2Proof.Machine.execKeyBeat slot beat data s
  | .registerWrite addr data => Sys2Proof.Machine.execRegisterWrite addr data s
  | .cpReqRelease => Sys2Proof.Machine.execCpReqRelease s
  | .tbLoRead => Sys2Proof.Machine.execTbLoRead s
  | .probeCntLoRead r => Sys2Proof.Machine.execProbeCntLoRead r s
  | .counterLoRead path set sel => Sys2Proof.Machine.execCounterLoRead path set sel s
  | .hazCntRead n => Sys2Proof.Machine.execHazCntRead n s
  | .filterInspectRead n word => Sys2Proof.Machine.execFilterInspectRead n word s
  | .twnWCommit mask => Sys2Proof.Machine.execTwnWCommit mask s
  | .linkEn en => Sys2Proof.Machine.execLinkEn en s
  | .pwrReq req => Sys2Proof.Machine.execPwrReq req s
  | .pmuClear sel => Sys2Proof.Machine.execPmuClear sel s
  | .probeClear r => Sys2Proof.Machine.execProbeClear r s
  | .dumpEnable => Sys2Proof.Machine.execDumpEnable s
  | .trcEnable en => Sys2Proof.Machine.execTrcEnable en s
  | .trcWrHi word => Sys2Proof.Machine.execTrcWrHi word s
  | .dropRest sel => Sys2Proof.Machine.execDropRest sel s
  | .trcLogPop => Sys2Proof.Machine.execTrcLogPop s
  | .cmdWr word => Sys2Proof.Machine.execCmdWr word s
  | .cmdRd => Sys2Proof.Machine.execCmdRd s
  | .flush => Sys2Proof.Machine.execFlush s
  | .partnerMailboxWrite word => Sys2Proof.Machine.execPartnerMailboxWrite word s
  | .partnerMailboxRead off => Sys2Proof.Machine.execPartnerMailboxRead off s
  | .replyMove mb => Sys2Proof.Machine.execReplyMove mb s
  | .getInfo mb => Sys2Proof.Machine.execGetInfo mb s
  | .setMode mb => Sys2Proof.Machine.execSetMode mb s
  | .getMode mb => Sys2Proof.Machine.execGetMode mb s
  | .trainChannel mb => Sys2Proof.Machine.execTrainChannel mb s
  | .initMemory mb => Sys2Proof.Machine.execInitMemory mb s
  | .scrubCtl mb => Sys2Proof.Machine.execScrubCtl mb s
  | .regionSet mb => Sys2Proof.Machine.execRegionSet mb s
  | .regionGet mb => Sys2Proof.Machine.execRegionGet mb s
  | .realmOpen mb => Sys2Proof.Machine.execRealmOpen mb s
  | .realmRetire mb => Sys2Proof.Machine.execRealmRetire mb s
  | .mirrorCfg mb => Sys2Proof.Machine.execMirrorCfg mb s
  | .failover mb => Sys2Proof.Machine.execFailover mb s
  | .slicePower mb => Sys2Proof.Machine.execSlicePower mb s
  | .accordCfg mb => Sys2Proof.Machine.execAccordCfg mb s
  | .ledgerExport mb => Sys2Proof.Machine.execLedgerExport mb s
  | .ledgerImport mb => Sys2Proof.Machine.execLedgerImport mb s
  | .calendarSet mb => Sys2Proof.Machine.execCalendarSet mb s
  | .lifecycleAdvance mb => Sys2Proof.Machine.execLifecycleAdvance mb s
  | .wipe mb => Sys2Proof.Machine.execWipe mb s
  | .blotterArm mb => Sys2Proof.Machine.execBlotterArm mb s
  | .faultClear mb => Sys2Proof.Machine.execFaultClear mb s
  | .slotTableLoad mb => Sys2Proof.Machine.execSlotTableLoad mb s
  | .agentFence mb => Sys2Proof.Machine.execAgentFence mb s
  | .agentRevive mb => Sys2Proof.Machine.execAgentRevive mb s
  | .agentReviveComplete => Sys2Proof.Machine.execAgentReviveComplete s
  | .commandTimeout => Sys2Proof.Machine.execCommandTimeout s
  | .patchApply => Sys2Proof.Machine.execPatchApply s
  | .patchVerifyComplete sigOk => Sys2Proof.Machine.execPatchVerifyComplete sigOk s
  | .reqFlit n dl flit => Sys2Proof.Machine.execReqFlit n dl flit s
  | .rspInboundFlit n dl flit => Sys2Proof.Machine.execRspInboundFlit n dl flit s
  | .datInboundFlit n dl flit => Sys2Proof.Machine.execDatInboundFlit n dl flit s
  | .creditReturn n chan dl => Sys2Proof.Machine.execCreditReturn n chan dl s
  | .egressPresent n chan dl => Sys2Proof.Machine.execEgressPresent n chan dl s
  | .wdogEgress n chan dl => Sys2Proof.Machine.execWdogEgress n chan dl s
  | .wdogData n txn => Sys2Proof.Machine.execWdogData n txn s
  | .wdogGrantack n home entry => Sys2Proof.Machine.execWdogGrantack n home entry s
  | .wdogCredit n txn => Sys2Proof.Machine.execWdogCredit n txn s
  | .routerHop r input hdr crc => Sys2Proof.Machine.execRouterHop r input hdr crc s
  | .outputArbitration r out => Sys2Proof.Machine.execOutputArbitration r out s
  | .requestIngress n => Sys2Proof.Machine.execRequestIngress n s
  | .rdShared n entry => Sys2Proof.Machine.execRdShared n entry s
  | .rdUnique n entry => Sys2Proof.Machine.execRdUnique n entry s
  | .rdOnce n entry => Sys2Proof.Machine.execRdOnce n entry s
  | .upgrade n entry => Sys2Proof.Machine.execUpgrade n entry s
  | .rdWalk n entry => Sys2Proof.Machine.execRdWalk n entry s
  | .wbDirty n => Sys2Proof.Machine.execWbDirty n s
  | .evClean n => Sys2Proof.Machine.execEvClean n s
  | .wrInvFull n entry => Sys2Proof.Machine.execWrInvFull n entry s
  | .wrInvPartial n entry => Sys2Proof.Machine.execWrInvPartial n entry s
  | .atomic n entry => Sys2Proof.Machine.execAtomic n entry s
  | .wbKeep n entry => Sys2Proof.Machine.execWbKeep n entry s
  | .wbDrop n entry => Sys2Proof.Machine.execWbDrop n entry s
  | .discard n entry => Sys2Proof.Machine.execDiscard n entry s
  | .xlatInv n => Sys2Proof.Machine.execXlatInv n s
  | .xlatSync n => Sys2Proof.Machine.execXlatSync n s
  | .apRead n => Sys2Proof.Machine.execApRead n s
  | .apWrite n => Sys2Proof.Machine.execApWrite n s
  | .snpAck n => Sys2Proof.Machine.execSnpAck n s
  | .xlatDone n => Sys2Proof.Machine.execXlatDone n s
  | .grantAck n => Sys2Proof.Machine.execGrantAck n s
  | .dataWb n => Sys2Proof.Machine.execDataWb n s
  | .lineReadComplete c errData errCheck badNode => Sys2Proof.Machine.execLineReadComplete c errData errCheck badNode s
  | .holdWindowExpire n line => Sys2Proof.Machine.execHoldWindowExpire n line s
  | .snoopTimeout n entry => Sys2Proof.Machine.execSnoopTimeout n entry s
  | .reclaimScan n => Sys2Proof.Machine.execReclaimScan n s
  | .creditGrant n => Sys2Proof.Machine.execCreditGrant n s
  | .hazardWatchExpire n slot => Sys2Proof.Machine.execHazardWatchExpire n slot s
  | .xlatSyncSignal n => Sys2Proof.Machine.execXlatSyncSignal n s
  | .filterScrub n err => Sys2Proof.Machine.execFilterScrub n err s
  | .epochBoundary => Sys2Proof.Machine.execEpochBoundary s
  | .commandSlot c => Sys2Proof.Machine.execCommandSlot c s
  | .schedulerDecision c => Sys2Proof.Machine.execSchedulerDecision c s
  | .refreshInterval c rank => Sys2Proof.Machine.execRefreshInterval c rank s
  | .rowIdleTimeout c rank bank => Sys2Proof.Machine.execRowIdleTimeout c rank bank s
  | .mr4Read c rank mult outOfRange => Sys2Proof.Machine.execMr4Read c rank mult outOfRange s
  | .zqLatch c rank => Sys2Proof.Machine.execZqLatch c rank s
  | .dqsOscillatorRead c rank count => Sys2Proof.Machine.execDqsOscillatorRead c rank count s
  | .scrubInterval c => Sys2Proof.Machine.execScrubInterval c s
  | .returnArbiterDecision a => Sys2Proof.Machine.execReturnArbiterDecision a s
  | .paceWindowEnd m count flight => Sys2Proof.Machine.execPaceWindowEnd m count flight s
  | .canaryEvent u => Sys2Proof.Machine.execCanaryEvent u s
  | .faultEvent u source => Sys2Proof.Machine.execFaultEvent u source s
  | .classificationWindowExpire u source => Sys2Proof.Machine.execClassificationWindowExpire u source s
  | .faultUnitSweep u parity => Sys2Proof.Machine.execFaultUnitSweep u parity s
  | .drydownExpire => Sys2Proof.Machine.execDrydownExpire s
  | .calibrationComplete ok margin unitCode => Sys2Proof.Machine.execCalibrationComplete ok margin unitCode s
  | .sramSelfTestComplete => Sys2Proof.Machine.execSramSelfTestComplete s
  | .trainingComplete c r => Sys2Proof.Machine.execTrainingComplete c r s
  | .modeTransitionComplete => Sys2Proof.Machine.execModeTransitionComplete s
  | .drainComplete => Sys2Proof.Machine.execDrainComplete s
  | .wipeComplete => Sys2Proof.Machine.execWipeComplete s
  | .retentionWake => Sys2Proof.Machine.execRetentionWake s
  | .entryMoveComplete => Sys2Proof.Machine.execEntryMoveComplete s
  | .sliceDrained n => Sys2Proof.Machine.execSliceDrained n s
  | .sliceDomainOff n => Sys2Proof.Machine.execSliceDomainOff n s
  | .twinDomainOff => Sys2Proof.Machine.execTwinDomainOff s
  | .linkTrainingStart => Sys2Proof.Machine.execLinkTrainingStart s
  | .linkUp speed width => Sys2Proof.Machine.execLinkUp speed width s
  | .linkDown => Sys2Proof.Machine.execLinkDown s
  | .hotReset => Sys2Proof.Machine.execHotReset s
  | .configRequest write addr be data => Sys2Proof.Machine.execConfigRequest write addr be data s
  | .flr => Sys2Proof.Machine.execFlr s
  | .busMasterEnableClear => Sys2Proof.Machine.execBusMasterEnableClear s
  | .d3hotEntry => Sys2Proof.Machine.execD3hotEntry s
  | .inboundMemWrite t => Sys2Proof.Machine.execInboundMemWrite t s
  | .inboundMemRead t => Sys2Proof.Machine.execInboundMemRead t s
  | .bar0Access write off data => Sys2Proof.Machine.execBar0Access write off data s
  | .twinLineIssue => Sys2Proof.Machine.execTwinLineIssue s
  | .twinLineResponse => Sys2Proof.Machine.execTwinLineResponse s
  | .inboundTlpError e => Sys2Proof.Machine.execInboundTlpError e s
  | .completionReceive tag st => Sys2Proof.Machine.execCompletionReceive tag st s
  | .completionTimeout tag => Sys2Proof.Machine.execCompletionTimeout tag s
  | .quarantineExpire tag => Sys2Proof.Machine.execQuarantineExpire tag s
  | .aspmL1Request => Sys2Proof.Machine.execAspmL1Request s
  | .mirrorWriteSend => Sys2Proof.Machine.execMirrorWriteSend s
  | .flushReadIssue => Sys2Proof.Machine.execFlushReadIssue s
  | .syncTimeout => Sys2Proof.Machine.execSyncTimeout s
  | .copierGranule => Sys2Proof.Machine.execCopierGranule s
  | .heartbeatTransmit => Sys2Proof.Machine.execHeartbeatTransmit s
  | .heartbeatMiss => Sys2Proof.Machine.execHeartbeatMiss s
  | .presenceChange present => Sys2Proof.Machine.execPresenceChange present s
  | .attentionPress => Sys2Proof.Machine.execAttentionPress s
  | .blinkPhase => Sys2Proof.Machine.execBlinkPhase s
  | .faultBlinkPhase => Sys2Proof.Machine.execFaultBlinkPhase s
  | .dumpTick => Sys2Proof.Machine.execDumpTick s
  | .dumpWriterIssue => Sys2Proof.Machine.execDumpWriterIssue s
  | .dumpWriterResponse => Sys2Proof.Machine.execDumpWriterResponse s
  | .sillageFlush => Sys2Proof.Machine.execSillageFlush s
  | .tick => Sys2Proof.Machine.execTick s
  | .rcRegisterRead addr => Sys2Proof.Machine.execRcRegisterRead addr s
  | .calLoRead => Sys2Proof.Machine.execCalLoRead s
  | .aonClkReturn => Sys2Proof.Machine.execAonClkReturn s
  | .keyReqRelease => Sys2Proof.Machine.execKeyReqRelease s
  | .flrComplete => Sys2Proof.Machine.execFlrComplete s

end Sys2Proof.Machine
end

