-- ==== Sys2Proof/WellFormed.lean ====
section
/-! DEFINITION. Which commands are well formed: the sizes that the types of the operands leave open. -/

namespace Sys2Proof

/-- A memory TLP: 1 to 1,024 DW of payload or request, inside BAR4's 40 bits of offset, a byte enable for
each byte of payload. -/
def MemTlp.wf (t : MemTlp) : Bool :=
  decide (1 ≤ t.len) && decide (t.len ≤ 4096) && decide (t.off.toNat + t.len ≤ 2 ^ 40)
    && decide (t.en.length = t.bytes.length)

/-- A memory write TLP carries as many bytes as its length says. -/
def MemTlp.wfWrite (t : MemTlp) : Bool := t.wf && decide (t.bytes.length = t.len)

/-- A memory read TLP carries none. -/
def MemTlp.wfRead (t : MemTlp) : Bool := t.wf && t.bytes.isEmpty

/-- The operands have the sizes the manual gives them. -/
def Instr.wf (i : Instr) : Bool :=
  match i with
  | .inboundMemWrite t => t.wfWrite
  | .inboundMemRead t => t.wfRead
  | .inboundTlpError (.poisoned t) => t.wfWrite
  | .holdWindowExpire _ line => decide (line.pa.toNat % 64 = 0)
  | .bar0Access _ off _ => decide (off.toNat % 4 = 0)
  | .configRequest _ addr _ _ => decide (addr.toNat % 4 = 0)
  | _ => true

end Sys2Proof
end

