-- ==== Sys2Proof/Safety.lean ====
section
/-! DEFINITION. The terms claims are stated in: when the block can act, how a command completes, which parts of the state
an effect may touch, and the canonical form of everything the state keeps sparse. -/

namespace Sys2Proof.Safety

open Sys2Proof.Machine

/-- The block is outside the undefined state of R27 and R28, and its core logic runs. -/
def Awake (s : State) : Prop := s.undef = false ∧ running s = true

/-- The block is awake and its timebase runs. -/
def Ticking (s : State) : Prop := Awake s ∧ s.pins.tbRun = true

/-- The control port can take an access: it answers (Table 2.4 step 5) and has seen `CP_REQ` low (R33). -/
def PortFree (s : State) : Prop := Awake s ∧ s.pins.live = true ∧ s.pins.cpReq = false

/-- The state once the control port has taken an access: `CP_REQ` is high and `CP_ACK` answers it. -/
def portTook (s : State) : State := { s with pins := { s.pins with cpReq := true, cpAck := true, cpErr := false } }

/-- The access of offset `a` is of a register whose domain is on. -/
def Reachable (s : State) (a : Nat) : Prop := domainOff s a = false ∧ inCfgSpace a = false ∧ (regDesc a).isSome = true

/-- Command `c` completes in `s` with a next state of which `P` holds. -/
def Completes (c : Instr) (s : State) (P : State → Prop) : Prop := ∃ t, exec c s = .next t ∧ P t

/-- The commands that act in the undefined state too: the resets, and the events of the supplies and of the always-on
domain. -/
def actsAlways (c : Instr) : Bool :=
  match c with
  | .resetAssert _ => true
  | .resetRelease _ _ _ _ _ => true
  | .alwaysOnPowerOn => true
  | .supplyExcursion _ => true
  | .vddCoreRemove => true
  | .calendarLoss => true
  | .calendarSecond => true
  | .aonClkReturn => true
  | _ => false

-- command packets

/-- The other mailbox. -/
def otherBox (mb : Mailbox) : Mailbox :=
  match mb with
  | .host => .partner
  | .partner => .host

/-- The packet `p` with opcode `op` is the only one that waits: it lies whole in mailbox `mb`, no reply of that mailbox waits
for room, and the other mailbox holds nothing. -/
def Lone (s : State) (mb : Mailbox) (op : Nat) (p : CmdPkt) : Prop :=
  Awake s ∧ readyLink s = true ∧ (mailOf s mb).cmd = [p] ∧ (mailOf s mb).held = [] ∧ (mailOf s (otherBox mb)).cmd = [] ∧
    p.owed = 0 ∧ p.dropped = false ∧ hdrOpcode p.hdr = op

/-- No refusal of R464, up to the pending state of step 8, applies to the packet. -/
def Accepts (s : State) (mb : Mailbox) (p : CmdPkt) (r : CmdRule) : Prop := refusalOf (popPkt s mb) mb p r = none

/-- The packet as it is taken up. -/
def takenOf (mb : Mailbox) (p : CmdPkt) : Taken := ⟨mb, p.hdr, p.stored⟩

/-- The long command of the packet runs, in phase `k`, with datum `arg` and its timer latched but not armed (R453). -/
def Runs (s t : State) (mb : Mailbox) (p : CmdPkt) (k arg : Nat) (timer : Option Nat) : Prop :=
  t.seq.run = some ⟨mb, p.hdr, p.stored, k, timer, arg, false, max 1 (getFld s 0x350014 0 16) * 1000000⟩

/-- The mailbox, opcode and rule of a command packet; `none` for every other command. -/
def packetRule (c : Instr) : Option (Mailbox × Nat × CmdRule) :=
  match c with
  | .getInfo mb => some (mb, 0x01, getInfoRule)
  | .setMode mb => some (mb, 0x02, setModeRule)
  | .getMode mb => some (mb, 0x03, getModeRule)
  | .trainChannel mb => some (mb, 0x10, trainChannelRule)
  | .initMemory mb => some (mb, 0x11, initMemoryRule)
  | .scrubCtl mb => some (mb, 0x12, scrubCtlRule)
  | .regionSet mb => some (mb, 0x20, regionSetRule)
  | .regionGet mb => some (mb, 0x21, regionGetRule)
  | .realmOpen mb => some (mb, 0x28, realmOpenRule)
  | .realmRetire mb => some (mb, 0x29, realmRetireRule)
  | .mirrorCfg mb => some (mb, 0x30, mirrorCfgRule)
  | .failover mb => some (mb, 0x31, failoverRule)
  | .slicePower mb => some (mb, 0x38, slicePowerRule)
  | .accordCfg mb => some (mb, 0x39, accordCfgRule)
  | .ledgerExport mb => some (mb, 0x40, ledgerExportRule)
  | .ledgerImport mb => some (mb, 0x41, ledgerImportRule)
  | .calendarSet mb => some (mb, 0x42, calendarSetRule)
  | .lifecycleAdvance mb => some (mb, 0x48, lifecycleAdvanceRule)
  | .wipe mb => some (mb, 0x49, wipeRule)
  | .blotterArm mb => some (mb, 0x50, blotterArmRule)
  | .faultClear mb => some (mb, 0x51, faultClearRule)
  | .slotTableLoad mb => some (mb, 0x58, slotTableLoadRule)
  | .agentFence mb => some (mb, 0x60, agentFenceRule)
  | .agentRevive mb => some (mb, 0x61, agentReviveRule)
  | _ => none

/-- The commands that take a request up, with the test of its opcode (chapter 5). -/
def takeUps : List ((SliceId → TakeUp → Instr) × (Req → Bool)) :=
  [(.rdShared, hasOp 1), (.rdUnique, hasOp 2), (.rdOnce, hasOp 3), (.upgrade, hasOp 4), (.rdWalk, isWalkReq),
   (.wrInvFull, hasOp 0x10), (.wrInvPartial, hasOp 0x11), (.atomic, hasOp 0x18), (.wbKeep, hasOp 0x20), (.wbDrop, hasOp 0x21),
   (.discard, hasOp 0x22)]

-- what an effect leaves alone

/-- Only registers may differ. -/
def OnlyRegs (s t : State) : Prop := t = { s with regs := t.regs }

/-- Only the boundary and its pins may differ. -/
def OnlyPins (s t : State) : Prop := t = { s with pins := t.pins }

/-- Only the twin port endpoint may differ. -/
def OnlyTwin (s t : State) : Prop := t = { s with twin := t.twin }

/-- Only the observability engines may differ. -/
def OnlyObs (s t : State) : Prop := t = { s with obs := t.obs }

/-- Only registers and the observability engines may differ. -/
def OnlyRegsObs (s t : State) : Prop := t = { s with regs := t.regs, obs := t.obs }

/-- Only registers and pins may differ. -/
def OnlyRegsPins (s t : State) : Prop := t = { s with regs := t.regs, pins := t.pins }

/-- Every register but the one at offset `a` reads as before. -/
def RegsBut (a : Nat) (s t : State) : Prop := ∀ b, b ≠ a → getReg t b = getReg s b

/-- What DRAM, the slices and the channels hold is as before. -/
def KeepsMemory (s t : State) : Prop := t.dram = s.dram ∧ t.slices = s.slices ∧ t.chans = s.chans

/-- DRAM and the slices are as before; the active channels are out of self-refresh and no channel's queue has changed. -/
def WakesRanks (s t : State) : Prop :=
  t.dram = s.dram ∧ t.slices = s.slices ∧ ∀ c, c < 16 →
    (chanActive s c = true → (chan t c).selfRef = false) ∧ (chan t c).wrq = (chan s c).wrq ∧ (chan t c).rdq = (chan s c).rdq

-- canonical forms

/-- The register file and DRAM are in canonical form: equal contents are equal lists. -/
def Canonical (s : State) : Prop :=
  cellsWf regReset s.regs = true ∧ cellsWf dramZero s.dram = true

end Sys2Proof.Safety
end

