-- ==== Sys2Proof/Certificates/Slice0/Obligations.lean ====
section
/-! DEFINITION. The statements for the provers: what each family of commands does to each kind of state, by the numbered rules
of the manual. A statement that names an assumption rests on that entry of the log for that clause. A conclusion
`exec c s = resume s t` says that the command completes: its next state is `t` with the queue of `s`. -/

open Sys2Proof Sys2Proof.Machine Sys2Proof.Safety

/-- O1, derived from the rules of the commands. A step runs the command at the front of the queue on the state with the
queue's rest; with nothing in the queue the block idles, which is the model's choice (assumption 1). -/
def Obligations.StepRunsTheFrontCommand : Prop :=
  (∀ (s : State) (c : Instr) (rest : List Instr), s.pending = c :: rest → step s = exec c { s with pending := rest }) ∧
  (∀ (s : State), s.pending = [] → step s = .next s)

/-- O2, derived from parts of R27, R28. Every command has its effect in every state the manual defines, and leaves the queue
as it is: none is refused, and one whose subject is absent changes nothing, which is the model's choice (assumption 5). In the
undefined state of R27 and R28 the resets, the supplies and the always-on domain still act and every other command stops
with `undefinedState`, which is the model's choice too (assumption 4). -/
def Obligations.EveryCommandCompletes : Prop :=
  (∀ (s : State) (c : Instr), (s.undef = false ∨ actsAlways c = true) → Completes c s (fun t => t.pending = s.pending)) ∧
  (∀ (s : State) (c : Instr), s.undef = true → actsAlways c = false → exec c s = .fault .undefinedState)

/-- O3, derived from parts of R27, R28. The undefined state lasts until a valid release of a reset: in it the commands that do
not act stop with `undefinedState`, which is the model's choice (assumption 4), and of every step from it, only a release
after an input held low for 1 µs, with `REFCLK` in tolerance, ends it; where it came from a rise of `VDD_CORE` or a
release without the clock, only a release of `PORST_N` does. -/
def Obligations.UndefinedUntilAValidReset : Prop :=
  ∀ (s : State) (c : Instr) (rest : List Instr), s.undef = true → s.pending = c :: rest →
    (actsAlways c = false → step s = .fault .undefinedState) ∧
    (∀ t, step s = .next t → t.undef = false →
      ∃ b st f, c = .resetRelease b st f true true ∧ (b = true → s.pins.needPorst = false))

/-- O4, derived from parts of R36, R284. The state after the power-on of the always-on domain with `PORST_N` low: the block is in
M0 and does not run, every port is fenced and without credits, the ledger, the calendar and the sealed roots are zero,
nothing waits anywhere, and everything sparse is in canonical form. -/
def Obligations.StateAfterReset : Prop :=
  curMode State.reset = 0 ∧ running State.reset = false ∧ inTransit State.reset = false ∧ State.reset.undef = false ∧
  (∀ n, n < 24 → (port State.reset n).fenced = true ∧ (port State.reset n).inCred = Vector.replicate 6 0) ∧
  State.reset.aon.calendar = 0 ∧ State.reset.aon.roots = [] ∧ State.reset.aon.safe = 0 ∧
  (∀ n, n < 8 → (slice State.reset n).filter = [] ∧ (slice State.reset n).entries = []) ∧
  (∀ c, c < 16 → (chan State.reset c).rdq = [] ∧ (chan State.reset c).wrq = []) ∧
  (∀ i, i < 64 → (bitOf (rgnAttr State.reset i) 0 = true ↔ i = 0)) ∧ State.reset.pending = [] ∧ Canonical State.reset

/-- O5, derived from parts of R77. The fields of every flit: what is encoded on the pins decodes to the same message, for each of
the four forms and every value of every field, and a flit with good parity and its reserved bits zero is the encoding
of what it decodes to. -/
def Obligations.FlitsDecodeToWhatWasEncoded : Prop :=
  (∀ r : Req, reqOf (withPar (reqBits r)) = r) ∧
  (∀ r : Snp, snpOf (withPar (snpBits r)) = r) ∧
  (∀ r : Rsp, rspOf (withPar (rspBits r)) = r) ∧
  (∀ d : Dat, datOf (datBits d) = d) ∧
  (∀ f : BitVec 128, parityOk f = true → f.getLsbD 31 = false → f.getLsbD 83 = false → f.extractLsb' 100 24 = 0 →
    withPar (reqBits (reqOf f)) = f) ∧
  (∀ f : BitVec 128, parityOk f = true → f.extractLsb' 38 10 = 0 → f.extractLsb' 112 12 = 0 → withPar (snpBits (snpOf f)) = f) ∧
  (∀ f : BitVec 128, parityOk f = true → f.extractLsb' 35 89 = 0 → withPar (rspBits (rspOf f)) = f) ∧
  (∀ f : BitVec 352, parityDatOk f = true → f.extractLsb' 322 19 = 0 → datBits (datOf f) = f)

/-- O6, derived from parts of R76, R108 and Table 4.14. Even parity per 32-bit word: a 128-bit flit passes the check exactly when
the ones of each word, bits [127:124] counted as zero, together with its PAR bit are even in number, and a `DAT` flit when
the same holds of its eight data words and its three header words. Every flit the bridge sends has it, a flit that differs in
one bit has not, and an inbound flit without it is a violation, for which the port is fenced. -/
def Obligations.EveryFlitHasEvenParity : Prop :=
  (∀ f : BitVec 128, parityOk f = true ↔ ∀ i, i < 4 →
    (((List.range 32).filter (fun j => decide (32 * i + j < 124) && f.getLsbD (32 * i + j))).length + (f.getLsbD (124 + i)).toNat) % 2 = 0) ∧
  (∀ f : BitVec 352, parityDatOk f = true ↔
    (∀ i, i < 8 → (((List.range 32).filter (fun j => f.getLsbD (32 * i + j))).length + (f.getLsbD (341 + i)).toNat) % 2 = 0) ∧
    (∀ i, i < 3 → (((List.range 32).filter (fun j => decide (32 * i + j < 85) && f.getLsbD (256 + 32 * i + j))).length
      + (f.getLsbD (349 + i)).toNat) % 2 = 0)) ∧
  (∀ (r : Req) (q : Snp) (p : Rsp) (d : Dat) (b : Bool), parityOk ((flitOf (.req r) b).setWidth 128) = true ∧
    parityOk ((flitOf (.snp q) b).setWidth 128) = true ∧ parityOk ((flitOf (.rsp p) b).setWidth 128) = true ∧
    parityDatOk (flitOf (.dat d) b) = true ∧ (∀ d', parityDatOk (flitOf (.datPair d d') b) = true)) ∧
  (∀ (f : BitVec 128) (i : Nat), i < 128 → parityOk f = true → parityOk (f ^^^ (1#128 <<< i)) = false) ∧
  (∀ (f : BitVec 352) (i : Nat), i < 352 → parityDatOk f = true → parityDatOk (f ^^^ (1#352 <<< i)) = false) ∧
  (∀ (s : State) (n : PortId) (dl : Bool) (f : BitVec 128), s.undef = false → portLive s n.val = true →
    blotArmed s 1 n.val = false → parityOk f = false → (port s n.val).fenced = false →
    (exec (.reqFlit n dl f) s = resume s (underCredit s n.val 0 dl (fun t late => fencePort
      (portViolate t n.val (reqKinds t n.val dl late true (reqOf f)) 0 (opOf (reqOf f)) (reqOf f).txn.toNat dl) n.val))) ∧
    (exec (.rspInboundFlit n dl f) s = resume s (underCredit s n.val 1 dl (fun t late => fencePort
      (portViolate t n.val (rspKinds t n.val late true (rspOf f)) 1 (rspOf f).opcode.toNat (rspOf f).txn.toNat dl) n.val)))) ∧
  (∀ (s : State) (n : PortId) (dl : Bool) (f : BitVec 352), s.undef = false → portLive s n.val = true →
    blotArmed s 1 n.val = false → parityDatOk f = false → (port s n.val).fenced = false →
    exec (.datInboundFlit n dl f) s = resume s (underCredit s n.val 2 dl (fun t late => fencePort
      (portViolate t n.val (datKinds t n.val late true (datOf f)) 2 (datOf f).kind.toNat (datOf f).txn.toNat dl) n.val))) ∧
  (∀ (s : State) (n dl r q d), 0 ∈ reqKinds s n dl false true r ∧ 0 ∈ rspKinds s n false true q ∧ 0 ∈ datKinds s n false true d)

/-- O7, derived from parts of R244. The address decode and its reverse are inverse to each other over the whole window: a byte of
the line that channel `ch` holds under number `m` decodes to `ch` and `m`, and what an address decodes to encodes to
the address of its line. Two lines never share a channel and number. -/
def Obligations.AddressDecodeIsABijection : Prop :=
  (∀ (s : State) (ch m o : Nat), (popChans s).length = 2 ^ chanBits s → ch ∈ popChans s → o < 64 →
    inWindow s (encodeAddr s ch m + o) = true → decodeAddr s (encodeAddr s ch m + o) = some (ch, m)) ∧
  (∀ (s : State) (pa ch m : Nat), (popChans s).length = 2 ^ chanBits s → decodeAddr s pa = some (ch, m) →
    ch ∈ popChans s ∧ encodeAddr s ch m = windowBase s + (pa - windowBase s) / 64 * 64) ∧
  (∀ (s : State) (pa qa : Nat), (popChans s).length = 2 ^ chanBits s → (decodeAddr s pa).isSome = true →
    decodeAddr s pa = decodeAddr s qa → (pa - windowBase s) / 64 = (qa - windowBase s) / 64)

/-- O8, derived from parts of R134, R168. The home of a line, in slice mode and in Accord: its number names its channel and
channel line, and the set and the tag that the filter keeps of it give the number back. -/
def Obligations.FilterPlacesNameTheirLines : Prop :=
  (∀ (s : State) (ch m : Nat), ch < 16 → chanOfLine s (homeOfLine s ch m).slice (homeOfLine s ch m).line = (ch, m)) ∧
  (∀ (s : State) (ch m : Nat), ch < 16 → m < 2 ^ 28 →
    lineOfEntry s (homeOfLine s ch m).slice (homeOfLine s ch m).set (homeOfLine s ch m).tag = (homeOfLine s ch m).line) ∧
  (∀ (s : State) (ch m : Nat), ch < 16 → (homeOfLine s ch m).set < 16384 ∧ (homeOfLine s ch m).slice / 2 = ch / 4) ∧
  (∀ (s : State) (ch m ch' m' : Nat), ch < 16 → ch' < 16 → m < 2 ^ 28 → m' < 2 ^ 28 →
    (homeOfLine s ch m).slice = (homeOfLine s ch' m').slice → (homeOfLine s ch m).set = (homeOfLine s ch' m').set →
    (homeOfLine s ch m).tag = (homeOfLine s ch' m').tag → ch = ch' ∧ m = m')

/-- O9, derived from parts of R13, R249, R250, R281. The write queue: a line written in full is what a read of it gets while it is
queued; a partial write of such a line is merged into it byte by byte; one of a line that is not queued waits for a
merge read, and until then no read is served from it; the burst of a write puts the stored codeword in its DRAM slot, and
where its check line can be decoded every slot keeps its content but that one and those of the check lines that the cache held
as changed. -/
def Obligations.WritesAreForwarded : Prop :=
  (∀ (s : State) (c m : Nat) (img : LineImg) (w : Writer), c < 16 → forwardRead (wqFull s c m img w).1 c m = some img) ∧
  (∀ (s : State) (c m : Nat) (d : LineData) (p : BitVec 2) (be : BitVec 64) (w : Writer) (e : WrReq), c < 16 →
    wrqFind s c m = some e → e.full = true →
    forwardRead (wqPartial s c m d p be w).1 c m = some (mergeImg (entryImg s c e) d p be)) ∧
  (∀ (s : State) (c m : Nat) (d : LineData) (p : BitVec 2) (be : BitVec 64) (w : Writer), c < 16 → wrqFind s c m = none →
    forwardRead (wqPartial s c m d p be w).1 c m = none ∧
    (∃ r ∈ (chan (wqPartial s c m d p be w).1 c).rdq, r.m = m ∧ r.use = .merge ∧ r.issued = false) ∧
    (∀ m', m' ≠ m → wrqFind (wqPartial s c m d p be w).1 c m' = wrqFind s c m')) ∧
  (∀ (src : LineImg) (d : LineData) (be : BitVec 64) (i : Nat), src.lost = false → src.poison = 0 → i < 64 →
    (mergeImg src d 0 be).poison = 0 ∧ (mergeImg src d 0 be).lost = false ∧
    (mergeImg src d 0 be).data.extractLsb' (8 * i) 8 = if be.getLsbD i then d.extractLsb' (8 * i) 8 else src.data.extractLsb' (8 * i) 8) ∧
  (∀ (src : LineImg) (d : LineData) (p : BitVec 2) (be : BitVec 64), src.lost = true → mergeImg src d p be = src) ∧
  (∀ (s : State) (c m : Nat) (d : LineData) (ck : BitVec 64) (src : Nat),
    dramGet (writeBurst s c m d ck src) (dramKey c (m / 28) (m % 28)) = d) ∧
  (∀ (s : State) (c m : Nat) (d : LineData) (ck : BitVec 64) (src key : Nat), c < 16 → key ≠ dramKey c (m / 28) (m % 28) →
    (checkLine (initEarly s c (m / 28)) c (m / 28) (m % 28 / 7) 0 false src).2.1.bad = false →
    (∀ x ∈ (slice s (engineOf s c)).cc, x.dirty = true → dramKey x.chan x.unit (28 + x.k) ≠ key) →
    dramGet (writeBurst s c m d ck src) key = dramGet s key)

/-- O10, derived from parts of R19, R27, R29, R30, R49. An asserted reset takes the block to M0 from every state: no transaction,
tick, DRAM content or core register survives, every port is fenced, and the always-on domain keeps its calendar, its
ledger and, for a reset that cuts a Wipe short, the record that one is pending (R30). At the release of a reset that
was held long enough with `REFCLK` in tolerance, with the other reset input high, the straps are sampled and M1
starts; a fuse code of R49 becomes the lifecycle state in use. -/
def Obligations.ResetsOfTheCore : Prop :=
  (∀ (s : State) (brst : Bool), Completes (.resetAssert brst) s (fun t =>
    curMode t = 0 ∧ t.tick = 0 ∧ t.dram = [] ∧ t.slices = Vector.replicate 8 freshSlice ∧
    (∀ n, (port t n).fenced = true) ∧ (∀ a, regAon a = false → getReg t a = regReset a) ∧
    t.pins.memResetN = false ∧ t.aon.calendar = s.aon.calendar ∧ t.aon.modeSec = s.aon.modeSec ∧
    t.aon.wipePend = (s.aon.wipePend || (wiping s && !s.undef)) ∧
    coreAlive t = false ∧ faultN t = false ∧ t.undef = s.undef ∧ t.pending = s.pending)) ∧
  (∀ (s : State) (brst : Bool) (straps : Straps) (fuse : BitVec 16) (lc : Nat),
    s.pins.porstLow = !brst → s.pins.brstLow = brst → (brst = true → s.pins.needPorst = false) → lcDecode fuse = some lc →
    Completes (.resetRelease brst straps fuse true true) s (fun t =>
      t.undef = false ∧ t.pins.straps = straps ∧ getReg t 0x48 = straps.chPop ++ straps.portEn ∧ curMode t = 1 ∧
      t.seq.boot = .lock ∧ t.pins.fuse = fuse ∧ lcState t = lc ∧ t.pins.coreOn = true ∧ t.dram = s.dram))

/-- O11, derived from parts of R20, R21, R22, R23, R28. Removal of `VDD_CORE` outside M0 and M8 loses DRAM and every transaction,
and the block is in M0; in M8 or M0 nothing but the supply changes. `FAULT_N` keeps its level (R23) while no reset is
low. A supply excursion while the block is powered voids every bound and the block runs on, and in M8 alone the loss of the DRAM
supply loses DRAM, by the model's reading (assumption 6), as the removal that leaves M0 is (assumption 52); there another
excursion changes nothing; a rise of `VDD_CORE` with the resets released
leaves a cold block undefined until the next valid release of `PORST_N`; power-on of the always-on domain starts its
calendar, ledger and registers from reset. -/
def Obligations.SuppliesOfTheBlock : Prop :=
  (∀ (s : State), s.pins.coreOn = true → Completes .vddCoreRemove s (fun t =>
    t.pins.coreOn = false ∧ t.aon = { s.aon with roots := t.aon.roots, secAt := t.aon.secAt } ∧
    (curMode s ≠ 0 → curMode s ≠ 8 → curMode t = 0 ∧ t.dram = [] ∧ t.slices = Vector.replicate 8 freshSlice) ∧
    (curMode s = 0 ∨ curMode s = 8 → OnlyPins s t) ∧
    (s.pins.porstLow = false → s.pins.brstLow = false → faultN t = faultN s ∧ safeAct t = safeAct s))) ∧
  (∀ (s : State) (k : SupplyCause), k ≠ .coreRiseReleased → curMode s ≠ 0 → curMode s ≠ 8 →
    Completes (.supplyExcursion k) s (fun t => t.pins.boundsVoid = true ∧ OnlyPins s t)) ∧
  (∀ s : State, curMode s = 8 → Completes (.supplyExcursion .dramSupplyLost) s (fun t => t = { s with dram := [] })) ∧
  (∀ (s : State) (k : SupplyCause), (k = .railOutOfRange ∨ k = .slewTooFast) → curMode s = 8 →
    exec (.supplyExcursion k) s = .next s) ∧
  (∀ s : State, s.pins.coreOn = false → s.pins.porstLow = false → s.pins.brstLow = false → curMode s ≠ 8 →
    Completes (.supplyExcursion .coreRiseReleased) s (fun t =>
      t.undef = true ∧ t.pins.needPorst = true ∧ t.pins.coreOn = true)) ∧
  (∀ s : State, Completes .alwaysOnPowerOn s (fun t =>
    t.aon = freshAon ∧ t.regs = [] ∧ t.dram = [] ∧ t.tick = 0 ∧ t.pins.aonClk = true ∧ t.undef = (s.undef || running s)))

/-- O12, derived from parts of R25, R26, R58, R60, R414, R418, R419 and Table 16.9. The timebase: it starts at 0 when the PLL
locks in M1 after a reset; a loss stops it and is reported as source TB_LOSS of the sequencer; its return lets the counter go on
from where it stopped. The calendar and its clock: each second adds one to the calendar, to the count of the mode in force, and
outside M0 and M8 to the powered seconds; without the clock nothing counts, and its loss, noticed only against a running
timebase, is reported as CAL_LOSS (R26). A tick: the tick counter goes up by one, the elapsed counter of every counter set that
counts goes up by one modulo 2^48 and the others stand, and nothing of the memory, of the ports, of the slices, of the sequencer
or of the pins changes; without the timebase, or with the core logic stopped, nothing changes. -/
def Obligations.TimebaseCalendarAndTick : Prop :=
  (∀ s : State, Awake s → curMode s = 1 → s.seq.boot = .lock → s.seq.exit8 = false →
    Completes .timebaseLock s (fun t => t.tick = 0 ∧ t.pins.tbRun = true ∧ t.seq.boot = .calibrate ∧ t.regs = s.regs)) ∧
  (∀ s : State, Ticking s →
    exec .timebaseLoss s = resume s
      (report { s with pins := { s.pins with tbRun := false }, aon := { s.aon with secAt := none } } 26 0)) ∧
  (∀ s : State, Awake s → waitsLock s = false →
    Completes .refclkReturn s (fun t => t = { s with pins := { s.pins with tbRun := true } })) ∧
  (∀ s : State, s.pins.aonClk = true → Completes .calendarSecond s (fun t =>
    t.aon.calendar = s.aon.calendar + 1 ∧ t.aon.modeSec = bumpVec s.aon.modeSec (curMode s) ∧
    t.aon.powered = (if curMode s = 0 ∨ curMode s = 8 then s.aon.powered else min (s.aon.powered + 1) (2 ^ 32 - 1)) ∧
    t = { s with aon := t.aon })) ∧
  (∀ s : State, s.pins.aonClk = false → Completes .calendarSecond s (fun t => t = s)) ∧
  (∀ s : State, Completes .aonClkReturn s (fun t => t = { s with pins := { s.pins with aonClk := true, calSeen := false } })) ∧
  (∀ s : State, Completes .calendarLoss s (fun t => s.pins.tbRun = false →
    t = { s with pins := { s.pins with aonClk := false }, aon := { s.aon with secAt := none } })) ∧
  (∀ s : State, Ticking s → s.pins.aonClk = true →
    exec .calendarLoss s = resume s (report { s with
      pins := { s.pins with aonClk := false, calSeen := true }, aon := { s.aon with secAt := none } } 26 1)) ∧
  (∀ (s : State), Ticking s → Completes .tick s (fun t =>
    t.tick = s.tick + 1 ∧
    (∀ k, k < 24 → pmuCount t k 8 = if pmuOn s k then (pmuCount s k 8 + 1) % 2 ^ 48 else pmuCount s k 8) ∧
    t = { s with tick := t.tick, regs := t.regs, spine := t.spine, obs := t.obs } ∧
    t.spine = { s.spine with probe := t.spine.probe } ∧ t.obs = { s.obs with counts := t.obs.counts } ∧
    (∀ a, (∀ k, k < 24 → a ≠ pmuBase k + 0x80) → getReg t a = getReg s a))) ∧
  (∀ (s : State), s.undef = false → (running s = false ∨ s.pins.tbRun = false) → exec .tick s = .next s)

/-- O13, stated from R263. EN of MC_NREF of a channel takes the value written in Develop and Return alone; in every other
lifecycle state it reads 1 on every path, and a write has no effect on it. -/
def Obligations.NeighbourRefreshEnable : Prop :=
  (∀ (s : State) (c : ChanId) (a : BitVec 22) (v : Word), PortFree s → Reachable s (mcBase c.val + 0x4C) →
    a.toNat = mcBase c.val + 0x4C → Completes (.registerWrite a v) s (fun t =>
      (lcState s = 1 ∨ lcState s = 3 → getBit t (mcBase c.val + 0x4C) 6 = bitOf v 6) ∧
      (lcState s ≠ 1 → lcState s ≠ 3 → getBit t (mcBase c.val + 0x4C) 6 = getBit s (mcBase c.val + 0x4C) 6))) ∧
  (∀ (s : State) (p : ReadPath) (c : ChanId), lcState s ≠ 1 → lcState s ≠ 3 →
    bitOf (regView s p (mcBase c.val + 0x4C)) 6 = true)

/-- O14, derived from parts of R51, R52, R63, R64, R70, R72. A temperature pulse is shown in GLB_BOUNDARY, proves the value
valid and restarts the 10 ms once the timebase has locked; when they pass without a pulse the value is invalid and TEMP_STALE is
reported; a value above +135 °C for more than 1 ms is reported as OVER_TEMP. A pace window that ends below the warning and the
slow threshold, with neither bit set before (windows that set those bits are left out here), leaves the pace and the count in
the monitor's register and touches only registers and the aging record; a canary event counts and is an event of source 2 of its
unit; a monitor or canary that is absent or without power changes nothing, which is the model's choice (assumption 5). -/
def Obligations.TemperatureAndPace : Prop :=
  (∀ (s : State) (c : BitVec 9), Awake s → waitsLock s = false → Completes (.tempUpd c) s (fun t =>
    getFld t 0x44 24 8 = c.toNat % 256 ∧ getBit t 0x44 2 = true ∧ t.pins.temp = c ∧
    t.pins.tempDue = some (s.tick + 10000000) ∧
    t.pins.hotSince = (if 135 < c.toInt then some (s.pins.hotSince.getD s.tick) else none) ∧
    RegsBut 0x44 s t ∧ OnlyRegsPins s t)) ∧
  (∀ (s : State) (d : Nat), Awake s → s.pins.tempDue = some d → d ≤ s.tick →
    exec .tempStale s
      = resume s (report (setBit { s with pins := { s.pins with tempDue := none } } 0x44 2 false) 26 5)) ∧
  (∀ (s : State) (d : Nat), Awake s → s.pins.hotSince = some d → d + 1000000 < s.tick →
    exec .overTemperature s = resume s (report { s with pins := { s.pins with hotSince := some s.tick } } 26 6)) ∧
  (∀ (s : State) (m : Monitor) (n : BitVec 16) (f : BitVec 12), Ticking s → monitorOn s m = true → n ≠ 0 →
    paceOf n.toNat ≤ 610 → paceOf n.toNat ≤ getFld s 0x88 0 10 → getBit s (monitorAt m).2.2.1 10 = false →
    getBit s (monitorAt m).2.2.1 11 = false → Completes (.paceWindowEnd m n f) s (fun t =>
      getReg t (monitorAt m).2.2.1 = BitVec.ofNat 32 (paceOf n.toNat + 2 ^ 16 * n.toNat) ∧
      getFld t (monitorAt m).2.2.2 0 10 = min (getFld s (monitorAt m).2.2.2 0 10) (paceOf n.toNat) ∧
      getFld t (monitorAt m).2.2.2 16 10 = max (getFld s (monitorAt m).2.2.2 16 10) (paceOf n.toNat) ∧
      t.aon.aging.toNat % 1024 = max (s.aon.aging.toNat % 1024) (paceOf n.toNat) ∧
      t = { s with regs := t.regs, aon := { s.aon with aging := t.aon.aging, agingAt := t.aon.agingAt } })) ∧
  (∀ (s : State) (m : Monitor) (n : BitVec 16) (f : BitVec 12), s.undef = false → (monitorOn s m = false ∨ s.pins.tbRun = false) →
    exec (.paceWindowEnd m n f) s = .next s) ∧
  (∀ (s : State) (u : UnitId) (r : Nat), Awake s → unitOn s u.val = true → canaryReg u.val = some r →
    exec (.canaryEvent u) s = resume s (report (satAdd s r 0 16 1) u.val 2)) ∧
  (∀ (s : State) (u : UnitId), s.undef = false → (canaryReg u.val = none ∨ unitOn s u.val = false) →
    exec (.canaryEvent u) s = .next s)

/-- O15, derived from parts of R47, R49, R50, R413. Fuse samples and the lifecycle handshake: a sample equal to the last outside
an advance changes nothing but LC_VALID and the time of the next; outside an advance one that differs is reported as LC_TAMPER,
and one that is none of the five codes as LC_INVALID before, by the model's reading (assumption 50); `LC_ADV_DONE` makes the
next sample end the advance, by the check of that sample; 100 ms without it end the advance with `TIMEOUT`, and where the last
sample lies between the two states it is applied as an invalid code, which is the model's choice (assumption 76). A key slot
takes four beats in order: each but the last is kept, the fourth loads the slot, and of slot 0 fetches what is pinned; a beat to
a loaded slot, or out of order, is refused with `KEY_ERR` 1 and reported, and leaves the beats taken as they are, by the model's
reading (assumption 37). The release of `KEY_REQ` ends the handshake. -/
def Obligations.FusesAndKeys : Prop :=
  (∀ (s : State), Ticking s → s.pins.fuseDue ≤ s.tick → s.pins.lcAdvReq = false →
    Completes (.fuseSample s.pins.fuse) s (fun t =>
      t.pins.fuseDue = s.pins.fuseDue + 1000000 ∧ getBit t 0x44 3 = (lcDecode s.pins.fuse).isSome ∧ lcState t = lcState s ∧
      RegsBut 0x44 s t ∧ OnlyRegsPins s t)) ∧
  (∀ (s : State) (f : BitVec 16), Ticking s → s.pins.fuseDue ≤ s.tick → s.pins.lcAdvReq = false → f ≠ s.pins.fuse →
    exec (.fuseSample f) s = resume s
      (let u := setLcValid { s with pins := { s.pins with fuse := f, fuseDue := s.pins.fuseDue + 1000000 } } f
       report (if (lcDecode f).isSome then u else report u 26 3) 26 4)) ∧
  (∀ (s : State) (f : BitVec 16), Ticking s → s.pins.fuseDue ≤ s.tick → s.pins.lcAdvReq = true → s.seq.lcDone = true →
    (f = s.pins.fuse ∨ partOfAdvance s f = true) → exec (.fuseSample f) s = resume s (advanceCheck (setLcValid { s with
      pins := { s.pins with fuse := f, fuseDue := s.pins.fuseDue + 1000000 } } f) f)) ∧
  (∀ s : State, Awake s → s.pins.lcAdvReq = true →
    Completes .lcAdvDone s (fun t => t = { s with seq := { s.seq with lcDone := true } })) ∧
  (∀ s : State, Awake s → s.pins.lcAdvReq = true → s.seq.lcDone = false → s.seq.lcDue ≤ s.tick →
    exec .lifecycleAdvanceTimeout s = resume s (advanceEnds
      (if partOfAdvance s s.pins.fuse && (lcDecode s.pins.fuse).isNone then applyFuse s s.pins.fuse else s) stTimeout)) ∧
  (∀ s : State, Awake s → s.pins.lcAdvReq = true → s.seq.lcDone = false → s.seq.lcDue ≤ s.tick → inSafe s = true →
    (lcDecode s.pins.fuse).isSome = true → Completes .lifecycleAdvanceTimeout s (fun t =>
      t.pins.lcAdvReq = false ∧ t.seq.lcTarget = none ∧ t.seq.advHeld = false ∧ t.regs = s.regs ∧ t.slices = s.slices)) ∧
  (∀ (s : State) (slot : Fin 2) (beat : BitVec 2) (data : BitVec 64), Awake s → s.pins.keyReq = false →
    s.pins.keys[slot] = none → beat.toNat = (s.pins.keyPart[slot]).length → beat.toNat < 3 →
    Completes (.keyBeat slot beat data) s (fun t =>
      t.pins.keyAck = true ∧ t.pins.keyErr = false ∧ t.pins.keyPart[slot] = s.pins.keyPart[slot] ++ [data] ∧
      t.pins.keys = s.pins.keys ∧ OnlyPins s t)) ∧
  (∀ (s : State) (data : BitVec 64), Awake s → s.pins.keyReq = false → s.pins.keys[(1 : Fin 2)] = none →
    (s.pins.keyPart[(1 : Fin 2)]).length = 3 →
    Completes (.keyBeat 1 3 data) s (fun t =>
      t.pins.keyAck = true ∧ t.pins.keys[(1 : Fin 2)] = some (keyOf (s.pins.keyPart[(1 : Fin 2)] ++ [data])) ∧
      t.pins.keyPart[(1 : Fin 2)] = [] ∧ OnlyPins s t)) ∧
  (∀ (s : State) (data : BitVec 64), Awake s → s.pins.keyReq = false → s.pins.keys[(0 : Fin 2)] = none →
    (s.pins.keyPart[(0 : Fin 2)]).length = 3 →
    exec (.keyBeat 0 3 data) s = resume s (pinAll { s with pins := { s.pins with
      keyReq := true, keyAck := true, keyErr := false, keyPart := s.pins.keyPart.set 0 [],
      keys := s.pins.keys.set 0 (some (keyOf (s.pins.keyPart[(0 : Fin 2)] ++ [data]))) } })) ∧
  (∀ (s : State) (slot : Fin 2) (beat : BitVec 2) (data : BitVec 64), Awake s → s.pins.keyReq = false →
    ((s.pins.keys[slot]).isSome = true ∨ beat.toNat ≠ (s.pins.keyPart[slot]).length) →
    exec (.keyBeat slot beat data) s = resume s (report { s with pins := { s.pins with
      keyReq := true, keyAck := true, keyErr := true } } 26 2)) ∧
  (∀ s : State, s.undef = false → Completes .keyReqRelease s (fun t =>
    t = { s with pins := { s.pins with keyReq := false, keyAck := false, keyErr := false } }))

/-- O16, derived from parts of R33, R45, R461. A register write on a free port is answered and performed where its register
can be reached. Where the domain is off, or the offset is one of the configuration space or of no register, the access
ends with `CP_ERR` 1, GLB_CP_ERR captures it unless it holds a capture, and no other register and nothing outside the
port changes. While the port does not answer, the request stands; an access while `CP_REQ` is high is ignored, and a write
keeps `CP_RDATA`, all three by the model's reading (assumption 37). -/
def Obligations.RegisterWriteAccess : Prop :=
  (∀ (s : State) (a : BitVec 22) (v : Word), PortFree s → Reachable s (a.toNat / 4 * 4) →
    exec (.registerWrite a v) s = resume s (regWrite (portTook s) (a.toNat / 4 * 4) v)) ∧
  (∀ (s : State) (a : BitVec 22) (v : Word), PortFree s →
    domainOff s (a.toNat / 4 * 4) = true ∨ inCfgSpace (a.toNat / 4 * 4) = true ∨ offsetKnown (a.toNat / 4 * 4) = false →
    Completes (.registerWrite a v) s (fun t =>
      t.pins.cpAck = true ∧ t.pins.cpErr = true ∧ t.pins.cpRdata = s.pins.cpRdata ∧ RegsBut 0x50 s t ∧
      getReg t 0x50 = (if getBit s 0x50 0 then getReg s 0x50
        else BitVec.ofNat 32 (3 + a.toNat / 4 * 4 + 2 ^ 22 * b2n (domainOff s (a.toNat / 4 * 4)))) ∧ OnlyRegsPins s t)) ∧
  (∀ (s : State) (a : BitVec 22) (v : Word), s.undef = false → s.pins.cpReq = false → (running s && s.pins.live) = false →
    Completes (.registerWrite a v) s (fun t => t = { s with pins := { s.pins with cpReq := true } })) ∧
  (∀ (s : State) (a : BitVec 22) (v : Word), s.undef = false → s.pins.cpReq = true → exec (.registerWrite a v) s = .next s)

/-- O17, derived from parts of R7, R110, R161, R263, R463. A write changes exactly the bits its register lets it: RW bits, and RWL
bits while unlocked, take the value; a 1 clears a W1C bit and sets a W1S bit; every other bit keeps its value. EN of MC_NREF
takes the value in Develop and Return alone. No other register changes, but that the VALID bit of the capture of an error
register clears once that register is zero; a reserved offset changes nothing. -/
def Obligations.WriteTouchesWritableBits : Prop :=
  (∀ (s : State) (a : Nat) (d : RegDesc) (v : Word) (i : Nat), regDesc a = some d → i < 32 →
    ¬ (i = 6 ∧ 0x200000 ≤ a ∧ a < 0x240000 ∧ a % 0x4000 = 0x4C) →
    bitOf (getReg (storeReg s a v) a) i =
      ((v.getLsbD i && d.w1s.getLsbD i) || (!(v.getLsbD i && d.w1c.getLsbD i) &&
        (if d.rw.getLsbD i || (d.rwl.getLsbD i && !regLocked s d) then v.getLsbD i else bitOf (getReg s a) i)))) ∧
  (∀ (s : State) (c : ChanId) (v : Word), getBit (storeReg s (mcBase c.val + 0x4C) v) (mcBase c.val + 0x4C) 6 =
    if lcState s = 1 ∨ lcState s = 3 then bitOf v 6 else getBit s (mcBase c.val + 0x4C) 6) ∧
  (∀ (s : State) (a : Nat) (v : Word), captureOf a = none → RegsBut a s (storeReg s a v)) ∧
  (∀ (s : State) (a r b : Nat) (v : Word), captureOf a = some (r, b) →
    (∀ q, q ≠ a → q ≠ r → getReg (storeReg s a v) q = getReg s q) ∧
    (∀ j, getBit (storeReg s a v) r j =
      if j = b ∧ getReg (storeReg s a v) a = 0 ∧ (regDesc a).isSome = true then false else getBit s r j)) ∧
  (∀ (s : State) (a : Nat) (v : Word), OnlyRegs s (storeReg s a v)) ∧
  (∀ (s : State) (a : Nat) (v : Word), regDesc a = none → storeReg s a v = s)

/-- O18, stated from R61, R241. A read of GLB_TB_LO returns the lower half of the tick counter and copies the upper half for the
later read of GLB_TB_HI; a read of SPN_PROBE_CNT_LO does so with the count of its probe and SPN_PROBE_CNT_HI. What HI shows is
that copy, so that LO before HI gives one value, and the other order the upper part of an earlier one. -/
def Obligations.LoReadCopiesHi : Prop :=
  (∀ s : State, PortFree s → Completes .tbLoRead s (fun t =>
    t.pins.cpRdata = BitVec.ofNat 32 s.tick ∧ t.pins.tbHi = BitVec.ofNat 32 (s.tick / 2 ^ 32) ∧ t.pins.cpAck = true ∧
    t.pins.cpErr = false ∧ OnlyPins s t)) ∧
  (∀ (s : State) (r : RouterId), PortFree s → Completes (.probeCntLoRead r) s (fun t =>
    t.pins.cpRdata = BitVec.ofNat 32 (probeCount s r.val) ∧
    getReg t (probeBase r.val + 0x10) = BitVec.ofNat 32 (probeCount s r.val / 2 ^ 32) ∧
    RegsBut (probeBase r.val + 0x10) s t ∧ OnlyRegsPins s t)) ∧
  (∀ s : State, regView s .control 0x84 = s.pins.tbHi) ∧ 
  (∀ (s : State) (r : RouterId), regView s .control (probeBase r.val + 0x10) = getReg s (probeBase r.val + 0x10))

/-- O19, derived from parts of R7, R33, R45, R162, R214, R421 and Table 16.11. A read of a register of the ports' blocks returns
what it shows and clears its RC bits; one of the hazard count clears it and releases the capture; one of a filter entry returns
the word as it is stored, with the bits of it that stand wrong in the array, and 0 outside Develop and Return. A read of the LO
word of the calendar, or of a counter, returns it and copies the upper part for the later read of HI, of a counter on the path
that reads it alone; HI shows that copy. The fall of `CP_REQ` ends the handshake. -/
def Obligations.ReadsOnTheControlPort : Prop :=
  (∀ (s : State) (a : BitVec 22) (d : RegDesc), PortFree s → a.toNat % 4 = 0 → Reachable s a.toNat → regDesc a.toNat = some d →
    0x302000 ≤ a.toNat → a.toNat < 0x302600 →
    Completes (.rcRegisterRead a) s (fun t =>
      t.pins.cpRdata = regView s .control a.toNat ∧ t.pins.cpAck = true ∧ t.pins.cpErr = false ∧
      (d.rc ≠ 0 → getReg t a.toNat = (getReg s a.toNat &&& ~~~d.rc) ||| (d.reset &&& d.rc)) ∧ RegsBut a.toNat s t ∧
      OnlyRegsPins s t)) ∧
  (∀ (s : State) (n : SliceId), PortFree s → slicePwr s n.val = true → Completes (.hazCntRead n) s (fun t =>
    t.pins.cpRdata = getReg s (slcBase n.val + 0x410) ∧ getReg t (slcBase n.val + 0x410) = 0 ∧
    getBit t (slcBase n.val + 0x408) 31 = false)) ∧
  (∀ (s : State) (n : SliceId) (w : Fin 3) (f : BitVec 72), PortFree s → slicePwr s n.val = true → lcState s ≠ 1 → lcState s ≠ 3 →
    Completes (.filterInspectRead n ⟨w, f⟩) s (fun t => t.pins.cpRdata = 0 ∧ t.pins.cpErr = false ∧ OnlyPins s t)) ∧
  (∀ (s : State) (n : SliceId) (w : Fin 3) (f : BitVec 72) (e : FEntry), PortFree s → slicePwr s n.val = true →
    lcState s = 1 ∨ lcState s = 3 → inspected s n.val = some e → Completes (.filterInspectRead n ⟨w, f⟩) s (fun t =>
      t.pins.cpRdata = (rawEntry e ^^^ f).extractLsb' (32 * w.val) 32 ∧ t.pins.cpErr = false ∧ OnlyPins s t)) ∧
  (∀ s : State, PortFree s → Completes .calLoRead s (fun t =>
    t.pins.cpRdata = BitVec.ofNat 32 s.aon.calendar.toNat ∧
    getReg t 0x370008 = BitVec.ofNat 32 (s.aon.calendar.toNat / 2 ^ 32) ∧ RegsBut 0x370008 s t ∧ OnlyRegsPins s t)) ∧
  (∀ (s : State) (k : Fin 24) (c : CounterSel), PortFree s → domainOff s (pmuBase k.val) = false →
    Completes (.counterLoRead .control k c) s (fun t =>
      t.pins.cpRdata = BitVec.ofNat 32 (pmuCount s k.val (counterIndex c)) ∧
      cellsGet (fun _ => 0) t.obs.hiCopy (hiKey .control k.val (counterIndex c))
        = BitVec.ofNat 32 (pmuCount s k.val (counterIndex c) / 2 ^ 32) ∧
      (∀ key, key ≠ hiKey .control k.val (counterIndex c) →
        cellsGet (fun _ => 0) t.obs.hiCopy key = cellsGet (fun _ => 0) s.obs.hiCopy key))) ∧
  (∀ (s : State) (n : PortId) (k : Fin 24) (c : CounterSel), Awake s → pmuPowered s k.val = true →
    Completes (.counterLoRead (.agent n) k c) s (fun t =>
      cellsGet (fun _ => 0) t.obs.hiCopy (hiKey (.agent n) k.val (counterIndex c))
        = BitVec.ofNat 32 (pmuCount s k.val (counterIndex c) / 2 ^ 32) ∧
      (∀ key, key ≠ hiKey (.agent n) k.val (counterIndex c) →
        cellsGet (fun _ => 0) t.obs.hiCopy key = cellsGet (fun _ => 0) s.obs.hiCopy key) ∧ OnlyObs s t)) ∧
  (∀ s : State, regView s .control 0x370008 = getReg s 0x370008) ∧
  (∀ (s : State) (p : ReadPath) (k : Fin 24) (c : CounterSel), regView s p (pmuBase k.val + counterLo c + 4)
    = cellsGet (fun _ => 0) s.obs.hiCopy (hiKey p k.val (counterIndex c))) ∧
  (∀ s : State, s.undef = false → Completes .cpReqRelease s (fun t =>
    t = { s with pins := { s.pins with cpReq := false, cpAck := false } }))

/-- O20, derived from parts of R329, R344, R346. A commit copies the shadow registers of the windows named to their active ones,
where no two enabled windows would overlap and each ends within BAR4, and otherwise sets OVERLAP and changes no window; LINK_EN
1 switches the twin port's domain on, with TWN_CFG latched then, by the model's reading (assumption 64); PWR_REQ drives `PWR_EN`
when a drive is present. -/
def Obligations.TwinRegisterCommands : Prop :=
  (∀ (s : State) (mask : BitVec 16), PortFree s → commitBad s mask = false → Completes (.twnWCommit mask) s (fun t =>
    (∀ w i, w < 16 → i < 4 → mask.getLsbD w = true → getReg t (winActive w + 4 * i) = getReg s (winShadow w + 4 * i)) ∧
    (∀ w i, w < 16 → i < 4 → mask.getLsbD w = false → getReg t (winActive w + 4 * i) = getReg s (winActive w + 4 * i)) ∧
    KeepsMemory s t ∧ t.twin = s.twin)) ∧
  (∀ (s : State) (mask : BitVec 16), PortFree s → commitBad s mask = true → Completes (.twnWCommit mask) s (fun t =>
    getBit t 0x31001C 16 = true ∧ (∀ w i, w < 16 → i < 4 → getReg t (winActive w + 4 * i) = getReg s (winActive w + 4 * i)) ∧
    KeepsMemory s t ∧ t.twin = s.twin)) ∧
  (∀ s : State, PortFree s → getBit s 0x310000 9 = false → twinPwr s = false → getBit s 0x310000 31 = false →
    Completes (.linkEn true) s (fun t =>
      getBit t 0x310000 9 = true ∧ twinPwr t = true ∧ getBit t 0x300008 8 = false ∧ t.twin.cfg = [] ∧
      t.twin.latched = getReg t 0x310000 ∧ KeepsMemory s t)) ∧
  (∀ s : State, PortFree s → present s = true → s.twin.surprise = false → Completes (.pwrReq true) s (fun t =>
    t.pins.pwrEn = true ∧ getBit t 0x310044 1 = true ∧ getBit t 0x310040 0 = true ∧ KeepsMemory s t))

/-- O21, derived from parts of R240, R418, R424, R430, R433, R436, R437, R443. CLEAR of PMU_CTL clears every counter of
every set, that of PMU_CFGi its own counter alone, and that of a probe its count. EN of PMU_DUMP_CTL from 0 to 1 arms
the dump comparator for one period and ends a stop; EN of TRC_CTL from 0 to 1 ends a ring stop, and at 0 the staging
buffers are clear. A push of the firmware writer takes TRC_WR_LO for its low half: the first word of a packet is staged
as its header, with ORIGIN 0x20; DROP_REST discards what is staged, of the firmware writer or of the ports named, and
the words still owed are to be discarded as they come. A pop removes the oldest record of the error log; a loss record
that is due takes the place, with the count of the records lost, and the count is 0 again. -/
def Obligations.ObservabilityRegisters : Prop :=
  (∀ s : State, PortFree s → Completes (.pmuClear .all) s (fun t => ∀ k i, pmuCount t k i = 0)) ∧
  (∀ (s : State) (k : Fin 24) (i : Fin 8), PortFree s → domainOff s (pmuBase k.val) = false →
    Completes (.pmuClear (.one k i)) s (fun t =>
      pmuCount t k.val i.val = 0 ∧ (∀ k' i', k' * 16 + i' ≠ k.val * 16 + i.val → pmuCount t k' i' = pmuCount s k' i'))) ∧
  (∀ (s : State) (r : RouterId), PortFree s → Completes (.probeClear r) s (fun t =>
    probeCount t r.val = 0 ∧ (∀ q, q ≠ r.val → probeCount t q = probeCount s q) ∧ KeepsMemory s t)) ∧
  (∀ s : State, PortFree s → getBit s 0x332010 0 = false → Completes .dumpEnable s (fun t =>
    getBit t 0x332010 0 = true ∧ t.obs.dumpDue = s.tick + max 1 (getFld s 0x332010 1 20) * 1000 ∧ t.obs.dumpStop = false ∧
    RegsBut 0x332010 s t ∧ KeepsMemory s t)) ∧
  (∀ s : State, PortFree s → getBit s 0x340000 0 = false → Completes (.trcEnable true) s (fun t =>
    getBit t 0x340000 0 = true ∧ t.obs.ringStop = false ∧ t.obs.stagers = [] ∧ RegsBut 0x340000 s t)) ∧
  (∀ s : State, PortFree s → s.obs.apWait = [] → Completes (.trcEnable false) s (fun t =>
    getBit t 0x340000 0 = false ∧ t.obs.stagers = [] ∧ RegsBut 0x340000 s t)) ∧
  (∀ (s : State) (w : Word), PortFree s → trcOn s = true → stagerOf s 0x20 = ⟨[], 0, false⟩ →
    hdrWords (w ++ s.obs.trcLo) ≠ 0 → Completes (.trcWrHi w) s (fun t =>
      stagerOf t 0x20 = ⟨[acceptHeader s 0x20 (w ++ s.obs.trcLo)], hdrWords (w ++ s.obs.trcLo), false⟩ ∧
      t.obs.storage = s.obs.storage ∧ t.obs.assembly = s.obs.assembly)) ∧
  (∀ (s : State) (x : Stager), PortFree s → stagerOf s 0x20 = x → x.words ≠ [] → Completes (.dropRest .firmware) s (fun t =>
    stagerOf t 0x20 = ⟨[], x.need, true⟩ ∧ (∀ o, o ≠ 0x20 → stagerOf t o = stagerOf s o))) ∧
  (∀ (s : State) (mask : BitVec 24), PortFree s → s.obs.apWait = [] → Completes (.dropRest (.agents mask)) s (fun t =>
    (∀ n, n < 24 → mask.getLsbD n = true → (stagerOf s n).words ≠ [] → stagerOf t n = ⟨[], (stagerOf s n).need, true⟩) ∧
    (∀ n, n < 24 → mask.getLsbD n = false ∨ (stagerOf s n).words = [] → stagerOf t n = stagerOf s n) ∧
    (∀ o, 24 ≤ o → stagerOf t o = stagerOf s o) ∧ KeepsMemory s t)) ∧
  (∀ (s : State) (r : BitVec 128) (l : List (BitVec 128)), PortFree s → s.obs.log = r :: l → s.obs.loss = 0 →
    Completes .trcLogPop s (fun t => t.obs.log = l ∧ t.obs.loss = 0)) ∧
  (∀ (s : State) (r : BitVec 128) (l : List (BitVec 128)), PortFree s → s.obs.log = r :: l → l.length < 64 → s.obs.loss ≠ 0 →
    Completes .trcLogPop s (fun t =>
      t.obs.log = l ++ [logWord s 0xF 26 0 s.obs.loss 0] ∧ t.obs.loss = 0 ∧ getBit t 0x340008 3 = true))

/-- O22, derived from the rules of the commands. Whatever command is at the front, a step from a state whose register file and
DRAM are in canonical form leaves both in it: equal contents stay equal data. -/
def Obligations.EveryStepKeepsCanonicalForm : Prop :=
  ∀ (s t : State), Canonical s → step s = .next t → Canonical t

/-- O23, derived from parts of R444, R445, R446, R447, R455. The mailboxes: a word written to an empty host FIFO from READY_LINK
on opens a packet with the words its LENGTH owes; a read pops the oldest reply word; FLUSH empties both host FIFOs; the partner
writes and reads the same way through BAR2; a reply that waits moves whole once there is room and sets its event. APPLY in M1 or
M2 starts a verification, in another mode it fails with RESULT 5; the end of one sets RESULT and PATCH_DONE, and where RESULT is
0 ACTIVE and the release as well; another result is reported as PATCH_REJECT. -/
def Obligations.MailboxesAndPatches : Prop :=
  (∀ (s : State) (w : Word), PortFree s → readyLink s = true → s.seq.host.cmd = [] → s.seq.partner.cmd = [] → hdrLength w ≠ 0 →
    Completes (.cmdWr w) s (fun t => t.seq.host.cmd = [⟨w, [], 1, hdrLength w, false, false⟩] ∧ t.seq.partner = s.seq.partner ∧
      t.seq.run = s.seq.run ∧ t.seq.host.reply = s.seq.host.reply)) ∧
  (∀ (s : State) (w : Word) (l : List Word), PortFree s → s.seq.host.reply = w :: l → Completes .cmdRd s (fun t =>
    t.pins.cpRdata = w ∧ t.seq = { s.seq with host := { s.seq.host with reply := l } } ∧ t.regs = s.regs)) ∧
  (∀ s : State, PortFree s → Completes .flush s (fun t =>
    t.seq.host = freshMail ∧ (s.seq.partner.cmd = [] → t.seq.partner = s.seq.partner))) ∧
  (∀ (s : State) (w : Word), Awake s → claimsMemory s = true → readyLink s = true → s.seq.host.cmd = [] → s.seq.partner.cmd = [] →
    hdrLength w ≠ 0 → hdrLength w ≤ 31 → Completes (.partnerMailboxWrite w) s (fun t =>
      t.seq = { s.seq with partner := { s.seq.partner with cmd := [⟨w, [], 1, hdrLength w, false, false⟩] } })) ∧
  (∀ (s : State) (w : Word) (l : List Word), Awake s → claimsMemory s = true → s.seq.partner.reply = w :: l →
    Completes (.partnerMailboxRead 4) s (fun t =>
      t.seq = { s.seq with partner := { s.seq.partner with reply := l } } ∧
      t.twin.out = s.twin.out ++ [.cpl 0 0 0 (wordBytes w) false])) ∧
  (∀ (s : State) (r : List Word) (l : List (List Word)), Awake s → s.seq.host.held = r :: l →
    s.seq.host.reply.length + r.length ≤ 256 → s.seq.host.cmd = [] → s.seq.partner.cmd = [] → Completes (.replyMove .host) s (fun t =>
      t.seq = { s.seq with host := { s.seq.host with reply := s.seq.host.reply ++ r, held := l } } ∧
      getBit t 0x35000C 0 = true ∧ RegsBut 0x35000C s t)) ∧
  (∀ s : State, PortFree s → curMode s = 1 ∨ curMode s = 2 → Completes .patchApply s (fun t =>
    t.seq = { s.seq with patchBusy := true } ∧ KeepsMemory s t)) ∧
  (∀ s : State, PortFree s → curMode s ≠ 1 → curMode s ≠ 2 → Completes .patchApply s (fun t =>
    getFld t 0x350024 2 3 = 5 ∧ getBit t 0x35000C 6 = true ∧ t.seq.patchBusy = s.seq.patchBusy)) ∧
  (∀ (s : State) (ok : Bool), Awake s → s.seq.patchBusy = true → patchResult s ok = 0 →
    Completes (.patchVerifyComplete ok) s (fun t =>
      t.seq = { s.seq with patchBusy := false } ∧ getFld t 0x350024 2 3 = 0 ∧ getBit t 0x350024 0 = true ∧
      getFld t 0x350024 16 16 = bitsOf (patchWord s 2) 0 16 ∧ getBit t 0x35000C 6 = true ∧ KeepsMemory s t)) ∧
  (∀ (s : State) (ok : Bool), Awake s → s.seq.patchBusy = true → patchResult s ok ≠ 0 →
    exec (.patchVerifyComplete ok) s = resume s (report (setBit (setFld
      { s with seq := { s.seq with patchBusy := false } } 0x350024 2 3 (patchResult s ok)) 0x35000C 6 true) 26 9))

/-- O24, derived from parts of R31, R32, R54, R341. `PERST_N`, a hot reset and the loss of the link each take the endpoint to
its reset state: no link, configuration space and MSI-X table at reset, D0, no FLR under way, and TWN_CFG latched anew.
`PERST_N` low with the domain off resets the windows, and in reset only its level counts; its release changes the level
alone. Training begins once the domain is on, LINK_EN is 1, `PERST_N` is released and the Vendor ID is valid; the link
that comes up has the rate and the lanes negotiated, limited to those latched. -/
def Obligations.TwinLinkResetsAndTraining : Prop :=
  (∀ (s : State) (c : Instr), Awake s →
    (c = .perstAssert ∧ s.twin.perstLow = false ∧ twinPwr s = true) ∨ (c = .linkDown ∧ (s.twin.up || s.twin.training) = true)
      ∨ (c = .hotReset ∧ s.twin.up = true) →
    Completes c s (fun t =>
      t.twin.up = false ∧ t.twin.training = false ∧ t.twin.cfg = [] ∧ t.twin.msix = [] ∧ t.twin.d3 = false ∧
      t.twin.l1 = false ∧ t.twin.flrDue = none ∧ t.twin.latched = getReg t 0x310000)) ∧
  (∀ s : State, Awake s → s.twin.perstLow = false → twinPwr s = false → Completes .perstAssert s (fun t =>
    t = resetWindows { s with twin := { s.twin with perstLow := true } })) ∧
  (∀ s : State, s.undef = false → running s = false ∨ s.twin.perstLow = true →
    Completes .perstAssert s (fun t => t = { s with twin := { s.twin with perstLow := true } })) ∧
  (∀ s : State, s.undef = false → Completes .perstRelease s (fun t => t = { s with twin := { s.twin with perstLow := false } })) ∧
  (∀ s : State, s.undef = false → linkPermitted s = true → s.twin.up = false →
    Completes .linkTrainingStart s (fun t => t = { s with twin := { s.twin with training := true } })) ∧
  (∀ (s : State) (speed width : BitVec 3), s.undef = false → linkPermitted s = true → s.twin.training = true →
    Completes (.linkUp speed width) s (fun t =>
      t.twin = { s.twin with training := false, up := true, speed := BitVec.ofNat 3 (min speed.toNat (maxSpeed s)),
                             width := BitVec.ofNat 3 (min width.toNat (maxWidth s)) } ∧ OnlyRegs { s with twin := t.twin } t))

/-- O25, derived from parts of R324, R342. A Function Level Reset that is due to end 1 ms later leaves D0, an empty MSI-X
table, and every configuration byte that it does not keep at reset; until its completion a configuration request is
answered with Configuration Request Retry. Configuration requests from the beginning of training: a read returns the
dword as the space shows it, a write changes the writable bits of the enabled bytes, and each is answered with a
completion; a write of another dword than Command, Power Management, Device Control and the control of a margined lane
does nothing else. The layout behind the reads and writes, those four places and the Configuration Request Retry are the
model's (assumption 59). -/
def Obligations.FunctionResetAndConfiguration : Prop :=
  (∀ s : State, Awake s → s.twin.up = true → s.twin.flrDue = none → Completes .flr s (fun t =>
    t.twin.d3 = false ∧ t.twin.msix = [] ∧ t.twin.flrDue = some (s.tick + 1000000) ∧
    (∀ a, flrKeeps a = false → a ≠ 0x78 → cfgByte t a = 0))) ∧
  (∀ s : State, s.undef = false → Completes .flrComplete s (fun t => t = { s with twin := { s.twin with flrDue := none } })) ∧
  (∀ (s : State) (write : Bool) (a : BitVec 12) (be : BitVec 4) (d : Word), Awake s → (s.twin.up || s.twin.training) = true →
    s.twin.flrDue.isSome = true →
    Completes (.configRequest write a be d) s (fun t => t = twinOut s (.cpl 0 0 2 [] false))) ∧
  (∀ (s : State) (a : BitVec 12) (be : BitVec 4) (d : Word), Awake s → (s.twin.up || s.twin.training) = true →
    s.twin.flrDue = none → Completes (.configRequest false a be d) s (fun t => t = twinOut s (.cpl 0 0 0 ((List.range 4).map (fun i =>
      (cfgRead s (a.toNat / 4 * 4)).extractLsb' (8 * i) 8)) false))) ∧
  (∀ (s : State) (a : BitVec 12) (be : BitVec 4) (d : Word), Awake s → (s.twin.up || s.twin.training) = true →
    s.twin.flrDue = none → a.toNat / 4 * 4 ≠ 4 → a.toNat / 4 * 4 ≠ 0x44 → a.toNat / 4 * 4 ≠ 0x78 →
    ¬ (0x1A8 ≤ a.toNat / 4 * 4 ∧ a.toNat / 4 * 4 ≤ 0x1B4) →
    Completes (.configRequest true a be d) s (fun t =>
      t = twinOut (cfgWrite s (a.toNat / 4 * 4) be d) (.cpl 0 0 0 [] false)))

/-- O26, derived from parts of R339, R343, R344, R345, R346, R347, R365, R440 and Table 14.4. A clear of Bus Master Enable is a
configuration write of that bit, and windows in step fall behind; entry to D3hot sets PowerState and breaks mirroring; a request
for L1 is granted in D3hot, and in D0 with ASPM enabled and nothing to send. With LINK_EN 0, the link down, no line request open
and no tag in use, the domain goes off: the fence of the twin port stands, and its configuration space is gone. The bay: a
presence level that has held is shown and its change noted, and one lost under power is a surprise removal; an attention press
is noted; each blink phase toggles, and `ATTN_LED` shows its indicator, or the fault blink from an expiry of that on, once the
LEDs have left the level of reset and of M8, until when both are off. -/
def Obligations.TwinPowerAndBay : Prop :=
  (∀ s : State, Awake s → s.twin.up = true → s.twin.flrDue = none → busMaster s = true → Completes .busMasterEnableClear s (fun t =>
    busMaster t = false ∧ (∀ a, a ≠ 4 → cfgByte t a = cfgByte s a) ∧
    (∀ w, w < 16 → mwEn s w = true → mwState s w = 1 → mwState t w = 2))) ∧
  (∀ s : State, Awake s → s.twin.up = true → s.twin.flrDue = none → s.twin.d3 = false → exec .d3hotEntry s = resume s
    (let u := mirrorBreak (setCfgByte s 0x44 (cfgByte s 0x44 ||| 3))
     { u with twin := { u.twin with d3 := true } })) ∧
  (∀ s : State, Awake s → s.twin.up = true → s.twin.d3 = true ∨ (bitOf (cfgRead s 0x80) 1 = true ∧ s.mirror.queue = [] ∧
      ∀ j ∈ s.twin.jobs, j.write = true) →
    Completes .aspmL1Request s (fun t => t = { s with twin := { s.twin with l1 := true } })) ∧
  (∀ s : State, Awake s → twinPwr s = true → getBit s 0x310000 9 = false → twinQuiet s = true → Completes .twinDomainOff s (fun t =>
    twinPwr t = false ∧ getBit t 0x300008 8 = true ∧ t.twin.cfg = [] ∧ t.twin.msix = [] ∧ t.twin.jobs = [] ∧
    t.twin.training = false ∧ KeepsMemory s t ∧ (s.twin.inbox = [] → t.mirror = s.mirror))) ∧
  (∀ (s : State) (now : Bool), Ticking s → present s = !now → s.pins.pwrEn = false → Completes (.presenceChange now) s (fun t =>
    present t = now ∧ getBit t 0x310044 2 = true ∧ RegsBut 0x310044 s t ∧ KeepsMemory s t)) ∧
  (∀ s : State, Ticking s → present s = true → s.pins.pwrEn = true → exec (.presenceChange false) s = resume s
    (drivePower (surpriseRemoval (setBit (setBit s 0x310044 0 false) 0x310044 2 true)))) ∧
  (∀ s : State, Ticking s → s.twin.d3 = false → Completes .attentionPress s (fun t => t = setBit s 0x310044 3 true)) ∧
  (∀ s : State, Ticking s → exec .attentionPress s = resume s (wakePme (setBit s 0x310044 3 true))) ∧
  (∀ s : State, Ticking s → comparatorTurn s 4 = true → s.twin.blinkDue ≤ s.tick → Completes .blinkPhase s (fun t =>
    t.twin.blinkOn = !s.twin.blinkOn ∧ t.twin.blinkDue = s.tick + 320000000 ∧
    (ledsOut s = true → faultBlinks s = false → attnLed t = indicator (getFld s 0x310040 1 2) (!s.twin.blinkOn)) ∧
    OnlyTwin s t)) ∧
  (∀ s : State, Ticking s → comparatorTurn s 5 = true → s.twin.fltBlinkDue ≤ s.tick → Completes .faultBlinkPhase s (fun t =>
    t.twin.fltBlinkOn = !s.twin.fltBlinkOn ∧ t.twin.fltBlinkDue = s.tick + 80000000 ∧
    (ledsOut s = true → faultBlinks s = true → attnLed t = !s.twin.fltBlinkOn) ∧ OnlyTwin s t)) ∧
  (∀ s : State, ledsOut s = false → attnLed s = false ∧ pwrLed s = false)

/-- O27, derived from parts of R323, R327, R328, R330, R333, R334, R338, R371. A memory TLP that credits admit and its window
accepts is taken in with one line request to come for each line it touches, in the window's local addresses and with the
window's attributes; nothing else changes. One that no window claims is an Unsupported Request, and one that its window
does not permit a Completer Abort. A malformed TLP, or one whose ECRC fails where it is checked, sets TWN_ERR and the
AER status and is reported as TLP_ERR; a poisoned one is taken as a write, and one of another kind is an Unsupported
Request. A read of the partner status page returns its word; a write of the MSI-X table stores the writable bits. -/
def Obligations.InboundTlps : Prop :=
  (∀ (s : State) (write : Bool) (m : MemTlp) (w : Nat), Awake s → claimsMemory s = true → tlpCredit s write m = true →
    m.ep = false → m.off.toNat + m.len ≤ bar4Size s → windowOf s m.off.toNat m.len = some w → getBit s (winActive w + 0xC) (if write then 2 else 1) = true →
    inSafe s = false → (tlpLines write (getFld s (winActive w + 8) 0 27 * 2 ^ 21 + m.off.toNat - getFld s (winActive w) 0 17 * 2 ^ 21) m) ≠ [] →
    Completes (if write then .inboundMemWrite m else .inboundMemRead m) s (fun t =>
      (∃ j, t.twin.jobs = s.twin.jobs ++ [j] ∧ j.write = write ∧ j.rid = m.rid ∧ j.tag = m.tag ∧ j.relaxed = m.relaxed ∧
        j.len = m.len ∧ j.next = 0 ∧ j.parts = [] ∧ j.mute = false ∧
        j.lines = tlpLines write (getFld s (winActive w + 8) 0 27 * 2 ^ 21 + m.off.toNat - getFld s (winActive w) 0 17 * 2 ^ 21) m ∧
        j.attr = getReg s (winActive w + 0xC)) ∧ OnlyTwin s t)) ∧
  (∀ (s : State) (write : Bool) (m : MemTlp), Awake s → linkDead s = false → tlpCredit s write m = true → m.ep = false →
    claimsMemory s = false ∨ bar4Size s < m.off.toNat + m.len ∨ windowOf s m.off.toNat m.len = none →
    exec (if write then .inboundMemWrite m else .inboundMemRead m) s
      = resume s (answerUr s write m.rid m.tag (memHdr s write m))) ∧
  (∀ (s : State) (write : Bool) (m : MemTlp) (w : Nat), Awake s → claimsMemory s = true → tlpCredit s write m = true →
    m.ep = false → m.off.toNat + m.len ≤ bar4Size s → windowOf s m.off.toNat m.len = some w →
    getBit s (winActive w + 0xC) (if write then 2 else 1) = false →
    exec (if write then .inboundMemWrite m else .inboundMemRead m) s
      = resume s (answerCa (twinErr s 7 m.tag.toNat m.rid.toNat) write m.rid m.tag (memHdr s write m))) ∧
  (∀ (s : State) (tag : BitVec 8) (rid : BitVec 16), Awake s → linkDead s = false →
    exec (.inboundTlpError (.malformed tag rid)) s
      = resume s (report (aerUncorr (twinErr s 5 tag.toNat rid.toNat) 18 (idHdr rid.toNat tag.toNat)) 25 1)) ∧
  (∀ (s : State) (tag : BitVec 8) (rid : BitVec 16), Awake s → linkDead s = false → bitOf (cfgRead s 0x118) 8 = true →
    exec (.inboundTlpError (.ecrc tag rid)) s
      = resume s (report (aerUncorr (twinErr s 4 tag.toNat rid.toNat) 19 (idHdr rid.toNat tag.toNat)) 25 1)) ∧
  (∀ (s : State) (posted : Bool) (tag : BitVec 10) (rid : BitVec 16), Awake s → linkDead s = false →
    exec (.inboundTlpError (.unsupported posted tag rid)) s
      = resume s (answerUr s posted rid tag (idHdr rid.toNat tag.toNat))) ∧
  (∀ (s : State) (m : MemTlp), exec (.inboundTlpError (.poisoned m)) s = exec (.inboundMemWrite { m with ep := true }) s) ∧
  (∀ (s : State) (i : Nat) (d : Word), Awake s → claimsMemory s = true → i < 6 →
    Completes (.bar0Access false (BitVec.ofNat 16 (0x1000 + 4 * i)) d) s (fun t =>
      t = twinOut s (.cpl 0 0 0 (wordBytes (statusPage s i)) false))) ∧
  (∀ (s : State) (i : Nat) (d : Word), Awake s → claimsMemory s = true → i < 16 →
    Completes (.bar0Access true (BitVec.ofNat 16 (4 * i)) d) s (fun t =>
      cellsGet msixReset t.twin.msix i = d &&& msixMask i ∧
      (∀ k, k ≠ i → cellsGet msixReset t.twin.msix k = cellsGet msixReset s.twin.msix k) ∧ OnlyTwin s t))

/-- O28, derived from parts of R221, R330, R331, R337, R353, R361, R380. The twin port issues the next line of the oldest job that
ordering lets go, under a free transaction number, to the home of the line, and the data of a write as one packet behind
it; in M10 no packet leaves for a home, and the line ends as one that a home refuses, by the model's reading (assumption 27); a
refusal leaves the request held until its grant; a mirrored line goes to the mirror engine, and the line watched for
heartbeats to the heartbeat check. Mastered reads: a good
completion ends the read of its tag; one that does not come in time puts the tag into quarantine, counts, and is
reported as CPL_TMO; when its quarantine is over the tag is free. -/
def Obligations.TwinLinesAndReads : Prop :=
  (∀ (s : State) (j : TlpJob) (l : TlpLine) (k : Nat), Awake s → twinPwr s = true → inSafe s = false →
    (∀ x ∈ s.twin.txns, (x.held && x.grant) = false) → firstFree 128 (s.twin.txns.map (fun t => t.txn.toNat)) = some k →
    nextJob [] s.twin.jobs = some j → j.lines[j.next]? = some l → (homeOf s l.addr.toNat).isSome = true →
    Completes .twinLineIssue s (fun t =>
      t.twin.txns = s.twin.txns ++ [jobTxn j (BitVec.ofNat 8 k) l] ∧
      t.spine.arrive.length = s.spine.arrive.length + (if j.write then 2 else 1) ∧ t.regs = s.regs ∧ KeepsMemory s t)) ∧
  (∀ (s : State) (i : InMsg) (rest : List InMsg) (r : Rsp) (x : TwinTxn), Awake s → s.twin.inbox = i :: rest → i.pkt.msg = .rsp r →
    r.opcode = 5 → s.twin.txns = [x] → x.txn = r.txn → x.done = none →
    Completes .twinLineResponse s (fun t => t = { s with twin := { s.twin with inbox := rest, txns := [{ x with held := true }] } })) ∧
  (∀ (s : State) (i : InMsg) (rest : List InMsg), Awake s → s.twin.inbox = i :: rest → msgIsMirror i.pkt.msg = true →
    exec .twinLineResponse s = resume s (pumpAll (mirrorTake { s with twin := { s.twin with inbox := rest } } i.pkt.msg))) ∧
  (∀ (s : State) (i : InMsg) (rest : List InMsg) (d : LineData), Awake s → s.twin.inbox = i :: rest → i.pkt.msg = .watched d →
    exec .twinLineResponse s = resume s (takeWatched { s with twin := { s.twin with inbox := rest } } d)) ∧
  (∀ s : State, Awake s → twinPwr s = true → inSafe s = true → exec .twinLineIssue s = resume s (lineSafe s)) ∧
  (∀ (s : State) (tag : BitVec 8) (d : LineData), Awake s → linkDead s = false → s.twin.rdTags.any (fun t => t.1 == tag) = true →
    s.mirror.flushTag ≠ some tag → Completes (.completionReceive tag (.ok d false)) s (fun t => t = dropTag s tag)) ∧
  (∀ (s : State) (tag : BitVec 8) (since : Nat), Awake s → s.twin.rdTags.find? (fun t => t.1 == tag) = some (tag, since) →
    cplDisabled s = false → since + cplTimeout s ≤ s.tick →
    exec (.completionTimeout tag) s = resume s
      (let u := dropTag s tag
       let u := { u with twin := { u.twin with quar := u.twin.quar ++ [(tag, s.tick + cplTimeout u, false)] } }
       report (flushFailed (satAdd (aerUncorr (twinErr u 0 tag.toNat 0) 14 []) 0x310014 0 16 1) tag) 25 0)) ∧
  (∀ (s : State) (tag : BitVec 8), Awake s → Completes (.quarantineExpire tag) s (fun t =>
    t.twin.quar = s.twin.quar.filter (fun q => !(q.1 == tag && decide (q.2.1 ≤ s.tick))) ∧ OnlyTwin s t))

/-- O29, derived from parts of R353, R357, R361, R364. The head of the mirror queue leaves as a posted write: a heartbeat to
the partner's heartbeat address, a poisoned line alone with EP to its place in the partner's window. On a Lead windows
that may recover fall behind, at that moment by the model's reading (assumption 29), and the copier takes the next dirty
granule of a window that is behind: its bit is cleared and its 4,096 lines are to be read. -/
def Obligations.MirrorWritesAndCopier : Prop :=
  (∀ (s : State) (d : LineData) (rest : List MirItem), Awake s → linkUsable s = true → s.mirror.queue = .beat d :: rest →
    lineNat d 10 1 % 2 = 0 → Completes .mirrorWriteSend s (fun t =>
      t.mirror = { s.mirror with queue := rest, beatAfter := true } ∧
      t.twin.out = s.twin.out ++ [.memWrite (BitVec.ofNat 64 ((getReg s 0x310074).toNat + (getReg s 0x310078).toNat * 2 ^ 32))
        [d] false (ecrcOn s)] ∧ t.regs = s.regs ∧ KeepsMemory s t)) ∧
  (∀ (s : State) (l : MirLine) (rest : List MirItem), Awake s → linkUsable s = true → s.mirror.queue = .line l :: rest →
    sendsAlone l = true → exec .mirrorWriteSend s = resume s (pumpAll (refillQueue
      (let u := if bitOf (cfgRead s 0x04) 6 then cfgSet s 0x04 24 else s
       let u := twinOut u (.memWrite (BitVec.ofNat 64 (partnerAddr s l)) [l.img.data] true (ecrcOn u))
       { u with mirror := { u.mirror with queue := rest, sent := u.mirror.sent ++ [l], beatAfter := false } })))) ∧
  (∀ (s : State) (w i : Nat), Awake s → twinPwr s = true → twinRole s = 1 → s.mirror.copyGran = none → inSafe s = false →
    nextGranule (mirrorRecover s) = some (w, i) → Completes .copierGranule s (fun t =>
      t.mirror.copyGran = some (getFld s (mwBase w + 0xC) 4 17 + i) ∧ t.mirror.copyWin = w ∧ t.mirror.copyNext = i + 1 ∧
      t.mirror.copyLines = [(BitVec.ofNat 48 (mwLo s w + i * 2 ^ 18), 4096)] ∧
      t.mirror.dirty = s.mirror.dirty &&& ~~~(BitVec.ofNat 131072 (2 ^ (getFld s (mwBase w + 0xC) 4 17 + i))) ∧
      t = { mirrorRecover s with mirror := t.mirror }))

/-- O30, derived from parts of R359, R360, R361, R363. Synchronous lines that have been sent are confirmed by one read of the
partner's heartbeat line under a free tag; when a synchronous line waits longer than SYNC_TMO_US, its granule and those of all
unconfirmed synchronous lines are marked, every synchronous window breaks, and held messages go on. Every 100 µs a heartbeat
with the next epoch joins the queue while the link is usable, and is dropped otherwise, and while a surprise removal stands,
which is the model's choice (assumption 84); every 100 µs without one from the partner count a miss, and with the third the
partner is lost. -/
def Obligations.FlushesAndHeartbeats : Prop :=
  (∀ (s : State) (k : Nat), Awake s → linkUsable s = true → s.mirror.flushTag = none → s.mirror.sent.any (·.sync) = true →
    firstFree 256 (s.twin.rdTags.map (fun t => t.1.toNat) ++ s.twin.quar.map (fun t => t.1.toNat)) = some k →
    Completes .flushReadIssue s (fun t =>
      t.twin.rdTags = s.twin.rdTags ++ [(BitVec.ofNat 8 k, s.tick)] ∧ t.mirror.flushTag = some (BitVec.ofNat 8 k) ∧
      t.mirror.flushOf = s.mirror.sent ∧ t.mirror.sent = [] ∧ t.mirror.queue = s.mirror.queue ∧
      t.twin.out = s.twin.out ++ [.memRead (BitVec.ofNat 64 ((getReg s 0x310074).toNat + (getReg s 0x310078).toNat * 2 ^ 32)) 4
        (BitVec.ofNat 8 k) (ecrcOn s)] ∧ t.regs = s.regs ∧ KeepsMemory s t)) ∧
  (∀ s : State, Awake s → syncLate s = true → exec .syncTimeout s = resume s
    (pumpAll (forEach 16 (syncGiveUp s) (fun s w => if mwSync s w then mwBreak false s w else s)))) ∧
  (∀ s : State, (∀ l ∈ mirrorLines (syncGiveUp s), l.sync = false) ∧ ∀ l ∈ mirrorLines s, l.sync = true →
    mwGranule s l.window l.addr.toNat < 131072 →
    (syncGiveUp s).mirror.dirty.getLsbD (mwGranule s l.window l.addr.toNat) = true) ∧
  (∀ s : State, Ticking s → twinRole s ≠ 0 → comparatorTurn s 2 = true → s.mirror.hbTxDue ≤ s.tick → linkUsable s = true →
    s.twin.surprise = false → Completes .heartbeatTransmit s (fun t =>
      (∃ d, t.mirror.queue = s.mirror.queue ++ [.beat d]) ∧ t.mirror.hbTxDue = s.tick + 100000 ∧
      getReg t 0x310088 = BitVec.ofNat 32 (((getReg s 0x310088).toNat + 1) % 2 ^ 32) ∧ RegsBut 0x310088 s t ∧ KeepsMemory s t)) ∧
  (∀ s : State, Ticking s → twinRole s ≠ 0 → comparatorTurn s 2 = true → s.mirror.hbTxDue ≤ s.tick →
    linkUsable s = false ∨ s.twin.surprise = true → Completes .heartbeatTransmit s (fun t => t = { s with mirror := { s.mirror with hbTxDue := s.tick + 100000 } })) ∧
  (∀ s : State, Ticking s → twinRole s ≠ 0 → comparatorTurn s 1 = true → s.mirror.hbRxDue ≤ s.tick → getFld s 0x310084 0 2 < 2 →
    Completes .heartbeatMiss s (fun t =>
      getFld t 0x310084 0 2 = getFld s 0x310084 0 2 + 1 ∧ t.mirror.hbRxDue = s.tick + 100000 ∧ RegsBut 0x310084 s t ∧
      t = { s with regs := t.regs, mirror := t.mirror })) ∧
  (∀ s : State, Ticking s → twinRole s ≠ 0 → comparatorTurn s 1 = true → s.mirror.hbRxDue ≤ s.tick → 2 ≤ getFld s 0x310084 0 2 →
    exec .heartbeatMiss s = resume s (partnerLost (armHbRx (setFld s 0x310084 0 2 3))))

/-- O31, derived from parts of R448, R449, R450, R464. The packet that is next is taken up when its step comes. Where a refusal of
R464 applies, the reply carries its status and nothing else happens; otherwise the command does what its rule says. A
form that the partner may not issue is denied first; then a torn packet, reserved flags or a LENGTH that does not fit
give `BAD_PARAM`, and a long command beside another `BUSY`. -/
def Obligations.PacketsAreTakenOrRefused : Prop :=
  (∀ (s : State) (c : Instr) (mb : Mailbox) (op : Nat) (r : CmdRule) (p : CmdPkt) (st : Nat), packetRule c = some (mb, op, r) →
    Lone s mb op p → refusalOf (popPkt s mb) mb p r = some st →
    exec c s = resume s (sendReply (popPkt s mb) mb p.hdr st [])) ∧
  (∀ (s : State) (c : Instr) (mb : Mailbox) (op : Nat) (r : CmdRule) (p : CmdPkt), packetRule c = some (mb, op, r) →
    Lone s mb op p → Accepts s mb p r →
    exec c s = resume s (settleMail (r.act (popPkt s mb) (takenOf mb p)))) ∧
  (∀ (s : State) (p : CmdPkt) (r : CmdRule), partnerForm s p = false → refusalOf s .partner p r = some stDenied) ∧
  (∀ (s : State) (p : CmdPkt) (r : CmdRule), p.torn = true ∨ bitsOf p.hdr 25 7 ≠ 0 ∨ r.shape s (hdrLength p.hdr) p.stored = false →
    refusalOf s .host p r = some stBadParam) ∧
  (∀ (s : State) (p : CmdPkt) (r : CmdRule), p.torn = false → bitsOf p.hdr 25 7 = 0 → r.shape s (hdrLength p.hdr) p.stored = true →
    r.long = true → s.seq.run.isSome = true → refusalOf s .host p r = some stBusy)

/-- O32, derived from parts of R191, R386, R387, R417, R446, R448, R449. The packets that only answer: an accepted `GET_INFO`,
`GET_MODE` or `REGION_GET` appends its reply to the reply FIFO of its mailbox and sets the reply event of that
mailbox; with QUIET nothing is sent. The packets that set: `SCRUB_CTL` sets the scrub of each populated channel that
it names, `CALENDAR_SET` the calendar, counting the change; `FAULT_CLEAR` ends the clearable faults that it names;
`BLOTTER_ARM` arms the blotter once; `AGENT_FENCE` fences its port. -/
def Obligations.InformationAndSettingPackets : Prop :=
  (∀ (s : State) (mb : Mailbox) (p : CmdPkt), Lone s mb 0x01 p → Accepts s mb p getInfoRule → bitOf p.hdr 24 = false →
    (mailOf s mb).reply.length + 7 ≤ mailCap mb → Completes (.getInfo mb) s (fun t =>
      (mailOf t mb).reply = (mailOf s mb).reply ++ mkReply p.hdr stOk (infoWords s) ∧ (mailOf t mb).cmd = [] ∧
      getBit t 0x35000C (replyBit mb) = true ∧ RegsBut 0x35000C s t ∧ KeepsMemory s t)) ∧
  (∀ (s : State) (mb : Mailbox) (p : CmdPkt), Lone s mb 0x03 p → Accepts s mb p getModeRule → bitOf p.hdr 24 = false →
    (mailOf s mb).reply.length + 2 ≤ mailCap mb → Completes (.getMode mb) s (fun t =>
      (mailOf t mb).reply = (mailOf s mb).reply ++ mkReply p.hdr stOk [modeWord s] ∧ (mailOf t mb).cmd = [] ∧
      getBit t 0x35000C (replyBit mb) = true ∧ RegsBut 0x35000C s t ∧ KeepsMemory s t)) ∧
  (∀ (s : State) (mb : Mailbox) (p : CmdPkt) (i : Nat), Lone s mb 0x21 p → Accepts s mb p regionGetRule →
    bitOf p.hdr 24 = false → i = bitsOf (paramOf p.stored 1) 0 6 →
    (mailOf s mb).reply.length + 5 ≤ mailCap mb → Completes (.regionGet mb) s (fun t =>
      (mailOf t mb).reply = (mailOf s mb).reply ++ mkReply p.hdr stOk
        [getReg s (rgnBase i), getReg s (rgnBase i + 4), getReg s (rgnBase i + 8), getReg s (rgnBase i + 0xC)] ∧
      (mailOf t mb).cmd = [] ∧ getBit t 0x35000C (replyBit mb) = true ∧ RegsBut 0x35000C s t ∧ KeepsMemory s t)) ∧
  (∀ (s : State) (mb : Mailbox) (p : CmdPkt), Lone s mb 0x03 p → Accepts s mb p getModeRule → bitOf p.hdr 24 = true →
    exec (.getMode mb) s = resume s (popPkt s mb)) ∧
  (∀ (s : State) (mb : Mailbox) (p : CmdPkt), Lone s mb 0x12 p → Accepts s mb p scrubCtlRule → Completes (.scrubCtl mb) s (fun t =>
    (∀ c, c < 16 → bitOf (paramOf p.stored 1) c = true → slicePop s (c / 2) = true →
      getReg t (mcBase c + 0x68) = BitVec.ofNat 32 (bitsOf (paramOf p.stored 2) 0 16 + 2 ^ 16 * b2n (bitOf (paramOf p.stored 1) 16)) ∧
      (chan t c).scrubDue = s.tick + bitsOf (paramOf p.stored 2) 0 16 * 1000) ∧
    (∀ c, c < 16 → bitOf (paramOf p.stored 1) c = false → getReg t (mcBase c + 0x68) = getReg s (mcBase c + 0x68) ∧
      chan t c = chan s c) ∧ t.dram = s.dram ∧ t.slices = s.slices)) ∧
  (∀ (s : State) (mb : Mailbox) (p : CmdPkt), Lone s mb 0x42 p → Accepts s mb p calendarSetRule →
    Completes (.calendarSet mb) s (fun t =>
      t.aon = { s.aon with calendar := paramOf p.stored 2 ++ paramOf p.stored 1, calSets := min (s.aon.calSets + 1) (2 ^ 32 - 1) } ∧
      RegsBut 0x35000C s t ∧ KeepsMemory s t)) ∧
  (∀ (s : State) (mb : Mailbox) (p : CmdPkt) (u : Nat), Lone s mb 0x51 p → Accepts s mb p faultClearRule →
    u = bitsOf (paramOf p.stored 1) 0 5 → Completes (.faultClear mb) s (fun t =>
      getReg t (fltBase u + 4) = getReg s (fltBase u + 4) &&& ~~~(paramOf p.stored 2 &&& clearableMask u) ∧
      (∀ v, v < 27 → v ≠ u → getReg t (fltBase v + 4) = getReg s (fltBase v + 4)) ∧ KeepsMemory s t)) ∧
  (∀ (s : State) (mb : Mailbox) (p : CmdPkt), Lone s mb 0x50 p → Accepts s mb p blotterArmRule → getBit s 0x320018 0 = false →
    bitsOf (paramOf p.stored 1) 8 5 < checkerInstances (bitsOf (paramOf p.stored 1) 0 6) → Completes (.blotterArm mb) s (fun t =>
      getBit t 0x320018 0 = true ∧ getFld t 0x320018 1 6 = bitsOf (paramOf p.stored 1) 0 6 ∧
      getFld t 0x320018 7 5 = bitsOf (paramOf p.stored 1) 8 5 ∧ getFld t 0x320018 12 8 = bitsOf (paramOf p.stored 1) 16 8 ∧
      t.faults.blotMask = paramOf p.stored 3 ++ paramOf p.stored 2 ∧ t.faults.blotSuppress = bitOf (paramOf p.stored 1) 24 ∧
      KeepsMemory s t)) ∧
  (∀ (s : State) (mb : Mailbox) (p : CmdPkt) (n : Nat), Lone s mb 0x60 p → Accepts s mb p agentFenceRule →
    n = bitsOf (paramOf p.stored 1) 0 5 → n < 24 → portEnabled s n = true →
    exec (.agentFence mb) s = resume s (settleMail (sendReply (fencePort (popPkt s mb) n) mb p.hdr stOk []))) ∧
  (∀ (s : State) (n : Nat), (port s n).fenced = false →
    fencePort s n = (if (port s n).caching then agentDeath s n else fenceOnly s n) ∧ (n < 24 → (port (fenceBare s n) n).fenced = true)) ∧
  (∀ (s : State) (n : Nat), (port s n).fenced = true → fencePort s n = s)

/-- O33, derived from parts of R311, R312, R313, R415, R416. `SLOT_TABLE_LOAD` stores what it carries for its mode: for each
channel that it names its table, or the budgets of its slice; in a mode that is not in use nothing else changes, and of the mode
in use the new tables wait in the shadows for the next epoch boundary. A table or budgets that break the rules are refused, and
so is any load while a swap is pending, by the model's reading, as M9 uses the tables of M3 (assumption 69). An export carries
the number after the last, which wraps by the model's reading (assumption 70), and sets KNOWN where it was 0; an import whose
tag, serial number or number does not fit is denied and changes nothing, and one that fits takes the record in. -/
def Obligations.SlotTablesAndLedger : Prop :=
  (∀ (s : State) (mb : Mailbox) (p : CmdPkt) (m : Nat), Lone s mb 0x58 p → Accepts s mb p slotTableLoadRule →
    bitOf (paramOf p.stored 1) 4 = false → m = bitsOf (paramOf p.stored 1) 0 4 →
    (loadTables p.stored).any (tableRefused (popPkt s mb) m) = false →
    ratesFit ((loadTables p.stored).foldl (fun s x => storeTable s m x) (popPkt s mb)) m = true → swapPending s = false →
    tableMode (curMode s) ≠ m → Completes (.slotTableLoad mb) s (fun t =>
      (∀ x, x ∈ loadTables p.stored → storedTable t x.1 m = x.2) ∧
      (∀ c k, k ≠ m → 3 ≤ k → k ≤ 6 → storedTable t c k = storedTable s c k) ∧ swapPending t = false ∧ t.dram = s.dram ∧
      t.slices = s.slices)) ∧
  (∀ (s : State) (mb : Mailbox) (p : CmdPkt) (m : Nat), Lone s mb 0x58 p → Accepts s mb p slotTableLoadRule →
    bitOf (paramOf p.stored 1) 4 = false → m = bitsOf (paramOf p.stored 1) 0 4 →
    (loadTables p.stored).any (tableRefused (popPkt s mb) m) = false →
    ratesFit ((loadTables p.stored).foldl (fun s x => storeTable s m x) (popPkt s mb)) m = true → swapPending s = false →
    tableMode (curMode s) = m → Completes (.slotTableLoad mb) s (fun t =>
      t.seq.swapDue = some (s.tick / 1000 * 1000 + 1000) ∧
      (∀ x, x ∈ loadTables p.stored → storedTable t x.1 m = x.2 ∧
        (slicePop s (x.1 / 2) = true → ∃ st, (chan t x.1).shadow = some (x.2, m, st))) ∧
      (∀ c, (∀ x ∈ loadTables p.stored, x.1 ≠ c) → (chan t c).shadow = none) ∧ t.dram = s.dram ∧ t.slices = s.slices)) ∧
  (∀ (s : State) (mb : Mailbox) (p : CmdPkt) (m : Nat), Lone s mb 0x58 p → Accepts s mb p slotTableLoadRule →
    bitOf (paramOf p.stored 1) 4 = false → m = bitsOf (paramOf p.stored 1) 0 4 →
    (loadTables p.stored).any (tableRefused (popPkt s mb) m) = true →
    exec (.slotTableLoad mb) s = resume s (sendReply (popPkt s mb) mb p.hdr stBadParam [])) ∧
  (∀ (s : State) (mb : Mailbox) (p : CmdPkt) (m k : Nat), Lone s mb 0x58 p → Accepts s mb p slotTableLoadRule →
    bitOf (paramOf p.stored 1) 4 = true → m = bitsOf (paramOf p.stored 1) 0 4 → k = bitsOf (paramOf p.stored 1) 25 3 →
    (List.range 24).any (fun i => bitsOf (loadBudget p.stored i) 8 8 == 0) = false →
    ratesFit (storeBudgets (popPkt s mb) m k p.stored) m = true → swapPending s = false → tableMode (curMode s) = m →
    Completes (.slotTableLoad mb) s (fun t =>
      (∀ i, i < 24 → storedBudget t m k i = loadBudget p.stored i) ∧
      t.seq.swapDue = some (s.tick / 1000 * 1000 + 1000) ∧ KeepsMemory s t)) ∧
  (∀ (s : State) (mb : Mailbox) (p : CmdPkt), Lone s mb 0x40 p → Accepts s mb p ledgerExportRule →
    Completes (.ledgerExport mb) s (fun t =>
      getBit t 0x37000C 0 = true ∧
      getReg t 0x370010 = (if getBit s 0x37000C 0 then getReg s 0x370010 + 1 else 1) ∧
      (∀ a, a ≠ 0x37000C → a ≠ 0x370010 → a ≠ 0x35000C → getReg t a = getReg s a) ∧ KeepsMemory s t ∧ t.aon = s.aon)) ∧
  (∀ (s : State) (mb : Mailbox) (p : CmdPkt), Lone s mb 0x41 p → Accepts s mb p ledgerImportRule →
    recordRefused (popPkt s mb) p.stored = true →
    exec (.ledgerImport mb) s = resume s (sendReply (popPkt s mb) mb p.hdr stDenied [])) ∧
  (∀ (s : State) (mb : Mailbox) (p : CmdPkt), Lone s mb 0x41 p → Accepts s mb p ledgerImportRule →
    recordRefused (popPkt s mb) p.stored = false → Completes (.ledgerImport mb) s (fun t =>
      getReg t 0x370010 = p.stored.getD 2 0 ∧ getBit t 0x37000C 0 = true ∧
      t.aon.powered = mergeCount (getBit s 0x37000C 0) 32 s.aon.powered (recWord p.stored 8) ∧
      t.aon.hist = mergeHist s.aon.hist (recHist p.stored) ∧ t.aon.calendar = s.aon.calendar ∧ KeepsMemory s t))

/-- O34, derived from parts of R284, R286, R290. A region change that R284 or R287 refuses leaves the table; one that is
not refused begins its steps. `REALM_OPEN` marks its realm open; `REALM_RETIRE` of a realm that no
region names closes it and raises its generation. -/
def Obligations.RegionAndRealmPackets : Prop :=
  (∀ (s : State) (mb : Mailbox) (p : CmdPkt), Lone s mb 0x20 p → Accepts s mb p regionSetRule →
    setRefused (popPkt s mb) p.stored = true →
    exec (.regionSet mb) s = resume s (sendReply (popPkt s mb) mb p.hdr stBadParam [])) ∧
  (∀ (s : State) (mb : Mailbox) (p : CmdPkt), Lone s mb 0x20 p → Accepts s mb p regionSetRule →
    setRefused (popPkt s mb) p.stored = false → exec (.regionSet mb) s
      = resume s (settleMail (regionStep (startRun (popPkt s mb) (takenOf mb p) 1 0)))) ∧
  (∀ (s : State) (mb : Mailbox) (p : CmdPkt) (r : Nat), Lone s mb 0x28 p → Accepts s mb p realmOpenRule →
    r = realmParam p.stored → Completes (.realmOpen mb) s (fun t =>
      getBit t (if r < 32 then 0x360400 else 0x360404) (r % 32) = true ∧ realmGen t r = realmGen s r ∧ KeepsMemory s t)) ∧
  (∀ (s : State) (mb : Mailbox) (p : CmdPkt) (r : Nat), Lone s mb 0x29 p → Accepts s mb p realmRetireRule →
    r = realmParam p.stored → realmNamed s r = false → Completes (.realmRetire mb) s (fun t =>
      getBit t (if r < 32 then 0x360400 else 0x360404) (r % 32) = false ∧
      realmGen t r = min (realmGen s r + 1) 0xFFFF ∧ KeepsMemory s t))

/-- O35, derived from parts of R349, R362, R368, R390, R402, R410, R413, R449. A role command that only names a role gives the
device that role, clears PROMOTED, LOST and the misses, and starts the heartbeat watch anew, by the model's reading (assumption
63); a load of windows that R351 refuses changes nothing. An accepted `SET_MODE` to M8, or to M2 from another mode than M10, a
`WIPE` outside M10 and a `LIFECYCLE_ADVANCE` to a later state start a Drain: M7, the target under TARGET, the command waiting
with its timer armed, and the ranks of the active channels out of self-refresh, so that what is queued can be written. A `WIPE`
in M10 enters M11 at once. A `SET_MODE` to a run mode that names no channel starts the transition with the settings and tables
of its target; `SET_MODE` to M2 in M2 ends at once. -/
def Obligations.RoleAndModePackets : Prop :=
  (∀ (s : State) (mb : Mailbox) (p : CmdPkt) (r : Nat), Lone s mb 0x30 p → Accepts s mb p mirrorCfgRule →
    bitOf (paramOf p.stored 1) 4 = false → bitOf (paramOf p.stored 1) 2 = false → r = bitsOf (paramOf p.stored 1) 0 2 →
    twinRole s ≠ 1 → r ≠ 1 → Completes (.mirrorCfg mb) s (fun t =>
      twinRole t = r ∧ getFld t 0x310084 0 3 = 0 ∧ t.mirror.hbRxDue = s.tick + 100000 ∧ t.mirror.hbSeen = false ∧
      getReg t 0x310060 = BitVec.ofNat 32 r ∧
      t.mirror.dirty = s.mirror.dirty ∧ (∀ a, a ≠ 0x310060 → a ≠ 0x310084 → a ≠ 0x35000C → getReg t a = getReg s a) ∧
      KeepsMemory s t)) ∧
  (∀ (s : State) (mb : Mailbox) (p : CmdPkt) (r : Nat), Lone s mb 0x30 p → Accepts s mb p mirrorCfgRule →
    bitOf (paramOf p.stored 1) 4 = false → bitOf (paramOf p.stored 1) 2 = false → r = bitsOf (paramOf p.stored 1) 0 2 →
    exec (.mirrorCfg mb) s = resume s (settleMail (sendReply
      (let u := takeRole (popPkt s mb) r
       if r = 1 ∧ twinRole s ≠ 1 then enableWindows u else u) mb p.hdr stOk []))) ∧
  (∀ (s : State) (mb : Mailbox) (p : CmdPkt), Lone s mb 0x30 p → Accepts s mb p mirrorCfgRule →
    bitOf (paramOf p.stored 1) 4 = true → windowsRefused (popPkt s mb) (winSpecs p.stored) = true →
    exec (.mirrorCfg mb) s = resume s (sendReply (popPkt s mb) mb p.hdr stBadParam [])) ∧
  (∀ (s : State) (mb : Mailbox) (p : CmdPkt), Lone s mb 0x31 p → Accepts s mb p failoverRule →
    bitsOf (paramOf p.stored 1) 0 2 = 2 → twinRole s ≠ 1 → Completes (.failover mb) s (fun t =>
      twinRole t = 2 ∧ getFld t 0x310084 0 3 = 0 ∧ t.mirror.hbRxDue = s.tick + 100000 ∧
      (∀ a, a ≠ 0x310060 → a ≠ 0x310084 → a ≠ 0x35000C → getReg t a = getReg s a) ∧ KeepsMemory s t)) ∧
  (∀ (s : State) (mb : Mailbox) (p : CmdPkt), Lone s mb 0x31 p → Accepts s mb p failoverRule →
    bitsOf (paramOf p.stored 1) 0 2 = 1 → twinRole s ≠ 1 →
    exec (.failover mb) s = resume s (settleMail (sendReply (failoverLead (popPkt s mb)) mb p.hdr stOk [1]))) ∧
  (∀ (s : State) (mb : Mailbox) (p : CmdPkt) (m : Nat), Lone s mb 0x02 p → Accepts s mb p setModeRule →
    m = modeParam p.stored → modeChans p.stored = [] → m = 8 ∨ (m = 2 ∧ curMode s ≠ 2 ∧ curMode s ≠ 10) →
    Completes (.setMode mb) s (fun t =>
      curMode t = 7 ∧ getFld t 0x10 8 4 = m ∧ inTransit t = true ∧
      t.seq.trans = some ⟨BitVec.ofNat 4 (curMode s), BitVec.ofNat 4 m, 0⟩ ∧
      Runs s t mb p 1 0 (some (s.tick + max 1 (getFld s 0x350014 0 16) * 1000000)) ∧ RegsBut 0x10 s t ∧ WakesRanks s t)) ∧
  (∀ (s : State) (mb : Mailbox) (p : CmdPkt), Lone s mb 0x02 p → Accepts s mb p setModeRule → modeParam p.stored = 2 →
    modeChans p.stored = [] → curMode s = 2 →
    exec (.setMode mb) s = resume s (sendReply (popPkt s mb) mb p.hdr stOk [2])) ∧
  (∀ (s : State) (mb : Mailbox) (p : CmdPkt), Lone s mb 0x02 p → Accepts s mb p setModeRule → runMode (modeParam p.stored) = true →
    modeChans p.stored = [] → exec (.setMode mb) s = resume s (settleMail (setPhase (loadMode (startTransit
      (let u := startRun (popPkt s mb) (takenOf mb p) 1 0
       { u with seq := { u.seq with lcTarget := none } }) (modeParam p.stored)) (modeParam p.stored)) 2))) ∧
  (∀ (s : State) (mb : Mailbox) (p : CmdPkt), Lone s mb 0x49 p → Accepts s mb p wipeRule → curMode s ≠ 10 →
    Completes (.wipe mb) s (fun t =>
      curMode t = 7 ∧ getFld t 0x10 8 4 = 11 ∧ inTransit t = true ∧ t.seq.lcTarget = none ∧
      Runs s t mb p 1 0 (some (s.tick + max 1 (getFld s 0x350014 0 16) * 1000000)) ∧ RegsBut 0x10 s t ∧ WakesRanks s t)) ∧
  (∀ (s : State) (mb : Mailbox) (p : CmdPkt), Lone s mb 0x49 p → Accepts s mb p wipeRule → curMode s = 10 →
    Completes (.wipe mb) s (fun t => curMode t = 11 ∧ getFld t 0x10 8 4 = 2 ∧ t.seq.wipeCut = false ∧ t.dram = s.dram)) ∧
  (∀ (s : State) (mb : Mailbox) (p : CmdPkt) (l : Nat), Lone s mb 0x48 p → Accepts s mb p lifecycleAdvanceRule →
    l = bitsOf (paramOf p.stored 1) 0 3 → lcState s < l → l ≤ 4 → Completes (.lifecycleAdvance mb) s (fun t =>
      curMode t = 7 ∧ getFld t 0x10 8 4 = 11 ∧ t.seq.lcTarget = some (BitVec.ofNat 3 l) ∧
      Runs s t mb p 1 0 (some (s.tick + max 1 (getFld s 0x350014 0 16) * 1000000)) ∧ RegsBut 0x10 s t ∧ WakesRanks s t))

/-- O36, derived from parts of R192, R246, R393, R394, R396, R399, R453, R454. `TRAIN_CHANNEL` runs until its training ends;
`INIT_MEMORY` loads the decode, starts initialisation and answers; `SLICE_POWER` and `ACCORD_CFG` that their rules do
not refuse hold their slices, or are answered with `BAD_PARAM`; `AGENT_REVIVE` of a present port out of reset waits
for reclamation. A revive completes once reclamation and the port's packets are gone: the port is out of its fence and
no mark of death is left. A timer that has run out sets CMD_EVT.TMO and is reported; a timer event before its
time changes nothing. That `SLICE_POWER` on of a slice that is powered or not populated is `BAD_PARAM`, and those timer events,
are the model's (assumptions 61, 5, 66). `ACCORD_CFG` shows the transition from its start, where it is one of mode. -/
def Obligations.TrainingPowerAndRevive : Prop :=
  (∀ (s : State) (mb : Mailbox) (p : CmdPkt), Lone s mb 0x10 p → Accepts s mb p trainChannelRule →
    Completes (.trainChannel mb) s (fun t =>
      Runs s t mb p 1 (bitsOf (paramOf p.stored 1) 0 4) none ∧ t.regs = s.regs ∧ KeepsMemory s t)) ∧
  (∀ (s : State) (mb : Mailbox) (p : CmdPkt), Lone s mb 0x11 p → Accepts s mb p initMemoryRule →
    exec (.initMemory mb) s = resume s (settleMail (sendReply (startInitAll (loadDecode (popPkt s mb))) mb p.hdr stOk []))) ∧
  (∀ (s : State) (mb : Mailbox) (p : CmdPkt) (n : Nat), Lone s mb 0x38 p → Accepts s mb p slicePowerRule →
    n = bitsOf (paramOf p.stored 1) 0 3 → bitOf (paramOf p.stored 1) 8 = true →
    (slicePop s n = false ∨ slicePwr s n = true) →
    exec (.slicePower mb) s = resume s (sendReply (popPkt s mb) mb p.hdr stBadParam [])) ∧
  (∀ (s : State) (mb : Mailbox) (p : CmdPkt) (n : Nat), Lone s mb 0x38 p → Accepts s mb p slicePowerRule →
    n = bitsOf (paramOf p.stored 1) 0 3 → bitOf (paramOf p.stored 1) 8 = true →
    slicePop s n = true → slicePwr s n = false →
    ∃ r, (startRun (popPkt s mb) (takenOf mb p) 1 n).seq.run = some r ∧
      exec (.slicePower mb) s = resume s (settleMail (moveStart (startRun (popPkt s mb) (takenOf mb p) 1 n) r))) ∧
  (∀ (s : State) (mb : Mailbox) (p : CmdPkt) (n : Nat), Lone s mb 0x38 p → Accepts s mb p slicePowerRule →
    n = bitsOf (paramOf p.stored 1) 0 3 → bitOf (paramOf p.stored 1) 8 = true →
    slicePop s n = true → slicePwr s n = false → slicePwr s (pairSlice n) = true → dlAdmitted s (pairSlice n) = true →
    s.seq.moveLeft = none → Completes (.slicePower mb) s (fun t =>
      (slice t (pairSlice n)).held = true ∧ slicePwr t n = false ∧ t.regs = s.regs ∧ t.dram = s.dram)) ∧
  (∀ (s : State) (mb : Mailbox) (p : CmdPkt) (n m : Nat), Lone s mb 0x38 p → Accepts s mb p slicePowerRule →
    n = bitsOf (paramOf p.stored 1) 0 3 → m = bitsOf (paramOf p.stored 1) 12 3 → bitOf (paramOf p.stored 1) 8 = false →
    powerOffOk s n m = true → pairJoined s (n / 2) = false → dlAdmitted s n = true → s.seq.moveLeft = none →
    Completes (.slicePower mb) s (fun t =>
      getFld t 0x30000C (4 * n) 3 = m ∧ (slice t n).held = true ∧ (slice t n).entries = (slice s n).entries ∧
      RegsBut 0x30000C s t ∧ t.dram = s.dram)) ∧
  (∀ (s : State) (mb : Mailbox) (p : CmdPkt), Lone s mb 0x39 p → Accepts s mb p accordCfgRule →
    accordOk s (paramOf p.stored 1) = false →
    exec (.accordCfg mb) s = resume s (sendReply (popPkt s mb) mb p.hdr stBadParam [])) ∧
  (∀ (s : State) (mb : Mailbox) (p : CmdPkt) (q : Nat) (l : List Nat), Lone s mb 0x39 p → Accepts s mb p accordCfgRule →
    accordOk s (paramOf p.stored 1) = true → namedPairs (paramOf p.stored 1) = q :: l → dlAdmitted s (2 * q) = true →
    s.seq.moveLeft = none → Completes (.accordCfg mb) s (fun t =>
      (slice t (2 * q)).held = true ∧ (slice t (2 * q + 1)).held = slicePwr s (2 * q + 1) ∧ RegsBut 0x10 s t ∧
      (bitOf (paramOf p.stored 1) q = true → curMode s ≠ 6 →
        inTransit t = true ∧ getFld t 0x10 8 4 = 6 ∧ curMode t = curMode s) ∧
      (bitOf (paramOf p.stored 1) q = true → curMode s = 6 → getReg t 0x10 = getReg s 0x10) ∧
      (bitOf (paramOf p.stored 1) q = false → (∀ k, k < 4 → k ≠ q → pairJoined s k = false) → curMode s = 6 →
        inTransit t = true ∧ getFld t 0x10 8 4 = bitsOf (paramOf p.stored 1) 8 4) ∧ t.dram = s.dram)) ∧
  (∀ (s : State) (mb : Mailbox) (p : CmdPkt) (n : Nat), Lone s mb 0x61 p → Accepts s mb p agentReviveRule →
    n = bitsOf (paramOf p.stored 1) 0 5 → n < 24 → portEnabled s n = true → (port s n).resetLow = false →
    Completes (.agentRevive mb) s (fun t =>
      Runs s t mb p 1 n (some (s.tick + max 1 (getFld s 0x350014 0 16) * 1000000)) ∧ t.regs = s.regs ∧ KeepsMemory s t)) ∧
  (∀ (s : State) (r : RunCmd), Awake s → s.seq.run = some r → bitsOf r.hdr 0 8 = 0x61 → reviveReady s r.arg = true →
    exec .agentReviveComplete s = resume s (settleMail (finishCmd (revivePort s r.arg) stOk []))) ∧
  (∀ (s : State) (n : Nat), n < 24 → (port (revivePort s n) n).fenced = false ∧ (port (revivePort s n) n).dead = false ∧
    (port (revivePort s n) n).txns = [] ∧ getBit (revivePort s n) 0x300300 n = false) ∧
  (∀ (s : State) (r : RunCmd), s.undef = false → s.seq.run = some r → bitsOf r.hdr 0 8 = 0x61 → reviveReady s r.arg = false →
    exec .agentReviveComplete s = .next s) ∧
  (∀ (s : State) (r : RunCmd), Awake s → s.seq.run = some r → timerDue s r.timer = true →
    exec .commandTimeout s
      = resume s (report (setBit (settleMail (finishCmd (undoCommand s r) stTimeout [])) 0x35000C 4 true) 26 8)) ∧
  (∀ (s : State) (r : RunCmd), s.undef = false → s.seq.run = some r → timerDue s r.timer = false →
    exec .commandTimeout s = .next s)

/-- O37, derived from parts of R36, R88, R103, R192. A port's reset fences the port and leaves it in reset with no credit on
either side; a revive that waits for the port ends with `BAD_PARAM`. Its release latches the kind and the translation slice of
an enabled port anew, grants the credits of Table 4.11 from READY_LINK on, and leaves the fence as it stands; any other port
comes out of reset with no credit; one that is not in reset stays as it is, which is the model's choice (assumption 5). Every
open transaction of the port is abandoned, those of a port already fenced too. -/
def Obligations.AgentPortResets : Prop :=
  (∀ (s : State) (n : PortId), s.undef = false → Completes (.agentResetAssert n) s (fun t =>
    (port t n.val).resetLow = true ∧ (port t n.val).inCred = Vector.replicate 6 0 ∧
    (port t n.val).outCred = Vector.replicate 6 0 ∧ (port t n.val).granted = Vector.replicate 6 0 ∧
    (port t n.val).txns = [] ∧ (port t n.val).owed = [] ∧ (port t n.val).egress = [] ∧
    ((port s n.val).fenced = true → (port t n.val).fenced = true) ∧
    ((running s && portEnabled s n.val) = false ∨ (port s n.val).caching = false → (port t n.val).fenced = true))) ∧
  (∀ (s : State) (n : PortId), s.undef = false → exec (.agentResetAssert n) s = resume s
    (let u := if running s ∧ portEnabled s n.val then fencePort s n.val
              else setPort s n.val { port s n.val with fenced := true }
     let v := setPort u n.val { port u n.val with txns := [], owed := [], egress := [], arb := freshArb, egDue := [] }
     let w := { v with obs := { v.obs with samples := v.obs.samples.filter (fun x => x.unit != n.val) } }
     let x := zeroCredits (setPort w n.val { port w n.val with resetLow := true }) n.val
     if reviving x n.val then finishCmd x stBadParam [] else x)) ∧
  (∀ (s : State) (n : PortId), Awake s → portEnabled s n.val = true → readyLink s = true → (port s n.val).resetLow = true →
    Completes (.agentResetRelease n) s (fun t =>
      (port t n.val).resetLow = false ∧ (port t n.val).fenced = (port s n.val).fenced ∧
      (port t n.val).inCred = initCredits (portHolds s n.val) ∧ (port t n.val).outCred = Vector.replicate 6 0 ∧
      (port t n.val).caching = getBit s (portBase n.val) 0 ∧ (port t n.val).xlat = getBit s (portBase n.val) 1 ∧
      (port t n.val).xlatSlice = BitVec.ofNat 3 (getFld s (portBase n.val) 4 3) ∧
      t.regs = s.regs ∧ t.chans = s.chans ∧ t.dram = s.dram)) ∧
  (∀ (s : State) (n : PortId), s.undef = false → (port s n.val).resetLow = true → running s = false ∨ portEnabled s n.val = false →
    exec (.agentResetRelease n) s = resume s (zeroCredits (setPort s n.val { port s n.val with resetLow := false }) n.val)) ∧
  (∀ (s : State) (n : PortId), s.undef = false → (port s n.val).resetLow = false → exec (.agentResetRelease n) s = .next s)

/-- O38, derived from parts of R76, R83, R91, R93, R99, R106, R108. A request flit that breaks no rule makes its TXN busy and
leaves for the spine with the priority that the port may carry; at a fenced port it is answered with `CompErr` by the
bridge, and sets FENCED_REQ each time, which is the model's choice (assumption 85); a flit with wrong parity is a violation
that fences the port. A flit at a port that is not live changes nothing, which is the model's choice (assumption 5). -/
def Obligations.RequestFlits : Prop :=
  (∀ (s : State) (n : PortId) (dl : Bool) (f : BitVec 128) (r : Req), s.undef = false → portLive s n.val = true →
    blotArmed s 1 n.val = false → parityOk f = true → vecGet (port s n.val).inCred (credIdx 0 dl) ≠ 0 →
    (port s n.val).fenced = false → reqKinds s n.val dl false false (reqOf f) = [] →
    r = { reqOf f with prio := clampPrio s n.val (reqOf f).prio } → realmKinds s n.val r = [] →
    (namesLine r = true → inWindow s r.addr.toNat = true) →
    Completes (.reqFlit n dl f) s (fun t =>
      (∃ x, x ∈ (port t n.val).txns ∧ x.txn = r.txn ∧ x.req = r ∧ x.dl = dl ∧ x.held = false ∧ x.ended = false ∧ x.since = s.tick) ∧
      (∃ g, t.spine.arrive = s.spine.arrive ++ [g] ∧ g.router = n.val ∧ g.input = 4 ∧ g.pkt.src = BitVec.ofNat 5 n.val ∧
        g.pkt.msg = .req r ∧ g.pkt.dl = dl ∧ g.crc = flitCrc g.pkt false) ∧
      KeepsMemory s t)) ∧
  (∀ (s : State) (n : PortId) (dl : Bool) (f : BitVec 128), s.undef = false → portLive s n.val = true →
    blotArmed s 1 n.val = false → parityOk f = true → vecGet (port s n.val).inCred (credIdx 0 dl) ≠ 0 →
    (port s n.val).fenced = true → Completes (.reqFlit n dl f) s (fun t =>
      getBit t (portBase n.val + 0x14) 11 = true ∧ t.spine = s.spine ∧
      (∃ e, (port t n.val).egress = (port s n.val).egress ++ [e] ∧
        e.msg = bridgeErr (if inSafe s then 6 else 8) (reqOf f).txn (clampPrio s n.val (reqOf f).prio)) ∧ KeepsMemory s t)) ∧
  (∀ (s : State) (n : PortId) (dl : Bool) (f : BitVec 128), s.undef = false → portLive s n.val = true →
    blotArmed s 1 n.val = false → parityOk f = false → (port s n.val).fenced = false →
    exec (.reqFlit n dl f) s = resume s (underCredit s n.val 0 dl (fun t late => fencePort
      (portViolate t n.val (reqKinds t n.val dl late true (reqOf f)) 0 (opOf (reqOf f)) (reqOf f).txn.toNat dl) n.val))) ∧
  (∀ (s : State) (n : PortId) (dl : Bool) (f : BitVec 128), s.undef = false → portLive s n.val = false →
    exec (.reqFlit n dl f) s = .next s)

/-- O39, derived from parts of R82, R85, R86, R89, R90. An inbound answer to a snoop that the agent has been shown leaves for the
slice that snooped; a `GrantAck` that is owed leaves and is owed no more; owed write data leaves for its home, and the
half is owed no more; a credit returned by the agent adds one to the credits of its channel and VC, and one beyond 63
is a violation that fences the port. -/
def Obligations.InboundFlitsAndCredits : Prop :=
  (∀ (s : State) (n : PortId) (dl : Bool) (f : BitVec 128) (k : SnpRec), s.undef = false → portLive s n.val = true →
    blotArmed s 1 n.val = false → parityOk f = true → vecGet (port s n.val).inCred (credIdx 1 dl) ≠ 0 →
    (port s n.val).fenced = false → (rspOf f).opcode = 1 → (rspOf f).state.toNat < 6 →
    snpRec s n.val (rspOf f).home (rspOf f).entry = some k → k.acked = false → k.snp.opcode ≠ 8 →
    Completes (.rspInboundFlit n dl f) s (fun t =>
      (∃ g, t.spine.arrive = s.spine.arrive ++ [g] ∧ dstRouter g.pkt = sliceRouter (rspOf f).home.toNat ∧ g.pkt.dstUnit = 1 ∧
        g.pkt.src = BitVec.ofNat 5 n.val ∧ g.pkt.mark = answerMark s n.val k.snp.addr ∧
        ∃ r, g.pkt.msg = .rsp r ∧ r.opcode = 1 ∧ r.entry = (rspOf f).entry ∧ r.state = (rspOf f).state ∧
          r.snpdata = (rspOf f).snpdata) ∧
      t.regs = s.regs ∧ KeepsMemory s t)) ∧
  (∀ (s : State) (n : PortId) (dl : Bool) (f : BitVec 128) (a : AckOwed), s.undef = false → portLive s n.val = true →
    blotArmed s 1 n.val = false → parityOk f = true → vecGet (port s n.val).inCred (credIdx 1 dl) ≠ 0 →
    (port s n.val).fenced = false → (rspOf f).opcode = 3 → (port s n.val).acks = [a] → a.home = (rspOf f).home →
    a.entry = (rspOf f).entry → Completes (.rspInboundFlit n dl f) s (fun t =>
      (port t n.val).acks = [] ∧
      (∃ g, g ∈ t.spine.arrive ∧ dstRouter g.pkt = sliceRouter a.home.toNat ∧ g.pkt.dstUnit = 1 ∧
        ∃ r, g.pkt.msg = .rsp r ∧ r.opcode = 3 ∧ r.entry = a.entry) ∧ KeepsMemory s t)) ∧
  (∀ (s : State) (n : PortId) (dl : Bool) (f : BitVec 352) (o : Owed), s.undef = false → portLive s n.val = true →
    blotArmed s 1 n.val = false → parityDatOk f = true → vecGet (port s n.val).inCred (credIdx 2 dl) ≠ 0 →
    (port s n.val).fenced = false → (datOf f).kind = 3 → (datOf f).snpwb = false →
    owedOf s n.val (datOf f).txn (datOf f).half = some o → o.drop = false → o.ap = false → beLegal s n.val (datOf f) = true →
    Completes (.datInboundFlit n dl f) s (fun t =>
      (∃ g, g ∈ t.spine.arrive ∧ dstRouter g.pkt = sliceRouter o.home.toNat ∧ g.pkt.dstUnit = 1 ∧ g.pkt.reqNo = o.reqNo ∧
        ∃ d, g.pkt.msg = .dat d ∧ d.data = (datOf f).data ∧ d.be = (datOf f).be ∧ d.half = (datOf f).half ∧
          d.poison = (datOf f).poison ∧ d.txn = (datOf f).txn) ∧
      ((port s n.val).owed = [o] → ∀ x ∈ (port t n.val).owed, x.miss &&& halfBit (datOf f).half = 0) ∧ KeepsMemory s t)) ∧
  (∀ (s : State) (n : PortId) (ch : Fin 3) (dl : Bool), s.undef = false → portLive s n.val = true →
    vecGet (port s n.val).outCred (credIdx ch.val dl) < 63 → Completes (.creditReturn n ch dl) s (fun t =>
      vecGet (port t n.val).outCred (credIdx ch.val dl) = vecGet (port s n.val).outCred (credIdx ch.val dl) + 1 ∧
      (∀ i, i ≠ credIdx ch.val dl → vecGet (port t n.val).outCred i = vecGet (port s n.val).outCred i) ∧
      (port t n.val).inCred = (port s n.val).inCred ∧ t.regs = s.regs ∧ t.spine = s.spine ∧ KeepsMemory s t)) ∧
  (∀ (s : State) (n : PortId) (ch : Fin 3) (dl : Bool), s.undef = false → portLive s n.val = true →
    63 ≤ vecGet (port s n.val).outCred (credIdx ch.val dl) → exec (.creditReturn n ch dl) s = resume s
      (let g := vecSet (port s n.val).granted (credIdx ch.val dl) (min 63 (vecGet (port s n.val).granted (credIdx ch.val dl) + 1))
       let u := setPort s n.val { port s n.val with granted := g }
       fencePort (portViolate u n.val [1] (3 + ch.val) 0 0 dl) n.val))

/-- O40, derived from parts of R93, R170, R317, R318, R466. Nothing leaves without an agent credit; a message whose TXN is not
busy is discarded; a snoop that leaves takes a credit and its answers are acceptable from then on. A free return arbiter grants
the line that the order of R318 puts first: a Deadline line, then the higher priority, then the line after the one granted last
in the model's numbering (assumption 22); while a line is being moved and no Deadline line waits, nothing changes. -/
def Obligations.EgressAndArbiters : Prop :=
  (∀ (s : State) (n : PortId) (ch : Fin 3) (dl : Bool), s.undef = false → (waitingOn s n.val ch.val dl).find? (notBusy s n.val) = none →
    vecGet (port s n.val).outCred (credIdx ch.val dl) = 0 → exec (.egressPresent n ch dl) s = .next s) ∧
  (∀ (s : State) (n : PortId) (ch : Fin 3) (dl : Bool) (e : EgMsg), s.undef = false → portLive s n.val = true →
    (waitingOn s n.val ch.val dl).find? (notBusy s n.val) = some e → Completes (.egressPresent n ch dl) s (fun t =>
      (port t n.val).egress = (port s n.val).egress.filter (fun x => x.id != e.id) ∧ (port t n.val).txns = (port s n.val).txns ∧
      (port t n.val).outCred = (port s n.val).outCred ∧ t.regs = s.regs ∧ t.spine = s.spine ∧ KeepsMemory s t)) ∧
  (∀ (s : State) (n : PortId) (dl : Bool) (e : EgMsg) (l : List EgMsg) (m : Snp), s.undef = false → portLive s n.val = true →
    waitingOn s n.val 0 dl = e :: l → e.msg = .snp m → vecGet (port s n.val).outCred (credIdx 0 dl) ≠ 0 →
    Completes (.egressPresent n 0 dl) s (fun t =>
      vecGet (port t n.val).outCred (credIdx 0 dl) = vecGet (port s n.val).outCred (credIdx 0 dl) - 1 ∧
      (port t n.val).egress = (port s n.val).egress.filter (fun x => x.id != e.id) ∧
      (∃ k, snpRec t n.val m.home m.entry = some k ∧ k.snp = m ∧ k.acked = false ∧ k.fw = (if m.fwd then 3 else 0)) ∧
      (port t n.val).lastOut[(0 : Fin 3)] = flitOf (.snp m) (e.flit != 0) ∧ t.regs = s.regs ∧ t.spine = s.spine ∧ KeepsMemory s t)) ∧
  (∀ (s : State) (n : PortId), s.undef = false → portLive s n.val = true → getBit s (dlBase n.val + 4) 8 = false →
    (port s n.val).arb.holder = none → Completes (.returnArbiterDecision (.port n)) s (fun t =>
      (port t n.val).arb.holder = arbPick (port s n.val).arb.last
        (((port s n.val).egress.filter (fun e => outChan e.msg == 2)).map (fun e => (e.id, e.dl, e.prio.toNat))) ∧
      KeepsMemory s t)) ∧
  (∀ (s : State) (n : PortId) (e : EgMsg), s.undef = false → portLive s n.val = true → e ∈ (port s n.val).egress →
    outChan e.msg = 2 → (port s n.val).arb.holder = some e.id → (∀ x ∈ (port s n.val).egress, x.dl = false) →
    exec (.returnArbiterDecision (.port n)) s = .next s) ∧
  (∀ (s : State) (c : ChanId), Awake s → pairJoined s (c.val / 4) = true → getBit s (mcBase c.val + 0x94) 8 = false →
    (chan s c.val).arb.holder = none → Completes (.returnArbiterDecision (.chan c)) s (fun t =>
      (chan t c.val).arb.holder = arbPick (chan s c.val).arb.last
        (((chan s c.val).rdq.filter (·.issued)).map (fun r => (r.id, r.dl, r.prio.toNat))) ∧
      (chan t c.val).rdq = (chan s c.val).rdq ∧ t.regs = s.regs ∧ t.slices = s.slices ∧ t.ports = s.ports)) ∧
  (∀ (last : Nat), arbPick last [] = none) ∧
  (∀ (last : Nat) (l : List (Nat × Bool × Nat)), l.Pairwise (fun a b => a.1 < b.1) → (∀ x ∈ l, x.2.2 < 4) → l ≠ [] →
    ∃ e, e ∈ l ∧ arbPick last l = some e.1 ∧ (∀ x ∈ l, x.2.1 = true → e.2.1 = true) ∧
      (∀ x ∈ l, x.2.1 = e.2.1 → x.2.2 ≤ e.2.2) ∧
      (∀ x ∈ l, x.2 = e.2 → (last < e.1 → last < x.1 → e.1 ≤ x.1) ∧ (¬ last < e.1 → x.1 ≤ last ∧ e.1 ≤ x.1)))

/-- O41, derived from parts of R102, R109, R110. A watchdog whose condition has held for the period bites: its bit is set, the
bite captured, one event reported, again after each further period and with what no one flit states left free, which is the
model's choice (assumption 23); with ACTION 1 the port is fenced. With ACTION 0 the bridge stands in: for write data it supplies
the halves, for a `GrantAck` it sends one, and an unused grant is returned. With EN 0 none of them does anything. -/
def Obligations.WatchdogBites : Prop :=
  (∀ (s : State) (n : PortId) (ch : Fin 3) (dl : Bool) (e : EgMsg) (l : List EgMsg), s.undef = false → wdogOn s n.val = true →
    portLive s n.val = true → waitingOn s n.val ch.val dl = e :: l → (port s n.val).egDue = [] →
    e.since + wdogTicks s n.val ≤ s.tick → exec (.wdogEgress n ch dl) s = resume s (wdogBite (setEgDue s n.val ch.val dl) n.val 12
      (portInfo 12 (3 + ch.val) (outOpcode e.msg) (msgTxn e.msg).toNat dl))) ∧
  (∀ (s : State) (n : PortId) (x : BitVec 8) (o : Owed), s.undef = false → wdogOn s n.val = true → portLive s n.val = true →
    (port s n.val).owed.find? (fun o => o.txn == x && decide (o.due ≤ s.tick)) = some o → wdogFences s n.val = false →
    exec (.wdogData n x) s = resume s
      (let u := wdogBite (biteInfo s 13 x o.dl).2 n.val 13 (biteInfo s 13 x o.dl).1
       supplyHalf o (supplyHalf o (setOwed u n.val o { o with miss := 0 }) n.val false) n.val true)) ∧
  (∀ (s : State) (n : PortId) (h : BitVec 3) (i : BitVec 8) (a : AckOwed), s.undef = false → wdogOn s n.val = true →
    portLive s n.val = true → (port s n.val).acks = [a] → a.home = h → a.entry = i → a.due ≤ s.tick →
    (port s n.val).txns = [] → wdogFences s n.val = true → exec (.wdogGrantack n h i) s = resume s
      (wdogBite (biteInfo s 14 a.txn a.dl).2 n.val 14 (biteInfo s 14 a.txn a.dl).1)) ∧
  (∀ (s : State) (n : PortId) (h : BitVec 3) (i : BitVec 8) (a : AckOwed), s.undef = false → wdogOn s n.val = true →
    portLive s n.val = true → (port s n.val).acks = [a] → a.home = h → a.entry = i → a.due ≤ s.tick →
    (∀ t ∈ (port s n.val).txns, t.comp ≠ some (h, i)) → wdogFences s n.val = false → exec (.wdogGrantack n h i) s = resume s
      (let u := wdogBite (biteInfo s 14 a.txn a.dl).2 n.val 14 (biteInfo s 14 a.txn a.dl).1
       toHome (ackSample (setPort u n.val { port u n.val with acks := dropFirst (fun x => x == a) (port u n.val).acks })
         n.val a false) n.val h a.dl a.prio 0 0 (ackMsg a))) ∧
  (∀ (s : State) (n : PortId) (x : BitVec 8) (t : Txn), s.undef = false → wdogOn s n.val = true → portLive s n.val = true →
    txnOf s n.val x = some t → t.grant.isSome = true → t.grantDue ≤ s.tick → wdogFences s n.val = false →
    exec (.wdogCredit n x) s = resume s (returnCredit (setTxn (wdogBite (biteInfo s 15 x t.dl).2 n.val 15 (biteInfo s 15 x t.dl).1)
      n.val { t with grant := none }) n.val x)) ∧
  (∀ (s : State) (n : PortId) (ch : Fin 3) (dl : Bool) (x i : BitVec 8) (h : BitVec 3), s.undef = false → wdogOn s n.val = false →
    exec (.wdogEgress n ch dl) s = .next s ∧ exec (.wdogData n x) s = .next s ∧ exec (.wdogGrantack n h i) s = .next s ∧
    exec (.wdogCredit n x) s = .next s) ∧
  (∀ (s : State) (n bit : Nat) (info : Word), wdogFences (report (raiseErr s (portBase n + 0x14) bit (portBase n + 0x18) info) 24 4) n = false →
    wdogBite s n bit info = report (raiseErr s (portBase n + 0x14) bit (portBase n + 0x18) info) 24 4) ∧
  (∀ (s u : State) (n bit : Nat) (info : Word), u = report (raiseErr s (portBase n + 0x14) bit (portBase n + 0x18) info) 24 4 →
    wdogFences u n = true → wdogBite s n bit info = fencePort u n ∧
    (n < 24 → (agentDead u n = true → (port u n).fenced = true) → (port (wdogBite s n bit info) n).fenced = true)) ∧
  (∀ (s : State) (n bit : Nat) (info : Word), n < 24 → bit < 32 →
    getBit (raiseErr s (portBase n + 0x14) bit (portBase n + 0x18) info) (portBase n + 0x14) bit = true)

/-- O42, derived from parts of R91, R99, R222, R223, R224, R228, R231, R232. A packet arrives at a router, a unit's packet once
its queue has room, at a bridge one of the Deadline VC first: with a lost header it is discarded and reported; with the bypass
and nothing before it there it goes straight on; otherwise it waits in the queue of its VC. A packet that wins an output leaves
the queue and goes over the link to the router beyond, when that has credits for the whole of it; at its destination it waits
for room in its unit (assumption 21), is delivered where the CRC of each flit holds, and a flit whose CRC fails is discarded and
reported. A hop of an input at which nothing arrives changes nothing, which is the model's choice (assumption 5). -/
def Obligations.RouterHops : Prop :=
  (∀ (s : State) (r : RouterId) (i : Fin 6) (f : Flight) (l : List Flight) (crc crc2 : BitVec 16), Awake s →
    s.spine.arrive = f :: l → f.router = r.val → f.input = i.val → blotArmed s 2 r.val = false → destOk f.pkt = true →
    (i.val < 4 ∨ queued s r.val i.val (msgChan f.pkt.msg) f.pkt.dl + flitsLeft f ≤ queueDepth (msgChan f.pkt.msg) f.pkt.dl) →
    (i.val = 4 → f.pkt.dl = true ∨ ∀ g ∈ l, g.router = r.val → g.input = 4 → g.pkt.dl = false) → flitsLeft f ≠ 0 →
    fencedTarget s r.val f.pkt = none → getBit s 0x300000 0 = false → Completes (.routerHop r i ⟨.clean, .clean⟩ ⟨crc, crc2⟩) s (fun t =>
      t.spine.arrive = l ∧ t.spine.queued = s.spine.queued ++ [{ f with
        crc := f.crc ^^^ crc, crc2 := if msgFlits f.pkt.msg == 2 then f.crc2 ^^^ crc2 else 0, cred := none, since := s.tick }] ∧
      t.regs = s.regs ∧ t.ports = (f.cred.elim s (returnCred s r.val)).ports ∧ KeepsMemory s t)) ∧
  (∀ (s : State) (r : RouterId) (i : Fin 6) (f : Flight) (l : List Flight) (crc crc2 : BitVec 16) (q : Nat × Nat), Awake s →
    s.spine.arrive = f :: l → f.router = r.val → f.input = i.val → blotArmed s 2 r.val = false → destOk f.pkt = true →
    (i.val = 4 → f.pkt.dl = true ∨ ∀ g ∈ l, g.router = r.val → g.input = 4 → g.pkt.dl = false) → flitsLeft f ≠ 0 →
    flitsLeft f ≤ queueDepth (msgChan f.pkt.msg) f.pkt.dl → fencedTarget s r.val f.pkt = none → getBit s 0x300000 0 = true →
    queued s r.val i.val (msgChan f.pkt.msg) f.pkt.dl = 0 → (∀ g ∈ s.spine.queued, g.router = r.val → g.out ≠ f.out) →
    neighbour r.val f.out = some q →
    flitsLeft f ≤ creditsFree { s with spine := { s.spine with arrive := l } } q.1 q.2 (msgChan f.pkt.msg) f.pkt.dl →
    getBit s (probeBase r.val) 0 = false → Completes (.routerHop r i ⟨.clean, .clean⟩ ⟨crc, crc2⟩) s (fun t =>
      t.spine.queued = s.spine.queued ∧ (∃ g, t.spine.arrive = l ++ [g] ∧ g.router = q.1 ∧ g.input = q.2 ∧
        g.crc = f.crc ^^^ crc ∧ g.pkt = { f.pkt with next := g.pkt.next } ∧ g.out = g.pkt.next.toNat ∧ g.gone = f.gone) ∧
      t.regs = s.regs ∧ KeepsMemory s t)) ∧
  (∀ (s : State) (r : RouterId) (i : Fin 6) (f : Flight) (l : List Flight) (h2 : CodeErr) (crc crc2 : BitVec 16) (syn : BitVec 9), Awake s →
    s.spine.arrive = f :: l → f.router = r.val → f.input = i.val → blotArmed s 2 r.val = false → msgFlits f.pkt.msg = 1 →
    (i.val < 4 ∨ queued s r.val i.val (msgChan f.pkt.msg) f.pkt.dl + flitsLeft f ≤ queueDepth (msgChan f.pkt.msg) f.pkt.dl) →
    (i.val = 4 → f.pkt.dl = true ∨ ∀ g ∈ l, g.router = r.val → g.input = 4 → g.pkt.dl = false) → f.gone = 0 →
    exec (.routerHop r i ⟨.multi syn, h2⟩ ⟨crc, crc2⟩) s = resume s
      (let u := { s with spine := { s.spine with arrive := l } }
       report (headerLost (f.cred.elim u (returnCred u r.val)) r.val i.val f.pkt syn.toNat) 24 7)) ∧
  (∀ (s : State) (r : RouterId) (i : Fin 6) (h : PerFlit CodeErr) (crc : PerFlit (BitVec 16)), s.undef = false →
    (∀ f ∈ s.spine.arrive, ¬ (f.router = r.val ∧ f.input = i.val)) → exec (.routerHop r i h crc) s = .next s) ∧
  (∀ (s : State) (r : RouterId) (o : Fin 6) (f : Flight) (q : Nat × Nat), Awake s → s.spine.queued = [f] → f.router = r.val →
    f.out = o.val → neighbour r.val o.val = some q → flitsLeft f ≤ creditsFree s q.1 q.2 (msgChan f.pkt.msg) f.pkt.dl →
    getBit s (probeBase r.val) 0 = false → Completes (.outputArbitration r o) s (fun t =>
      t.spine.queued = [] ∧ (∃ g, t.spine.arrive = s.spine.arrive ++ [g] ∧ g.router = q.1 ∧ g.input = q.2 ∧ g.crc = f.crc ∧
        g.crc2 = f.crc2 ∧ g.pkt = { f.pkt with next := g.pkt.next } ∧ g.out = g.pkt.next.toNat) ∧ t.regs = s.regs ∧ KeepsMemory s t)) ∧
  (∀ (s : State) (r : RouterId) (o : Fin 6) (f : Flight), Awake s → s.spine.queued = [f] → f.router = r.val →
    f.out = o.val → neighbour r.val o.val = none → crcFails f false = false → crcFails f true = false → f.pkt.dstUnit = 0 →
    f.gone = 0 → f.dead = false → unitHeld s f + flitsLeft f ≤ queueDepth (msgChan f.pkt.msg) f.pkt.dl →
    getBit s (probeBase r.val) 0 = false → getBit s 0x320018 0 = false → (port s r.val).fenced = false →
    staleFwd s r.val f.pkt.msg f.pkt.src = false → Completes (.outputArbitration r o) s (fun t =>
      t.spine.queued = [] ∧ t.spine.arrive = s.spine.arrive ∧
      (∃ e, (port t r.val).egress = (port s r.val).egress ++ [e] ∧ e.msg = f.pkt.msg ∧ e.dl = f.pkt.dl) ∧ t.regs = s.regs ∧
      KeepsMemory s t)) ∧
  (∀ (s : State) (r : RouterId) (o : Fin 6) (f : Flight), Awake s → s.spine.queued = [f] → f.router = r.val →
    f.out = o.val → neighbour r.val o.val = none → queueDepth (msgChan f.pkt.msg) f.pkt.dl < unitHeld s f + flitsLeft f →
    exec (.outputArbitration r o) s = .next s) ∧
  (∀ (s : State) (r : RouterId) (o : Fin 6) (f : Flight), Awake s → s.spine.queued = [f] → f.router = r.val →
    f.out = o.val → neighbour r.val o.val = none → crcFails f false = true → msgFlits f.pkt.msg = 1 → f.pkt.dstUnit = 0 →
    unitHeld s f + flitsLeft f ≤ queueDepth (msgChan f.pkt.msg) f.pkt.dl →
    getBit s (probeBase r.val) 0 = false → getBit s 0x320018 0 = false → exec (.outputArbitration r o) s
      = resume s (report (spineDetect (served (dequeue s f) f) 2 r.val f.input f.pkt f.pkt.src.toNat 0) 24 8))

/-- O43, derived from parts of R106, R166, R177, R179, R180, R306, R400. The ingress of a slice: a request homed here for which a
general entry is free, that no earlier one of its source names, takes an entry and waits its turn; without a free
entry it is answered with `Retry` and a record is kept; in M10 a request of the block's own requesters is answered
with `CompErr` `SAFE`. While take-up is stopped no grant leaves; a granted record leaves the list, an entry of its
pool is reserved for its source and TXN, and a `CreditGrant` with its class goes to the source; so for a record of
class 0. The entry has the lowest free number of its pool (assumption 12), the answer in M10 is the model's reading (assumption
27), and an empty inbox changes nothing (assumption 5). -/
def Obligations.IngressAndGrants : Prop :=
  (∀ (s : State) (n : SliceId) (i : InMsg) (r : Req) (l id : Nat) (h : Home), s.undef = false → inSafe s = false →
    (slice s n.val).inbox = [i] → i.pkt.msg = .req r → isLineReq r = true → r.crd = false → i.pkt.dl = false →
    (i.pkt.src.toNat < 24 → (port s i.pkt.src.toNat).fenced = false) → homeOf s r.addr.toNat = some h → h.slice = n.val → h.line = l →
    hasRecord s n.val i.pkt.src r.txn = false → (∀ e ∈ (slice s n.val).entries, e.src = i.pkt.src → e.line ≠ l) →
    freeEntryId s n.val .general = some id → holdOf s n.val l = none → activeEntry s n.val l = none → i.pkt.smp = false →
    Completes (.requestIngress n) s (fun t =>
      (slice t n.val).inbox = [] ∧ (∃ e, (slice t n.val).entries = (slice s n.val).entries ++ [e] ∧ e.id = id ∧ e.pool = .general ∧ e.stage = .waiting ∧
        e.src = i.pkt.src ∧ e.req = r ∧ e.line = l ∧ e.dl = false ∧ e.order = (slice s n.val).nextOrder) ∧
      t.regs = s.regs ∧ t.chans = s.chans ∧ t.dram = s.dram ∧ t.spine = s.spine ∧ t.ports = s.ports)) ∧
  (∀ (s : State) (n : SliceId) (i : InMsg) (r : Req) (h : Home), s.undef = false → inSafe s = false →
    (slice s n.val).inbox = [i] → i.pkt.msg = .req r → isLineReq r = true → r.crd = false → i.pkt.dl = false →
    (i.pkt.src.toNat < 24 → (port s i.pkt.src.toNat).fenced = false) → homeOf s r.addr.toNat = some h → h.slice = n.val →
    hasRecord s n.val i.pkt.src r.txn = false → (∀ e ∈ (slice s n.val).entries, e.src = i.pkt.src → e.line ≠ h.line) →
    freeEntryId s n.val .general = none →
    exec (.requestIngress n) s = resume s (sendRetry (setSlice s n.val { slice s n.val with inbox := [] }) n.val i.pkt.src false
      { r with crd := false } (some ⟨i.pkt.src, r.txn, false, r.prio, none, { r with crd := false }⟩))) ∧
  (∀ (s : State) (n : SliceId) (i : InMsg) (r : Req), s.undef = false → inSafe s = true → (slice s n.val).inbox = [i] →
    i.pkt.msg = .req r → isLineReq r = true → 24 ≤ i.pkt.src.toNat → Completes (.requestIngress n) s (fun t =>
      (slice t n.val).inbox = [] ∧ t.regs = s.regs ∧ t.dram = s.dram ∧ t.chans = s.chans ∧
      (∃ g, t.spine.arrive = s.spine.arrive ++ [g] ∧ g.pkt.msg = .rsp { homeRsp n.val 7 r.txn r.prio with err := 6 }))) ∧
  (∀ (s : State) (n : SliceId), s.undef = false → (slice s n.val).inbox = [] → exec (.requestIngress n) s = .next s) ∧
  (∀ (s : State) (n : SliceId), s.undef = false → takeUpStopped s = true → exec (.creditGrant n) s = .next s) ∧
  (∀ (s : State) (n : SliceId), s.undef = false → nextGrant s n.val = none → exec (.creditGrant n) s = .next s) ∧
  (∀ (s : State) (n : SliceId) (r : RetryRec) (id : Nat), s.undef = false → takeUpStopped s = false → nextGrant s n.val = some r →
    r.cls = false → freeEntryId s n.val .retry = some id → Completes (.creditGrant n) s (fun t =>
      (slice t n.val).retry = dropFirst (fun y => y == r) (slice s n.val).retry ∧ (slice t n.val).retryLast = r.src.toNat ∧
      (∃ e, (slice t n.val).entries = (slice s n.val).entries ++ [e] ∧ e.id = id ∧ e.pool = .retry ∧ e.stage = .reserved ∧
        e.src = r.src ∧ e.req = r.req) ∧
      (∃ g, t.spine.arrive = s.spine.arrive ++ [g] ∧ g.pkt.msg = .rsp { homeRsp n.val 6 r.txn r.prio with cls := false }) ∧
      t.dram = s.dram ∧ t.chans = s.chans))

/-- O44, derived from parts of R137, R165, R166, R199, R204, R305, R399, R408. Each of the eleven take-up commands, listed in
`takeUps` (`rdShared`, `rdUnique`, `rdOnce`, `upgrade`, `rdWalk`, `wrInvFull`, `wrInvPartial`, `atomic`, `wbKeep`, `wbDrop`,
`discard`), completes on every entry: a waiting entry with its opcode that can be taken, and that passes the region checks,
becomes active after its lookup, unless the reclamation of what it hits has no slot yet; one that the checks refuse ends with
their error, one for a slice that has left service or for an inactive channel with the error of that case; what frees a way or a
slot lets those that wait for it try again. A Deadline-VC request without a decision is decided, and becomes active if it is
admitted and can be taken up. An entry that waits for a way tries again; one that cannot be taken, or has another opcode, is
left alone (assumption 5). The moments of take-up and of the checks are the model's reading (assumption 25). -/
def Obligations.RequestsAreTakenUp : Prop :=
  ∀ (s : State) (n : SliceId) (i : BitVec 8) (err : SetErr) (k : (SliceId → TakeUp → Instr) × (Req → Bool)),
    k ∈ takeUps → s.undef = false →
    (∀ (e : Entry) (rg : Nat), findEntry s n.val i.toNat = some e → k.2 e.req = true → e.stage = .waiting →
      canTake s n.val e = true → bankYields s n.val e = false → regionCheck s e.src e.req = .pass rg →
      (slice s n.val).leaving = false → chanActive s (chanOfLine s n.val e.line).1 = true → exec (k.1 n ⟨i, err⟩) s = resume s (allocAgain
        (let u := reclaimHit (trackerCheck (filterLookup s n.val e.line err) n.val) n.val e.line
         match findEntry u n.val e.id with
         | none => u
         | some e => if canTake u n.val e && !deadHit u n.val e.line then becomeActive u n.val e else u) n.val)) ∧
    (∀ (e : Entry) (code : BitVec 4) (bit : Option Nat) (rg : Nat) (w : Bool), findEntry s n.val i.toNat = some e →
      k.2 e.req = true → e.stage = .waiting → canTake s n.val e = true → bankYields s n.val e = false →
      regionCheck s e.src e.req = .refuse code bit rg w →
      exec (k.1 n ⟨i, err⟩) s = resume s (allocAgain (refuseRegion s n.val e code bit rg w) n.val)) ∧
    (∀ (e : Entry) (rg : Nat), findEntry s n.val i.toNat = some e → k.2 e.req = true → e.stage = .waiting →
      canTake s n.val e = true → bankYields s n.val e = false → regionCheck s e.src e.req = .pass rg →
      (slice s n.val).leaving = true →
      exec (k.1 n ⟨i, err⟩) s = resume s (allocAgain (failEntry s n.val e (if isWalkReq e.req then 4 else 7) false) n.val)) ∧
    (∀ (e : Entry) (rg : Nat), findEntry s n.val i.toNat = some e → k.2 e.req = true → e.stage = .waiting →
      canTake s n.val e = true → bankYields s n.val e = false → regionCheck s e.src e.req = .pass rg →
      (slice s n.val).leaving = false → chanActive s (chanOfLine s n.val e.line).1 = false →
      exec (k.1 n ⟨i, err⟩) s = resume s (allocAgain (refuseInactive s n.val e) n.val)) ∧
    (∀ (e : Entry), findEntry s n.val i.toNat = some e → k.2 e.req = true → e.stage = .tentative →
      takeUpStopped s = false → lookupStopped s n.val e.line = false → exec (k.1 n ⟨i, err⟩) s = resume s (allocAgain
        (let r := decideAdmission s n.val e err
         match r.2.bind (findEntry r.1 n.val) with
         | some e => if canTake r.1 n.val e then takeUp r.1 n.val e true .clean else r.1
         | none => r.1) n.val)) ∧
    (∀ (e : Entry), findEntry s n.val i.toNat = some e → k.2 e.req = true → e.stage = .alloc →
      exec (k.1 n ⟨i, err⟩) s = resume s (advance s n.val i.toNat)) ∧
    (∀ (e : Entry), findEntry s n.val i.toNat = some e →
      (k.2 e.req = false ∨ (e.stage = .tentative ∧ (takeUpStopped s = true ∨ lookupStopped s n.val e.line = true)) ∨
        (e.stage ≠ .tentative ∧ e.stage ≠ .alloc ∧ (e.stage ≠ .waiting ∨ canTake s n.val e = false ∨ bankYields s n.val e = true))) →
      exec (k.1 n ⟨i, err⟩) s = .next s) ∧
    (findEntry s n.val i.toNat = none → exec (k.1 n ⟨i, err⟩) s = .next s)

/-- O45, derived from parts of R114, R115, R116, R117, R118. What each request asks of the holders of its line, and what it
leaves: a `RdShared` of a line that one agent owns is forwarded by the owner and shared; a `RdUnique` invalidates every holder
and its grant is exclusive; an `Upgrade` invalidates all others; a write of the full line, by its opcode or by its byte enables,
invalidates every holder; a `WbKeep` asks the owner alone for its data; a grant, an answer and a notice change the view as the
tables say. -/
def Obligations.SnoopPlans : Prop :=
  (∀ (v : FEntry), v.summary = .ow → readPlan 1 v = ⟨[(v.fwd.toNat, .shareS)], some (BitVec.ofNat 5 v.fwd.toNat), 1⟩) ∧
  (∀ (v : FEntry), v.summary = .i → readPlan 1 v = ⟨[], none, 0⟩ ∧ readPlan 3 v = ⟨[], none, 0⟩) ∧
  (∀ (v : FEntry), v.summary = .ow → (v.fwd.toNat, SnpForm.ownM) ∈ (readPlan 2 v).snoops ∧
    (∀ a, a < 24 → v.presence.getLsbD a = true → a ≠ v.fwd.toNat → (a, SnpForm.inv) ∈ (readPlan 2 v).snoops)) ∧
  (∀ (v : FEntry) (r a : Nat), a < 24 → ((a, SnpForm.inv) ∈ (upgradePlan v r).snoops ↔ v.presence.getLsbD a = true ∧ a ≠ r)) ∧
  (∀ (q : Req) (v : FEntry) (full : Bool) (a : Nat), opOf q = 0x10 ∨ (opOf q = 0x11 ∧ full = true) → a < 24 →
    ((a, SnpForm.inv) ∈ (otherPlan q v full).snoops ↔ v.presence.getLsbD a = true)) ∧
  (∀ (q : Req) (v : FEntry) (full : Bool), opOf q = 0x20 → (otherPlan q v full).snoops =
    (match ownerOf v with | some o => [(o, SnpForm.clean)] | none => [])) ∧
  (∀ (v : FEntry) (a : Nat), a < 24 → (viewGrant v a 3).presence = bit24 a ∧ (viewGrant v a 3).summary = .ex) ∧
  (∀ (v : FEntry) (a : Nat), a < 24 → (viewDrop v a).presence.getLsbD a = false ∧
    (∀ b, b ≠ a → b < 24 → (viewDrop v a).presence.getLsbD b = v.presence.getLsbD b)) ∧
  (∀ (v : FEntry) (a : Nat) (w : FEntry), noticeApply v a true = some w → ownerOf v = some a ∧ w = viewDrop v a)

/-- O46, derived from parts of R116, R172, R173, R185. A `SnpAck` for an entry that waits for its sender is taken into it; one
that no slot waits for is counted, logged and reported as late; in M10 it is discarded. Write data goes to the request it
belongs to, and data that no one expects is discarded. Each late half of a write-back counts as a late answer of its own, which
is the model's choice (assumption 87). -/
def Obligations.SnoopAnswersAndData : Prop :=
  (∀ (s : State) (n : SliceId) (i : InMsg) (r : Rsp) (e : Entry), s.undef = false → inSafe s = false → (slice s n.val).inbox = [i] →
    i.pkt.msg = .rsp r → r.opcode = 1 → r.entry.toNat < 192 → findEntry s n.val r.entry.toNat = some e →
    e.coll.out.getLsbD i.pkt.src.toNat = true → exec (.snpAck n) s = resume s
      (allocAgain (ackEntry (setSlice s n.val { slice s n.val with inbox := [] }) n.val e i.pkt.src.toNat r i.pkt.mark) n.val)) ∧
  (∀ (s : State) (n : SliceId) (i : InMsg) (r : Rsp), s.undef = false → inSafe s = false → (slice s n.val).inbox = [i] →
    i.pkt.msg = .rsp r → r.opcode = 1 → r.entry.toNat < 192 → findEntry s n.val r.entry.toNat = none →
    exec (.snpAck n) s = resume s
      (allocAgain (lateAnswer (setSlice s n.val { slice s n.val with inbox := [] }) n.val i.pkt.src.toNat r.entry.toNat) n.val)) ∧
  (∀ (s : State) (n : SliceId) (i : InMsg) (r : Rsp), s.undef = false → inSafe s = true → (slice s n.val).inbox = [i] →
    i.pkt.msg = .rsp r → r.opcode = 1 → Completes (.snpAck n) s (fun t =>
      t = setSlice s n.val { slice s n.val with inbox := [] })) ∧
  (∀ (s : State) (n : SliceId) (i : InMsg) (d : Dat), s.undef = false → inSafe s = false → (slice s n.val).inbox = [i] →
    i.pkt.msg = .dat d → d.kind = 3 → d.snpwb = false → ownHere s n.val i.pkt d = true → exec (.dataWb n) s = resume s
      (pumpSlice (giveOwn (setSlice s n.val { slice s n.val with inbox := [] }) n.val i.pkt d) n.val)) ∧
  (∀ (s : State) (n : SliceId) (i : InMsg) (d : Dat), s.undef = false → (slice s n.val).inbox = [i] → i.pkt.msg = .dat d →
    d.kind = 3 → d.snpwb = false → ownHere s n.val i.pkt d = false → ownHere s (pairSlice n.val) i.pkt d = false →
    headerComing s n.val i.pkt d = false → Completes (.dataWb n) s (fun t =>
      t = setSlice s n.val { slice s n.val with inbox := [] })) ∧
  (∀ (s : State) (n : Nat) (p : Packet) (d : Dat) (e : Entry), n < 8 → (slice s n).entries = [e] → e.stage ≠ .reserved →
    getBit s 0x320018 0 = false → ownData p d e.src e.req.txn e.series = true → ∃ f, (slice (giveOwn s n p d) n).entries = [f] ∧
      f.own = addHalf e.own ⟨p.src, d.half, d.data, d.be, d.poison⟩ ∧ f.id = e.id ∧ f.stage = e.stage)

/-- O47, derived from parts of R122, R128, R131, R132, R169, R171, R175. A notice for a line with an active entry joins it; one
for a line that no entry and no victim slot holds takes a lane, where one that is dirty waits for its data, unless its sender
has no such holding: then it is stale; so is one whose line no slice of this pair serves; one that the other slice of the pair
serves goes there. `GrantAck` of the entry that awaits it releases the entry, one that names no entry is discarded, which is the
model's choice (assumption 5); the end of a hold window lets the next waiting entry become active. -/
def Obligations.NoticesAndGrantAcks : Prop :=
  (∀ (s : State) (n : SliceId) (c : Instr) (op : Nat) (i : InMsg) (r : Req) (h : Home), (c = .wbDirty n ∧ op = 8) ∨ (c = .evClean n ∧ op = 9) →
    s.undef = false → inSafe s = false → (slice s n.val).inbox = [i] → i.pkt.msg = .req r → opOf r = op →
    (slice s n.val).lanes.length < 8 → homeOf s r.addr.toNat = some h → h.slice = n.val → exec c s = resume s
      (allocAgain (noticeHere (setSlice s n.val { slice s n.val with inbox := [] }) n.val
        (noticeOf (setSlice s n.val { slice s n.val with inbox := [] }) i.pkt r h.line)) n.val)) ∧
  (∀ (s : State) (n : SliceId) (c : Instr) (op : Nat) (i : InMsg) (r : Req), (c = .wbDirty n ∧ op = 8) ∨ (c = .evClean n ∧ op = 9) →
    s.undef = false → inSafe s = false → (slice s n.val).inbox = [i] → i.pkt.msg = .req r → opOf r = op →
    (homeOf s r.addr.toNat = none ∨ ∃ h, homeOf s r.addr.toNat = some h ∧ h.slice ≠ n.val ∧
      (i.redir = true ∨ h.slice / 2 ≠ n.val / 2 ∨ slicePwr s h.slice = false)) → exec c s = resume s
      (staleNotice (setSlice s n.val { slice s n.val with inbox := [] }) n.val
        (noticeOf (setSlice s n.val { slice s n.val with inbox := [] }) i.pkt r 0))) ∧
  (∀ (s : State) (n : SliceId) (c : Instr) (op : Nat) (i : InMsg) (r : Req) (h : Home), (c = .wbDirty n ∧ op = 8) ∨ (c = .evClean n ∧ op = 9) →
    s.undef = false → inSafe s = false → (slice s n.val).inbox = [i] → i.pkt.msg = .req r → opOf r = op →
    homeOf s r.addr.toNat = some h → h.slice ≠ n.val → i.redir = false → h.slice / 2 = n.val / 2 → slicePwr s h.slice = true →
    (slice s h.slice).lanes.length < 8 → exec c s = resume s
      (allocAgain (noticeHere (setSlice s n.val { slice s n.val with inbox := [] }) h.slice
        (noticeOf (setSlice s n.val { slice s n.val with inbox := [] }) i.pkt r h.line)) h.slice)) ∧
  (∀ (s : State) (n : Nat) (t : Notice) (e : Entry), activeEntry s n t.line = some e →
    noticeHere s n t = advance (setEntry (trackerCheck s n) n { e with notices := e.notices ++ [t] }) n e.id) ∧
  (∀ (s : State) (n : Nat) (t : Notice), activeEntry s n t.line = none → victimOf s n t.line = none →
    noticeHere s n t = match noticeApply (entryOf s n t.line) t.src.toNat t.dirty with
      | none => staleNotice s n t
      | some _ => laneStep (setSlice (endHold s n t.line) n
          { slice (endHold s n t.line) n with lanes := (slice (endHold s n t.line) n).lanes ++ [t] }) n) ∧
  (∀ (s : State) (n : Nat) (t : Notice) (v : FEntry), n < 8 → activeEntry s n t.line = none → victimOf s n t.line = none →
    noticeApply (entryOf s n t.line) t.src.toNat t.dirty = some v → t.dirty = true → t.halves = [] → t.applied = false →
    t.queued = false → (slice s n).lanes = [] →
    (slice (noticeHere s n t) n).lanes = [t] ∧ (slice (noticeHere s n t) n).filter = (slice s n).filter ∧
    holdOf (noticeHere s n t) n t.line = none ∧ (noticeHere s n t).regs = s.regs ∧ (noticeHere s n t).spine = s.spine) ∧
  (∀ (s : State) (n : SliceId) (i : InMsg) (r : Rsp) (e : Entry) (err : SetErr), s.undef = false → (slice s n.val).inbox = [i] →
    i.pkt.msg = .rsp r → r.opcode = 3 → findEntry s n.val r.entry.toNat = some e → e.stage = .granted → e.src = i.pkt.src →
    exec (.grantAck ⟨n, err⟩) s = resume s (grantAckAt (setSlice s n.val { slice s n.val with inbox := [] }) n.val e err)) ∧
  (∀ (s : State) (n : SliceId) (i : InMsg) (r : Rsp) (err : SetErr), s.undef = false → (slice s n.val).inbox = [i] →
    i.pkt.msg = .rsp r → r.opcode = 3 → findEntry s n.val r.entry.toNat = none → Completes (.grantAck ⟨n, err⟩) s (fun t =>
      t = setSlice s n.val { slice s n.val with inbox := [] })) ∧
  (∀ (s : State) (n : SliceId) (a : Addr) (h : Home) (w : Hold) (err : SetErr), s.undef = false → homeOf s a.toNat = some h →
    h.slice = n.val → holdOf s n.val h.line = some w → w.due ≤ s.tick → exec (.holdWindowExpire n ⟨a, err⟩) s
      = resume s (allocAgain (activateNext (endHold s n.val h.line) n.val h.line err) n.val)) ∧
  (∀ (s : State) (n l : Nat), holdOf (endHold s n l) n l = none)

/-- O48, derived from parts of R206, R207, R209, R210, R213, R214. A translation invalidate takes a slot and, with no port to ask,
completes at once; a synchronisation with nothing earlier outstanding completes and tells every slice in service; the
last answer of a broadcast frees its slot; the signal of a synchronisation closes the watches of its source; a watch
that expires is counted, captured once and logged. Which translation requests of a port have ended is known to the slice as the
model chooses (assumption 36). -/
def Obligations.TranslationAndWatches : Prop :=
  (∀ (s : State) (n : SliceId) (i : InMsg) (r : Req), s.undef = false → inSafe s = false → (slice s n.val).inbox = [i] →
    i.pkt.msg = .req r → opOf r = 0x28 → i.pkt.src.toNat < 24 → (port s i.pkt.src.toNat).fenced = false →
    (slice s n.val).xslots = [] → xlatSet s = [] → (port s i.pkt.src.toNat).xlatSlice.toNat = n.val →
    Completes (.xlatInv n) s (fun t =>
      (slice t n.val).inbox = [] ∧ (slice t n.val).xslots = [] ∧
      (∃ g, t.spine.arrive = s.spine.arrive ++ [g] ∧
        g.pkt.msg = .rsp { homeRsp n.val 2 r.txn r.prio with entry := 208 }) ∧ t.regs = s.regs ∧ t.dram = s.dram)) ∧
  (∀ (s : State) (n : SliceId) (i : InMsg) (r : Req), s.undef = false → inSafe s = false → (slice s n.val).inbox = [i] →
    i.pkt.msg = .req r → opOf r = 0x29 → i.pkt.src.toNat < 24 → (port s i.pkt.src.toNat).fenced = false →
    (slice s n.val).xslots = [] → exec (.xlatSync n) s = resume s
      (let u := setSlice s n.val { slice s n.val with inbox := [], xslots := [⟨0, true, i.pkt.src, r.txn, r.prio, i.pkt.series.toNat, s.tick, 0, 0, none, false⟩] }
       xlatSyncs (xlatEnded u n.val i.pkt.src i.pkt.series.toNat) n.val i.pkt.src)) ∧
  (∀ (s : State) (n : SliceId) (i : InMsg) (r : Rsp) (x : XSlot), s.undef = false → inSafe s = false → (slice s n.val).inbox = [i] →
    i.pkt.msg = .rsp r → r.opcode = 8 → (slice s n.val).xslots = [x] → 208 + x.slot = r.entry.toNat →
    x.await.getLsbD i.pkt.src.toNat = true → x.await &&& ~~~ (bit24 i.pkt.src.toNat) ≠ 0 → Completes (.xlatDone n) s (fun t =>
      (slice t n.val).xslots = [{ x with await := x.await &&& ~~~ (bit24 i.pkt.src.toNat) }] ∧ (slice t n.val).inbox = [] ∧
      t.spine = s.spine ∧ t.regs = s.regs ∧ t.ports = s.ports)) ∧
  (∀ (s : State) (n : SliceId) (i : InMsg) (r : Rsp) (x : XSlot), s.undef = false → inSafe s = false → (slice s n.val).inbox = [i] →
    i.pkt.msg = .rsp r → r.opcode = 8 → (slice s n.val).xslots = [x] → 208 + x.slot = r.entry.toNat →
    x.await.getLsbD i.pkt.src.toNat = true → x.await &&& ~~~ (bit24 i.pkt.src.toNat) = 0 →
    exec (.xlatDone n) s = resume s (xlatEnded (setSlice s n.val { slice s n.val with inbox := [], xslots := [] }) n.val x.src x.series) ∧
    Completes (.xlatDone n) s (fun t => (slice t n.val).xslots = [] ∧ (slice t n.val).inbox = [] ∧
      t.spine = s.spine ∧ t.regs = s.regs ∧ t.ports = s.ports)) ∧
  (∀ (s : State) (n : SliceId) (i : InMsg) (src : BitVec 5) (k : Nat), s.undef = false → (slice s n.val).inbox = [i] →
    i.pkt.msg = .syncDone src k → Completes (.xlatSyncSignal n) s (fun t =>
      t = setSlice s n.val (closeWatches src k { slice s n.val with inbox := [] }))) ∧
  (∀ (s : State) (n : SliceId) (k : Fin 8) (w : Watch), s.undef = false → (slice s n.val).watches = [w] → w.slot = k.val →
    w.due ≤ s.tick → Completes (.hazardWatchExpire n k) s (fun t =>
      (slice t n.val).watches = [] ∧
      getFld t (slcBase n.val + 0x410) 0 16 = min (getFld s (slcBase n.val + 0x410) 0 16 + 1) 0xFFFF ∧
      getBit t (slcBase n.val + 0x408) 31 = true ∧
      (getBit s (slcBase n.val + 0x408) 31 = true → getReg t (slcBase n.val + 0x408) = getReg s (slcBase n.val + 0x408)) ∧
      t.chans = s.chans ∧ t.dram = s.dram ∧ t.ports = s.ports))

/-- O49, derived from parts of R137, R154, R155, R182, R183, R184, R187. A snoop timer that has run out is armed anew and each
agent outstanding is handled as a timeout; one that runs on does nothing (assumption 5). The filter scrub reads the next set
when its interval has passed and no lookup waits at its bank: a clean one changes only its place and its next time, and an
uncorrectable entry stops the set and is reported. A reclamation scan with no dead agent does nothing; with one it goes to the
next set, unless the set it visits still waits for a reclamation slot. -/
def Obligations.SlicesSweep : Prop :=
  (∀ (s : State) (n : SliceId) (i : BitVec 8) (e : Entry) (d : Nat), s.undef = false → i.toNat < 192 → findEntry s n.val i.toNat = some e →
    e.coll.timer = some d → d ≤ s.tick → exec (.snoopTimeout n i) s = resume s (expire (setEntry s n.val { e with coll :=
      { e.coll with timer := some (s.tick + snpTimeout s n.val) } }) n.val i.toNat (outstanding e.coll))) ∧
  (∀ (s : State) (n : SliceId) (i : BitVec 8) (e : Entry) (d : Nat), s.undef = false → i.toNat < 192 → findEntry s n.val i.toNat = some e →
    e.coll.timer = some d → s.tick < d → exec (.snoopTimeout n i) s = .next s) ∧
  (∀ (s : State) (n : SliceId), Awake s → getBit s (slcBase n.val + 0x200) 4 = true → slicePwr s n.val = true →
    (slice s n.val).scrubDue ≤ s.tick → getBit s 0x320018 0 = false →
    lookupsWait s n.val ((slice s n.val).scrubSet % 4) = false → Completes (.filterScrub n .clean) s (fun t =>
      (slice t n.val).scrubSet = ((slice s n.val).scrubSet + 1) % 16384 ∧
      (slice t n.val).scrubDue = s.tick + max 1 (getFld s (slcBase n.val + 0x200) 8 16) * 1000 ∧
      (slice t n.val).filter = (slice s n.val).filter ∧ t.regs = s.regs ∧ t.chans = s.chans ∧ t.dram = s.dram)) ∧
  (∀ (s : State) (n : SliceId) (w : Fin 12) (y : BitVec 9), Awake s → getBit s (slcBase n.val + 0x200) 4 = true →
    slicePwr s n.val = true → (slice s n.val).scrubDue ≤ s.tick → getBit s 0x320018 0 = false →
    lookupsWait s n.val ((slice s n.val).scrubSet % 4) = false →
    exec (.filterScrub n (.entry w (.multi y))) s = resume s (report (stopSet (sfDetect (setSlice s n.val { slice s n.val with
      scrubSet := ((slice s n.val).scrubSet + 1) % 16384, scrubDue := s.tick + scrubTicks s n.val }) n.val 1
      (slice s n.val).scrubSet w.val y.toNat) n.val (slice s n.val).scrubSet) n.val 4)) ∧
  (∀ (s : State) (n : SliceId) (e : SetErr), s.undef = false → lookupsWait s n.val ((slice s n.val).scrubSet % 4) = true →
    exec (.filterScrub n e) s = .next s) ∧
  (∀ (s : State) (n : SliceId), s.undef = false → (slice s n.val).scan = [] → exec (.reclaimScan n) s = .next s) ∧
  (∀ (s : State) (n : SliceId), s.undef = false → (slice s n.val).scan ≠ [] → exec (.reclaimScan n) s = resume s (allocAgain
    (let u := (slice s n.val).scan.foldl (fun s e => deadLeftovers s n.val e.1.toNat) s
     let u := (slice u n.val).victims.foldl (fun s v => victimStep s n.val v) u
     let u := (slice u n.val).reclaims.foldl (fun s r => reclaimStep s n.val r) u
     let u := scanSet u n.val (slice s n.val).scanPos
     if scanWaits u n.val (slice s n.val).scanPos then u
     else
       let u := scanCount u n.val
       setSlice u n.val { slice u n.val with scanPos := ((slice s n.val).scanPos + 1) % scanLength }) n.val))

/-- O50, derived from parts of R254, R257, R258, R259. The timers of a live channel, each with what it changes and with every
other part of the state as it was but the count of a command in a reserved slot: an interval adds one owed refresh, a row that
nothing asks for closes when its idle time is over, a latch or an oscillator read falls due, and a rank's answer sets the
channel's refresh rate to the highest of its ranks. Before its time each changes nothing. -/
def Obligations.ChannelTimers : Prop :=
  (∀ (s : State) (c : ChanId) (r : Fin 2), s.undef = false → chanLive s c.val = true → r.val < (ranksOf s c.val).length →
    (refreshAt (chan s c.val) r.val).nextDue ≤ nowPs s → Completes (.refreshInterval c r) s (fun t =>
      t = setRefresh s c.val r.val { refreshAt (chan s c.val) r.val with
        owed := (refreshAt (chan s c.val) r.val).owed + 1,
        nextDue := (refreshAt (chan s c.val) r.val).nextDue + refInterval s c.val })) ∧
  (∀ (s : State) (c : ChanId) (r : Fin 2), s.undef = false → nowPs s < (refreshAt (chan s c.val) r.val).nextDue →
    exec (.refreshInterval c r) s = .next s) ∧
  (∀ (s : State) (c : ChanId) (r : Fin 2) (b : Fin 16), s.undef = false → chanLive s c.val = true →
    (bankAt (chan s c.val) r.val b.val).row.isSome = true → (bankAt (chan s c.val) r.val b.val).idleDue ≤ nowPs s →
    (bankAt (chan s c.val) r.val b.val).preAt ≤ nowPs s → rowTargeted s c.val r.val b.val = false →
    Completes (.rowIdleTimeout c r b) s (fun t =>
      t = setBank (countReserved s c.val) c.val r.val b.val { bankAt (chan s c.val) r.val b.val with
        row := none, ready := nowPs s + timPs s c.val 0 24 8, hits := 0, close := false })) ∧
  (∀ (s : State) (c : ChanId) (r : Fin 2) (b : Fin 16), s.undef = false →
    ((bankAt (chan s c.val) r.val b.val).row = none ∨ nowPs s < (bankAt (chan s c.val) r.val b.val).idleDue) →
    exec (.rowIdleTimeout c r b) s = .next s) ∧
  (∀ (s : State) (c : ChanId) (r : Fin 2), s.undef = false → chanLive s c.val = true → r.val < (ranksOf s c.val).length →
    (refreshAt (chan s c.val) r.val).zqDue ≤ s.tick → Completes (.zqLatch c r) s (fun t =>
      t = setRefresh s c.val r.val { refreshAt (chan s c.val) r.val with zqPend := true, zqDue := s.tick + 32000000 })) ∧
  (∀ (s : State) (c : ChanId) (r : Fin 2) (n : BitVec 16), s.undef = false → chanLive s c.val = true →
    r.val < (ranksOf s c.val).length → (refreshAt (chan s c.val) r.val).oscDue ≤ s.tick →
    Completes (.dqsOscillatorRead c r n) s (fun t =>
      t = setRefresh s c.val r.val { refreshAt (chan s c.val) r.val with oscPend := true, oscNew := n, oscDue := s.tick + 4000000 })) ∧
  (∀ (s : State) (c : ChanId) (r q : Fin 2) (m : BitVec 2), s.undef = false → chanLive s c.val = true → twoRanks s c.val = true →
    q ≠ r → m ≠ 3 → (refreshAt (chan s c.val) r.val).mr4Due ≤ s.tick → Completes (.mr4Read c r m false) s (fun t =>
      getFld t (mcBase c.val + 0x48) 5 2 = max m.toNat (refreshAt (chan s c.val) q.val).multAt.toNat ∧
      (refreshAt (chan t c.val) r.val).multAt = m ∧ refreshAt (chan t c.val) q.val = refreshAt (chan s c.val) q.val ∧
      RegsBut (mcBase c.val + 0x48) s t ∧ t = { s with regs := t.regs, chans := t.chans } ∧
      (∀ d, d ≠ c.val → chan t d = chan s d))) ∧
  (∀ (s : State) (c : ChanId) (r : Fin 2) (m : BitVec 2), s.undef = false → chanLive s c.val = true →
    r.val < (ranksOf s c.val).length → (refreshAt (chan s c.val) r.val).mr4Due ≤ s.tick →
    ∃ u, exec (.mr4Read c r 2 false) s = .next u ∧ exec (.mr4Read c r m true) s = resume s (report u (8 + c.val) 6))

/-- O51, derived from parts of R12, R267, R278, R282. A read that DRAM has returned leaves the channel's read queue, is decoded
with its check line and delivered, and what waited goes on; with none issued nothing changes. A scrub interval queues
the four check lines and the 28 data lines of the next row unit and moves the pointer; a unit left over from the
interval before becomes urgent. -/
def Obligations.ReadsAndScrub : Prop :=
  (∀ (s : State) (c : ChanId) (x y : LineData) (b : Option (Fin 10)), s.undef = false →
    (∀ r ∈ (chan s c.val).rdq, r.issued = false) → exec (.lineReadComplete c x y b) s = .next s) ∧
  (∀ (s : State) (c : ChanId) (x y : LineData) (b : Option (Fin 10)) (r : RdReq), Awake s → (chan s c.val).rdq = [r] →
    r.issued = true → chanArbited s c.val = false → (∀ k, r.use ≠ .check k) → (chan s c.val).arb.holder = none →
    exec (.lineReadComplete c x y b) s = resume s (pumpChan (serveReads
      (sealOwed (decodeRead (setChan s c.val { chan s c.val with rdq := [] }) c.val r x y b)) c.val) c.val)) ∧
  (∀ (s : State) (c : ChanId) (x y : LineData) (b : Option (Fin 10)) (r : RdReq) (k : Nat), Awake s → (chan s c.val).rdq = [r] →
    r.issued = true → chanArbited s c.val = false → r.use = .check k → (chan s c.val).arb.holder = none →
    exec (.lineReadComplete c x y b) s = resume s (pumpChan (serveReads
      (sealOwed (scrubCheck (setChan s c.val { chan s c.val with rdq := [] }) c.val (r.m / 28) k y)) c.val) c.val)) ∧
  (∀ (s : State) (c : ChanId), s.undef = false → scrubOn s c.val = false → exec (.scrubInterval c) s = .next s) ∧
  (∀ (s : State) (c : ChanId), s.undef = false → chanLive s c.val = true → scrubOn s c.val = true →
    (chan s c.val).scrubDue ≤ s.tick → (∀ r ∈ (chan s c.val).rdq, isScrubRead r.use = false) → Completes (.scrubInterval c) s (fun t =>
      (∃ l, (chan t c.val).rdq = (chan s c.val).rdq ++ l ∧ l.map (fun r => (r.m, r.use)) =
        (List.range 4).map (fun k => (28 * getFld s (mcBase c.val + 0x6C) 0 23 + 7 * k, ReadFor.check k)) ++
        (List.range 28).map (fun i => (28 * getFld s (mcBase c.val + 0x6C) 0 23 + i, ReadFor.scrub))) ∧
      (chan t c.val).scrubDue = s.tick + max 1 (getFld s (mcBase c.val + 0x68) 0 16) * 1000 ∧
      getFld t (mcBase c.val + 0x6C) 0 23 = (if getFld s (mcBase c.val + 0x6C) 0 23 + 1 < rowUnits s c.val
        then (getFld s (mcBase c.val + 0x6C) 0 23 + 1) % 2 ^ 23 else 0) ∧
      RegsBut (mcBase c.val + 0x6C) s t ∧ t = { s with regs := t.regs, chans := t.chans } ∧ (∀ d, d ≠ c.val → chan t d = chan s d))) ∧
  (∀ (s : State) (c : ChanId) (r : RdReq), s.undef = false → chanLive s c.val = true → scrubOn s c.val = true →
    (chan s c.val).scrubDue ≤ s.tick → r ∈ (chan s c.val).rdq → isScrubRead r.use = true → Completes (.scrubInterval c) s (fun t =>
      (chan t c.val).scrubUrgent = true ∧ (chan t c.val).rdq = (chan s c.val).rdq ∧ t = { s with chans := t.chans }))

/-- O52, derived from parts of R252, R253, R256, R257, R261, R309, R394 and Table 10.3. The scheduler of a channel: the command
that issues is the first of those that may, in the order of Table 10.3: neighbour actions, then refreshes at their limit, then
requests: Deadline commands that rank 2 puts ahead, and Deadline writes in an open reserved slot, before the rest; between
requests of one class the higher urgency; then the kind that the batch drains, turned round at urgency 3; then a row hit, or past
HIT_LIMIT the miss that waits; the close of a scrubbed row behind them, then background initialisation; between equals the one
that arrived first, where the model leaves further equals as they stand (assumption 24). In M10 an engine whose channel has no
write left writes its caches back first. A channel that takes no commands changes nothing. -/
def Obligations.SchedulerOrder : Prop :=
  (∀ (l : List Cand), bestCand l = none ↔ l = []) ∧
  (∀ (l : List Cand) (b : Cand), bestCand l = some b → b ∈ l ∧
    ∀ x ∈ l, b.key < x.key ∨ (b.key = x.key ∧ b.arrival ≤ x.arrival)) ∧
  (∀ (s : State) (c : Nat) (x : Cand), x ∈ candNeighbour s c → x.key = 0) ∧
  (∀ (s : State) (c r : Nat) (x : Cand), x ∈ candRefresh s c r 1 → x.key = 64) ∧
  (∀ (s : State) (c : Nat) (w : Want) (x : Cand), x ∈ candWant s c w → 128 ≤ x.key ∧ x.key < 384) ∧
  (∀ (s : State) (c : Nat) (v w : Want) (x y : Cand), x ∈ candWant s c v → y ∈ candWant s c w → v.dl = true → w.dl = false →
    (v.first = false ∨ (inReserved s c = true ∧ (chan s c).slotOpen = true ∧ (v.isWrite = true ∨
      ∃ q, oldestRead (dlPending s c) = some q ∧ v.who = .read q.id))) → x.key < y.key) ∧
  (∀ (s : State) (c : Nat) (v w : Want) (x y : Cand), x ∈ candWant s c v → y ∈ candWant s c w → wantClass s c v = wantClass s c w →
    v.forced = false → w.forced = false →
    (min 3 w.urgency < min 3 v.urgency → x.key < y.key) ∧
    (min 3 w.urgency = min 3 v.urgency → v.scrub = false → w.scrub = false →
      (v.isWrite ≠ w.isWrite → v.isWrite = ((chan s c).drain != decide (3 ≤ v.urgency)) → x.key < y.key) ∧
      (v.isWrite = w.isWrite → rowFirst s c v = true → rowFirst s c w = false → x.key < y.key))) ∧
  (∀ (s : State) (c : Nat) (w : Want), (bankAt (chan s c) w.p.rank w.p.bank).hits < max 1 (getFld s (mcBase c + 0x40) 16 5) →
    rowFirst s c w = ((bankAt (chan s c) w.p.rank w.p.bank).row == some w.p.row)) ∧
  (∀ (s : State) (c : Nat) (w : Want), max 1 (getFld s (mcBase c + 0x40) 16 5) ≤ (bankAt (chan s c) w.p.rank w.p.bank).hits →
    missWaits s c (bankAt (chan s c) w.p.rank w.p.bank) w.p.rank w.p.bank = true →
    rowFirst s c w = ((bankAt (chan s c) w.p.rank w.p.bank).row != some w.p.row)) ∧
  (∀ (s : State) (c : Nat) (w : Want) (x : Cand), x ∈ candWant s c w → w.forced = false → x.arrival = w.arrival) ∧
  (∀ (s : State) (c : Nat) (x : Cand), x ∈ candScrubEnd s c → x.key = 335) ∧
  (∀ (s : State) (c : Nat) (x : Cand), x ∈ candInit s c → x.key = 384) ∧
  (∀ (s : State) (c : ChanId), s.undef = false → chanLive s c.val = false → exec (.schedulerDecision c) s = .next s) ∧
  (∀ (s : State) (c : ChanId) (k : Cand), s.undef = false → chanLive s c.val = true → (chan s c.val).rdq = [] →
    (chan s c.val).wrq = [] → (chan s c.val).drain = false → inSafe s = false → bestCand (schedCands s c.val) = some k →
    exec (.schedulerDecision c) s = resume s (issue s c.val k)) ∧
  (∀ (s : State) (c : ChanId), s.undef = false → chanLive s c.val = true → (chan s c.val).rdq = [] →
    (chan s c.val).wrq = [] → (chan s c.val).drain = false → inSafe s = true → exec (.schedulerDecision c) s = resume s
      (let u := flushCaches s (engineOf s c.val)
       match bestCand (schedCands u c.val) with
       | some k => issue u c.val k
       | none => u)) ∧
  (∀ (s : State) (c : ChanId), s.undef = false → chanLive s c.val = true → (chan s c.val).rdq = [] →
    (chan s c.val).wrq = [] → (chan s c.val).drain = false → inSafe s = false → schedCands s c.val = [] → exec (.schedulerDecision c) s = .next s)

/-- O53, derived from parts of R60, R62, R303, R308, R309, R313. An epoch boundary with no swap due raises every bucket of every
powered slice to the lesser of its DEPTH and TOKENS + RATE, and sets the next boundary, and nothing else changes; each boundary
expires once, and none before its time (assumption 66) or while the timebase stands. At the start of a slot the channel notes
whether the slot is reserved, once. -/
def Obligations.EpochsAndSlots : Prop :=
  (∀ (s : State), s.undef = false → s.tick < s.seq.epochDue ∨ s.pins.tbRun = false → exec .epochBoundary s = .next s) ∧
  (∀ (s : State), Ticking s → s.seq.epochDue ≤ s.tick → (∀ d, s.seq.swapDue = some d → s.seq.epochDue < d) →
    Completes .epochBoundary s (fun t =>
    t = { s with regs := t.regs, seq := { s.seq with epochDue := s.seq.epochDue + 1000 } } ∧
    (∀ (k : Nat) (i : BitVec 5), k < 8 → i.toNat < 24 → getFld t (budgetReg k i) 16 8 =
      if slicePwr s k then min (getFld s (budgetReg k i) 8 8) (getFld s (budgetReg k i) 16 8 + getFld s (budgetReg k i) 0 8)
      else getFld s (budgetReg k i) 16 8) ∧
    (∀ a, (∀ (k : Nat) (i : BitVec 5), k < 8 → i.toNat < 24 → a ≠ budgetReg k i) → getReg t a = getReg s a))) ∧
  (∀ (s : State) (d : Nat), Ticking s → s.seq.epochDue ≤ s.tick → s.seq.swapDue = some d → d ≤ s.seq.epochDue →
    exec .epochBoundary s = resume s (refillBuckets (swapTables
      { s with seq := { s.seq with epochDue := s.seq.epochDue + 1000 } }))) ∧
  (∀ (s : State) (c : ChanId), s.undef = false → chanLive s c.val = true → (chan s c.val).slotDue ≤ s.tick →
    Completes (.commandSlot c) s (fun t => t = setChan s c.val { chan s c.val with
      slotOpen := inReserved s c.val, slotDue := s.tick / 8 * 8 + 8 })) ∧
  (∀ (s : State) (c : ChanId), s.undef = false → s.tick < (chan s c.val).slotDue → exec (.commandSlot c) s = .next s)

/-- O54, derived from parts of R215, R216, R217, R421, R422. Aperture accesses of a port that is not fenced. A read of 32 bits
that privilege allows sends one data flit and `Comp`; a read that names no counter ends with `CompErr` `UNMAPPED`, one without
privilege with `REALM_DENY`. A 64-bit write to the sillage window is accepted into the staging buffer of its port and answered
`Comp`, but one that would complete a packet without room waits; every other write ends with its error and changes no staging
buffer. With nothing that is due in series, nothing changes. What a read of a counter without power and the order of a port's
accesses get is the model's (assumption 57). -/
def Obligations.ApertureAccesses : Prop :=
  (∀ (s : State) (n : PortId), s.undef = false → apRequest s n.val = none →
    exec (.apRead n) s = .next s ∧ exec (.apWrite n) s = .next s) ∧
  (∀ (s : State) (n : PortId) (p : Packet) (r : Req), Awake s → apRequest s n.val = some (p, r) → r.opcode = 0x30 →
    (port s n.val).fenced = false → apReadError s r = 0 → Completes (.apRead n) s (fun t =>
      t.spine.queued = s.spine.queued ∧
      (∃ f g, t.spine.arrive = s.spine.arrive ++ [f, g] ∧ g.pkt.msg = apRsp r 0 ∧ dstRouter f.pkt = n.val ∧ dstRouter g.pkt = n.val ∧
        ∃ d, f.pkt.msg = .dat d ∧ d.kind = 2 ∧ d.txn = r.txn ∧ d.half = r.addr.getLsbD 5) ∧
      apTurn t n.val = (apTurn s n.val + 1) % 65536 ∧ KeepsMemory s t ∧ t.ports = s.ports)) ∧
  (∀ (s : State) (n : PortId) (p : Packet) (r : Req), Awake s → apRequest s n.val = some (p, r) → r.opcode = 0x30 →
    (port s n.val).fenced = false → apReadError s r ≠ 0 → Completes (.apRead n) s (fun t =>
      (∃ f, t.spine.arrive = s.spine.arrive ++ [f] ∧ f.pkt.msg = apRsp r (apReadError s r) ∧ dstRouter f.pkt = n.val) ∧
      apTurn t n.val = (apTurn s n.val + 1) % 65536 ∧ t.regs = s.regs ∧ KeepsMemory s t ∧ t.ports = s.ports)) ∧
  (∀ (s : State) (r : Req), apCounter r = none → apReadError s r = 7) ∧
  (∀ (s : State) (r : Req) (k i : Nat), apCounter r = some (k, i, false) → pmuPowered s k = true →
    apReadError s r = if apReadAllowed s r then 0 else 3) ∧
  (∀ (s : State) (n : PortId) (p : Packet) (r : Req) (d : Dat), Awake s → apRequest s n.val = some (p, r) →
    apOperand s p = some d → r.opcode = 0x31 → (port s n.val).fenced = false → apWriteError r d ≠ 0 →
    Completes (.apWrite n) s (fun t =>
      (∃ f, t.spine.arrive = s.spine.arrive ++ [f] ∧ f.pkt.msg = apRsp r (apWriteError r d) ∧ dstRouter f.pkt = n.val) ∧
      t.obs.stagers = s.obs.stagers ∧ t.obs.storage = s.obs.storage ∧ t.regs = s.regs ∧ KeepsMemory s t)) ∧
  (∀ (s : State) (n : PortId) (p : Packet) (r : Req) (d : Dat), Awake s → apRequest s n.val = some (p, r) →
    apOperand s p = some d → r.opcode = 0x31 → (port s n.val).fenced = false → apWriteError r d = 0 →
    (trcOn s = false ∨ stageFull s n.val (apWord r d) = false) → exec (.apWrite n) s = resume s
      (apSend (stagePush (apServed s n.val p) n.val (apWord r d)) n.val p (apRsp r 0))) ∧
  (∀ (s : State) (n : PortId) (p : Packet) (r : Req) (d : Dat), Awake s → apRequest s n.val = some (p, r) →
    apOperand s p = some d → r.opcode = 0x31 → (port s n.val).fenced = false → apWriteError r d = 0 → trcOn s = true →
    stageFull s n.val (apWord r d) = true → Completes (.apWrite n) s (fun t =>
      n.val ∈ t.obs.apWait ∧ t = { s with obs := { s.obs with apWait := t.obs.apWait } } ∧
      (∀ k, k ≠ n.val → (k ∈ t.obs.apWait ↔ k ∈ s.obs.apWait))))

/-- O55, derived from parts of R423, R424, R431, R433, R439. The dump writer: a tick of its comparator takes a snapshot of 25
lines with a new number or, while the one before is not written, counts a skipped one; its next line or item leaves as a
`WrInvFull` with both halves of its data in one packet, at most four in flight; a line that no slice homes is answered without
leaving; `Comp` ends a write, and an error of a snapshot write stops the snapshots; the idle timer pads the open item to eight
words. The order of lines and items, and a stopped writer, are the model's (assumption 56); what is not due changes nothing
(assumption 5). -/
def Obligations.DumpWriter : Prop :=
  (∀ (s : State), Ticking s → getBit s 0x332010 0 = true → comparatorTurn s 3 = true → s.obs.dumpDue ≤ s.tick →
    dumpMode s = true → snapPending s = false → Completes .dumpTick s (fun t =>
      t.obs.dumpQ.length = 25 ∧ t.obs.dumpNo = (s.obs.dumpNo + 1) % 2 ^ 32 ∧ t.obs.dumpDue = s.obs.dumpDue + dumpPeriod s ∧
      RegsBut 0x33201C s t ∧ t.spine = s.spine ∧ KeepsMemory s t)) ∧
  (∀ (s : State), Ticking s → getBit s 0x332010 0 = true → comparatorTurn s 3 = true → s.obs.dumpDue ≤ s.tick →
    snapPending s = true → Completes .dumpTick s (fun t =>
      getFld t 0x33201C 16 8 = min (getFld s 0x33201C 16 8 + 1) 255 ∧ t.obs = { s.obs with dumpDue := s.obs.dumpDue + dumpPeriod s } ∧
      RegsBut 0x33201C s t ∧ OnlyRegsObs s t)) ∧
  (∀ (s : State), s.undef = false → (getBit s 0x332010 0 = false ∨ s.tick < s.obs.dumpDue) → exec .dumpTick s = .next s) ∧
  (∀ (s : State), s.undef = false → s.obs.dumpTxns.length = 4 → (∀ t ∈ s.obs.dumpTxns, t.grant = false) →
    (∀ k, k < 4 → ∃ t ∈ s.obs.dumpTxns, t.txn.toNat = k) → exec .dumpWriterIssue s = .next s) ∧
  (∀ (s : State) (a : Addr) (d : LineData) (l : List (Addr × LineData)) (h : Home), Awake s → dumpMode s = true →
    s.obs.dumpTxns = [] → itemFirst s = false → s.obs.dumpStop = false → s.obs.dumpQ = (a, d) :: l →
    homeOf s a.toNat = some h → Completes .dumpWriterIssue s (fun t =>
      t.obs.dumpQ = l ∧ (∃ x, t.obs.dumpTxns = [x] ∧ x.data = d ∧ x.req.addr = a ∧ x.req.opcode = 0x10 ∧ x.ring = false ∧
        ∃ f g, t.spine.arrive = s.spine.arrive ++ [f, g] ∧ f.pkt.src = 26 ∧ g.pkt.src = 26 ∧ f.pkt.msg = .req x.req ∧
          g.pkt.msg = .datPair (dumpHalf x h.slice false) (dumpHalf x h.slice true) ∧
          dstRouter f.pkt = sliceRouter h.slice ∧ dstRouter g.pkt = sliceRouter h.slice) ∧
      t.regs = s.regs ∧ KeepsMemory s t)) ∧
  (∀ (s : State) (a : Addr) (d : LineData) (l : List (Addr × LineData)), Awake s → dumpMode s = true → s.obs.dumpTxns = [] →
    itemFirst s = false → s.obs.dumpStop = false → s.obs.dumpQ = (a, d) :: l → homeOf s a.toNat = none →
    Completes .dumpWriterIssue s (fun t =>
      t.obs.dumpQ = l ∧ t.spine = s.spine ∧ (∃ i x, t.obs.dumpInbox = s.obs.dumpInbox ++ [i] ∧ t.obs.dumpTxns = [x] ∧
        i.pkt.msg = bridgeErr 7 x.txn x.req.prio) ∧ t.regs = s.regs ∧ KeepsMemory s t)) ∧
  (∀ (s : State) (i : List (BitVec 64)) (l : List (List (BitVec 64))) (h : Home), Awake s → dumpMode s = true →
    s.obs.dumpTxns = [] → itemFirst s = true → s.obs.storage = i :: l → s.obs.apWait = [] →
    homeOf s (BitVec.ofNat 48 (ringNext s)).toNat = some h → Completes .dumpWriterIssue s (fun t =>
      t.obs.storage = l ∧ t.obs.dumpRun = 0 ∧ (∃ x, t.obs.dumpTxns = [x] ∧ x.data = itemLine i ∧ x.ring = true ∧
        x.req.addr = BitVec.ofNat 48 (ringNext s) ∧ x.req.opcode = 0x10 ∧
        ∃ f g, t.spine.arrive = s.spine.arrive ++ [f, g] ∧ f.pkt.msg = .req x.req ∧
          g.pkt.msg = .datPair (dumpHalf x h.slice false) (dumpHalf x h.slice true)) ∧ t.regs = s.regs ∧ KeepsMemory s t)) ∧
  (∀ (s : State) (i : InMsg) (r : Rsp) (x : DumpTxn), Awake s → s.obs.dumpInbox = [i] → i.pkt.msg = .rsp r → s.obs.dumpTxns = [x] →
    x.txn = r.txn → x.ring = false → x.gone = false → r.opcode = 7 → Completes .dumpWriterResponse s (fun t =>
      t.obs.dumpStop = true ∧ t.obs.dumpTxns = [] ∧ t.obs.dumpInbox = [] ∧ getBit t 0x33201C 24 = true ∧ RegsBut 0x33201C s t ∧
      OnlyRegsObs s t)) ∧
  (∀ (s : State) (i : InMsg) (r : Rsp) (x : DumpTxn), Awake s → s.obs.dumpInbox = [i] → i.pkt.msg = .rsp r → s.obs.dumpTxns = [x] →
    x.txn = r.txn → x.ring = true → r.opcode = 2 → getFld s 0x340020 0 15 + 1 < ringLines s → Completes .dumpWriterResponse s (fun t =>
      t.obs.dumpTxns = [] ∧ t.obs.dumpInbox = [] ∧ getFld t 0x340020 0 15 = (getFld s 0x340020 0 15 + 1) % 2 ^ 15 ∧
      RegsBut 0x340020 s t ∧ OnlyRegsObs s t)) ∧
  (∀ (s : State), s.undef = false → s.obs.dumpInbox = [] → exec .dumpWriterResponse s = .next s) ∧
  (∀ (s : State) (d : Nat), Ticking s → s.obs.flushDue = some d → d ≤ s.tick → s.obs.storage.length < 512 →
    Completes .sillageFlush s (fun t =>
      t.obs.storage = s.obs.storage ++ [s.obs.assembly ++ List.replicate (8 - s.obs.assembly.length) 0] ∧ t.obs.assembly = [] ∧
      t.obs.flushDue = none ∧ OnlyObs s t)) ∧
  (∀ (s : State), s.undef = false → s.obs.flushDue = none → exec .sillageFlush s = .next s)

/-- O56, derived from parts of R372, R374. An event at a counted source that does not reach the threshold sets the source's bit in
`FLT_EVT`, adds one to `FLT_EVT_CNT` and to the count of the source, and changes nothing else; at a reserved source
nothing changes. The end of its window puts the count back to 0; where nothing is
counted it changes nothing (assumption 5). -/
def Obligations.CountedFaults : Prop :=
  (∀ (s : State) (u : UnitId) (i : Fin 32), Awake s → unitOn s u.val = true → srcClass u.val i.val = .counted →
    inFault s u.val i.val = false → (fltCount s u.val i.val).count + 1 < fltThresh s u.val → Completes (.faultEvent u i) s (fun t =>
      getBit t (fltBase u.val) i.val = true ∧
      getFld t (fltBase u.val + 0x20) 0 16 = min (getFld s (fltBase u.val + 0x20) 0 16 + 1) 65535 ∧
      (fltCount t u.val i.val).count = (fltCount s u.val i.val).count + 1 ∧
      (∀ v k, k < 32 → (v, k) ≠ (u.val, i.val) → fltCount t v k = fltCount s v k) ∧
      (∀ a, a ≠ fltBase u.val → a ≠ fltBase u.val + 0x20 → getReg t a = getReg s a) ∧
      t = { s with regs := t.regs, faults := { s.faults with counts := t.faults.counts } })) ∧
  (∀ (s : State) (u : UnitId) (i : Fin 32), s.undef = false → srcClass u.val i.val = .reserved →
    exec (.faultEvent u i) s = .next s) ∧
  (∀ (s : State) (u : UnitId) (i : Fin 32), Awake s → (fltCount s u.val i.val).count ≠ 0 → (fltCount s u.val i.val).due ≤ s.tick →
    Completes (.classificationWindowExpire u i) s (fun t =>
      fltCount t u.val i.val = ⟨0, 0⟩ ∧ (∀ v k, k < 32 → (v, k) ≠ (u.val, i.val) → fltCount t v k = fltCount s v k) ∧
      t = { s with faults := { s.faults with counts := t.faults.counts } })) ∧
  (∀ (s : State) (u : UnitId) (i : Fin 32), s.undef = false → (fltCount s u.val i.val).count = 0 →
    exec (.classificationWindowExpire u i) s = .next s)

/-- O57, derived from parts of R374, R378, R380, R381, R383, R384, R391. Safe: an event at an immediate or a terminal source, or a
parity error that a sweep finds, puts the source in fault and the block in M10 with the cause captured; the running
command ends and every enabled port is fenced. A sweep that finds nothing changes nothing. Drydown: while it is
blocked, or before the quiet period is over, nothing changes; then the block leaves M10 for the mode it came from, no
source is left in fault, and the recovery is counted. -/
def Obligations.SafeIsEnteredAndLeft : Prop :=
  (∀ (s : State) (c : Instr) (u : UnitId) (i : Fin 32) (p : BitVec 17),
    (c = .faultEvent u i ∧ (srcClass u.val i.val = .immediate ∨ srcClass u.val i.val = .terminal)) ∨
      (c = .faultUnitSweep u p ∧ i = 31 ∧ p.toNat % 2 ^ parityBits u.val ≠ 0 ∧ blotArmed s 0x0C u.val = false) →
    Awake s → unitOn s u.val = true → inSafe s = false → Completes c s (fun t =>
      curMode t = 10 ∧ inTransit t = false ∧ inFault t u.val i.val = true ∧ getFld t 0x320004 0 5 = u.val ∧
      getFld t 0x320004 5 5 = i.val ∧ getFld t 0x320004 12 4 = curMode s ∧ t.seq.run = none ∧ t.seq.trans = none ∧
      (∀ n, n < 24 → portEnabled s n = true → (port t n).fenced = true) ∧ t.dram = s.dram ∧ t.tick = s.tick)) ∧
  (∀ (s : State) (u : UnitId) (p : BitVec 17), s.undef = false → p.toNat % 2 ^ parityBits u.val = 0 →
    blotArmed s 0x0C u.val = false → exec (.faultUnitSweep u p) s = .next s) ∧
  (∀ (s : State), s.undef = false → (inSafe s = false ∨ blockedCode s ≠ 0 ∨ s.tick < s.faults.quietStart + quietPeriod s) →
    exec .drydownExpire s = .next s) ∧
  (∀ (s : State), Awake s → inSafe s = true → blockedCode s = 0 → s.faults.quietStart + quietPeriod s ≤ s.tick →
    Completes .drydownExpire s (fun t =>
      curMode t = drydownTarget s ∧ inTransit t = false ∧ (∀ u, u < 27 → unitFault t u = false) ∧
      getFld t 0x320014 0 8 = min (getFld s 0x320014 0 8 + 1) 255 ∧ t.aon = { s.aon with recov := sat32 s.aon.recov } ∧
      t.dram = s.dram ∧ t.ports = s.ports))

/-- O58, derived from parts of R20, R68, R69, R341, R344, R392, R405, R465. M1: a calibration that succeeds with a margin of 25
% or more leaves its margin and goes on to the self-test, any other stops; the self-test sets `READY_LINK` and the outputs, and
training follows; a channel that passes takes its settings, and M1 goes on while another channel is in training. The exit from
Retention enters M1, and switches the twin port's domain on where it was on. An event outside its step changes nothing
(assumption 5). -/
def Obligations.CalibrateSelfTestTrain : Prop :=
  (∀ (s : State) (m : BitVec 8) (u : BitVec 5), Awake s → curMode s = 1 → s.seq.boot = .calibrate → 25 ≤ m.toNat →
    Completes (.calibrationComplete true m u) s (fun t =>
      getReg t 0x90 = BitVec.ofNat 32 (1 + 2 ^ 8 * m.toNat + 2 ^ 16 * u.toNat) ∧ t.seq = { s.seq with boot := .sram } ∧
      RegsBut 0x90 s t ∧ t = { s with regs := t.regs, seq := t.seq })) ∧
  (∀ (s : State) (b : Bool) (m : BitVec 8) (u : BitVec 5), Awake s → curMode s = 1 → s.seq.boot = .calibrate →
    b = false ∨ m.toNat < 25 → exec (.calibrationComplete b m u) s = resume s (report (outputsLive (setBoot (setReg s 0x90
      (BitVec.ofNat 32 (2 + 2 ^ 8 * m.toNat + 2 ^ 16 * u.toNat))) .stopped)) 26 7)) ∧
  (∀ (s : State), Awake s → curMode s = 1 → s.seq.boot = .sram → s.seq.exit8 = false → popCountOk s = true →
    Completes .sramSelfTestComplete s (fun t =>
      t.seq = { s.seq with boot := .train } ∧ readyLink t = true ∧ t.pins = { s.pins with live := true, memResetN := true } ∧
      RegsBut 0x14 s t ∧ t.dram = s.dram ∧ t.chans = s.chans)) ∧
  (∀ (s : State) (c d : ChanId) (r : TrainResult), Awake s → s.seq.exit8 = false → inTraining s c.val = true →
    inTraining s d.val = true → c ≠ d → r.pass = 63 → Completes (.trainingComplete c r) s (fun t =>
      getReg t (mcBase c.val) = BitVec.ofNat 32 (b2n r.ranks2 + 2 * r.density.toNat + 2 ^ 4 * r.rate.toNat + 2 ^ 7 * b2n r.rfm + 2 ^ 8) ∧
      getReg t (mcBase c.val + 0x20) = BitVec.ofNat 32 r.flight.toNat ∧ getReg t (mcBase c.val + 0x24) = 127 ∧
      (∀ i : Fin 4, getReg t (mcBase c.val + 0x10 + 4 * i.val) = timingWord r.rate r.density i) ∧
      (chan t c.val).trained = true ∧ (∀ k, k ≠ c.val → chan t k = chan s k) ∧
      (∀ a, (∀ o ∈ [0, 0x10, 0x14, 0x18, 0x1C, 0x20, 0x24], a ≠ mcBase c.val + o) → getReg t a = getReg s a) ∧
      t = { s with regs := t.regs, chans := t.chans })) ∧
  (∀ (s : State) (c : ChanId) (r : TrainResult), s.undef = false → inTraining s c.val = false → s.seq.run = none →
    exec (.trainingComplete c r) s = .next s) ∧
  (∀ (s : State), s.undef = false → s.pins.porstLow = false → s.pins.brstLow = false → s.pins.aonClk = true → curMode s = 8 →
    Completes .retentionWake s (fun t =>
      curMode t = 1 ∧ t.seq = { s.seq with boot := .lock, exit8 := true } ∧
      t.pins = { s.pins with coreOn := true, boundsVoid := s.pins.boundsVoid || !s.pins.coreOn } ∧
      t = { s with regs := t.regs, seq := t.seq, pins := t.pins, twin := t.twin } ∧
      (twinPwr s = true → t.twin = { s.twin with latched := getReg s 0x310000, cfg := [], msix := [], inbox := [] } ∧
        getBit t 0x300004 12 = true ∧ getBit t 0x300008 8 = false) ∧
      (twinPwr s = false → s.twin.perstLow = false → t.twin = s.twin ∧ RegsBut 0x10 s t) ∧
      (s.twin.perstLow = true → ∀ a, 0x310100 ≤ a → a < 0x310300 → getReg t a = regReset a))) ∧
  (∀ (s : State), s.undef = false → curMode s ≠ 8 ∨ s.pins.aonClk = false → exec .retentionWake s = .next s) ∧
  (∀ (s : State) (m : BitVec 8) (u : BitVec 5) (b : Bool), s.undef = false → curMode s ≠ 1 →
    exec (.calibrationComplete b m u) s = .next s ∧ exec .sramSelfTestComplete s = .next s)

/-- O59, derived from parts of R401, R402, R404, R408, R410, R460. The end of a transition: a `SET_MODE` whose tables are in use
reaches its mode and ends; a complete Drain to M2 reaches M2, one to M8 enters Retention and one to M11 the Wipe, once
the caches are written back, which it waits for, in the model's order (assumption 38); a complete Wipe leaves zero memory, no
sealed root, the region table of reset and both ready flags, in M2 (assumptions 73, 99). Outside its mode each of these events
changes nothing (assumption 5). -/
def Obligations.TransitionsEnd : Prop :=
  (∀ (s : State) (r : RunCmd), Awake s → inTransit s = true → curMode s ≠ 7 → curMode s ≠ 11 → s.seq.run = some r →
    bitsOf r.hdr 0 8 = 2 → r.phase = 2 → inSafe s = false → swapPending s = false → Completes .modeTransitionComplete s (fun t =>
      curMode t = getFld s 0x10 8 4 ∧ getFld t 0x10 4 4 = curMode s ∧ inTransit t = false ∧ t.seq.run = none ∧ t.seq.trans = none ∧
      t.dram = s.dram ∧ t.ports = s.ports ∧ t.slices = s.slices)) ∧
  (∀ (s : State), s.undef = false → inTransit s = false → exec .modeTransitionComplete s = .next s) ∧
  (∀ (s u : State) (x : Trans), s.undef = false → curMode s = 7 → s.seq.trans = some x → x.target = 2 →
    drained (drainWork s 2) 2 = true → u = flushAll (drainWork s 2) → curMode u = 7 → (List.range 8).any (metaDirty u) = false →
    Completes .drainComplete s (fun t =>
      curMode t = 2 ∧ inTransit t = false ∧ t.seq.run = none ∧ t.seq.trans = none)) ∧
  (∀ (s u : State) (x : Trans), s.undef = false → curMode s = 7 → s.seq.trans = some x → x.target = 8 →
    drained (drainWork s 8) 8 = true → u = flushAll (drainWork s 8) → curMode u = 7 → (List.range 8).any (metaDirty u) = false →
    exec .drainComplete s = resume s (enterRetention u)) ∧
  (∀ (s u : State) (x : Trans), s.undef = false → curMode s = 7 → s.seq.trans = some x → x.target = 11 →
    drained (drainWork s 11) 11 = true → u = flushAll (drainWork s 11) → curMode u = 7 → (List.range 8).any (metaDirty u) = false →
    exec .drainComplete s = resume s (startWipe u)) ∧
  (∀ (s u : State) (x : Trans), s.undef = false → curMode s = 7 → s.seq.trans = some x →
    drained (drainWork s x.target.toNat) x.target.toNat = true → u = flushAll (drainWork s x.target.toNat) →
    (curMode u ≠ 7 ∨ (List.range 8).any (metaDirty u) = true) → exec .drainComplete s = resume s u) ∧
  (∀ (s : State), s.undef = false → curMode s ≠ 7 → exec .drainComplete s = .next s) ∧
  (∀ (s : State), s.undef = false → curMode s = 11 → s.pins.lcAdvReq = false → s.seq.lcTarget = none →
    Completes .wipeComplete s (fun t =>
      curMode t = 2 ∧ t.dram = [] ∧ t.aon.roots = [] ∧ t.aon.wipePend = false ∧ getBit t 0x14 1 = true ∧ getBit t 0x14 2 = true ∧
      (∀ a, 0x360000 ≤ a → a < 0x36040C → getReg t a = regReset a) ∧
      (∀ c, c < 16 → (chan t c).rdq = [] ∧ (chan t c).wrq = []) ∧ (∀ n, n < 8 → (slice t n).filter = []))) ∧
  (∀ (s : State), s.undef = false → curMode s ≠ 11 → exec .wipeComplete s = .next s)

/-- O60, derived from parts of R158, R233, R234, R238, R315, R396, R399, R453. The steps of an Accord move and of slice power.
Without a command that holds slices each changes nothing; while an active entry is left in a slice whose take-up is stopped the
move waits, timed until it has moved a pair; once every entry fits and nothing is under way the pair is relocated and the
command goes on; an empty slice is fenced, outside Accord with its channels out of service, and one that is not empty yet is
left alone; then its domain goes off and what it held is gone. That the caches are written back first, and how the move takes
its time, are the model's (assumptions 38, 46, 81); without its subject an event changes nothing (assumption 5). -/
def Obligations.SlicesMoveAndPowerDown : Prop :=
  (∀ (s : State) (n : SliceId), s.undef = false → mover s = none →
    exec .entryMoveComplete s = .next s ∧ exec (.sliceDrained n) s = .next s ∧ exec (.sliceDomainOff n) s = .next s) ∧
  (∀ (s : State) (r : RunCmd), Awake s → mover s = some r → r.phase = 2 → (closedSlices s r).any (activeHere s) = true →
    exec .entryMoveComplete s = resume s (moveTimed s r)) ∧
  (∀ (s u v w : State) (r : RunCmd), Awake s → mover s = some r → r.phase = 3 → w = switchPair (dropWalks s (movePairOf r)) r →
    u = thinCrowds (dropWalks s (movePairOf r)) w (movePairOf r) → v = (if backOn r then flushCaches u (pairSlice r.arg) else u) →
    fitsIn v w (movePairOf r) = true → pairQuiet v (movePairOf r) = true →
    (backOn r && metaDirty v (pairSlice r.arg)) = false →
    exec .entryMoveComplete s = resume s (if isAccordCfg r then accordMoved (relocate v r) r else powerMoved (relocate v r) r)) ∧
  (∀ (s u v w : State) (r : RunCmd), Awake s → mover s = some r → r.phase = 3 → w = switchPair (dropWalks s (movePairOf r)) r →
    u = thinCrowds (dropWalks s (movePairOf r)) w (movePairOf r) → v = (if backOn r then flushCaches u (pairSlice r.arg) else u) →
    (fitsIn v w (movePairOf r) = false ∨ pairQuiet v (movePairOf r) = false ∨
      (backOn r && metaDirty v (pairSlice r.arg)) = true) → exec .entryMoveComplete s = resume s v) ∧
  (∀ (s : State) (r : RunCmd) (n : SliceId), Awake s → mover s = some r → isAccordCfg r = false → r.phase = 4 → r.arg = n.val →
    pairJoined s (n.val / 2) = false → sliceEmpty s n.val = true → ownQueuesEmpty s n.val = true →
    metaDirty (flushCaches s n.val) n.val = false → (mover (flushCaches s n.val)).isNone = false →
    Completes (.sliceDrained n) s (fun t =>
      getBit t 0x300004 (16 + n.val) = true ∧ getBit t 0x300008 n.val = true ∧ getBit t (mcBase (2 * n.val)) 8 = false ∧
      getBit t (mcBase (2 * n.val + 1)) 8 = false) ∧ exec (.sliceDrained n) s = resume s (fenceOff (flushCaches s n.val) r)) ∧
  (∀ (s : State) (r : RunCmd) (n : SliceId), Awake s → mover s = some r → isAccordCfg r = false → r.phase = 4 → r.arg = n.val →
    pairJoined s (n.val / 2) = true → exec (.sliceDrained n) s =
      if sliceEmpty s n.val && !dataComing s n.val then resume s
        (let u := flushCaches s n.val
         if metaDirty u n.val || (mover u).isNone then u else fenceOff u r)
      else .next s) ∧
  (∀ (s : State) (r : RunCmd) (n : SliceId), Awake s → mover s = some r → isAccordCfg r = false → r.phase = 5 → r.arg = n.val →
    (slice s n.val).away = false → Completes (.sliceDomainOff n) s (fun t =>
      getBit t 0x300004 n.val = false ∧ (slice t n.val).entries = [] ∧ (slice t n.val).filter = [] ∧ t.seq.moveLeft = none ∧
      curMode t = curMode s ∧ (∀ i, i < 9 → pmuCount t n.val i = 0))) ∧
  (∀ (s : State) (r : RunCmd) (n : SliceId), Awake s → mover s = some r → isAccordCfg r = false → r.phase = 5 → r.arg = n.val →
    (slice s n.val).away = true → exec (.sliceDomainOff n) s = resume s (endMove (pinAll (dropCounts (setBit (setSlice s n.val
      { freshSlice with away := true, leaving := (slice s n.val).leaving, nodeBad := (slice s n.val).nodeBad })
      0x300004 n.val false) n.val)) []))
end

