-- ==== Sys2Proof/Laws/Cells.lean ====
section
/-! SUPPORT. Sparse data by key: a read after a write, which holds of every list, and that every operation keeps the
canonical form. -/

namespace Sys2Proof.Laws

open Sys2Proof.Machine

variable {β : Type} {dflt : Nat → β}

theorem cellsGet_drop_ne (p : Nat → Bool) {j : Nat} (h : p j = false) : ∀ m : Cells β,
    cellsGet dflt (cellsDrop p m) j = cellsGet dflt m j
  | [] => rfl
  | (a, x) :: m => by
    have r := cellsGet_drop_ne p h m
    unfold cellsDrop at r ⊢
    by_cases e : a = j
    · subst e; simp [List.filter, h, cellsGet]
    · cases hp : p a <;> simp [List.filter, hp, cellsGet, e, r]

/-- An entry taken out reads as unlisted. -/
theorem cellsGet_drop_same (p : Nat → Bool) {j : Nat} (h : p j = true) : ∀ m : Cells β, cellsGet dflt (cellsDrop p m) j = dflt j
  | [] => rfl
  | (a, x) :: m => by
    have r := cellsGet_drop_same p h m
    unfold cellsDrop at r ⊢
    by_cases e : a = j
    · subst e; simpa [List.filter, h] using r
    · cases hp : p a <;> simp [List.filter, hp, cellsGet, e, r]

theorem cellsGet_place_same (k : Nat) (v : β) : ∀ m : Cells β, (∀ e ∈ m, e.1 ≠ k) → cellsGet dflt (cellsPlace k v m) k = v
  | [], _ => by simp [cellsPlace, cellsGet]
  | (a, x) :: m, h => by
    have ha : a ≠ k := h (a, x) (by simp)
    have r := cellsGet_place_same k v m (fun e he => h e (by simp [he]))
    unfold cellsPlace
    split
    · simp [cellsGet]
    · simp [cellsGet, ha, r]

theorem cellsGet_place_ne {k j : Nat} (v : β) (h : j ≠ k) : ∀ m : Cells β,
    cellsGet dflt (cellsPlace k v m) j = cellsGet dflt m j
  | [] => by simp [cellsPlace, cellsGet, Ne.symm h]
  | (a, x) :: m => by
    have r := cellsGet_place_ne v h m
    unfold cellsPlace
    split
    · simp [cellsGet, Ne.symm h]
    · simp [cellsGet, r]

variable [DecidableEq β]

/-- Reading the key written gives the value written. -/
theorem cellsGet_set_same (m : Cells β) (k : Nat) (v : β) : cellsGet dflt (cellsSet dflt m k v) k = v := by
  unfold cellsSet
  simp only
  split
  · rename_i h; rw [cellsGet_drop_same _ (by simp), h]
  · exact cellsGet_place_same k v _ (fun e he => by simpa [cellsDrop] using (List.mem_filter.mp he).2)

/-- A write leaves every other key alone. -/
theorem cellsGet_set_ne (m : Cells β) {k j : Nat} (v : β) (h : j ≠ k) :
    cellsGet dflt (cellsSet dflt m k v) j = cellsGet dflt m j := by
  unfold cellsSet
  simp only
  split
  · exact cellsGet_drop_ne _ (by simp [h]) m
  · rw [cellsGet_place_ne v h]; exact cellsGet_drop_ne _ (by simp [h]) m

theorem cellsWfFrom_mono {lo hi : Nat} (h : lo ≤ hi) : ∀ {m : Cells β}, cellsWfFrom dflt hi m = true → cellsWfFrom dflt lo m = true
  | [], _ => rfl
  | (a, v) :: m, w => by
    simp only [cellsWfFrom, Bool.and_eq_true, decide_eq_true_eq] at w ⊢
    exact ⟨h.trans w.1, w.2⟩

/-- Taking entries out keeps the canonical form. -/
theorem cellsWf_drop (p : Nat → Bool) : ∀ {lo : Nat} {m : Cells β}, cellsWfFrom dflt lo m = true →
    cellsWfFrom dflt lo (cellsDrop p m) = true
  | _, [], _ => rfl
  | lo, (a, x) :: m, w => by
    simp only [cellsWfFrom, Bool.and_eq_true, decide_eq_true_eq] at w
    have r := cellsWf_drop p w.2.2
    unfold cellsDrop at r ⊢
    simp only [List.filter]
    split
    · simp [cellsWfFrom, w.1, w.2.1, r]
    · exact cellsWfFrom_mono (Nat.le_succ_of_le w.1) r

theorem cellsWf_place {k : Nat} {v : β} (hv : v ≠ dflt k) : ∀ {lo : Nat} {m : Cells β}, lo ≤ k → (∀ e ∈ m, e.1 ≠ k) →
    cellsWfFrom dflt lo m = true → cellsWfFrom dflt lo (cellsPlace k v m) = true
  | lo, [], hl, _, _ => by simp [cellsPlace, cellsWfFrom, hl, hv]
  | lo, (a, x) :: m, hl, h, w => by
    have ha : a ≠ k := h (a, x) (by simp)
    simp only [cellsWfFrom, Bool.and_eq_true, decide_eq_true_eq] at w
    unfold cellsPlace
    split
    · rename_i hk; simp [cellsWfFrom, hl, hv, w.2.1, w.2.2]; omega
    · rename_i hk
      have r := cellsWf_place hv (lo := a + 1) (by omega) (fun e he => h e (by simp [he])) w.2.2
      simp [cellsWfFrom, w.1, w.2.1, r]

/-- A write keeps the canonical form. -/
theorem cellsWf_set (k : Nat) (v : β) {m : Cells β} (w : cellsWf dflt m = true) : cellsWf dflt (cellsSet dflt m k v) = true := by
  unfold cellsSet
  simp only
  split
  · exact cellsWf_drop _ w
  · rename_i h
    exact cellsWf_place h (Nat.zero_le k) (fun e he => by simpa [cellsDrop] using (List.mem_filter.mp he).2) (cellsWf_drop _ w)


end Sys2Proof.Laws
end

