-- ==== Sys2Proof/Laws/State.lean ====
section
/-! SUPPORT. What each update of the state leaves unchanged, field by field, and what a register reads after a write. -/

namespace Sys2Proof.Laws

open Sys2Proof.Machine

-- setReg

@[simp] theorem setReg_tick (s : State) (a : Nat) (v : Word) : (setReg s a v).tick = s.tick := rfl
@[simp] theorem setReg_ports (s : State) (a : Nat) (v : Word) : (setReg s a v).ports = s.ports := rfl
@[simp] theorem setReg_spine (s : State) (a : Nat) (v : Word) : (setReg s a v).spine = s.spine := rfl
@[simp] theorem setReg_slices (s : State) (a : Nat) (v : Word) : (setReg s a v).slices = s.slices := rfl
@[simp] theorem setReg_chans (s : State) (a : Nat) (v : Word) : (setReg s a v).chans = s.chans := rfl
@[simp] theorem setReg_dram (s : State) (a : Nat) (v : Word) : (setReg s a v).dram = s.dram := rfl
@[simp] theorem setReg_faults (s : State) (a : Nat) (v : Word) : (setReg s a v).faults = s.faults := rfl
@[simp] theorem setReg_mirror (s : State) (a : Nat) (v : Word) : (setReg s a v).mirror = s.mirror := rfl
@[simp] theorem setReg_twin (s : State) (a : Nat) (v : Word) : (setReg s a v).twin = s.twin := rfl
@[simp] theorem setReg_seq (s : State) (a : Nat) (v : Word) : (setReg s a v).seq = s.seq := rfl
@[simp] theorem setReg_obs (s : State) (a : Nat) (v : Word) : (setReg s a v).obs = s.obs := rfl
@[simp] theorem setReg_aon (s : State) (a : Nat) (v : Word) : (setReg s a v).aon = s.aon := rfl
@[simp] theorem setReg_pins (s : State) (a : Nat) (v : Word) : (setReg s a v).pins = s.pins := rfl
@[simp] theorem setReg_undef (s : State) (a : Nat) (v : Word) : (setReg s a v).undef = s.undef := rfl
@[simp] theorem setReg_free (s : State) (a : Nat) (v : Word) : (setReg s a v).free = s.free := rfl
@[simp] theorem setReg_pending (s : State) (a : Nat) (v : Word) : (setReg s a v).pending = s.pending := rfl

-- setFld

@[simp] theorem setFld_tick (s : State) (a lo n v : Nat) : (setFld s a lo n v).tick = s.tick := rfl
@[simp] theorem setFld_ports (s : State) (a lo n v : Nat) : (setFld s a lo n v).ports = s.ports := rfl
@[simp] theorem setFld_spine (s : State) (a lo n v : Nat) : (setFld s a lo n v).spine = s.spine := rfl
@[simp] theorem setFld_slices (s : State) (a lo n v : Nat) : (setFld s a lo n v).slices = s.slices := rfl
@[simp] theorem setFld_chans (s : State) (a lo n v : Nat) : (setFld s a lo n v).chans = s.chans := rfl
@[simp] theorem setFld_dram (s : State) (a lo n v : Nat) : (setFld s a lo n v).dram = s.dram := rfl
@[simp] theorem setFld_faults (s : State) (a lo n v : Nat) : (setFld s a lo n v).faults = s.faults := rfl
@[simp] theorem setFld_mirror (s : State) (a lo n v : Nat) : (setFld s a lo n v).mirror = s.mirror := rfl
@[simp] theorem setFld_twin (s : State) (a lo n v : Nat) : (setFld s a lo n v).twin = s.twin := rfl
@[simp] theorem setFld_seq (s : State) (a lo n v : Nat) : (setFld s a lo n v).seq = s.seq := rfl
@[simp] theorem setFld_obs (s : State) (a lo n v : Nat) : (setFld s a lo n v).obs = s.obs := rfl
@[simp] theorem setFld_aon (s : State) (a lo n v : Nat) : (setFld s a lo n v).aon = s.aon := rfl
@[simp] theorem setFld_pins (s : State) (a lo n v : Nat) : (setFld s a lo n v).pins = s.pins := rfl
@[simp] theorem setFld_undef (s : State) (a lo n v : Nat) : (setFld s a lo n v).undef = s.undef := rfl
@[simp] theorem setFld_free (s : State) (a lo n v : Nat) : (setFld s a lo n v).free = s.free := rfl
@[simp] theorem setFld_pending (s : State) (a lo n v : Nat) : (setFld s a lo n v).pending = s.pending := rfl

-- setBit

@[simp] theorem setBit_tick (s : State) (a i : Nat) (b : Bool) : (setBit s a i b).tick = s.tick := rfl
@[simp] theorem setBit_ports (s : State) (a i : Nat) (b : Bool) : (setBit s a i b).ports = s.ports := rfl
@[simp] theorem setBit_spine (s : State) (a i : Nat) (b : Bool) : (setBit s a i b).spine = s.spine := rfl
@[simp] theorem setBit_slices (s : State) (a i : Nat) (b : Bool) : (setBit s a i b).slices = s.slices := rfl
@[simp] theorem setBit_chans (s : State) (a i : Nat) (b : Bool) : (setBit s a i b).chans = s.chans := rfl
@[simp] theorem setBit_dram (s : State) (a i : Nat) (b : Bool) : (setBit s a i b).dram = s.dram := rfl
@[simp] theorem setBit_faults (s : State) (a i : Nat) (b : Bool) : (setBit s a i b).faults = s.faults := rfl
@[simp] theorem setBit_mirror (s : State) (a i : Nat) (b : Bool) : (setBit s a i b).mirror = s.mirror := rfl
@[simp] theorem setBit_twin (s : State) (a i : Nat) (b : Bool) : (setBit s a i b).twin = s.twin := rfl
@[simp] theorem setBit_seq (s : State) (a i : Nat) (b : Bool) : (setBit s a i b).seq = s.seq := rfl
@[simp] theorem setBit_obs (s : State) (a i : Nat) (b : Bool) : (setBit s a i b).obs = s.obs := rfl
@[simp] theorem setBit_aon (s : State) (a i : Nat) (b : Bool) : (setBit s a i b).aon = s.aon := rfl
@[simp] theorem setBit_pins (s : State) (a i : Nat) (b : Bool) : (setBit s a i b).pins = s.pins := rfl
@[simp] theorem setBit_undef (s : State) (a i : Nat) (b : Bool) : (setBit s a i b).undef = s.undef := rfl
@[simp] theorem setBit_free (s : State) (a i : Nat) (b : Bool) : (setBit s a i b).free = s.free := rfl
@[simp] theorem setBit_pending (s : State) (a i : Nat) (b : Bool) : (setBit s a i b).pending = s.pending := rfl

-- satAdd

@[simp] theorem satAdd_tick (s : State) (a lo n k : Nat) : (satAdd s a lo n k).tick = s.tick := rfl
@[simp] theorem satAdd_ports (s : State) (a lo n k : Nat) : (satAdd s a lo n k).ports = s.ports := rfl
@[simp] theorem satAdd_spine (s : State) (a lo n k : Nat) : (satAdd s a lo n k).spine = s.spine := rfl
@[simp] theorem satAdd_slices (s : State) (a lo n k : Nat) : (satAdd s a lo n k).slices = s.slices := rfl
@[simp] theorem satAdd_chans (s : State) (a lo n k : Nat) : (satAdd s a lo n k).chans = s.chans := rfl
@[simp] theorem satAdd_dram (s : State) (a lo n k : Nat) : (satAdd s a lo n k).dram = s.dram := rfl
@[simp] theorem satAdd_faults (s : State) (a lo n k : Nat) : (satAdd s a lo n k).faults = s.faults := rfl
@[simp] theorem satAdd_mirror (s : State) (a lo n k : Nat) : (satAdd s a lo n k).mirror = s.mirror := rfl
@[simp] theorem satAdd_twin (s : State) (a lo n k : Nat) : (satAdd s a lo n k).twin = s.twin := rfl
@[simp] theorem satAdd_seq (s : State) (a lo n k : Nat) : (satAdd s a lo n k).seq = s.seq := rfl
@[simp] theorem satAdd_obs (s : State) (a lo n k : Nat) : (satAdd s a lo n k).obs = s.obs := rfl
@[simp] theorem satAdd_aon (s : State) (a lo n k : Nat) : (satAdd s a lo n k).aon = s.aon := rfl
@[simp] theorem satAdd_pins (s : State) (a lo n k : Nat) : (satAdd s a lo n k).pins = s.pins := rfl
@[simp] theorem satAdd_undef (s : State) (a lo n k : Nat) : (satAdd s a lo n k).undef = s.undef := rfl
@[simp] theorem satAdd_free (s : State) (a lo n k : Nat) : (satAdd s a lo n k).free = s.free := rfl
@[simp] theorem satAdd_pending (s : State) (a lo n k : Nat) : (satAdd s a lo n k).pending = s.pending := rfl

-- resetRegs

@[simp] theorem resetRegs_tick (s : State) (lo hi : Nat) : (resetRegs s lo hi).tick = s.tick := rfl
@[simp] theorem resetRegs_ports (s : State) (lo hi : Nat) : (resetRegs s lo hi).ports = s.ports := rfl
@[simp] theorem resetRegs_spine (s : State) (lo hi : Nat) : (resetRegs s lo hi).spine = s.spine := rfl
@[simp] theorem resetRegs_slices (s : State) (lo hi : Nat) : (resetRegs s lo hi).slices = s.slices := rfl
@[simp] theorem resetRegs_chans (s : State) (lo hi : Nat) : (resetRegs s lo hi).chans = s.chans := rfl
@[simp] theorem resetRegs_dram (s : State) (lo hi : Nat) : (resetRegs s lo hi).dram = s.dram := rfl
@[simp] theorem resetRegs_faults (s : State) (lo hi : Nat) : (resetRegs s lo hi).faults = s.faults := rfl
@[simp] theorem resetRegs_mirror (s : State) (lo hi : Nat) : (resetRegs s lo hi).mirror = s.mirror := rfl
@[simp] theorem resetRegs_twin (s : State) (lo hi : Nat) : (resetRegs s lo hi).twin = s.twin := rfl
@[simp] theorem resetRegs_seq (s : State) (lo hi : Nat) : (resetRegs s lo hi).seq = s.seq := rfl
@[simp] theorem resetRegs_obs (s : State) (lo hi : Nat) : (resetRegs s lo hi).obs = s.obs := rfl
@[simp] theorem resetRegs_aon (s : State) (lo hi : Nat) : (resetRegs s lo hi).aon = s.aon := rfl
@[simp] theorem resetRegs_pins (s : State) (lo hi : Nat) : (resetRegs s lo hi).pins = s.pins := rfl
@[simp] theorem resetRegs_undef (s : State) (lo hi : Nat) : (resetRegs s lo hi).undef = s.undef := rfl
@[simp] theorem resetRegs_free (s : State) (lo hi : Nat) : (resetRegs s lo hi).free = s.free := rfl
@[simp] theorem resetRegs_pending (s : State) (lo hi : Nat) : (resetRegs s lo hi).pending = s.pending := rfl

-- enterMode

@[simp] theorem enterMode_tick (s : State) (m : Nat) : (enterMode s m).tick = s.tick := rfl
@[simp] theorem enterMode_ports (s : State) (m : Nat) : (enterMode s m).ports = s.ports := rfl
@[simp] theorem enterMode_spine (s : State) (m : Nat) : (enterMode s m).spine = s.spine := rfl
@[simp] theorem enterMode_slices (s : State) (m : Nat) : (enterMode s m).slices = s.slices := rfl
@[simp] theorem enterMode_chans (s : State) (m : Nat) : (enterMode s m).chans = s.chans := rfl
@[simp] theorem enterMode_dram (s : State) (m : Nat) : (enterMode s m).dram = s.dram := rfl
@[simp] theorem enterMode_faults (s : State) (m : Nat) : (enterMode s m).faults = s.faults := rfl
@[simp] theorem enterMode_mirror (s : State) (m : Nat) : (enterMode s m).mirror = s.mirror := rfl
@[simp] theorem enterMode_twin (s : State) (m : Nat) : (enterMode s m).twin = s.twin := rfl
@[simp] theorem enterMode_seq (s : State) (m : Nat) : (enterMode s m).seq = s.seq := rfl
@[simp] theorem enterMode_obs (s : State) (m : Nat) : (enterMode s m).obs = s.obs := rfl
@[simp] theorem enterMode_aon (s : State) (m : Nat) : (enterMode s m).aon = s.aon := rfl
@[simp] theorem enterMode_pins (s : State) (m : Nat) : (enterMode s m).pins = s.pins := rfl
@[simp] theorem enterMode_undef (s : State) (m : Nat) : (enterMode s m).undef = s.undef := rfl
@[simp] theorem enterMode_free (s : State) (m : Nat) : (enterMode s m).free = s.free := rfl
@[simp] theorem enterMode_pending (s : State) (m : Nat) : (enterMode s m).pending = s.pending := rfl

-- setPort

@[simp] theorem setPort_regs (s : State) (n : Nat) (p : Port) : (setPort s n p).regs = s.regs := by unfold setPort; split <;> rfl
@[simp] theorem setPort_tick (s : State) (n : Nat) (p : Port) : (setPort s n p).tick = s.tick := by unfold setPort; split <;> rfl
@[simp] theorem setPort_spine (s : State) (n : Nat) (p : Port) : (setPort s n p).spine = s.spine := by unfold setPort; split <;> rfl
@[simp] theorem setPort_slices (s : State) (n : Nat) (p : Port) : (setPort s n p).slices = s.slices := by unfold setPort; split <;> rfl
@[simp] theorem setPort_chans (s : State) (n : Nat) (p : Port) : (setPort s n p).chans = s.chans := by unfold setPort; split <;> rfl
@[simp] theorem setPort_dram (s : State) (n : Nat) (p : Port) : (setPort s n p).dram = s.dram := by unfold setPort; split <;> rfl
@[simp] theorem setPort_faults (s : State) (n : Nat) (p : Port) : (setPort s n p).faults = s.faults := by unfold setPort; split <;> rfl
@[simp] theorem setPort_mirror (s : State) (n : Nat) (p : Port) : (setPort s n p).mirror = s.mirror := by unfold setPort; split <;> rfl
@[simp] theorem setPort_twin (s : State) (n : Nat) (p : Port) : (setPort s n p).twin = s.twin := by unfold setPort; split <;> rfl
@[simp] theorem setPort_seq (s : State) (n : Nat) (p : Port) : (setPort s n p).seq = s.seq := by unfold setPort; split <;> rfl
@[simp] theorem setPort_obs (s : State) (n : Nat) (p : Port) : (setPort s n p).obs = s.obs := by unfold setPort; split <;> rfl
@[simp] theorem setPort_aon (s : State) (n : Nat) (p : Port) : (setPort s n p).aon = s.aon := by unfold setPort; split <;> rfl
@[simp] theorem setPort_pins (s : State) (n : Nat) (p : Port) : (setPort s n p).pins = s.pins := by unfold setPort; split <;> rfl
@[simp] theorem setPort_undef (s : State) (n : Nat) (p : Port) : (setPort s n p).undef = s.undef := by unfold setPort; split <;> rfl
@[simp] theorem setPort_free (s : State) (n : Nat) (p : Port) : (setPort s n p).free = s.free := by unfold setPort; split <;> rfl
@[simp] theorem setPort_pending (s : State) (n : Nat) (p : Port) : (setPort s n p).pending = s.pending := by unfold setPort; split <;> rfl

-- setSlice

@[simp] theorem setSlice_regs (s : State) (n : Nat) (x : Slice) : (setSlice s n x).regs = s.regs := by unfold setSlice; split <;> rfl
@[simp] theorem setSlice_tick (s : State) (n : Nat) (x : Slice) : (setSlice s n x).tick = s.tick := by unfold setSlice; split <;> rfl
@[simp] theorem setSlice_ports (s : State) (n : Nat) (x : Slice) : (setSlice s n x).ports = s.ports := by unfold setSlice; split <;> rfl
@[simp] theorem setSlice_spine (s : State) (n : Nat) (x : Slice) : (setSlice s n x).spine = s.spine := by unfold setSlice; split <;> rfl
@[simp] theorem setSlice_chans (s : State) (n : Nat) (x : Slice) : (setSlice s n x).chans = s.chans := by unfold setSlice; split <;> rfl
@[simp] theorem setSlice_dram (s : State) (n : Nat) (x : Slice) : (setSlice s n x).dram = s.dram := by unfold setSlice; split <;> rfl
@[simp] theorem setSlice_faults (s : State) (n : Nat) (x : Slice) : (setSlice s n x).faults = s.faults := by unfold setSlice; split <;> rfl
@[simp] theorem setSlice_mirror (s : State) (n : Nat) (x : Slice) : (setSlice s n x).mirror = s.mirror := by unfold setSlice; split <;> rfl
@[simp] theorem setSlice_twin (s : State) (n : Nat) (x : Slice) : (setSlice s n x).twin = s.twin := by unfold setSlice; split <;> rfl
@[simp] theorem setSlice_seq (s : State) (n : Nat) (x : Slice) : (setSlice s n x).seq = s.seq := by unfold setSlice; split <;> rfl
@[simp] theorem setSlice_obs (s : State) (n : Nat) (x : Slice) : (setSlice s n x).obs = s.obs := by unfold setSlice; split <;> rfl
@[simp] theorem setSlice_aon (s : State) (n : Nat) (x : Slice) : (setSlice s n x).aon = s.aon := by unfold setSlice; split <;> rfl
@[simp] theorem setSlice_pins (s : State) (n : Nat) (x : Slice) : (setSlice s n x).pins = s.pins := by unfold setSlice; split <;> rfl
@[simp] theorem setSlice_undef (s : State) (n : Nat) (x : Slice) : (setSlice s n x).undef = s.undef := by unfold setSlice; split <;> rfl
@[simp] theorem setSlice_free (s : State) (n : Nat) (x : Slice) : (setSlice s n x).free = s.free := by unfold setSlice; split <;> rfl
@[simp] theorem setSlice_pending (s : State) (n : Nat) (x : Slice) : (setSlice s n x).pending = s.pending := by unfold setSlice; split <;> rfl

-- setChan

@[simp] theorem setChan_regs (s : State) (c : Nat) (x : Chan) : (setChan s c x).regs = s.regs := by unfold setChan; split <;> rfl
@[simp] theorem setChan_tick (s : State) (c : Nat) (x : Chan) : (setChan s c x).tick = s.tick := by unfold setChan; split <;> rfl
@[simp] theorem setChan_ports (s : State) (c : Nat) (x : Chan) : (setChan s c x).ports = s.ports := by unfold setChan; split <;> rfl
@[simp] theorem setChan_spine (s : State) (c : Nat) (x : Chan) : (setChan s c x).spine = s.spine := by unfold setChan; split <;> rfl
@[simp] theorem setChan_slices (s : State) (c : Nat) (x : Chan) : (setChan s c x).slices = s.slices := by unfold setChan; split <;> rfl
@[simp] theorem setChan_dram (s : State) (c : Nat) (x : Chan) : (setChan s c x).dram = s.dram := by unfold setChan; split <;> rfl
@[simp] theorem setChan_faults (s : State) (c : Nat) (x : Chan) : (setChan s c x).faults = s.faults := by unfold setChan; split <;> rfl
@[simp] theorem setChan_mirror (s : State) (c : Nat) (x : Chan) : (setChan s c x).mirror = s.mirror := by unfold setChan; split <;> rfl
@[simp] theorem setChan_twin (s : State) (c : Nat) (x : Chan) : (setChan s c x).twin = s.twin := by unfold setChan; split <;> rfl
@[simp] theorem setChan_seq (s : State) (c : Nat) (x : Chan) : (setChan s c x).seq = s.seq := by unfold setChan; split <;> rfl
@[simp] theorem setChan_obs (s : State) (c : Nat) (x : Chan) : (setChan s c x).obs = s.obs := by unfold setChan; split <;> rfl
@[simp] theorem setChan_aon (s : State) (c : Nat) (x : Chan) : (setChan s c x).aon = s.aon := by unfold setChan; split <;> rfl
@[simp] theorem setChan_pins (s : State) (c : Nat) (x : Chan) : (setChan s c x).pins = s.pins := by unfold setChan; split <;> rfl
@[simp] theorem setChan_undef (s : State) (c : Nat) (x : Chan) : (setChan s c x).undef = s.undef := by unfold setChan; split <;> rfl
@[simp] theorem setChan_free (s : State) (c : Nat) (x : Chan) : (setChan s c x).free = s.free := by unfold setChan; split <;> rfl
@[simp] theorem setChan_pending (s : State) (c : Nat) (x : Chan) : (setChan s c x).pending = s.pending := by unfold setChan; split <;> rfl

-- setPmuCount

@[simp] theorem setPmuCount_regs (s : State) (k i v : Nat) : (setPmuCount s k i v).regs = s.regs := rfl
@[simp] theorem setPmuCount_tick (s : State) (k i v : Nat) : (setPmuCount s k i v).tick = s.tick := rfl
@[simp] theorem setPmuCount_ports (s : State) (k i v : Nat) : (setPmuCount s k i v).ports = s.ports := rfl
@[simp] theorem setPmuCount_spine (s : State) (k i v : Nat) : (setPmuCount s k i v).spine = s.spine := rfl
@[simp] theorem setPmuCount_slices (s : State) (k i v : Nat) : (setPmuCount s k i v).slices = s.slices := rfl
@[simp] theorem setPmuCount_chans (s : State) (k i v : Nat) : (setPmuCount s k i v).chans = s.chans := rfl
@[simp] theorem setPmuCount_dram (s : State) (k i v : Nat) : (setPmuCount s k i v).dram = s.dram := rfl
@[simp] theorem setPmuCount_faults (s : State) (k i v : Nat) : (setPmuCount s k i v).faults = s.faults := rfl
@[simp] theorem setPmuCount_mirror (s : State) (k i v : Nat) : (setPmuCount s k i v).mirror = s.mirror := rfl
@[simp] theorem setPmuCount_twin (s : State) (k i v : Nat) : (setPmuCount s k i v).twin = s.twin := rfl
@[simp] theorem setPmuCount_seq (s : State) (k i v : Nat) : (setPmuCount s k i v).seq = s.seq := rfl
@[simp] theorem setPmuCount_aon (s : State) (k i v : Nat) : (setPmuCount s k i v).aon = s.aon := rfl
@[simp] theorem setPmuCount_pins (s : State) (k i v : Nat) : (setPmuCount s k i v).pins = s.pins := rfl
@[simp] theorem setPmuCount_undef (s : State) (k i v : Nat) : (setPmuCount s k i v).undef = s.undef := rfl
@[simp] theorem setPmuCount_free (s : State) (k i v : Nat) : (setPmuCount s k i v).free = s.free := rfl
@[simp] theorem setPmuCount_pending (s : State) (k i v : Nat) : (setPmuCount s k i v).pending = s.pending := rfl

-- setStager

@[simp] theorem setStager_regs (s : State) (o : Nat) (x : Stager) : (setStager s o x).regs = s.regs := rfl
@[simp] theorem setStager_tick (s : State) (o : Nat) (x : Stager) : (setStager s o x).tick = s.tick := rfl
@[simp] theorem setStager_ports (s : State) (o : Nat) (x : Stager) : (setStager s o x).ports = s.ports := rfl
@[simp] theorem setStager_spine (s : State) (o : Nat) (x : Stager) : (setStager s o x).spine = s.spine := rfl
@[simp] theorem setStager_slices (s : State) (o : Nat) (x : Stager) : (setStager s o x).slices = s.slices := rfl
@[simp] theorem setStager_chans (s : State) (o : Nat) (x : Stager) : (setStager s o x).chans = s.chans := rfl
@[simp] theorem setStager_dram (s : State) (o : Nat) (x : Stager) : (setStager s o x).dram = s.dram := rfl
@[simp] theorem setStager_faults (s : State) (o : Nat) (x : Stager) : (setStager s o x).faults = s.faults := rfl
@[simp] theorem setStager_mirror (s : State) (o : Nat) (x : Stager) : (setStager s o x).mirror = s.mirror := rfl
@[simp] theorem setStager_twin (s : State) (o : Nat) (x : Stager) : (setStager s o x).twin = s.twin := rfl
@[simp] theorem setStager_seq (s : State) (o : Nat) (x : Stager) : (setStager s o x).seq = s.seq := rfl
@[simp] theorem setStager_aon (s : State) (o : Nat) (x : Stager) : (setStager s o x).aon = s.aon := rfl
@[simp] theorem setStager_pins (s : State) (o : Nat) (x : Stager) : (setStager s o x).pins = s.pins := rfl
@[simp] theorem setStager_undef (s : State) (o : Nat) (x : Stager) : (setStager s o x).undef = s.undef := rfl
@[simp] theorem setStager_free (s : State) (o : Nat) (x : Stager) : (setStager s o x).free = s.free := rfl
@[simp] theorem setStager_pending (s : State) (o : Nat) (x : Stager) : (setStager s o x).pending = s.pending := rfl

-- twinOut

@[simp] theorem twinOut_regs (s : State) (x : TlpOut) : (twinOut s x).regs = s.regs := rfl
@[simp] theorem twinOut_tick (s : State) (x : TlpOut) : (twinOut s x).tick = s.tick := rfl
@[simp] theorem twinOut_ports (s : State) (x : TlpOut) : (twinOut s x).ports = s.ports := rfl
@[simp] theorem twinOut_spine (s : State) (x : TlpOut) : (twinOut s x).spine = s.spine := rfl
@[simp] theorem twinOut_slices (s : State) (x : TlpOut) : (twinOut s x).slices = s.slices := rfl
@[simp] theorem twinOut_chans (s : State) (x : TlpOut) : (twinOut s x).chans = s.chans := rfl
@[simp] theorem twinOut_dram (s : State) (x : TlpOut) : (twinOut s x).dram = s.dram := rfl
@[simp] theorem twinOut_faults (s : State) (x : TlpOut) : (twinOut s x).faults = s.faults := rfl
@[simp] theorem twinOut_mirror (s : State) (x : TlpOut) : (twinOut s x).mirror = s.mirror := rfl
@[simp] theorem twinOut_seq (s : State) (x : TlpOut) : (twinOut s x).seq = s.seq := rfl
@[simp] theorem twinOut_obs (s : State) (x : TlpOut) : (twinOut s x).obs = s.obs := rfl
@[simp] theorem twinOut_aon (s : State) (x : TlpOut) : (twinOut s x).aon = s.aon := rfl
@[simp] theorem twinOut_pins (s : State) (x : TlpOut) : (twinOut s x).pins = s.pins := rfl
@[simp] theorem twinOut_undef (s : State) (x : TlpOut) : (twinOut s x).undef = s.undef := rfl
@[simp] theorem twinOut_free (s : State) (x : TlpOut) : (twinOut s x).free = s.free := rfl
@[simp] theorem twinOut_pending (s : State) (x : TlpOut) : (twinOut s x).pending = s.pending := rfl

-- setCfgByte

@[simp] theorem setCfgByte_regs (s : State) (a : Nat) (v : BitVec 8) : (setCfgByte s a v).regs = s.regs := rfl
@[simp] theorem setCfgByte_tick (s : State) (a : Nat) (v : BitVec 8) : (setCfgByte s a v).tick = s.tick := rfl
@[simp] theorem setCfgByte_ports (s : State) (a : Nat) (v : BitVec 8) : (setCfgByte s a v).ports = s.ports := rfl
@[simp] theorem setCfgByte_spine (s : State) (a : Nat) (v : BitVec 8) : (setCfgByte s a v).spine = s.spine := rfl
@[simp] theorem setCfgByte_slices (s : State) (a : Nat) (v : BitVec 8) : (setCfgByte s a v).slices = s.slices := rfl
@[simp] theorem setCfgByte_chans (s : State) (a : Nat) (v : BitVec 8) : (setCfgByte s a v).chans = s.chans := rfl
@[simp] theorem setCfgByte_dram (s : State) (a : Nat) (v : BitVec 8) : (setCfgByte s a v).dram = s.dram := rfl
@[simp] theorem setCfgByte_faults (s : State) (a : Nat) (v : BitVec 8) : (setCfgByte s a v).faults = s.faults := rfl
@[simp] theorem setCfgByte_mirror (s : State) (a : Nat) (v : BitVec 8) : (setCfgByte s a v).mirror = s.mirror := rfl
@[simp] theorem setCfgByte_seq (s : State) (a : Nat) (v : BitVec 8) : (setCfgByte s a v).seq = s.seq := rfl
@[simp] theorem setCfgByte_obs (s : State) (a : Nat) (v : BitVec 8) : (setCfgByte s a v).obs = s.obs := rfl
@[simp] theorem setCfgByte_aon (s : State) (a : Nat) (v : BitVec 8) : (setCfgByte s a v).aon = s.aon := rfl
@[simp] theorem setCfgByte_pins (s : State) (a : Nat) (v : BitVec 8) : (setCfgByte s a v).pins = s.pins := rfl
@[simp] theorem setCfgByte_undef (s : State) (a : Nat) (v : BitVec 8) : (setCfgByte s a v).undef = s.undef := rfl
@[simp] theorem setCfgByte_free (s : State) (a : Nat) (v : BitVec 8) : (setCfgByte s a v).free = s.free := rfl
@[simp] theorem setCfgByte_pending (s : State) (a : Nat) (v : BitVec 8) : (setCfgByte s a v).pending = s.pending := rfl
-- the units by number

@[simp] theorem slice_setSlice_same (s : State) (n : Nat) (x : Slice) (h : n < 8) : slice (setSlice s n x) n = x := by
  simp [slice, setSlice, h]

theorem slice_setSlice_ne (s : State) {n m : Nat} (x : Slice) (h : m ≠ n) : slice (setSlice s n x) m = slice s m := by
  unfold slice setSlice
  split
  · split <;> simp_all [Ne.symm h]
  · rfl

@[simp] theorem chan_setChan_same (s : State) (c : Nat) (x : Chan) (h : c < 16) : chan (setChan s c x) c = x := by
  simp [chan, setChan, h]

theorem chan_setChan_ne (s : State) {c d : Nat} (x : Chan) (h : d ≠ c) : chan (setChan s c x) d = chan s d := by
  unfold chan setChan
  split
  · split <;> simp_all [Ne.symm h]
  · rfl

@[simp] theorem port_setPort_same (s : State) (n : Nat) (p : Port) (h : n < 24) : port (setPort s n p) n = p := by
  simp [port, setPort, h]

theorem port_setPort_ne (s : State) {n m : Nat} (p : Port) (h : m ≠ n) : port (setPort s n p) m = port s m := by
  unfold port setPort
  split
  · split <;> simp_all [Ne.symm h]
  · rfl

-- registers

/-- The register file is in canonical form. -/
def RegsWf (s : State) : Prop := cellsWf regReset s.regs = true

theorem getReg_setReg_same (s : State) (a : Nat) (v : Word) : getReg (setReg s a v) a = v :=
  cellsGet_set_same s.regs a v

theorem getReg_setReg_ne (s : State) {a b : Nat} (v : Word) (h : b ≠ a) :
    getReg (setReg s a v) b = getReg s b := cellsGet_set_ne s.regs v h

theorem regsWf_setReg {s : State} (w : RegsWf s) (a : Nat) (v : Word) : RegsWf (setReg s a v) := cellsWf_set a v w

theorem regsWf_setFld {s : State} (w : RegsWf s) (a lo n v : Nat) : RegsWf (setFld s a lo n v) := regsWf_setReg w a _

theorem regsWf_setBit {s : State} (w : RegsWf s) (a i : Nat) (b : Bool) : RegsWf (setBit s a i b) := regsWf_setReg w a _

/-- Putting back a range of registers keeps the form. -/
theorem regsWf_resetRegs {s : State} (w : RegsWf s) (lo hi : Nat) : RegsWf (resetRegs s lo hi) := by
  have r := cellsWf_drop (dflt := regReset) (fun a => decide (lo ≤ a) && decide (a < hi)) (lo := 0) w
  simpa [RegsWf, resetRegs, cellsWf] using r

/-- Registers at other offsets are unchanged by a field write. -/
theorem getReg_setFld_ne (s : State) {a b : Nat} (lo n v : Nat) (h : b ≠ a) :
    getReg (setFld s a lo n v) b = getReg s b := getReg_setReg_ne s _ h

theorem getReg_setBit_ne (s : State) {a b : Nat} (i : Nat) (v : Bool) (h : b ≠ a) :
    getReg (setBit s a i v) b = getReg s b := getReg_setReg_ne s _ h

-- fields of a word

/-- A word in three parts: below a field, the field, above it. -/
theorem word_parts (W lo n : Nat) :
    W = 2 ^ lo * (2 ^ n * (W / 2 ^ lo / 2 ^ n) + W / 2 ^ lo % 2 ^ n) + W % 2 ^ lo := by
  rw [Nat.div_add_mod, Nat.div_add_mod]

theorem bitsTo_toNat (w : Word) {lo n : Nat} (v : Nat) (h : lo + n ≤ 32) :
    (bitsTo w lo n v).toNat = 2 ^ lo * (2 ^ n * (w.toNat / 2 ^ lo / 2 ^ n) + v % 2 ^ n) + w.toNat % 2 ^ lo := by
  have p := word_parts w.toNat lo n
  have hw : w.toNat < 2 ^ 32 := w.isLt
  have hn : 0 < 2 ^ n := Nat.two_pow_pos n
  have hl : 0 < 2 ^ lo := Nat.two_pow_pos lo
  have hv : v % 2 ^ n < 2 ^ n := Nat.mod_lt _ hn
  have hm : w.toNat % 2 ^ lo < 2 ^ lo := Nat.mod_lt _ hl
  generalize hq : w.toNat / 2 ^ lo / 2 ^ n = q at *
  have hq2 : q < 2 ^ (32 - lo - n) := by
    rw [← hq, Nat.div_div_eq_div_mul, ← Nat.pow_add]
    apply Nat.div_lt_of_lt_mul
    rw [← Nat.pow_add]
    have e : lo + n + (32 - lo - n) = 32 := by omega
    rw [e]; exact hw
  have hlt : 2 ^ lo * (2 ^ n * q + v % 2 ^ n) + w.toNat % 2 ^ lo < 2 ^ 32 := by
    have e : 2 ^ 32 = 2 ^ lo * (2 ^ n * 2 ^ (32 - lo - n)) := by
      rw [← Nat.pow_add, ← Nat.pow_add]; congr 1; omega
    rw [e]
    have h1 : 2 ^ n * q + v % 2 ^ n + 1 ≤ 2 ^ n * 2 ^ (32 - lo - n) := by
      have : 2 ^ n * q + 2 ^ n ≤ 2 ^ n * 2 ^ (32 - lo - n) := by
        rw [← Nat.mul_succ]; exact Nat.mul_le_mul_left _ hq2
      omega
    have h2 := Nat.mul_le_mul_left (2 ^ lo) h1
    rw [Nat.mul_add] at h2
    omega
  unfold bitsTo bitsOf
  rw [BitVec.toNat_ofNat]
  have e : w.toNat - w.toNat / 2 ^ lo % 2 ^ n * 2 ^ lo + v % 2 ^ n * 2 ^ lo
      = 2 ^ lo * (2 ^ n * q + v % 2 ^ n) + w.toNat % 2 ^ lo := by
    rw [Nat.mul_comm _ (2 ^ lo), Nat.mul_comm (v % 2 ^ n)]
    rw [Nat.mul_add] at p ⊢
    omega
  rw [e, Nat.mod_eq_of_lt hlt]

/-- Bit `i` of a word once a field of it is replaced. -/
theorem bitOf_bitsTo (w : Word) {lo n : Nat} (v i : Nat) (h : lo + n ≤ 32) :
    bitOf (bitsTo w lo n v) i = if lo ≤ i ∧ i < lo + n then v.testBit (i - lo) else bitOf w i := by
  have p := word_parts w.toNat lo n
  have hm : w.toNat % 2 ^ lo < 2 ^ lo := Nat.mod_lt _ (Nat.two_pow_pos lo)
  have hv : v % 2 ^ n < 2 ^ n := Nat.mod_lt _ (Nat.two_pow_pos n)
  have hf : w.toNat / 2 ^ lo % 2 ^ n < 2 ^ n := Nat.mod_lt _ (Nat.two_pow_pos n)
  unfold bitOf
  rw [← BitVec.testBit_toNat, ← BitVec.testBit_toNat, bitsTo_toNat w v h]
  conv => rhs; rw [p]
  rw [Nat.testBit_two_pow_mul_add _ hm, Nat.testBit_two_pow_mul_add _ hv]
  rw [Nat.testBit_two_pow_mul_add _ hm, Nat.testBit_two_pow_mul_add _ hf]
  by_cases h1 : i < lo
  · simp [h1, Nat.not_le.mpr h1]
  · by_cases h2 : i - lo < n
    · have : lo ≤ i ∧ i < lo + n := by omega
      simp [h1, h2, this, Nat.testBit_mod_two_pow]
    · have : ¬ (lo ≤ i ∧ i < lo + n) := by omega
      simp [h1, h2, this]

theorem testBit_bitsOf (w : Word) (lo n i : Nat) : (bitsOf w lo n).testBit i = (decide (i < n) && bitOf w (lo + i)) := by
  unfold bitsOf bitOf
  rw [Nat.testBit_mod_two_pow, Nat.testBit_div_two_pow, ← BitVec.testBit_toNat, Nat.add_comm]

theorem bitsOf_bitsTo_same (w : Word) {lo n : Nat} (v : Nat) (h : lo + n ≤ 32) : bitsOf (bitsTo w lo n v) lo n = v % 2 ^ n := by
  apply Nat.eq_of_testBit_eq
  intro i
  rw [testBit_bitsOf, Nat.testBit_mod_two_pow, bitOf_bitsTo w v _ h]
  by_cases h1 : i < n
  · have : lo ≤ lo + i ∧ lo + i < lo + n := by omega
    simp [h1, this]
  · simp [h1]

/-- Fields that do not overlap the one replaced are unchanged. -/
theorem bitsOf_bitsTo_ne (w : Word) {lo n lo' n' : Nat} (v : Nat) (h : lo + n ≤ 32) (d : lo' + n' ≤ lo ∨ lo + n ≤ lo') :
    bitsOf (bitsTo w lo n v) lo' n' = bitsOf w lo' n' := by
  apply Nat.eq_of_testBit_eq
  intro i
  rw [testBit_bitsOf, testBit_bitsOf, bitOf_bitsTo w v _ h]
  by_cases h1 : i < n'
  · have : ¬ (lo ≤ lo' + i ∧ lo' + i < lo + n) := by omega
    simp [this]
  · simp [h1]

theorem testBit_b2n (b : Bool) : (b2n b).testBit 0 = b := by cases b <;> rfl

-- fields of a register

theorem getFld_setFld_same (s : State) (a : Nat) {lo n : Nat} (v : Nat) (h : lo + n ≤ 32) :
    getFld (setFld s a lo n v) a lo n = v % 2 ^ n := by
  unfold getFld setFld
  rw [getReg_setReg_same, bitsOf_bitsTo_same _ v h]

/-- The other fields of the register are unchanged. -/
theorem getFld_setFld_ne (s : State) (a : Nat) {lo n lo' n' : Nat} (v : Nat) (h : lo + n ≤ 32)
    (d : lo' + n' ≤ lo ∨ lo + n ≤ lo') : getFld (setFld s a lo n v) a lo' n' = getFld s a lo' n' := by
  unfold getFld setFld
  rw [getReg_setReg_same, bitsOf_bitsTo_ne _ v h d]

theorem getFld_setFld_reg_ne (s : State) {a b : Nat} (lo n v lo' n' : Nat) (h : b ≠ a) :
    getFld (setFld s a lo n v) b lo' n' = getFld s b lo' n' := by
  unfold getFld
  rw [getReg_setFld_ne s _ _ _ h]

theorem getBit_setBit_same (s : State) (a : Nat) {i : Nat} (b : Bool) (h : i < 32) :
    getBit (setBit s a i b) a i = b := by
  unfold getBit setBit setFld
  rw [getReg_setReg_same, bitOf_bitsTo _ _ _ (by omega)]
  rw [if_pos ⟨Nat.le_refl i, by omega⟩, Nat.sub_self, testBit_b2n]

theorem getBit_setBit_ne (s : State) (a : Nat) {i j : Nat} (b : Bool) (h : i < 32) (d : j ≠ i) :
    getBit (setBit s a i b) a j = getBit s a j := by
  unfold getBit setBit setFld
  rw [getReg_setReg_same, bitOf_bitsTo _ _ _ (by omega)]
  rw [if_neg (by omega)]

theorem getBit_setBit_reg_ne (s : State) {a b : Nat} (i j : Nat) (v : Bool) (h : b ≠ a) :
    getBit (setBit s a i v) b j = getBit s b j := by
  unfold getBit
  rw [getReg_setBit_ne s _ _ h]

theorem getBit_setFld_ne (s : State) (a : Nat) {lo n i : Nat} (v : Nat) (h : lo + n ≤ 32)
    (d : i < lo ∨ lo + n ≤ i) : getBit (setFld s a lo n v) a i = getBit s a i := by
  unfold getBit setFld
  rw [getReg_setReg_same, bitOf_bitsTo _ _ _ h]
  have : ¬ (lo ≤ i ∧ i < lo + n) := by omega
  simp [this]

theorem getBit_setFld_reg_ne (s : State) {a b : Nat} (lo n v i : Nat) (h : b ≠ a) :
    getBit (setFld s a lo n v) b i = getBit s b i := by
  unfold getBit
  rw [getReg_setFld_ne s _ _ _ h]

/-- A saturating counter never exceeds its field, and never falls. -/
theorem getFld_satAdd (s : State) (a : Nat) {lo n : Nat} (k : Nat) (h : lo + n ≤ 32) :
    getFld (satAdd s a lo n k) a lo n = min (getFld s a lo n + k) (2 ^ n - 1) := by
  unfold satAdd
  rw [getFld_setFld_same s a _ h]
  have := Nat.two_pow_pos n
  exact Nat.mod_eq_of_lt (by omega)

/-- A transition ends in the mode named, with the mode it left in PREV. -/
theorem curMode_enterMode (s : State) (m : Nat) : curMode (enterMode s m) = m % 16 := by
  unfold curMode getFld enterMode
  rw [getReg_setReg_same]
  unfold bitsOf
  rw [BitVec.toNat_ofNat]
  have : curMode s < 2 ^ 4 := Nat.mod_lt _ (by decide)
  omega

-- outcomes

theorem guarded_defined {s : State} (t : State) (h : s.undef = false) : guarded s t = resume s t := by simp [guarded, h]

theorem resume_eq (s t : State) : resume s t = .next { t with pending := s.pending } := rfl

end Sys2Proof.Laws
end

