-- ==== Sys2Proof/Laws/Faults.lean ====
section
/-! SUPPORT. What the report of an event, and the Safe reaction that it may force, leave unchanged: the tick, the pins, DRAM,
the free values, the queue of commands, and whether the block is defined. -/

namespace Sys2Proof.Laws

open Sys2Proof.Machine

/-- `t` has the tick, pins, DRAM, free values, definedness and command queue of `s`. -/
structure Kept (s t : State) : Prop where
  tick : t.tick = s.tick
  pins : t.pins = s.pins
  dram : t.dram = s.dram
  undef : t.undef = s.undef
  free : t.free = s.free
  pending : t.pending = s.pending

theorem Kept.refl (s : State) : Kept s s := ⟨rfl, rfl, rfl, rfl, rfl, rfl⟩

theorem Kept.trans {s t u : State} (a : Kept s t) (b : Kept t u) : Kept s u :=
  ⟨b.tick.trans a.tick, b.pins.trans a.pins, b.dram.trans a.dram, b.undef.trans a.undef, b.free.trans a.free,
   b.pending.trans a.pending⟩

/-- A fold of steps that each keep. -/
theorem Kept.foldl {α : Type} {f : State → α → State} (h : ∀ s a, Kept s (f s a)) : ∀ (l : List α) (s : State), Kept s (l.foldl f s)
  | [], s => Kept.refl s
  | a :: l, s => (h s a).trans (Kept.foldl h l (f s a))

theorem Kept.forEach {f : State → Nat → State} (h : ∀ s n, Kept s (f s n)) (n : Nat) (s : State) : Kept s (forEach n s f) :=
  Kept.foldl h _ s

theorem setReg_kept (s : State) (a : Nat) (v : Word) : Kept s (setReg s a v) := ⟨rfl, rfl, rfl, rfl, rfl, rfl⟩
theorem setFld_kept (s : State) (a lo n v : Nat) : Kept s (setFld s a lo n v) := setReg_kept s a _
theorem setBit_kept (s : State) (a i : Nat) (b : Bool) : Kept s (setBit s a i b) := setReg_kept s a _
theorem satAdd_kept (s : State) (a lo n k : Nat) : Kept s (satAdd s a lo n k) := setReg_kept s a _
theorem enterMode_kept (s : State) (m : Nat) : Kept s (enterMode s m) := setReg_kept s _ _

theorem setPort_kept (s : State) (n : Nat) (p : Port) : Kept s (setPort s n p) := ⟨by simp, by simp, by simp, by simp, by simp, by simp⟩
theorem setSlice_kept (s : State) (n : Nat) (x : Slice) : Kept s (setSlice s n x) := ⟨by simp, by simp, by simp, by simp, by simp, by simp⟩
theorem setChan_kept (s : State) (c : Nat) (x : Chan) : Kept s (setChan s c x) := ⟨by simp, by simp, by simp, by simp, by simp, by simp⟩

theorem twinOut_kept (s : State) (x : TlpOut) : Kept s (twinOut s x) := ⟨rfl, rfl, rfl, rfl, rfl, rfl⟩

theorem wakePme_kept (s : State) : Kept s (wakePme s) := by
  unfold wakePme; simp only []; split
  · exact ⟨rfl, rfl, rfl, rfl, rfl, rfl⟩
  · exact Kept.refl s

theorem setMail_kept (s : State) (mb : Mailbox) (m : Mail) : Kept s (setMail s mb m) := by
  cases mb <;> exact ⟨rfl, rfl, rfl, rfl, rfl, rfl⟩

theorem pushReply_kept (s : State) (mb : Mailbox) (r : List Word) : Kept s (pushReply s mb r) := by
  unfold pushReply; simp only []; split
  · split
    · exact ((setMail_kept _ _ _).trans (setBit_kept _ _ _ _)).trans (wakePme_kept _)
    · exact (setMail_kept _ _ _).trans (setBit_kept _ _ _ _)
  · exact setMail_kept _ _ _

theorem sendReply_kept (s : State) (mb : Mailbox) (hdr : Word) (st : Nat) (d : List Word) : Kept s (sendReply s mb hdr st d) := by
  unfold sendReply; split
  · exact Kept.refl s
  · exact pushReply_kept _ _ _

theorem finishCmd_kept (s : State) (st : Nat) (d : List Word) : Kept s (finishCmd s st d) := by
  unfold finishCmd; split
  · exact Kept.refl s
  · simp only []; split
    · exact ⟨rfl, rfl, rfl, rfl, rfl, rfl⟩
    · exact Kept.trans (t := { s with seq := { s.seq with run := none } }) ⟨rfl, rfl, rfl, rfl, rfl, rfl⟩ (sendReply_kept _ _ _ _ _)

theorem toEgress_kept (s : State) (n : Nat) (m : Msg) (dl : Bool) (prio : BitVec 2) (src : BitVec 5) :
    Kept s (toEgress s n m dl prio src) := setPort_kept _ _ _

theorem fenceBare_kept (s : State) (n : Nat) : Kept s (fenceBare s n) := by constructor <;> simp [fenceBare]

theorem obs_kept (s : State) (x : Obs) : Kept s { s with obs := x } := ⟨rfl, rfl, rfl, rfl, rfl, rfl⟩

theorem safePort_kept (s : State) (n : Nat) : Kept s (safePort s n) :=
  (((fenceBare_kept s n).trans (setPort_kept _ _ _)).trans (obs_kept _ _)).trans
    (Kept.foldl (fun _ _ => toEgress_kept _ _ _ _ _ _) _ _)

theorem sillageMove_kept (s : State) (ws : List (BitVec 64)) : Kept s (sillageMove s ws) :=
  ((obs_kept _ _).trans (satAdd_kept _ _ _ _ _)).trans (setBit_kept _ _ _ _)

theorem sillageDrop_kept (s : State) (lo n : Nat) : Kept s (sillageDrop s lo n) := (satAdd_kept _ _ _ _ _).trans (setBit_kept _ _ _ _)

theorem hwPacket_kept (s : State) (o kind bytes : Nat) (ws : List (BitVec 64)) (lo n : Nat) :
    Kept s (hwPacket s o kind bytes ws lo n) := by
  unfold hwPacket; split
  · exact Kept.refl s
  · simp only []; split
    · exact sillageMove_kept _ _
    · exact sillageDrop_kept _ _ _

theorem closeSlot_kept (s : State) (x : Sample) : Kept s (closeSlot s x) := by
  unfold closeSlot; simp only []; split
  · exact (obs_kept _ _).trans (hwPacket_kept _ _ _ _ _ _ _)
  · exact (obs_kept _ _).trans (hwPacket_kept _ _ _ _ _ _ _)

theorem safeSlice_kept (s : State) (n : Nat) : Kept s (safeSlice s n) := by
  unfold safeSlice
  have h : ∀ (u : State) (l : List XSlot), Kept u (l.foldl (fun s t =>
      forEach 8 s (fun s k => setSlice s k (closeWatches t.src t.taken (slice s k)))) u) :=
    fun u l => Kept.foldl (fun _ _ => Kept.forEach (fun _ _ => setSlice_kept _ _ _) _ _) l u
  refine Kept.trans ?_ (h _ _)
  refine Kept.trans (Kept.foldl closeSlot_kept (s.obs.samples.filter (fun t => t.unit == 32 + n)) s) ?_
  constructor <;> simp

theorem undoPower_kept (s : State) : Kept s (undoPower s) := by
  refine Kept.forEach (fun s n => ?_) 8 s
  simp only []; split
  · exact (setSlice_kept _ _ _).trans (setFld_kept _ _ _ _ _)
  · exact setSlice_kept _ _ _

theorem keepMove_kept (s : State) : Kept s (keepMove s) := by
  unfold keepMove; split
  · split
    · exact ⟨rfl, rfl, rfl, rfl, rfl, rfl⟩
    · exact Kept.refl s
  · exact Kept.refl s

theorem startReclaim_kept (s : State) (a : Nat) : Kept s (startReclaim s a) := by
  unfold startReclaim
  refine Kept.trans ((setPort_kept s a _).trans (setBit_kept _ _ _ _)) (Kept.forEach (fun s k => ?_) 8 _)
  simp only []; split
  · exact setSlice_kept _ _ _
  · exact Kept.refl _

theorem wakeChan_kept (s : State) (c : Nat) : Kept s (wakeChan s c) := by
  unfold wakeChan; simp only []; split
  · exact setChan_kept _ _ _
  · exact Kept.refl s

theorem safeChan_kept (s : State) (c : Nat) : Kept s (safeChan s c) := by
  unfold safeChan; simp only []; split
  · exact (wakeChan_kept _ _).trans (setChan_kept _ _ _)
  · exact setChan_kept _ _ _

theorem seqFaults_kept (s : State) (x : Seq) (y : Faults) : Kept s { s with seq := x, faults := y } := ⟨rfl, rfl, rfl, rfl, rfl, rfl⟩

theorem aon_kept (s : State) (x : Aon) : Kept s { s with aon := x } := ⟨rfl, rfl, rfl, rfl, rfl, rfl⟩

/-- The Safe reaction moves no tick, drives no pin of the boundary, and leaves DRAM as it is. -/
theorem safeEntry_kept (s : State) (u src kind : Nat) (inj : Bool) : Kept s (safeEntry s u src kind inj) := by
  unfold safeEntry
  simp only []
  split
  · exact Kept.refl s
  · refine Kept.trans ?_ (Kept.forEach safeChan_kept 16 _)
    refine Kept.trans ?_ (Kept.forEach safeSlice_kept 8 _)
    refine Kept.trans ?_ (Kept.forEach (fun s n => ?_) 24 _)
    · refine Kept.trans ?_ (Kept.foldl (fun s a => ?_) _ _)
      · refine Kept.trans ?_ (wakePme_kept _)
        refine Kept.trans ?_ (seqFaults_kept _ _ _)
        refine Kept.trans ?_ (enterMode_kept _ 10)
        refine Kept.trans ?_ (finishCmd_kept _ _ _)
        have h : Kept s (keepMove { setReg (setReg (setReg s 0x320004 (BitVec.ofNat 32 (u + 2 ^ 5 * src + 2 ^ 10 * kind + 2 ^ 12 * curMode s
            + 2 ^ 16 * b2n inj + 2 ^ 17 + 2 ^ 18 * drainFrom s))) 0x320008 (BitVec.ofNat 32 (s.tick % 2 ^ 32))) 0x32000C (BitVec.ofNat 32 (s.tick / 2 ^ 32))
            with aon := { s.aon with safe := min (s.aon.safe + 1) (2 ^ 32 - 1) } }) :=
          Kept.trans ((((setReg_kept _ _ _).trans (setReg_kept _ _ _)).trans (setReg_kept _ _ _)).trans (aon_kept _ _)) (keepMove_kept _)
        split
        · exact h
        · exact h.trans (undoPower_kept _)
      · split
        · exact Kept.refl s
        · exact startReclaim_kept s a
    · split
      · exact safePort_kept s n
      · exact Kept.refl s

theorem enterFault_kept (s : State) (u src : Nat) (inj : Bool) : Kept s (enterFault s u src inj) := by
  unfold enterFault; simp only []; split
  · exact (((setBit_kept _ _ _ _).trans (setReg_kept _ _ _)).trans (setReg_kept _ _ _)).trans (setReg_kept _ _ _)
  · exact setBit_kept _ _ _ _

theorem restartQuiet_kept (s : State) : Kept s (restartQuiet s) := by
  unfold restartQuiet; split
  · exact ⟨rfl, rfl, rfl, rfl, rfl, rfl⟩
  · exact Kept.refl s

theorem countEvent_kept (s : State) (u src : Nat) : Kept s (countEvent s u src) :=
  (setBit_kept _ _ _ _).trans (satAdd_kept _ _ _ _ _)

theorem setCount_kept (s : State) (u src : Nat) (c : FltCount) : Kept s (setCount s u src c) := ⟨rfl, rfl, rfl, rfl, rfl, rfl⟩

theorem countedEvent_kept (s : State) (u src : Nat) (inj : Bool) : Kept s (countedEvent s u src inj) := by
  unfold countedEvent
  simp only []
  generalize (if (fltCount s u src).count = 0 then _ else _ : FltCount) = c
  split
  · exact restartQuiet_kept s
  · have h := ((setCount_kept s u src c).trans (enterFault_kept _ u src inj)).trans (restartQuiet_kept _)
    split
    · split
      · exact h.trans (safeEntry_kept _ _ _ _ _)
      · exact h
    · exact setCount_kept _ _ _ _

/-- An event at a fault unit, whatever it leads to, keeps the tick, the pins, DRAM and the queue. -/
theorem eventAt_kept (s : State) (u src : Nat) (inj : Bool) : Kept s (eventAt s u src inj) := by
  unfold eventAt; split
  · exact Kept.refl s
  · exact (countEvent_kept _ _ _).trans (countedEvent_kept _ _ _ _)
  · exact (((countEvent_kept _ _ _).trans (enterFault_kept _ _ _ _)).trans (restartQuiet_kept _)).trans (safeEntry_kept _ _ _ _ _)
  · exact (((countEvent_kept _ _ _).trans (enterFault_kept _ _ _ _)).trans (restartQuiet_kept _)).trans (safeEntry_kept _ _ _ _ _)

theorem report_kept (s : State) (u src : Nat) : Kept s (report s u src) := eventAt_kept s u src false

end Sys2Proof.Laws
end

