-- ==== Sys2Proof/Tests/Slice0.lean ====
section
/-! SUPPORT. Tests: the ill-formed terms that WellFormed refuses, words and values that the manual gives, one-step tests, and
for every statement with hypotheses concrete states and operands that meet them, clause by clause. -/

namespace Sys2Proof.Tests

set_option Elab.async false

open Sys2Proof Sys2Proof.Machine Sys2Proof.Safety

-- states the tests start from

/-- Every port enabled, every slice populated. -/
def straps : Straps := ⟨0xFFFFFF, 0xFF, 0x1234, 0x5678, 0, 0, 0⟩

/-- The block in M3, every domain on, timebase locked, 16 channels active, the control port free. -/
def up : State :=
  { State.reset with
    regs := [(0x10, 3), (0x14, 0xFFFF0007)] ++ (List.range 16).map (fun c => (0x200000 + 0x4000 * c, 0x160))
      ++ [(0x240010, 0x1000), (0x300004, 0x10FF)],
    ports := Vector.replicate 24 { freshPort with fenced := false, inCred := Vector.replicate 6 8, outCred := Vector.replicate 6 8 },
    pins := { freshPins with porstLow := false, live := true, tbRun := true, straps := straps },
    twin := { freshTwin with perstLow := false } }

/-- `up` in mode `m`. -/
def inMode (m : Nat) : State := setReg up 0x10 (BitVec.ofNat 32 m)

/-- `up` in the undefined state. -/
def lost : State := { up with undef := true }

-- well-formedness (R328, R330, R131, R215, R324)

/-- A well-formed write of one byte and a read. -/
def tlpW : MemTlp := ⟨0, 1, [7], [true], 0, 0, false, false⟩
def tlpR : MemTlp := ⟨0, 64, [], [], 0, 0, false, false⟩

theorem test_wf_write : (Instr.inboundMemWrite tlpW).wf = true := by decide
theorem test_wf_read : (Instr.inboundMemRead tlpR).wf = true := by decide
theorem test_ill_formed_empty_tlp : (Instr.inboundMemRead { tlpR with len := 0 }).wf = false := by decide
theorem test_ill_formed_long_tlp : (Instr.inboundMemRead { tlpR with len := 4097 }).wf = false := by decide
theorem test_ill_formed_beyond_bar4 : (Instr.inboundMemRead { tlpR with off := 0xFFFFFFFFFF, len := 2 }).wf = false := by decide
theorem test_ill_formed_enables : (Instr.inboundMemWrite { tlpW with en := [] }).wf = false := by decide
theorem test_ill_formed_payload : (Instr.inboundMemWrite { tlpW with len := 2 }).wf = false := by decide
theorem test_ill_formed_read_with_payload : (Instr.inboundMemRead tlpW).wf = false := by decide
theorem test_ill_formed_poisoned_tlp : (Instr.inboundTlpError (.poisoned { tlpW with len := 2 })).wf = false := by decide
theorem test_ill_formed_line : (Instr.holdWindowExpire 0 ⟨0x21, .clean⟩).wf = false := by decide
theorem test_ill_formed_bar0_offset : (Instr.bar0Access false 2 0).wf = false := by decide
theorem test_ill_formed_config_address : (Instr.configRequest false 1 0 0).wf = false := by decide

-- the statements' hypotheses are met

theorem witness_StepRunsTheFrontCommand : { up with pending := [.tick] }.pending = .tick :: [] ∧ up.pending = [] := by
  decide +kernel

theorem witness_EveryCommandCompletes : up.undef = false ∧ actsAlways .calendarSecond = true ∧
    lost.undef = true ∧ actsAlways .tick = false := by decide +kernel

theorem witness_UndefinedUntilAValidReset : { lost with pending := [.tick] }.undef = true ∧
    { lost with pending := [.tick] }.pending = .tick :: [] ∧ actsAlways .tick = false := by decide +kernel

/-- The state a command leaves, where it completes. -/
def after (c : Instr) (s : State) : State :=
  match exec c s with
  | .next t => t
  | _ => s

theorem witness_UndefinedUntilAValidReset_release :
    (after (.resetRelease false straps 0xF true true) { lost with pins := { lost.pins with porstLow := true } }).undef = false := by
  decide +kernel

theorem witness_FlitsDecodeToWhatWasEncoded : parityOk (0 : BitVec 128) = true ∧ (0 : BitVec 128).getLsbD 31 = false ∧
    (0 : BitVec 128).getLsbD 83 = false ∧ (0 : BitVec 128).extractLsb' 100 24 = 0 ∧ (0 : BitVec 128).extractLsb' 38 10 = 0 ∧
    (0 : BitVec 128).extractLsb' 112 12 = 0 ∧ (0 : BitVec 128).extractLsb' 35 89 = 0 ∧ parityDatOk (0 : BitVec 352) = true ∧
    (0 : BitVec 352).extractLsb' 322 19 = 0 := by decide +kernel

theorem witness_EveryFlitHasEvenParity : up.undef = false ∧ portLive up 23 = true ∧ blotArmed up 1 23 = false ∧
    parityOk (1 : BitVec 128) = false ∧ parityOk (3 : BitVec 128) = true ∧ parityDatOk (1 : BitVec 352) = false ∧
    parityDatOk (3 : BitVec 352) = true ∧ (port up 23).fenced = false := by decide +kernel

theorem witness_AddressDecodeIsABijection : (popChans up).length = 2 ^ chanBits up ∧ 15 ∈ popChans up ∧
    inWindow up (encodeAddr up 15 0 + 63) = true ∧ decodeAddr up 0x80000000 = some (0, 0) ∧
    decodeAddr up 0x80000000 = decodeAddr up 0x8000003F := by decide +kernel

theorem witness_AddressDecode_last_line : inWindow up (0x80000000 + 0x4000000000 - 1) = true ∧
    (decodeAddr up (0x80000000 + 0x4000000000 - 1)).isSome = true ∧ decodeAddr up (0x80000000 + 0x4000000000) = none := by
  decide +kernel

/-- Slice pair 0 in Accord. -/
def joined : State := setReg up 0x300004 0x11FF

theorem witness_FilterPlacesNameTheirLines : (homeOfLine up 15 (2 ^ 28 - 1)).slice = 7 ∧
    pairJoined joined 0 = true ∧ (homeOfLine joined 1 5).slice / 2 = 0 := by decide +kernel

/-- A line of ones. -/
def ones : LineData := BitVec.allOnes 512

/-- `up` with line 5 of channel 3 queued whole. -/
def wrote : State := (wqFull up 3 5 ⟨ones, 0, false⟩ ⟨2, 0, false⟩).1

theorem witness_WritesAreForwarded : (match wrqFind wrote 3 5 with | some e => e.full | none => false) = true ∧
    wrqFind up 3 5 = none ∧ (⟨ones, 0, true⟩ : LineImg).lost = true := by decide +kernel

theorem witness_WritesAreForwarded_frame : 0 ≠ dramKey 3 (5 / 28) (5 % 28) ∧
    (checkLine (initEarly up 3 (5 / 28)) 3 (5 / 28) (5 % 28 / 7) 0 false 2).2.1.bad = false ∧
    (slice up (engineOf up 3)).cc = [] := by decide +kernel

theorem witness_ResetsOfTheCore : { up with pins := { up.pins with porstLow := true } }.pins.porstLow = !false ∧
    { up with pins := { up.pins with porstLow := true } }.pins.brstLow = false ∧ lcDecode 0xFFFF = some 4 ∧ lcDecode 0 = some 0 := by
  decide +kernel

theorem witness_ResetsOfTheCore_brst : { up with pins := { up.pins with brstLow := true } }.pins.porstLow = !true ∧
    { up with pins := { up.pins with brstLow := true } }.pins.brstLow = true ∧ up.pins.needPorst = false := by decide +kernel

theorem witness_SuppliesOfTheBlock : up.pins.coreOn = true ∧ curMode up ≠ 0 ∧ curMode up ≠ 8 ∧ curMode (inMode 8) = 8 ∧
    up.pins.porstLow = false ∧ up.pins.brstLow = false ∧ SupplyCause.railOutOfRange ≠ .coreRiseReleased := by decide +kernel

theorem witness_SuppliesOfTheBlock_rise : { up with pins := { up.pins with coreOn := false } }.pins.coreOn = false ∧
    { up with pins := { up.pins with coreOn := false } }.pins.porstLow = false ∧
    { up with pins := { up.pins with coreOn := false } }.pins.brstLow = false ∧ curMode up ≠ 8 := by decide +kernel

/-- M1, waiting for the PLL. -/
def locking : State := { inMode 1 with seq := { freshSeq with boot := .lock } }

theorem witness_TimebaseCalendarAndTick : Awake locking ∧ curMode locking = 1 ∧ locking.seq.boot = .lock ∧
    locking.seq.exit8 = false := by unfold Awake; decide +kernel

theorem witness_TimebaseCalendarAndTick_run : Ticking up ∧ waitsLock up = false ∧ up.pins.aonClk = true := by
  unfold Ticking Awake; decide +kernel

theorem witness_TimebaseCalendarAndTick_still : { up with pins := { up.pins with aonClk := false } }.pins.aonClk = false ∧
    { up with pins := { up.pins with tbRun := false } }.pins.tbRun = false := by decide +kernel

theorem witness_TimebaseCalendarAndTick_tick : Ticking up ∧ State.reset.undef = false ∧ running State.reset = false ∧
    { up with pins := { up.pins with tbRun := false } }.pins.tbRun = false := by unfold Ticking Awake; decide +kernel

theorem witness_TemperatureAndPace : Ticking up ∧ monitorOn up (.slice 7) = true ∧ (9103 : BitVec 16) ≠ 0 ∧
    paceOf 9103 ≤ 610 ∧ paceOf 9103 ≤ getFld up 0x88 0 10 ∧ getBit up (monitorAt (.slice 7)).2.2.1 10 = false ∧
    getBit up (monitorAt (.slice 7)).2.2.1 11 = false := by unfold Ticking Awake; decide +kernel

theorem witness_TemperatureAndPace_slow_threshold : paceOf 6942 = 590 ∧ getFld up 0x88 0 10 = 590 := by decide +kernel

/-- A temperature is due at tick 0, and has been too high since then. -/
def hot : State := { up with tick := 1000001, pins := { up.pins with tempDue := some 0, hotSince := some 0 } }

theorem witness_TemperatureAndPace_timers : Awake hot ∧ hot.pins.tempDue = some 0 ∧ 0 ≤ hot.tick ∧ hot.pins.hotSince = some 0 ∧
    0 + 1000000 < hot.tick := by unfold Awake; decide +kernel

theorem witness_TemperatureAndPace_canary : Awake up ∧ unitOn up 23 = true ∧ canaryReg 23 = some 0x23C10C ∧
    canaryReg 26 = none ∧ monitorOn State.reset (.slice 0) = false := by unfold Awake; decide +kernel

theorem witness_FusesAndKeys_sample : Ticking up ∧ up.pins.fuseDue ≤ up.tick ∧ up.pins.lcAdvReq = false ∧
    (0xF : BitVec 16) ≠ up.pins.fuse ∧ (lcDecode 0xF).isSome = true ∧ (3 : BitVec 16) ≠ up.pins.fuse ∧
    (lcDecode 3).isSome = false := by unfold Ticking Awake; decide +kernel

/-- In M10, `LC_ADV_REQ` high, its time over. -/
def advancing : State := { inMode 10 with pins := { up.pins with lcAdvReq := true }, seq := { freshSeq with boot := .run } }

theorem witness_FusesAndKeys_handshake : Awake advancing ∧ advancing.pins.lcAdvReq = true ∧ advancing.seq.lcDone = false ∧
    advancing.seq.lcDue ≤ advancing.tick ∧ inSafe advancing = true := by unfold Awake; decide +kernel

/-- The advance to Develop is done and not yet checked; and one whose fuses stand between the two states. -/
def advanced : State :=
  { advancing with pins := { advancing.pins with lcAdvTo := 1, fuseAt := 0, fuse := 7 }, seq := { advancing.seq with lcDone := true } }
def between : State := { advancing with pins := { advancing.pins with lcAdvTo := 1, fuseAt := 0, fuse := 7 } }

theorem witness_FusesAndKeys_check : Ticking advanced ∧ advanced.pins.fuseDue ≤ advanced.tick ∧ advanced.pins.lcAdvReq = true ∧
    advanced.seq.lcDone = true ∧ (7 : BitVec 16) = advanced.pins.fuse ∧ partOfAdvance advanced 0xF = true := by
  unfold Ticking Awake; decide +kernel

theorem witness_FusesAndKeys_timeout : Awake between ∧ between.pins.lcAdvReq = true ∧ between.seq.lcDone = false ∧
    between.seq.lcDue ≤ between.tick ∧ partOfAdvance between between.pins.fuse = true ∧
    (lcDecode between.pins.fuse).isNone = true ∧ (lcDecode advancing.pins.fuse).isSome = true := by unfold Awake; decide +kernel

/-- Both slots with three beats taken, and slot 1 loaded. -/
def keyed : State := { up with pins := { up.pins with keyPart := #v[[4, 5, 6], [1, 2, 3]] } }
def loaded : State := { up with pins := { up.pins with keys := #v[none, some 1] } }

theorem witness_FusesAndKeys_slot_0 : Awake keyed ∧ keyed.pins.keyReq = false ∧ keyed.pins.keys[(0 : Fin 2)] = none ∧
    (keyed.pins.keyPart[(0 : Fin 2)]).length = 3 ∧ Awake loaded ∧ loaded.pins.keyReq = false ∧
    (loaded.pins.keys[(1 : Fin 2)]).isSome = true := by unfold Awake; decide +kernel

theorem witness_FusesAndKeys_beats : Awake up ∧ up.pins.keyReq = false ∧ up.pins.keys[(1 : Fin 2)] = none ∧
    (0 : BitVec 2).toNat = (up.pins.keyPart[(1 : Fin 2)]).length ∧ (0 : BitVec 2).toNat < 3 ∧ Awake keyed ∧
    keyed.pins.keyReq = false ∧ keyed.pins.keys[(1 : Fin 2)] = none ∧ (keyed.pins.keyPart[(1 : Fin 2)]).length = 3 ∧
    (2 : BitVec 2).toNat ≠ (keyed.pins.keyPart[(1 : Fin 2)]).length := by unfold Awake; decide +kernel

theorem witness_RegisterWriteAccess : PortFree up ∧ Reachable up ((0x300000 : BitVec 22).toNat / 4 * 4) := by
  unfold PortFree Awake Reachable; decide +kernel

/-- Slice 1 powered down. -/
def offOne : State := setReg up 0x300004 0x10FD

theorem witness_RegisterWriteAccess_off : PortFree offOne ∧ domainOff offOne ((0x110300 : BitVec 22).toNat / 4 * 4) = true ∧
    getBit offOne 0x50 0 = false ∧ inCfgSpace ((0x318FFC : BitVec 22).toNat / 4 * 4) = true ∧
    offsetKnown ((0x3FFFFC : BitVec 22).toNat / 4 * 4) = false := by unfold PortFree Awake; decide +kernel

theorem witness_RegisterWriteAccess_stands : { up with pins := { up.pins with live := false } }.undef = false ∧
    { up with pins := { up.pins with live := false } }.pins.cpReq = false ∧
    (running up && { up with pins := { up.pins with live := false } }.pins.live) = false ∧
    { up with pins := { up.pins with cpReq := true } }.pins.cpReq = true := by decide +kernel

theorem witness_WriteTouchesWritableBits : (regDesc 0x23C04C).isSome = true ∧ 31 < 32 ∧ 0x23C04C % 0x4000 = 0x4C ∧
    ¬ (31 = 6 ∧ 0x200000 ≤ 0x23C04C ∧ 0x23C04C < 0x240000 ∧ 0x23C04C % 0x4000 = 0x4C) ∧ captureOf 0x23C04C = none ∧
    captureOf 0x23C054 = some (0x23C058, 31) ∧ captureOf 0x3025D4 = some (0x3025D8, 4) ∧ (regDesc 0x3025D4).isSome = true ∧
    getReg (storeReg up 0x3025D4 0xFFFFFFFF) 0x3025D4 = 0 ∧ regDesc 0x3FFFFC = none := by decide +kernel

theorem witness_LoReadCopiesHi : PortFree up ∧ domainOff up (pmuBase 23) = false ∧ domainOff up (pmuBase 0) = false ∧
    Awake up ∧ pmuPowered up 23 = true := by unfold PortFree Awake; decide +kernel

theorem witness_ReadsOnTheControlPort : PortFree up ∧ (0x302000 : BitVec 22).toNat % 4 = 0 ∧ Reachable up (0x302000 : BitVec 22).toNat ∧
    (regDesc 0x302000).isSome = true ∧ Reachable up 0x3025E0 ∧ 0x302000 ≤ 0x3025E0 ∧ 0x3025E0 < 0x302600 := by
  unfold PortFree Awake Reachable; decide +kernel

theorem witness_ReadsOnTheControlPort_slice : PortFree up ∧ slicePwr up 7 = true ∧ lcState up ≠ 1 ∧ lcState up ≠ 3 := by
  unfold PortFree Awake; decide +kernel

/-- In Develop. -/
def develop : State := setReg up 0x44 0x10000

theorem witness_NeighbourRefreshEnable : PortFree up ∧ Reachable up (mcBase 15 + 0x4C) ∧ (0x23C04C : BitVec 22).toNat = mcBase 15 + 0x4C ∧
    lcState up ≠ 1 ∧ lcState up ≠ 3 ∧ PortFree develop ∧ Reachable develop (mcBase 15 + 0x4C) ∧ lcState develop = 1 := by
  unfold PortFree Awake Reachable; decide +kernel

theorem witness_ReadsOnTheControlPort_inspect : PortFree develop ∧ slicePwr develop 7 = true ∧ lcState develop = 1 ∧
    inspected develop 7 = some freeEntry := by unfold PortFree Awake; decide +kernel

theorem witness_TwinRegisterCommands_commit : PortFree up ∧ commitBad up 0xFFFF = false ∧ (0xFFFF : BitVec 16).getLsbD 15 = true ∧
    (0x7FFF : BitVec 16).getLsbD 15 = false ∧ commitBad up 0x7FFF = false ∧
    commitBad (setReg up (winShadow 15 + 4) 0x1FFFF) 0x8000 = true ∧ PortFree (setReg up (winShadow 15 + 4) 0x1FFFF) := by unfold PortFree Awake; decide +kernel

/-- The twin port's domain off. -/
def noTwin : State := setReg (setReg up 0x300004 0xFF) 0x310000 0x156

theorem witness_TwinRegisterCommands_link : PortFree noTwin ∧ getBit noTwin 0x310000 9 = false ∧ twinPwr noTwin = false ∧
    getBit noTwin 0x310000 31 = false := by unfold PortFree Awake; decide +kernel

/-- A drive in the bay. -/
def bay : State := setReg up 0x310044 1

theorem witness_TwinRegisterCommands_bay : PortFree bay ∧ present bay = true ∧ bay.twin.surprise = false := by
  unfold PortFree Awake; decide +kernel

/-- A packet with opcode `op` and parameter words `ws`, whole in its FIFO. -/
def pkt (op : Nat) (ws : List Word) : CmdPkt := ⟨BitVec.ofNat 32 (op + 256 * ws.length), ws, ws.length + 1, 0, false, false⟩

/-- `s` with one packet in the host FIFO. -/
def sent (s : State) (op : Nat) (ws : List Word) : State := setMail s .host { freshMail with cmd := [pkt op ws] }

/-- `s` with a host packet under QUIET. -/
def quietPkt (op : Nat) : CmdPkt := ⟨BitVec.ofNat 32 (op + 2 ^ 24), [], 1, 0, false, false⟩

/-- The FIFOs hold one packet with opcode `op`, and no refusal up to step 7 of R464 applies to it. -/
def Ready (s : State) (op : Nat) (ws : List Word) (r : CmdRule) : Prop :=
  Lone (sent s op ws) .host op (pkt op ws) ∧ Accepts (sent s op ws) .host (pkt op ws) r

theorem witness_ObservabilityRegisters_clear : PortFree up ∧ domainOff up (pmuBase 23) = false := by
  unfold PortFree Awake; decide +kernel

theorem witness_ObservabilityRegisters_enable : PortFree up ∧ getBit up 0x332010 0 = false ∧ getBit up 0x340000 0 = false := by
  unfold PortFree Awake; decide +kernel

/-- The trace stream runs, and the firmware writer has a packet of two words open. -/
def tracing : State := { setReg up 0x340000 0x140C9 with obs := { freshObs with trcLo := 8 } }
def tracingMore : State := setStager tracing 0x20 ⟨[5], 2, false⟩

theorem witness_ObservabilityRegisters_writer : PortFree tracing ∧ trcOn tracing = true ∧ stagerOf tracing 0x20 = ⟨[], 0, false⟩ ∧
    hdrWords (0#32 ++ tracing.obs.trcLo) ≠ 0 ∧ PortFree tracingMore ∧ (stagerOf tracingMore 0x20).words ≠ [] ∧
    tracing.obs.apWait = [] := by unfold PortFree Awake; decide +kernel

/-- Port 23 has a packet open. -/
def tracingAgent : State := setStager tracing 23 ⟨[5], 2, false⟩

theorem witness_ObservabilityRegisters_drop_agents : PortFree tracingAgent ∧ tracingAgent.obs.apWait = [] ∧
    (0x800000 : BitVec 24).getLsbD 23 = true ∧ (stagerOf tracingAgent 23).words ≠ [] ∧ (0x800000 : BitVec 24).getLsbD 0 = false := by
  unfold PortFree Awake; decide +kernel

/-- One record in the log, and one with losses counted. -/
def logged : State := { up with obs := { freshObs with log := [1] } }
def loggedLoss : State := { up with obs := { freshObs with log := [1], loss := 65535 } }

theorem witness_ObservabilityRegisters_pop : PortFree logged ∧ logged.obs.log = 1 :: [] ∧ logged.obs.loss = 0 ∧
    PortFree loggedLoss ∧ loggedLoss.obs.log = 1 :: [] ∧ ([] : List (BitVec 128)).length < 64 ∧ loggedLoss.obs.loss ≠ 0 := by
  unfold PortFree Awake; decide +kernel

/-- A patch of release 1 for ROM release 3 of stepping B1 in the buffer, being verified. -/
def patching : State := { inMode 2 with seq := { freshSeq with patchBusy := true, patch := [(0, 0x50415443), (1, 0x3B1), (2, 1)] } }

theorem witness_EveryStepKeepsCanonicalForm : Canonical { up with pending := [.tick] } ∧
    step { up with pending := [.tick] } = .next (after .tick up) := by
  refine ⟨by unfold Canonical; decide +kernel, ?_⟩
  rfl

theorem witness_MailboxesAndPatches_patches : PortFree (inMode 2) ∧ (curMode (inMode 2) = 1 ∨ curMode (inMode 2) = 2) ∧
    PortFree up ∧ curMode up ≠ 1 ∧ curMode up ≠ 2 ∧ Awake patching ∧ patching.seq.patchBusy = true ∧ patchResult patching true = 0 ∧
    patchResult patching false ≠ 0 := by unfold PortFree Awake; decide +kernel

/-- A link that is up in D0 with memory space and bus mastering enabled. -/
def linked : State := { up with twin := { up.twin with up := true, speed := 5, width := 4, cfg := [(4, 6)] } }

/-- Replies: one word to read, and one that waits. -/
def replying : State := { linked with seq := { freshSeq with host := ⟨[], [7], []⟩, partner := ⟨[], [9], []⟩ } }
def holding : State := { up with seq := { freshSeq with host := ⟨[], List.replicate 255 0, [[1]]⟩ } }

theorem witness_MailboxesAndPatches_write : PortFree up ∧ readyLink up = true ∧ up.seq.host.cmd = [] ∧ up.seq.partner.cmd = [] ∧
    hdrLength 0x0101 ≠ 0 ∧ Awake linked ∧ claimsMemory linked = true ∧ readyLink linked = true ∧ linked.seq.host.cmd = [] ∧
    linked.seq.partner.cmd = [] ∧ hdrLength 0x1F31 ≠ 0 ∧ hdrLength 0x1F31 ≤ 31 := by unfold PortFree Awake; decide +kernel

theorem witness_MailboxesAndPatches_read : PortFree replying ∧ replying.seq.host.reply = 7 :: [] ∧ Awake replying ∧
    claimsMemory replying = true ∧ replying.seq.partner.reply = 9 :: [] := by unfold PortFree Awake; decide +kernel

theorem witness_MailboxesAndPatches_move : Awake holding ∧ holding.seq.host.held = [1] :: [] ∧
    holding.seq.host.reply.length + ([1] : List Word).length ≤ 256 ∧ holding.seq.host.cmd = [] ∧ holding.seq.partner.cmd = [] := by
  unfold Awake; decide +kernel

theorem witness_TwinLinkResetsAndTraining_resets : Awake linked ∧ linked.twin.perstLow = false ∧ twinPwr linked = true ∧
    (linked.twin.up || linked.twin.training) = true ∧ linked.twin.up = true ∧ Awake noTwin ∧ noTwin.twin.perstLow = false ∧
    twinPwr noTwin = false ∧ { linked with twin := { linked.twin with perstLow := true } }.twin.perstLow = true ∧
    State.reset.undef = false ∧ running State.reset = false := by unfold Awake; decide +kernel

/-- The link in training. -/
def trainingLink : State := { up with twin := { up.twin with training := true } }

theorem witness_TwinLinkResetsAndTraining_training : up.undef = false ∧ linkPermitted up = true ∧ up.twin.up = false ∧
    trainingLink.undef = false ∧ linkPermitted trainingLink = true ∧ trainingLink.twin.training = true := by decide +kernel

/-- An FLR under way. -/
def resetting : State := { linked with twin := { linked.twin with flrDue := some 5 } }

theorem witness_FunctionResetAndConfiguration : Awake linked ∧ linked.twin.up = true ∧ linked.twin.flrDue = none ∧
    Awake resetting ∧ resetting.twin.up = true ∧ resetting.twin.flrDue.isSome = true ∧ (0xFFC : BitVec 12).toNat / 4 * 4 ≠ 4 ∧
    (0xFFC : BitVec 12).toNat / 4 * 4 ≠ 0x44 ∧ (0xFFC : BitVec 12).toNat / 4 * 4 ≠ 0x78 ∧
    flrKeeps 0x4 = false ∧ ¬ (0x1A8 ≤ (0xFFC : BitVec 12).toNat / 4 * 4 ∧ (0xFFC : BitVec 12).toNat / 4 * 4 ≤ 0x1B4) ∧
    ¬ (0x1A8 ≤ (0x1A7 : BitVec 12).toNat / 4 * 4) ∧ (linked.twin.up || linked.twin.training) = true := by unfold Awake; decide +kernel

/-- A Lead with an enabled window in step. -/
def lead : State := setReg (setReg linked 0x310060 1) (mwBase 15 + 0xC) 5

theorem witness_TwinPowerAndBay_bus_master : Awake lead ∧ lead.twin.up = true ∧ lead.twin.flrDue = none ∧ busMaster lead = true ∧
    mwEn lead 15 = true ∧ mwState lead 15 = 1 := by unfold Awake; decide +kernel

/-- L1 enabled by Link Control. -/
def aspm : State := { linked with twin := { linked.twin with cfg := [(4, 6), (0x80, 2)] } }

theorem witness_TwinPowerAndBay_power : Awake linked ∧ linked.twin.d3 = false ∧ Awake aspm ∧ aspm.twin.up = true ∧
    aspm.twin.d3 = false ∧ bitOf (cfgRead aspm 0x80) 1 = true ∧ aspm.mirror.queue = [] ∧ (∀ j ∈ aspm.twin.jobs, j.write = true) ∧
    linked.twin.up = true ∧ linked.twin.flrDue = none := by unfold Awake; decide +kernel

/-- A module under power, and one in D3hot. -/
def powered : State := { setReg up 0x310044 1 with pins := { up.pins with pwrEn := true } }
def asleep : State := { linked with twin := { linked.twin with d3 := true } }

theorem witness_TwinPowerAndBay_removal : Ticking powered ∧ present powered = true ∧ powered.pins.pwrEn = true ∧
    Ticking asleep ∧ asleep.twin.up = true ∧ asleep.twin.d3 = true := by unfold Ticking Awake; decide +kernel

/-- LINK_EN 0 with the domain still on and nothing in flight. -/
def quietTwin : State := setReg up 0x310000 0x156

theorem witness_TwinPowerAndBay_domain : Awake quietTwin ∧ twinPwr quietTwin = true ∧ getBit quietTwin 0x310000 9 = false ∧
    twinQuiet quietTwin = true ∧ quietTwin.twin.inbox = [] := by unfold Awake; decide +kernel

/-- Late enough for both blink phases. -/
def late : State := { up with tick := 320000000 }

theorem witness_TwinPowerAndBay_bay : Ticking up ∧ present up = !true ∧ up.pins.pwrEn = false ∧ up.twin.d3 = false ∧
    Ticking late ∧ comparatorTurn late 4 = true ∧ late.twin.blinkDue ≤ late.tick ∧ faultBlinks late = false ∧
    ledsOut late = true ∧ ledsOut State.reset = false := by
  unfold Ticking Awake; decide +kernel

theorem witness_TwinPowerAndBay_fault_blink : Ticking { late with tick := 80000000 } ∧
    comparatorTurn { late with tick := 80000000 } 5 = true ∧ { late with tick := 80000000 }.twin.fltBlinkDue ≤ 80000000 ∧
    faultBlinks (setReg (setReg late 0x340070 1) (fltBase 26 + 4) 1) = true ∧
    ledsOut (setReg (setReg late 0x340070 1) (fltBase 26 + 4) 1) = true := by
  unfold Ticking Awake; decide +kernel

/-- Inbound window 0 open for reads and writes, 2 MiB at offset 0 of BAR4 onto block 0x400. -/
def windowed : State := setReg (setReg (setReg linked (winActive 0) 0) (winActive 0 + 8) 0x400) (winActive 0 + 0xC) 7

theorem witness_InboundTlps_window : Awake windowed ∧ claimsMemory windowed = true ∧ tlpW.ep = false ∧
    tlpW.off.toNat + tlpW.len ≤ bar4Size windowed ∧ windowOf windowed tlpW.off.toNat tlpW.len = some 0 ∧
    getBit windowed (winActive 0 + 0xC) 2 = true ∧ inSafe windowed = false ∧ tlpCredit windowed true tlpW = true ∧
    tlpCredit windowed false tlpR = true ∧
    tlpLines true (getFld windowed (winActive 0 + 8) 0 27 * 2 ^ 21 + tlpW.off.toNat - getFld windowed (winActive 0) 0 17 * 2 ^ 21) tlpW ≠ [] := by
  unfold Awake; decide +kernel

theorem witness_InboundTlps_read : windowOf windowed (2 ^ 21 - 64) 64 = some 0 ∧ windowOf windowed (2 ^ 21 - 63) 64 = none ∧
    tlpR.ep = false ∧ getBit windowed (winActive 0 + 0xC) 1 = true ∧
    tlpLines false (getFld windowed (winActive 0 + 8) 0 27 * 2 ^ 21 + tlpR.off.toNat - getFld windowed (winActive 0) 0 17 * 2 ^ 21) tlpR ≠ [] := by
  decide +kernel

/-- `windowed` with window 0 closed for reads and writes, and with the ECRC check on. -/
def barred : State := setReg windowed (winActive 0 + 0xC) 1
def checked : State := { linked with twin := { linked.twin with cfg := [(4, 6), (0x119, 1)] } }

theorem witness_InboundTlps_refused : Awake linked ∧ linkDead linked = false ∧ tlpCredit linked true tlpW = true ∧
    windowOf linked tlpW.off.toNat tlpW.len = none ∧ Awake barred ∧ claimsMemory barred = true ∧ tlpCredit barred false tlpR = true ∧
    tlpR.off.toNat + tlpR.len ≤ bar4Size barred ∧ windowOf barred tlpR.off.toNat tlpR.len = some 0 ∧
    getBit barred (winActive 0 + 0xC) 1 = false ∧ getBit barred (winActive 0 + 0xC) 2 = false ∧
    Awake checked ∧ linkDead checked = false ∧ bitOf (cfgRead checked 0x118) 8 = true := by unfold Awake; decide +kernel

theorem witness_InboundTlps_bar0 : Awake linked ∧ linkDead linked = false ∧ claimsMemory linked = true ∧ 5 < 6 ∧ 15 < 16 := by
  unfold Awake; decide +kernel

/-- A read TLP of one line in its window. -/
def job : TlpJob := ⟨0, false, 0, 3, false, [], 0x80000000, 64, 7, [⟨0x80000000, 0, 0, false⟩], 0, [], false⟩
def withJob : State := { linked with twin := { linked.twin with jobs := [job] } }

theorem witness_TwinLinesAndReads_issue : Awake withJob ∧ twinPwr withJob = true ∧ inSafe withJob = false ∧ Awake (inMode 10) ∧
    twinPwr (inMode 10) = true ∧ inSafe (inMode 10) = true ∧
    (∀ x ∈ withJob.twin.txns, (x.held && x.grant) = false) ∧
    firstFree 128 (withJob.twin.txns.map (fun t => t.txn.toNat)) = some 0 ∧ nextJob [] withJob.twin.jobs = some job ∧
    job.lines[job.next]? = some ⟨0x80000000, 0, 0, false⟩ ∧ (homeOf withJob 0x80000000).isSome = true := by unfold Awake; decide +kernel

/-- A refusal of the twin port's request 0 has arrived. -/
def retryRsp : Rsp := ⟨5, 0, 0, 0, 0, 0, 0, 0, false⟩
def pktOf (m : Msg) (src : BitVec 5) : Packet := ⟨0, 0, 0, src, false, 0, 0, 0, 0, false, false, 0, m⟩
def twinTxn : TwinTxn := jobTxn job 0 ⟨0x80000000, 0, 0, false⟩
def refusedTwin : State :=
  { linked with twin := { linked.twin with jobs := [job], txns := [twinTxn], inbox := [⟨pktOf (.rsp retryRsp) 0, false, 0⟩] } }

theorem witness_TwinLinesAndReads_refused : Awake refusedTwin ∧
    refusedTwin.twin.inbox = ⟨pktOf (.rsp retryRsp) 0, false, 0⟩ :: [] ∧ retryRsp.opcode = 5 ∧
    refusedTwin.twin.txns = [twinTxn] ∧ twinTxn.txn = retryRsp.txn ∧ twinTxn.done = none := by unfold Awake; decide +kernel

/-- A mirrored line has arrived. -/
def mirrored : State := { linked with twin := { linked.twin with inbox := [⟨pktOf (.mirror 15 0x80000000 ⟨0, 0, false⟩ true 1) 0, false, 0⟩] } }

theorem witness_TwinLinesAndReads_mirror : Awake mirrored ∧
    mirrored.twin.inbox = ⟨pktOf (.mirror 15 0x80000000 ⟨0, 0, false⟩ true 1) 0, false, 0⟩ :: [] ∧
    msgIsMirror (pktOf (.mirror 15 0x80000000 ⟨0, 0, false⟩ true 1) 0).msg = true := by unfold Awake; decide +kernel

/-- The line watched for heartbeats has arrived. -/
def watched : State := { linked with twin := { linked.twin with inbox := [⟨pktOf (.watched 5) 0, false, 0⟩] } }

theorem witness_TwinLinesAndReads_watched : Awake watched ∧ watched.twin.inbox = ⟨pktOf (.watched 5) 0, false, 0⟩ :: [] ∧
    (pktOf (.watched 5) 0).msg = .watched 5 := by unfold Awake; decide +kernel

/-- A mastered read under tag 255 since tick 0, its time over. -/
def reading : State := { linked with tick := 100000000000, twin := { linked.twin with rdTags := [(255, 0)] } }

theorem witness_TwinLinesAndReads_reads : Awake reading ∧ linkDead reading = false ∧
    reading.twin.rdTags.any (fun t => t.1 == 255) = true ∧ reading.mirror.flushTag ≠ some 255 ∧
    reading.twin.rdTags.find? (fun t => t.1 == 255) = some (255, 0) ∧ cplDisabled reading = false ∧
    0 + cplTimeout reading ≤ reading.tick := by unfold Awake; decide +kernel

/-- A heartbeat, and a poisoned line, at the head of the mirror queue. -/
def mline : MirLine := ⟨15, 0x80000000, ⟨ones, 1, false⟩, true, 0, 0, false⟩
def beating : State := { lead with mirror := { freshMirror with queue := [.beat 0] } }
def poisoned : State := { lead with mirror := { freshMirror with queue := [.line mline] } }

theorem witness_MirrorWritesAndCopier_send : Awake beating ∧ linkUsable beating = true ∧
    beating.mirror.queue = .beat 0 :: [] ∧ lineNat 0 10 1 % 2 = 0 ∧ Awake poisoned ∧ linkUsable poisoned = true ∧
    poisoned.mirror.queue = .line mline :: [] ∧ sendsAlone mline = true := by unfold Awake; decide +kernel

/-- Window 15 behind with granule 7 dirty. -/
def behind : State :=
  { setReg lead (mwBase 15 + 0xC) 9 with mirror := { freshMirror with dirty := 0x80 } }

theorem witness_MirrorWritesAndCopier_copier : Awake behind ∧ twinPwr behind = true ∧ twinRole behind = 1 ∧
    behind.mirror.copyGran = none ∧ inSafe behind = false ∧ nextGranule (mirrorRecover behind) = some (15, 7) := by unfold Awake; decide +kernel

/-- A synchronous line sent; and one that has waited ten milliseconds. -/
def flushing : State := { lead with mirror := { freshMirror with sent := [{ mline with img := ⟨ones, 0, false⟩ }] } }
def waitedLong : State := { flushing with tick := 10000000 }

theorem witness_FlushesAndHeartbeats_flush : Awake flushing ∧ linkUsable flushing = true ∧ flushing.mirror.flushTag = none ∧
    flushing.mirror.sent.any (·.sync) = true ∧
    firstFree 256 (flushing.twin.rdTags.map (fun t => t.1.toNat) ++ flushing.twin.quar.map (fun t => t.1.toNat)) = some 0 ∧
    Awake waitedLong ∧ syncLate waitedLong = true ∧ mline.sync = true ∧ mwGranule waitedLong mline.window mline.addr.toNat < 131072 := by
  unfold Awake; decide +kernel

/-- The heartbeat to send is due, the watch for the partner's not yet. -/
def leadTx : State := { lead with mirror := { freshMirror with hbRxDue := 1 } }

/-- The same with the link down; and after a surprise removal. -/
def leadDown : State := { leadTx with twin := { leadTx.twin with up := false } }
def leadGone : State := { leadTx with twin := { leadTx.twin with surprise := true } }

/-- One miss seen, and two. -/
def missed : State := setReg lead 0x310084 1
def missedTwo : State := setReg lead 0x310084 2

theorem witness_FlushesAndHeartbeats_dropped : Ticking leadDown ∧ twinRole leadDown ≠ 0 ∧ comparatorTurn leadDown 2 = true ∧
    leadDown.mirror.hbTxDue ≤ leadDown.tick ∧ linkUsable leadDown = false ∧ leadGone.twin.surprise = true ∧
    leadTx.twin.surprise = false ∧ Ticking missedTwo ∧ twinRole missedTwo ≠ 0 ∧ comparatorTurn missedTwo 1 = true ∧
    missedTwo.mirror.hbRxDue ≤ missedTwo.tick ∧ 2 ≤ getFld missedTwo 0x310084 0 2 := by unfold Ticking Awake; decide +kernel

theorem witness_FlushesAndHeartbeats_timers : Ticking leadTx ∧ twinRole leadTx ≠ 0 ∧ comparatorTurn leadTx 2 = true ∧
    leadTx.mirror.hbTxDue ≤ leadTx.tick ∧ linkUsable leadTx = true ∧ Ticking missed ∧ twinRole missed ≠ 0 ∧
    comparatorTurn missed 1 = true ∧ missed.mirror.hbRxDue ≤ missed.tick ∧ getFld missed 0x310084 0 2 < 2 := by
  unfold Ticking Awake; decide +kernel

-- command packets

theorem witness_PacketsAreTakenOrRefused_refused : packetRule (.wipe .host) = some (.host, 0x49, wipeRule) ∧
    Lone (sent up 0x49 [1]) .host 0x49 (pkt 0x49 [1]) ∧
    refusalOf (popPkt (sent up 0x49 [1]) .host) .host (pkt 0x49 [1]) wipeRule = some stBadParam := by
  refine ⟨rfl, ?_⟩
  unfold Lone Awake
  decide +kernel

theorem witness_PacketsAreTakenOrRefused_taken : packetRule (.wipe .host) = some (.host, 0x49, wipeRule) ∧
    Ready up 0x49 [] wipeRule := by
  refine ⟨rfl, ?_⟩
  unfold Ready Lone Accepts Awake
  decide +kernel

theorem witness_PacketsAreTakenOrRefused_partner : partnerForm up (pkt 0x49 []) = false ∧
    partnerForm (setReg up 0x350014 0x107D0) (pkt 0x01 []) = true := by decide +kernel

theorem witness_PacketsAreTakenOrRefused_busy : (pkt 0x49 []).torn = false ∧ bitsOf (pkt 0x49 []).hdr 25 7 = 0 ∧
    wipeRule.shape up (hdrLength (pkt 0x49 []).hdr) (pkt 0x49 []).stored = true ∧ wipeRule.long = true ∧
    { up with seq := { freshSeq with run := some ⟨.host, 0x02, [2], 1, none, 0, false, 1⟩ } }.seq.run.isSome = true := by
  decide +kernel

theorem witness_InformationAndSettingPackets_information : Ready up 0x01 [] getInfoRule ∧ Ready up 0x03 [] getModeRule ∧
    Ready up 0x21 [63] regionGetRule ∧ bitOf (pkt 0x01 []).hdr 24 = false ∧ bitsOf (paramOf [63] 1) 0 6 = 63 ∧
    (mailOf up .host).reply.length + 7 ≤ mailCap .host ∧ bitOf (pkt 0x03 []).hdr 24 = false ∧ bitOf (pkt 0x21 [63]).hdr 24 = false := by
  unfold Ready Lone Accepts Awake; decide +kernel

theorem witness_InformationAndSettingPackets_quiet : Lone (setMail up .host { freshMail with cmd := [quietPkt 0x03] }) .host 0x03
    (quietPkt 0x03) ∧ Accepts (setMail up .host { freshMail with cmd := [quietPkt 0x03] }) .host (quietPkt 0x03) getModeRule ∧
    bitOf (quietPkt 0x03).hdr 24 = true := by unfold Lone Accepts Awake; decide +kernel

theorem witness_InformationAndSettingPackets_settings : Ready up 0x12 [0x18000, 1] scrubCtlRule ∧
    Ready up 0x42 [1, 2] calendarSetRule ∧ Ready up 0x51 [26, 1] faultClearRule ∧ Ready up 0x60 [23] agentFenceRule ∧
    bitsOf (paramOf [23] 1) 0 5 < 24 ∧ portEnabled up 23 = true ∧ slicePop up (15 / 2) = true ∧
    bitOf (paramOf [0x18000] 1) 15 = true := by unfold Ready Lone Accepts Awake; decide +kernel

theorem witness_InformationAndSettingPackets_blotter : Ready up 0x50 [0x11A0C, 1, 0] blotterArmRule ∧ getBit up 0x320018 0 = false ∧
    bitsOf (paramOf [0x11A0C] 1) 8 5 < checkerInstances (bitsOf (paramOf [0x11A0C] 1) 0 6) := by
  unfold Ready Lone Accepts Awake
  decide +kernel

/-- The four words of a slot table. -/
def tableWords (t : SlotTable) : List Word := (List.range 4).map (fun i => BitVec.ofNat 32 (t.slots.toNat / 2 ^ (32 * i)))

/-- A table for channel 15 in M4 with L 1, the same for M3, one with all reserved slots gone, and budgets of slice 7 for M3. -/
def goodTable : List Word := 0x300004 :: tableWords (defaultTable 31)
def usedTable : List Word := 0x300003 :: tableWords (defaultTable 31)
def badTable : List Word := [0x300004, 0, 0, 0, 0]
def goodBudgets : List Word := 0x0E000013 :: List.replicate 24 0x0101

theorem witness_SlotTablesAndLedger_table : Ready up 0x58 goodTable slotTableLoadRule ∧ bitOf (paramOf goodTable 1) 4 = false ∧
    bitsOf (paramOf goodTable 1) 0 4 = 4 ∧
    (loadTables goodTable).any (tableRefused (popPkt (sent up 0x58 goodTable) .host) 4) = false ∧
    ratesFit ((loadTables goodTable).foldl (fun s x => storeTable s 4 x) (popPkt (sent up 0x58 goodTable) .host)) 4 = true ∧
    swapPending up = false ∧ tableMode (curMode up) ≠ 4 := by unfold Ready Lone Accepts Awake; decide +kernel

theorem witness_SlotTablesAndLedger_in_use : Ready up 0x58 usedTable slotTableLoadRule ∧ bitOf (paramOf usedTable 1) 4 = false ∧
    bitsOf (paramOf usedTable 1) 0 4 = 3 ∧
    (loadTables usedTable).any (tableRefused (popPkt (sent up 0x58 usedTable) .host) 3) = false ∧
    ratesFit ((loadTables usedTable).foldl (fun s x => storeTable s 3 x) (popPkt (sent up 0x58 usedTable) .host)) 3 = true ∧
    swapPending up = false ∧ tableMode (curMode up) = 3 := by unfold Ready Lone Accepts Awake; decide +kernel

theorem witness_SlotTablesAndLedger_refused : Ready up 0x58 badTable slotTableLoadRule ∧ bitOf (paramOf badTable 1) 4 = false ∧
    (loadTables badTable).any (tableRefused (popPkt (sent up 0x58 badTable) .host) 4) = true := by
  unfold Ready Lone Accepts Awake; decide +kernel

theorem witness_SlotTablesAndLedger_budgets : Ready up 0x58 goodBudgets slotTableLoadRule ∧
    bitOf (paramOf goodBudgets 1) 4 = true ∧ bitsOf (paramOf goodBudgets 1) 0 4 = 3 ∧ bitsOf (paramOf goodBudgets 1) 25 3 = 7 ∧
    (List.range 24).any (fun i => bitsOf (loadBudget goodBudgets i) 8 8 == 0) = false ∧
    ratesFit (storeBudgets (popPkt (sent up 0x58 goodBudgets) .host) 3 7 goodBudgets) 3 = true ∧
    tableMode (curMode up) = 3 := by unfold Ready Lone Accepts Awake; decide +kernel

/-- Key slots 0 and 1 hold the key 0, in Develop. -/
def keysIn : State := { setReg up 0x44 0x10300 with pins := { up.pins with keys := #v[some 0, some 0] } }

/-- A record with serial number 0, and the same with its tag. -/
def record : List Word := List.replicate 124 0
def tagged : List Word := record ++ ledgerTag keysIn record

theorem witness_SlotTablesAndLedger_export : Ready keysIn 0x40 [] ledgerExportRule := by
  unfold Ready Lone Accepts Awake; decide +kernel

theorem witness_SlotTablesAndLedger_import_denied : Ready keysIn 0x41 (List.replicate 128 0xFFFFFFFF) ledgerImportRule := by
  unfold Ready Lone Accepts Awake; decide +kernel

theorem witness_SlotTablesAndLedger_import_denied_serial :
    recordRefused (popPkt (sent keysIn 0x41 (List.replicate 128 0xFFFFFFFF)) .host) (List.replicate 128 0xFFFFFFFF) = true := by
  have h : ((List.replicate 128 (0xFFFFFFFF : Word)).getD 5 0 ++ (List.replicate 128 (0xFFFFFFFF : Word)).getD 4 0
      != (popPkt (sent keysIn 0x41 (List.replicate 128 0xFFFFFFFF)) .host).pins.straps.sn) = true := by decide +kernel
  unfold recordRefused
  rw [h]
  simp

theorem tagged_take : tagged.take 124 = record := by
  unfold tagged; rw [List.take_left' (by simp [record])]

theorem tagged_drop : tagged.drop 124 = ledgerTag keysIn record := by
  unfold tagged; rw [List.drop_left' (by simp [record])]

theorem witness_SlotTablesAndLedger_import : recordRefused keysIn tagged = false := by
  unfold recordRefused
  rw [tagged_take, tagged_drop]
  have h : (tagged.getD 5 0 ++ tagged.getD 4 0 != keysIn.pins.straps.sn) = false := by
    unfold tagged
    rw [List.getD_eq_getElem?_getD, List.getD_eq_getElem?_getD, List.getElem?_append_left (by simp [record]),
      List.getElem?_append_left (by simp [record])]
    decide +kernel
  have k : getBit keysIn 0x37000C 0 = false := by decide +kernel
  rw [h, k]
  simp

theorem witness_RegionAndRealmPackets_refused : Ready up 0x20 [1, 0x400, 0x401, 0x43, 0] regionSetRule ∧
    setRefused (popPkt (sent up 0x20 [1, 0x400, 0x401, 0x43, 0]) .host) [1, 0x400, 0x401, 0x43, 0] = true := by
  unfold Ready Lone Accepts Awake; decide +kernel

theorem witness_RegionAndRealmPackets_set : Ready up 0x20 [0, 0x400, 0x7FFFFFE, 0xC3, 0] regionSetRule ∧
    setRefused (popPkt (sent up 0x20 [0, 0x400, 0x7FFFFFE, 0xC3, 0]) .host) [0, 0x400, 0x7FFFFFE, 0xC3, 0] = false := by
  unfold Ready Lone Accepts Awake; decide +kernel

theorem witness_RegionAndRealmPackets_realms : Ready keysIn 0x28 [63] realmOpenRule ∧ Ready keysIn 0x29 [63] realmRetireRule ∧
    realmParam [63] = 63 ∧ realmNamed keysIn 63 = false := by unfold Ready Lone Accepts Awake; decide +kernel

theorem witness_RoleAndModePackets_roles : Ready up 0x30 [2] mirrorCfgRule ∧ bitOf (paramOf [2] 1) 4 = false ∧
    bitOf (paramOf [2] 1) 2 = false ∧ bitsOf (paramOf [2] 1) 0 2 = 2 ∧ twinRole up ≠ 1 ∧ 2 ≠ 1 ∧ Ready up 0x31 [2] failoverRule ∧
    Ready lead 0x30 [1] mirrorCfgRule ∧ Ready up 0x31 [1] failoverRule ∧ bitsOf (paramOf [1] 1) 0 2 = 1 := by
  unfold Ready Lone Accepts Awake; decide +kernel

theorem witness_RoleAndModePackets_windows : Ready up 0x30 [0x80000010, 0, 0, 0, 0, 5, 4, 0] mirrorCfgRule ∧
    bitOf (paramOf [0x80000010] 1) 4 = true ∧
    windowsRefused (popPkt (sent up 0x30 [0x80000010, 0, 0, 0, 0, 5, 4, 0]) .host) (winSpecs [0x80000010, 0, 0, 0, 0, 5, 4, 0]) = true := by
  unfold Ready Lone Accepts Awake; decide +kernel

theorem witness_RoleAndModePackets_modes : Ready up 0x02 [8] setModeRule ∧ Ready up 0x02 [2] setModeRule ∧
    Ready (inMode 2) 0x02 [2] setModeRule ∧ Ready up 0x02 [5] setModeRule ∧ modeParam [8] = 8 ∧ modeChans [8] = [] ∧
    runMode (modeParam [5]) = true ∧ modeChans [5] = [] := by unfold Ready Lone Accepts Awake; decide +kernel

theorem witness_RoleAndModePackets_wipe : Ready up 0x49 [] wipeRule ∧ curMode up ≠ 10 ∧ Ready (inMode 10) 0x49 [] wipeRule ∧
    curMode (inMode 10) = 10 ∧ Ready up 0x48 [4] lifecycleAdvanceRule ∧ lcState up < 4 ∧ bitsOf (paramOf [4] 1) 0 3 = 4 := by
  unfold Ready Lone Accepts Awake; decide +kernel

/-- M2 with channel 15 untrained. -/
def untrained : State := setReg (inMode 2) (mcBase 15) 0

theorem witness_TrainingPowerAndRevive_memory : Ready untrained 0x10 [15] trainChannelRule ∧ Ready (inMode 2) 0x11 [] initMemoryRule := by
  unfold Ready Lone Accepts Awake; decide +kernel

/-- An admitted Deadline request at slice `n`. -/
def busyAt (n : Nat) : State :=
  setSlice up n { freshSlice with entries := [{ (default : Entry) with stage := .waiting, dl := true }] }

theorem witness_TrainingPowerAndRevive_power : Ready up 0x38 [0x107] slicePowerRule ∧ slicePwr up 7 = true ∧
    Ready offOne 0x38 [0x101] slicePowerRule ∧ slicePop offOne 1 = true ∧ slicePwr offOne 1 = false ∧
    pairJoined offOne (1 / 2) = false ∧ Ready (busyAt 1) 0x38 [0x2001] slicePowerRule ∧ powerOffOk (busyAt 1) 1 2 = true ∧
    pairJoined (busyAt 1) (1 / 2) = false ∧ dlAdmitted (busyAt 1) 1 = true ∧ (busyAt 1).seq.moveLeft = none := by
  unfold Ready Lone Accepts Awake; decide +kernel

/-- The same at slice 0 with slice 1 powered down. -/
def busyBeside : State := setReg (busyAt 0) 0x300004 0x10FD

theorem witness_TrainingPowerAndRevive_power_on : Ready busyBeside 0x38 [0x101] slicePowerRule ∧ slicePop busyBeside 1 = true ∧
    slicePwr busyBeside 1 = false ∧ slicePwr busyBeside (pairSlice 1) = true ∧ dlAdmitted busyBeside (pairSlice 1) = true ∧
    busyBeside.seq.moveLeft = none := by unfold Ready Lone Accepts Awake; decide +kernel

theorem witness_TrainingPowerAndRevive_accord : Ready up 0x39 [0] accordCfgRule ∧ accordOk up (paramOf [0] 1) = false ∧
    Ready (busyAt 6) 0x39 [8] accordCfgRule ∧ accordOk (busyAt 6) (paramOf [8] 1) = true ∧ namedPairs (paramOf [8] 1) = 3 :: [] ∧
    dlAdmitted (busyAt 6) (2 * 3) = true ∧ (busyAt 6).seq.moveLeft = none ∧ bitOf (paramOf [8] 1) 3 = true ∧
    curMode (busyAt 6) ≠ 6 := by unfold Ready Lone Accepts Awake; decide +kernel

/-- The same in M6 with pair 0 joined; and with pair 3 alone joined. -/
def busyJoined : State := setReg (setReg (busyAt 6) 0x10 6) 0x300004 0x11FF
def busySplit : State := setReg (setReg (busyAt 6) 0x10 6) 0x300004 0x18FF

theorem witness_TrainingPowerAndRevive_accord_M6 : Ready busyJoined 0x39 [8] accordCfgRule ∧
    accordOk busyJoined (paramOf [8] 1) = true ∧ curMode busyJoined = 6 ∧ dlAdmitted busyJoined (2 * 3) = true ∧
    Ready busySplit 0x39 [0x380] accordCfgRule ∧ accordOk busySplit (paramOf [0x380] 1) = true ∧
    namedPairs (paramOf [0x380] 1) = 3 :: [] ∧ bitOf (paramOf [0x380] 1) 3 = false ∧ curMode busySplit = 6 ∧
    (∀ k, k < 4 → k ≠ 3 → pairJoined busySplit k = false) ∧ dlAdmitted busySplit (2 * 3) = true ∧
    busyJoined.seq.moveLeft = none ∧ busySplit.seq.moveLeft = none := by unfold Ready Lone Accepts Awake; decide +kernel

/-- `AGENT_REVIVE` of port 23 runs; the same while a slice scans for it; the same with its time over. -/
def reviving : State := { up with seq := { freshSeq with run := some ⟨.host, 0x161, [23], 1, some 5, 23, false, 5⟩ } }
def scanning : State := setSlice (setPort reviving 23 freshPort) 7 { freshSlice with scan := [(23, 0)] }
def expired : State := { reviving with tick := 5 }

theorem witness_TrainingPowerAndRevive_revive : Ready up 0x61 [23] agentReviveRule ∧ bitsOf (paramOf [23] 1) 0 5 < 24 ∧
    portEnabled up 23 = true ∧ (port up 23).resetLow = false ∧ Awake reviving ∧ reviveReady reviving 23 = true ∧
    reviveReady scanning 23 = false ∧ bitsOf (0x161 : Word) 0 8 = 0x61 := by unfold Ready Lone Accepts Awake; decide +kernel

theorem witness_TrainingPowerAndRevive_timeout : Awake expired ∧ timerDue expired (some 5) = true ∧
    timerDue reviving (some 5) = false := by unfold Awake; decide +kernel

-- agent ports

/-- A `RdOnce` of the first line of the window under TXN 255. -/
def rdOnce : Req := ⟨3, 0, 255, 3, 0, 0, false, false, false, 0x80000000, 6, 0⟩
def reqWord : BitVec 128 := withPar (reqBits rdOnce)

/-- Port 23 in reset; and fenced. -/
def held23 : State := setPort up 23 { freshPort with resetLow := true }
def fenced23 : State := setPort up 23 { port up 23 with fenced := true }

theorem witness_AgentPortResets : up.undef = false ∧ Awake held23 ∧ portEnabled held23 23 = true ∧ readyLink held23 = true ∧
    (port held23 23).resetLow = true ∧ (port held23 23).fenced = true ∧ (port up 23).resetLow = false ∧ (port up 23).caching = false ∧
    (setPort State.reset 23 { freshPort with resetLow := true }).undef = false ∧
    running (setPort State.reset 23 { freshPort with resetLow := true }) = false := by unfold Awake; decide +kernel

theorem witness_RequestFlits : portLive up 23 = true ∧ blotArmed up 1 23 = false ∧ parityOk reqWord = true ∧
    vecGet (port up 23).inCred (credIdx 0 true) ≠ 0 ∧ (port up 23).fenced = false ∧
    reqKinds up 23 true false false (reqOf reqWord) = [] ∧
    rdOnce = { reqOf reqWord with prio := clampPrio up 23 (reqOf reqWord).prio } ∧ realmKinds up 23 rdOnce = [] ∧
    namesLine rdOnce = true ∧ inWindow up rdOnce.addr.toNat = true := by decide +kernel

theorem witness_RequestFlits_fenced : portLive fenced23 23 = true ∧ blotArmed fenced23 1 23 = false ∧
    vecGet (port fenced23 23).inCred (credIdx 0 false) ≠ 0 ∧ (port fenced23 23).fenced = true ∧
    parityOk (reqWord ^^^ 1) = false ∧ portLive held23 23 = false := by decide +kernel

/-- Port 23 has been shown snoop 191 of slice 7, owes the `GrantAck` of its entry 7, and both halves of a write. -/
def snp : Snp := ⟨1, 0, 7, 191, 0, false, 0x1F, 0, 0, 0x80000000, 0⟩
def snpRecord : SnpRec := ⟨7, 191, snp, false, false, 0, 0⟩
def ackRecord : AckOwed := ⟨255, 7, 7, 0, false, 9⟩
def owedRecord : Owed := ⟨255, 3, false, none, 9, 0x10, false, 7, 23, 0, 1, false⟩
def owing : State :=
  setPort up 23 { port up 23 with snps := [snpRecord], acks := [ackRecord], owed := [owedRecord], caching := true }
def answerWord : BitVec 128 := withPar (rspBits ⟨1, 0, 7, 191, 0, 0, 0, 0, false⟩)
def ackWord : BitVec 128 := withPar (rspBits ⟨3, 255, 7, 7, 0, 0, 0, 0, false⟩)
def datWord : BitVec 352 := datBits ⟨3, true, false, 7, 255, 0, false, 0, 0, 0, 0xFFFFFFFF, 1⟩

theorem witness_InboundFlitsAndCredits_answers : portLive owing 23 = true ∧ blotArmed owing 1 23 = false ∧ parityOk answerWord = true ∧
    vecGet (port owing 23).inCred (credIdx 1 true) ≠ 0 ∧ (port owing 23).fenced = false ∧ (rspOf answerWord).opcode = 1 ∧
    (rspOf answerWord).state.toNat < 6 ∧ snpRec owing 23 (rspOf answerWord).home (rspOf answerWord).entry = some snpRecord ∧
    snpRecord.acked = false ∧ snpRecord.snp.opcode ≠ 8 := by decide +kernel

theorem witness_InboundFlitsAndCredits_grant_ack : parityOk ackWord = true ∧ (rspOf ackWord).opcode = 3 ∧
    (port owing 23).acks = [ackRecord] ∧ ackRecord.home = (rspOf ackWord).home ∧ ackRecord.entry = (rspOf ackWord).entry := by
  decide +kernel

theorem witness_InboundFlitsAndCredits_data : parityDatOk datWord = true ∧ vecGet (port owing 23).inCred (credIdx 2 false) ≠ 0 ∧
    (datOf datWord).kind = 3 ∧ (datOf datWord).snpwb = false ∧
    owedOf owing 23 (datOf datWord).txn (datOf datWord).half = some owedRecord ∧ owedRecord.drop = false ∧
    owedRecord.ap = false ∧ beLegal owing 23 (datOf datWord) = true := by decide +kernel

/-- Port 23 holds 63 credits of each kind. -/
def full23 : State := setPort up 23 { port up 23 with outCred := Vector.replicate 6 63 }

theorem witness_InboundFlitsAndCredits_credits : vecGet (port up 23).outCred (credIdx 2 true) < 63 ∧ portLive full23 23 = true ∧
    63 ≤ vecGet (port full23 23).outCred (credIdx 2 true) := by decide +kernel

/-- Port 23 with a `Comp` of a TXN that is not busy, without credits; and with a snoop to present. -/
def strayMsg : EgMsg := ⟨0, .rsp ⟨2, 9, 0, 0, 0, 0, 0, 0, false⟩, false, 0, 0, 0, 0, false⟩
def snpMsg : EgMsg := ⟨1, .snp snp, true, 0, 0, 0, 0, false⟩
def dataMsg : EgMsg := ⟨2, .dat ⟨2, true, false, 7, 255, 0, false, 0, 0, 0, 0xFFFFFFFF, 1⟩, false, 0, 0, 0, 0, false⟩
def poor23 : State := setPort up 23 { port up 23 with outCred := Vector.replicate 6 0 }
def stray23 : State := setPort up 23 { port up 23 with egress := [strayMsg] }
def snoop23 : State := setPort up 23 { port up 23 with egress := [snpMsg] }
def busy23 : State := setPort up 23 { port up 23 with egress := [dataMsg], arb := ⟨some 2, 0⟩ }

theorem witness_EgressAndArbiters_present : (waitingOn poor23 23 2 true).find? (notBusy poor23 23) = none ∧
    vecGet (port poor23 23).outCred (credIdx 2 true) = 0 ∧ portLive stray23 23 = true ∧
    (waitingOn stray23 23 1 false).find? (notBusy stray23 23) = some strayMsg ∧ portLive snoop23 23 = true ∧
    waitingOn snoop23 23 0 true = snpMsg :: [] ∧ snpMsg.msg = .snp snp ∧
    vecGet (port snoop23 23).outCred (credIdx 0 true) ≠ 0 := by decide +kernel

theorem witness_EgressAndArbiters_arbiters : portLive up 23 = true ∧ getBit up (dlBase 23 + 4) 8 = false ∧
    (port up 23).arb.holder = none ∧ portLive busy23 23 = true ∧ dataMsg ∈ (port busy23 23).egress ∧
    outChan dataMsg.msg = 2 ∧ (port busy23 23).arb.holder = some dataMsg.id ∧ (∀ x ∈ (port busy23 23).egress, x.dl = false) ∧
    Awake joined ∧ pairJoined joined (3 / 4) = true ∧ getBit joined (mcBase 3 + 0x94) 8 = false ∧
    (chan joined 3).arb.holder = none := by unfold Awake; decide +kernel

/-- Lines of an arbiter: number, Deadline, PRIO. -/
def arbLines : List (Nat × Bool × Nat) := [(1, false, 3), (4, true, 2), (6, true, 2)]

theorem witness_EgressAndArbiters_pick : arbLines.Pairwise (fun a b => a.1 < b.1) ∧ (∀ x ∈ arbLines, x.2.2 < 4) ∧ arbLines ≠ [] ∧
    arbPick 4 arbLines = some 6 ∧ arbPick 6 arbLines = some 4 := by decide +kernel

/-- Two milliseconds later: the watchdogs of port 23 stand, its ACTION 0. -/
def txn9 : Txn := { (default : Txn) with txn := 9, grant := some true }
def bitten : State :=
  { setPort up 23 { port up 23 with egress := [snpMsg], owed := [owedRecord], acks := [ackRecord] } with tick := 2000000 }
def mild : State :=
  setReg { setPort up 23 { port up 23 with owed := [owedRecord], txns := [txn9] } with tick := 2000000 } (portBase 23 + 0xC) 0x40C8

theorem witness_WatchdogBites_egress : wdogOn bitten 23 = true ∧ portLive bitten 23 = true ∧
    waitingOn bitten 23 0 true = snpMsg :: [] ∧ (port bitten 23).egDue = [] ∧ snpMsg.since + wdogTicks bitten 23 ≤ bitten.tick := by
  decide +kernel

theorem witness_WatchdogBites_data_and_credit : wdogOn mild 23 = true ∧ portLive mild 23 = true ∧
    (port mild 23).owed.find? (fun o => o.txn == 255 && decide (o.due ≤ mild.tick)) = some owedRecord ∧
    wdogFences mild 23 = false ∧ txnOf mild 23 9 = some txn9 ∧ txn9.grant.isSome = true ∧ txn9.grantDue ≤ mild.tick := by
  decide +kernel

theorem witness_WatchdogBites_grant_ack : (port bitten 23).acks = [ackRecord] ∧ ackRecord.home = 7 ∧ ackRecord.entry = 7 ∧
    ackRecord.due ≤ bitten.tick ∧ (port bitten 23).txns = [] ∧ wdogFences bitten 23 = true ∧
    wdogOn (setReg up (portBase 23 + 0xC) 0xC8) 23 = false := by decide +kernel

/-- The owed `GrantAck` at the port whose watchdogs do not fence. -/
def mildAck : State := setPort mild 23 { port mild 23 with acks := [ackRecord] }

theorem witness_WatchdogBites_grant_ack_supplied : wdogOn mildAck 23 = true ∧ portLive mildAck 23 = true ∧
    (port mildAck 23).acks = [ackRecord] ∧ ackRecord.due ≤ mildAck.tick ∧ wdogFences mildAck 23 = false ∧
    (∀ t ∈ (port mildAck 23).txns, t.comp ≠ some (ackRecord.home, ackRecord.entry)) := by decide +kernel

theorem witness_WatchdogBites_bite :
    wdogFences (report (raiseErr mild (portBase 23 + 0x14) 13 (portBase 23 + 0x18) 5) 24 4) 23 = false ∧ 31 < 32 ∧
    wdogFences (report (raiseErr bitten (portBase 23 + 0x14) 12 (portBase 23 + 0x18) 5) 24 4) 23 = true ∧
    agentDead (report (raiseErr bitten (portBase 23 + 0x14) 12 (portBase 23 + 0x18) 5) 24 4) 23 = false := by
  decide +kernel

-- the spine

/-- A packet from port 0 to port 0's own router, arriving at the attachment input; its bypass off. -/
def toPort0 : Packet := mkPacket 0 0 24 false 0 (.rsp ⟨2, 0, 0, 0, 0, 0, 0, 0, false⟩)
def flight : Flight := ⟨toPort0, 0, 4, 4, flitCrc toPort0 false, 0, 0, 0, some 0, false⟩
def arriving : State := { setReg up 0x300000 0xC82 with spine := { freshSpine with arrive := [flight] } }

theorem witness_RouterHops_hop : Awake arriving ∧ arriving.spine.arrive = flight :: [] ∧ flight.router = (0 : RouterId).val ∧
    flight.input = (4 : Fin 6).val ∧ blotArmed arriving 2 0 = false ∧ destOk flight.pkt = true ∧
    fencedTarget arriving 0 flight.pkt = none ∧ getBit arriving 0x300000 0 = false ∧ msgFlits flight.pkt.msg = 1 ∧
    queued arriving 0 4 (msgChan flight.pkt.msg) flight.pkt.dl + flitsLeft flight ≤ queueDepth (msgChan flight.pkt.msg) flight.pkt.dl ∧
    (∀ g ∈ ([] : List Flight), g.router = 0 → g.input = 4 → g.pkt.dl = false) ∧ flitsLeft flight ≠ 0 ∧ flight.gone = 0 ∧
    (∀ f ∈ up.spine.arrive, ¬ (f.router = 23 ∧ f.input = 5)) := by unfold Awake; decide +kernel

/-- The same packet queued for its port, and one queued at router 0 for the link to the east. -/
def delivering : State := { up with spine := { freshSpine with queued := [flight] } }
def eastbound : Flight := ⟨mkPacket 5 0 24 false 0 (.rsp ⟨2, 0, 0, 0, 0, 0, 0, 0, false⟩), 0, 4, 1, 0, 0, 0, 0, none, false⟩
def leaving : State := { up with spine := { freshSpine with queued := [eastbound] } }

theorem witness_RouterHops_output : Awake leaving ∧ leaving.spine.queued = [eastbound] ∧ eastbound.router = 0 ∧ eastbound.out = 1 ∧
    neighbour 0 1 = some (1, 3) ∧
    flitsLeft eastbound ≤ creditsFree leaving 1 3 (msgChan eastbound.pkt.msg) eastbound.pkt.dl ∧
    getBit leaving (probeBase 0) 0 = false := by unfold Awake; decide +kernel

/-- The same packet arriving with the bypass on. -/
def passing : State := { up with spine := { freshSpine with arrive := [eastbound] } }

theorem witness_RouterHops_bypass : Awake passing ∧ passing.spine.arrive = eastbound :: [] ∧ eastbound.router = (0 : RouterId).val ∧
    eastbound.input = (4 : Fin 6).val ∧ blotArmed passing 2 0 = false ∧ destOk eastbound.pkt = true ∧ flitsLeft eastbound ≠ 0 ∧
    flitsLeft eastbound ≤ queueDepth (msgChan eastbound.pkt.msg) eastbound.pkt.dl ∧ fencedTarget passing 0 eastbound.pkt = none ∧
    getBit passing 0x300000 0 = true ∧ queued passing 0 4 (msgChan eastbound.pkt.msg) eastbound.pkt.dl = 0 ∧
    (∀ g ∈ passing.spine.queued, g.router = 0 → g.out ≠ eastbound.out) ∧ neighbour 0 eastbound.out = some (1, 3) ∧
    flitsLeft eastbound ≤ creditsFree { passing with spine := { passing.spine with arrive := [] } } 1 3
      (msgChan eastbound.pkt.msg) eastbound.pkt.dl ∧ getBit passing (probeBase 0) 0 = false := by unfold Awake; decide +kernel

/-- A snoop for port 0 while as many wait there as its queue holds. -/
def snpFlight : Flight := ⟨mkPacket 0 0 24 false 0 (.snp ⟨1, 0, 0, 0, 0, false, 0, 0, 0, 0, 0⟩), 0, 0, 4, 0, 0, 0, 0, none, false⟩
def crowded : State :=
  { setPort up 0 { port up 0 with egress := (List.range 16).map (fun i => ⟨i, snpFlight.pkt.msg, false, 0, 0, 0, 0, false⟩) } with
    spine := { freshSpine with queued := [snpFlight] } }

theorem witness_RouterHops_full : Awake crowded ∧ crowded.spine.queued = [snpFlight] ∧ neighbour 0 4 = none ∧
    queueDepth (msgChan snpFlight.pkt.msg) snpFlight.pkt.dl < unitHeld crowded snpFlight + flitsLeft snpFlight := by
  unfold Awake; decide +kernel

theorem witness_RouterHops_delivery : Awake delivering ∧ delivering.spine.queued = [flight] ∧ flight.out = (4 : Fin 6).val ∧
    neighbour 0 4 = none ∧ crcFails flight false = false ∧ crcFails flight true = false ∧ flight.pkt.dstUnit = 0 ∧ getBit delivering (probeBase 0) 0 = false ∧
    getBit delivering 0x320018 0 = false ∧ (port delivering 0).fenced = false ∧
    staleFwd delivering 0 flight.pkt.msg flight.pkt.src = false ∧ flight.gone = 0 ∧ flight.dead = false ∧
    unitHeld delivering flight + flitsLeft flight ≤ queueDepth (msgChan flight.pkt.msg) flight.pkt.dl := by
  unfold Awake; decide +kernel

/-- The same with one bit of its CRC wrong. -/
def badFlight : Flight := { flight with crc := flight.crc ^^^ 1 }
def failing : State := { up with spine := { freshSpine with queued := [badFlight] } }

theorem witness_RouterHops_crc : Awake failing ∧ failing.spine.queued = [badFlight] ∧ badFlight.router = (0 : RouterId).val ∧
    badFlight.out = (4 : Fin 6).val ∧ neighbour 0 4 = none ∧ crcFails badFlight false = true ∧ msgFlits badFlight.pkt.msg = 1 ∧
    badFlight.pkt.dstUnit = 0 ∧ getBit failing (probeBase 0) 0 = false ∧ getBit failing 0x320018 0 = false ∧
    unitHeld failing badFlight + flitsLeft badFlight ≤ queueDepth (msgChan badFlight.pkt.msg) badFlight.pkt.dl := by
  unfold Awake; decide +kernel

-- slices

/-- A message waits in the inbox of slice 0. -/
def inItem (m : Msg) (src : BitVec 5) : InMsg := ⟨pktOf m src, false, 0⟩
def inbox0 (s : State) (m : Msg) (src : BitVec 5) : State := setSlice s 0 { slice s 0 with inbox := [inItem m src] }
def line0 : Addr := 0x80000000
def plain (op : BitVec 6) : Req := ⟨op, 0, 7, 0, 0, 0, false, false, false, line0, 6, 0⟩

theorem witness_IngressAndGrants_request : inSafe (inbox0 up (.req (plain 3)) 23) = false ∧
    (slice (inbox0 up (.req (plain 3)) 23) 0).inbox = [inItem (.req (plain 3)) 23] ∧ isLineReq (plain 3) = true ∧
    (plain 3).crd = false ∧ (inItem (.req (plain 3)) 23).pkt.dl = false ∧ (port up 23).fenced = false ∧
    homeOf up line0.toNat = some (homeOfLine up 0 0) ∧ (homeOfLine up 0 0).slice = 0 ∧
    hasRecord (inbox0 up (.req (plain 3)) 23) 0 23 7 = false ∧
    (∀ e ∈ (slice (inbox0 up (.req (plain 3)) 23) 0).entries, e.src = 23 → e.line ≠ (homeOfLine up 0 0).line) ∧
    freeEntryId (inbox0 up (.req (plain 3)) 23) 0 .general = some 0 ∧
    holdOf (inbox0 up (.req (plain 3)) 23) 0 (homeOfLine up 0 0).line = none ∧
    activeEntry (inbox0 up (.req (plain 3)) 23) 0 (homeOfLine up 0 0).line = none ∧
    (inItem (.req (plain 3)) 23).pkt.smp = false := by decide +kernel

/-- All 152 general entries taken. -/
def fullPool : State :=
  setSlice up 0 { freshSlice with entries := (List.range 152).map (fun i =>
    { (default : Entry) with id := i, line := 1 + i, src := 1, stage := .waiting }) }

theorem witness_IngressAndGrants_retry : freeEntryId (inbox0 fullPool (.req (plain 3)) 23) 0 .general = none ∧
    hasRecord (inbox0 fullPool (.req (plain 3)) 23) 0 23 7 = false ∧
    (∀ e ∈ (slice (inbox0 fullPool (.req (plain 3)) 23) 0).entries, e.src = 23 → e.line ≠ (homeOfLine up 0 0).line) := by
  decide +kernel

theorem witness_IngressAndGrants_safe : inSafe (inbox0 (inMode 10) (.req (plain 3)) 24) = true ∧
    (slice (inbox0 (inMode 10) (.req (plain 3)) 24) 0).inbox = [inItem (.req (plain 3)) 24] ∧
    24 ≤ (inItem (.req (plain 3)) 24).pkt.src.toNat ∧ (slice up 0).inbox = [] ∧ takeUpStopped (inMode 10) = true ∧
    nextGrant up 0 = none := by decide +kernel

/-- A refused request of port 23 waits for its grant. -/
def waiter : RetryRec := ⟨23, 7, false, 0, none, plain 3⟩
def granting : State := setSlice up 0 { freshSlice with retry := [waiter] }

theorem witness_IngressAndGrants_grant : takeUpStopped granting = false ∧ nextGrant granting 0 = some waiter ∧
    waiter.cls = false ∧ freeEntryId granting 0 .retry = some 152 := by decide +kernel

/-- A `RdOnce` of port 23 waits in entry 0; as one without its realm; in a slice that has left service. -/
def waiting : Entry :=
  { (default : Entry) with id := 0, stage := .waiting, src := 23, req := plain 3, line := (homeOfLine up 0 0).line }
def foreign : Entry := { waiting with req := { plain 3 with priv := 0, addr := 0x1000 } }
def ready0 : State := setSlice up 0 { freshSlice with entries := [waiting] }
def foreign0 : State := setSlice up 0 { freshSlice with entries := [foreign] }
def left0 : State := setSlice up 0 { freshSlice with entries := [waiting], leaving := true }

theorem witness_RequestsAreTakenUp : findEntry ready0 0 0 = some waiting ∧ hasOp 3 waiting.req = true ∧ waiting.stage = .waiting ∧
    canTake ready0 0 waiting = true ∧ regionCheck ready0 23 waiting.req = .pass 0 ∧ (slice ready0 0).leaving = false ∧
    chanActive ready0 (chanOfLine ready0 0 waiting.line).1 = true ∧ findEntry left0 0 0 = some waiting ∧
    canTake left0 0 waiting = true ∧ regionCheck left0 23 waiting.req = .pass 0 ∧ (slice left0 0).leaving = true ∧
    bankYields ready0 0 waiting = false ∧ bankYields left0 0 waiting = false ∧ bankYields foreign0 0 foreign = false := by
  decide +kernel

/-- The same with the line's channel untrained; without a decision yet; and waiting for a way. -/
def idle0 : State := setReg ready0 (mcBase 0) 0
def undecided : Entry := { waiting with stage := .tentative, dl := true }
def tentative0 : State := setSlice up 0 { freshSlice with entries := [undecided] }
def alloc0 : State := setSlice up 0 { freshSlice with entries := [{ waiting with stage := .alloc }] }

theorem witness_RequestsAreTakenUp_stages : findEntry idle0 0 0 = some waiting ∧ canTake idle0 0 waiting = true ∧
    bankYields idle0 0 waiting = false ∧ regionCheck idle0 23 waiting.req = .pass 0 ∧ (slice idle0 0).leaving = false ∧
    chanActive idle0 (chanOfLine idle0 0 waiting.line).1 = false ∧ findEntry tentative0 0 0 = some undecided ∧
    hasOp 3 undecided.req = true ∧ undecided.stage = .tentative ∧ takeUpStopped tentative0 = false ∧
    lookupStopped tentative0 0 undecided.line = false ∧ findEntry alloc0 0 0 = some { waiting with stage := .alloc } ∧
    canTake (setReg ready0 0x10 2) 0 waiting = false ∧ takeUpStopped (setReg tentative0 0x10 2) = true := by decide +kernel

theorem witness_RequestsAreTakenUp_refused : findEntry foreign0 0 0 = some foreign ∧ hasOp 3 foreign.req = true ∧
    foreign.stage = .waiting ∧ canTake foreign0 0 foreign = true ∧ regionCheck foreign0 23 foreign.req = .refuse 7 none 0 false ∧
    hasOp 2 waiting.req = false ∧ findEntry up 0 255 = none ∧ takeUps.length = 11 := by decide +kernel

/-- A view with owner 5, shared with 23. -/
def owned : FEntry := ⟨0, .ow, 0x800020, 5, false, false⟩

theorem witness_SnoopPlans : owned.summary = .ow ∧ freeEntry.summary = .i ∧ owned.presence.getLsbD 23 = true ∧
    23 ≠ owned.fwd.toNat ∧ opOf (plain 0x10) = 0x10 ∧ opOf (plain 0x11) = 0x11 ∧ opOf (plain 0x20) = 0x20 ∧ (noticeApply ⟨0, .ex, 0x20, 0x1F, false, false⟩ 5 true).isSome = true := by
  decide +kernel

/-- Entry 191 waits for the answer of agent 23. -/
def snooping : Entry := { waiting with id := 191, stage := .snooping, coll := { (default : Coll) with out := 0x800000 } }
def ackRsp : Rsp := ⟨1, 0, 0, 191, 0, 0, 0, 0, false⟩
def snoop0 : State := inbox0 (setSlice up 0 { freshSlice with entries := [snooping] }) (.rsp ackRsp) 23

theorem witness_SnoopAnswersAndData_acks : inSafe snoop0 = false ∧ (slice snoop0 0).inbox = [inItem (.rsp ackRsp) 23] ∧
    ackRsp.opcode = 1 ∧ ackRsp.entry.toNat < 192 ∧ findEntry snoop0 0 ackRsp.entry.toNat = some snooping ∧
    snooping.coll.out.getLsbD 23 = true ∧ findEntry (inbox0 up (.rsp ackRsp) 23) 0 191 = none ∧
    inSafe (inbox0 (inMode 10) (.rsp ackRsp) 23) = true := by decide +kernel

/-- A `WrInvFull` of port 23 in entry 0, and its first half in the inbox. -/
def writing : Entry := { waiting with stage := .writing, req := plain 0x10, series := 0 }
def half : Dat := ⟨3, false, false, 0, 7, 0, false, 0, 0, 0, 0xFFFFFFFF, 1⟩
def data0 : State := inbox0 (setSlice up 0 { freshSlice with entries := [writing] }) (.dat half) 23

theorem witness_SnoopAnswersAndData_data : inSafe data0 = false ∧ (slice data0 0).inbox = [inItem (.dat half) 23] ∧ half.kind = 3 ∧
    half.snpwb = false ∧ ownHere data0 0 (inItem (.dat half) 23).pkt half = true ∧
    ownHere (inbox0 up (.dat half) 23) 0 (inItem (.dat half) 23).pkt half = false ∧
    ownHere (inbox0 up (.dat half) 23) (pairSlice 0) (inItem (.dat half) 23).pkt half = false ∧
    headerComing (inbox0 up (.dat half) 23) 0 (inItem (.dat half) 23).pkt half = false ∧
    (slice (setSlice up 0 { freshSlice with entries := [writing] }) 0).entries = [writing] ∧ writing.stage ≠ .reserved ∧
    getBit up 0x320018 0 = false ∧
    ownData (inItem (.dat half) 23).pkt half writing.src writing.req.txn writing.series = true := by decide +kernel

theorem witness_NoticesAndGrantAcks_notices : inSafe (inbox0 up (.req (plain 8)) 23) = false ∧
    (slice (inbox0 up (.req (plain 8)) 23) 0).inbox = [inItem (.req (plain 8)) 23] ∧ opOf (plain 8) = 8 ∧ opOf (plain 9) = 9 ∧
    (slice up 0).lanes.length < 8 ∧ homeOf up (plain 8).addr.toNat = some (homeOfLine up 0 0) ∧
    (homeOfLine up 0 0).slice = 0 ∧ homeOf up ({ plain 9 with addr := 0x1000 } : Req).addr.toNat = none ∧
    activeEntry (setSlice up 0 { freshSlice with entries := [writing] }) 0 writing.line = some writing := by decide +kernel

/-- Notices that reach slice 0: of a line of slice 4, and of one of slice 1. -/
def away8 : Req := { plain 8 with addr := BitVec.ofNat 48 (encodeAddr up 8 0) }
def beside8 : Req := { plain 8 with addr := BitVec.ofNat 48 (encodeAddr up 2 0) }

theorem witness_NoticesAndGrantAcks_elsewhere : homeOf up away8.addr.toNat = some (homeOfLine up 8 0) ∧
    (homeOfLine up 8 0).slice ≠ 0 ∧ (homeOfLine up 8 0).slice / 2 ≠ 0 / 2 ∧
    homeOf up beside8.addr.toNat = some (homeOfLine up 2 0) ∧ (homeOfLine up 2 0).slice = 1 ∧
    (inItem (.req beside8) 23).redir = false ∧ slicePwr up 1 = true ∧ (slice up 1).lanes.length < 8 := by decide +kernel

/-- Agent 23 owns line 0; and its dirty notice. -/
def theLine : Nat := (homeOfLine up 0 0).line
def holder : State := wayWrite up 0 (lineSetTag up 0 theLine).1 0 ⟨(lineSetTag up 0 theLine).2, .ex, 0x800000, 23, false, false⟩
def notice : Notice := noticeOf up (pktOf (.req (plain 8)) 23) (plain 8) theLine

theorem witness_NoticesAndGrantAcks_lane : activeEntry holder 0 notice.line = none ∧ victimOf holder 0 notice.line = none ∧
    (noticeApply (entryOf holder 0 notice.line) notice.src.toNat notice.dirty).isSome = true ∧ notice.dirty = true ∧
    notice.halves = [] ∧ notice.applied = false ∧ notice.queued = false ∧ (slice holder 0).lanes = [] ∧
    (noticeApply (entryOf up 0 notice.line) notice.src.toNat notice.dirty).isNone = true := by decide +kernel

/-- Entry 0 awaits the `GrantAck` of port 23; line 0 is held for port 23. -/
def granted : Entry := { waiting with stage := .granted }
def gAck : Rsp := ⟨3, 7, 0, 0, 0, 0, 0, 0, false⟩
def ack0 : State := inbox0 (setSlice up 0 { freshSlice with entries := [granted] }) (.rsp gAck) 23
def window : Hold := ⟨(homeOfLine up 0 0).line, 23, 0⟩
def held0 : State := setSlice up 0 { freshSlice with holds := [window] }

theorem witness_NoticesAndGrantAcks_acks : (slice ack0 0).inbox = [inItem (.rsp gAck) 23] ∧ gAck.opcode = 3 ∧
    findEntry ack0 0 gAck.entry.toNat = some granted ∧ granted.stage = .granted ∧ granted.src = (inItem (.rsp gAck) 23).pkt.src ∧
    findEntry (inbox0 up (.rsp gAck) 23) 0 gAck.entry.toNat = none ∧ homeOf held0 line0.toNat = some (homeOfLine up 0 0) ∧
    holdOf held0 0 (homeOfLine up 0 0).line = some window ∧ window.due ≤ held0.tick := by decide +kernel

/-- An `XlatInv` that two ports answer; watches of slice 0 due. -/
def xslot : XSlot := ⟨15, false, 23, 7, 0, 0, 0, 0, 0x800001, none, false⟩
def xdone : Rsp := ⟨8, 0, 0, 223, 0, 0, 0, 0, false⟩
def xlat0 : State := inbox0 (setSlice up 0 { freshSlice with xslots := [xslot] }) (.rsp xdone) 23
def watch : Watch := ⟨7, 23, 0, false, 2, 0, 0⟩
def watch0 : State := setSlice up 0 { freshSlice with watches := [watch] }

theorem witness_TranslationAndWatches_requests : (slice (inbox0 up (.req (plain 0x28)) 23) 0).inbox = [inItem (.req (plain 0x28)) 23] ∧
    opOf (plain 0x28) = 0x28 ∧ opOf (plain 0x29) = 0x29 ∧ (port up 23).fenced = false ∧
    (slice (inbox0 up (.req (plain 0x28)) 23) 0).xslots = [] ∧ xlatSet (inbox0 up (.req (plain 0x28)) 23) = [] ∧
    (port up 23).xlatSlice.toNat = 0 := by decide +kernel

theorem witness_TranslationAndWatches_answers : inSafe xlat0 = false ∧ (slice xlat0 0).inbox = [inItem (.rsp xdone) 23] ∧
    xdone.opcode = 8 ∧ (slice xlat0 0).xslots = [xslot] ∧ 208 + xslot.slot = xdone.entry.toNat ∧
    xslot.await.getLsbD 23 = true ∧ xslot.await &&& ~~~ (bit24 23) ≠ 0 ∧
    (slice (inbox0 up (.syncDone 23 0) 23) 0).inbox = [inItem (.syncDone 23 0) 23] ∧ (slice watch0 0).watches = [watch] ∧
    watch.slot = 7 ∧ watch.due ≤ watch0.tick ∧
    (slice (inbox0 (setSlice up 0 { freshSlice with xslots := [{ xslot with await := 0x800000 }] }) (.rsp xdone) 23) 0).xslots =
      [{ xslot with await := 0x800000 }] ∧ (0x800000 : BitVec 24) &&& ~~~ (bit24 23) = 0 := by decide +kernel

/-- The snoop timer of entry 191 is due; and is not. -/
def timing : Entry := { snooping with coll := { snooping.coll with timer := some 1 } }
def timer0 : State := setSlice up 0 { freshSlice with entries := [timing], scan := [(23, 0)] }

theorem witness_SlicesSweep_timer : findEntry timer0 0 191 = some timing ∧ timing.coll.timer = some 1 ∧ timer0.tick < 1 ∧
    findEntry { timer0 with tick := 1 } 0 191 = some timing ∧ 1 ≤ { timer0 with tick := 1 }.tick := by decide +kernel

theorem witness_SlicesSweep_scrub : Awake up ∧ getBit up (slcBase 7 + 0x200) 4 = true ∧ slicePwr up 7 = true ∧
    (slice up 7).scrubDue ≤ up.tick ∧ getBit up 0x320018 0 = false ∧ (slice up 7).scan = [] ∧ (slice timer0 0).scan ≠ [] ∧
    lookupsWait up 7 ((slice up 7).scrubSet % 4) = false ∧ lookupsWait ready0 0 ((slice ready0 0).scrubSet % 4) = true := by
  unfold Awake; decide +kernel

-- channels

/-- Channel 15 with a row open in bank 15 of rank 0, and with both ranks. -/
def openRow : State := setBank up 15 0 15 { freshBank with row := some 5 }
def twoRank : State := setReg up (mcBase 15) 0x161

theorem witness_ChannelTimers : chanLive up 15 = true ∧ 0 < (ranksOf up 15).length ∧ 1 < (ranksOf twoRank 15).length ∧
    chanLive twoRank 15 = true ∧ (refreshAt (chan up 15) 0).nextDue ≤ nowPs up ∧ (refreshAt (chan up 15) 0).zqDue ≤ up.tick ∧
    (refreshAt (chan up 15) 0).oscDue ≤ up.tick ∧ (refreshAt (chan twoRank 15) 1).mr4Due ≤ twoRank.tick ∧
    twoRanks twoRank 15 = true := by decide +kernel

theorem witness_ChannelTimers_rows : chanLive openRow 15 = true ∧ (bankAt (chan openRow 15) 0 15).row.isSome = true ∧
    (bankAt (chan openRow 15) 0 15).idleDue ≤ nowPs openRow ∧ (bankAt (chan openRow 15) 0 15).preAt ≤ nowPs openRow ∧
    rowTargeted openRow 15 0 15 = false ∧ (bankAt (chan up 15) 1 15).row = none := by decide +kernel

theorem witness_ChannelTimers_early :
    nowPs up < (refreshAt (chan (setRefresh up 15 0 { freshRefresh with nextDue := 1 }) 15) 0).nextDue := by decide +kernel

/-- A read of channel 0 that has come back: of a line for a merge, and of check line 3 for the scrub. -/
def rdLine : RdReq := ⟨0, 0, .merge, 23, 0, false, 0, false, true, false⟩
def rdCheck : RdReq := ⟨0, 0, .check 3, 0, 0, false, 0, false, true, false⟩
def readBack : State := setChan up 0 { chan up 0 with rdq := [rdLine] }
def checkBack : State := setChan up 0 { chan up 0 with rdq := [rdCheck] }

theorem witness_ReadsAndScrub_reads : (∀ r ∈ (chan up 0).rdq, r.issued = false) ∧ Awake readBack ∧ (chan readBack 0).rdq = [rdLine] ∧
    rdLine.issued = true ∧ chanArbited readBack 0 = false ∧ rdLine.use = .merge ∧ (chan readBack 0).arb.holder = none ∧
    Awake checkBack ∧ (chan checkBack 0).rdq = [rdCheck] ∧ rdCheck.issued = true ∧ rdCheck.use = .check 3 ∧
    chanArbited checkBack 0 = false ∧ (chan checkBack 0).arb.holder = none := by unfold Awake; decide +kernel

/-- READY_FULL, scrub on; and a scrub read left over. -/
def scrubbing : State := setReg up 0x14 0xFFFF0007
def leftOver : State := setChan scrubbing 15 { chan scrubbing 15 with rdq := [rdCheck] }

theorem witness_ReadsAndScrub_scrub : chanLive scrubbing 15 = true ∧ scrubOn scrubbing 15 = true ∧
    (chan scrubbing 15).scrubDue ≤ scrubbing.tick ∧ (∀ r ∈ (chan scrubbing 15).rdq, isScrubRead r.use = false) ∧
    scrubOn (setReg up 0x14 7 |> fun s => setReg s (mcBase 15 + 0x68) 0) 15 = false ∧ chanLive leftOver 15 = true ∧
    scrubOn leftOver 15 = true ∧ rdCheck ∈ (chan leftOver 15).rdq ∧ isScrubRead rdCheck.use = true ∧
    (chan leftOver 15).scrubDue ≤ leftOver.tick := by decide +kernel

/-- Channel 15 with a neighbour action pending in bank 0, and one being initialised. -/
def pendingRow : State := setBank up 15 0 0 { freshBank with pend := some 5 }

theorem witness_SchedulerOrder : chanLive pendingRow 15 = true ∧ (chan pendingRow 15).rdq = [] ∧ (chan pendingRow 15).wrq = [] ∧
    (chan pendingRow 15).drain = false ∧ (bestCand (schedCands pendingRow 15)).isSome = true ∧
    (candNeighbour pendingRow 15).length = 1 ∧ (candRefresh up 15 0 1).length ≤ 1 ∧ schedCands up 15 = [] ∧
    chanLive State.reset 15 = false ∧ inSafe pendingRow = false ∧ inSafe up = false ∧ chanLive (inMode 10) 15 = true ∧
    inSafe (inMode 10) = true ∧ (chan (inMode 10) 15).rdq = [] ∧ (chan (inMode 10) 15).wrq = [] ∧
    (chan (inMode 10) 15).drain = false := by decide +kernel

/-- Channel 15 with two reads of one bank, of line 0 whose row is open and of another row, and a write of line 0; the bank has taken
no hit and many. -/
def wantAt (m : Nat) (dl w : Bool) (u : Nat) : Want :=
  ⟨if w then .write m else .read m, w, placeOf up 15 (m / 28), m, dl, u, 0, false, false, false⟩
def busyBank (hits : Nat) : State :=
  setBank up 15 (placeOf up 15 0).rank (placeOf up 15 0).bank { freshBank with row := some (placeOf up 15 0).row, hits := hits }

theorem witness_SchedulerOrder_requests : (candWant (busyBank 0) 15 (wantAt 0 true false 0)).length = 1 ∧
    (candWant (busyBank 0) 15 (wantAt 0 false false 3)).length = 1 ∧ (candWant (busyBank 0) 15 (wantAt 0 false true 0)).length = 1 ∧
    wantClass (busyBank 0) 15 (wantAt 0 false false 3) = wantClass (busyBank 0) 15 (wantAt 0 false true 0) ∧
    min 3 (wantAt 0 false true 0).urgency < min 3 (wantAt 0 false false 3).urgency ∧
    (wantAt 0 false false 0).isWrite = ((chan (busyBank 0) 15).drain != decide (3 ≤ (wantAt 0 false false 0).urgency)) ∧
    rowFirst (busyBank 0) 15 (wantAt 0 false false 0) = true ∧ rowFirst (busyBank 0) 15 (wantAt 7340032 false false 0) = false ∧
    (candWant (busyBank 0) 15 (wantAt 7340032 false false 0)).length = 1 := by decide +kernel

theorem witness_SchedulerOrder_hits : (busyBank 0 |> fun s => (bankAt (chan s 15) (placeOf up 15 0).rank (placeOf up 15 0).bank).hits) <
    max 1 (getFld up (mcBase 15 + 0x40) 16 5) ∧ max 1 (getFld up (mcBase 15 + 0x40) 16 5) ≤ 99 := by decide +kernel

/-- One tick before a boundary and before a slot; at a boundary; and at one with a swap due. -/
def inEpoch : State :=
  setChan { up with tick := 999, seq := { freshSeq with epochDue := 1000 } } 15 { chan up 15 with slotDue := 1000 }
def atEpoch : State := { up with tick := 1000, seq := { freshSeq with epochDue := 1000, swapDue := some 2000 } }
def swapping : State := { up with tick := 1000, seq := { freshSeq with epochDue := 1000, swapDue := some 1000 } }

theorem witness_EpochsAndSlots : inEpoch.tick < inEpoch.seq.epochDue ∧ { up with pins := { up.pins with tbRun := false } }.undef = false ∧
    Ticking atEpoch ∧ atEpoch.seq.epochDue ≤ atEpoch.tick ∧ atEpoch.seq.swapDue = some 2000 ∧ atEpoch.seq.epochDue < 2000 ∧
    Ticking swapping ∧ swapping.seq.epochDue ≤ swapping.tick ∧ swapping.seq.swapDue = some 1000 ∧ 1000 ≤ swapping.seq.epochDue ∧
    chanLive up 15 = true ∧ (chan up 15).slotDue ≤ up.tick ∧ inEpoch.tick < (chan inEpoch 15).slotDue := by
  unfold Ticking Awake; decide +kernel

-- observability

/-- Aperture requests of port 23 that are due: a counter read, one without privilege, one of no counter, a write with its
operand, and a write to another place. -/
def apReq (op : BitVec 6) (a : Addr) (size : BitVec 3) (priv : BitVec 2) : Req := ⟨op, 0, 7, 0, 0, priv, false, false, false, a, size, 0⟩
def apItem (r : Req) : InMsg := ⟨{ pktOf (.req r) 23 with reqNo := 5 }, false, 0⟩
def apData : Dat := ⟨3, false, false, 0, 7, 0, false, 0, 0, 0, 0xFFFFFFFF, 1⟩
def apOp : InMsg := ⟨{ pktOf (.dat apData) 23 with reqNo := 5 }, false, 0⟩
def apState (s : State) (l : List InMsg) : State := { s with obs := { s.obs with apInbox := l } }
def counterRead : Req := apReq 0x30 0x330010 2 1
def slyRead : Req := apReq 0x30 0x330010 2 0
def traceWrite : Req := apReq 0x31 0x340040 3 1
def strayWrite : Req := apReq 0x31 0x340000 3 1

theorem witness_ApertureAccesses_reads : apRequest up 23 = none ∧ Awake (apState up [apItem counterRead]) ∧
    apRequest (apState up [apItem counterRead]) 23 = some ((apItem counterRead).pkt, counterRead) ∧ counterRead.opcode = 0x30 ∧
    (port up 23).fenced = false ∧ apReadError up counterRead = 0 ∧ apReadError up slyRead ≠ 0 ∧ apCounter strayWrite = none ∧
    apCounter counterRead = some (0, 0, false) ∧ pmuPowered up 0 = true := by unfold Awake; decide +kernel

theorem witness_ApertureAccesses_writes :
    apRequest (apState up [apItem traceWrite, apOp]) 23 = some ((apItem traceWrite).pkt, traceWrite) ∧
    apOperand (apState up [apItem traceWrite, apOp]) (apItem traceWrite).pkt = some apData ∧ traceWrite.opcode = 0x31 ∧
    apWriteError traceWrite apData = 0 ∧ apWriteError strayWrite apData ≠ 0 ∧ trcOn up = false ∧
    apWriteError traceWrite { apData with poison := true } ≠ 0 ∧
    apRequest (apState up [apItem strayWrite, apOp]) 23 = some ((apItem strayWrite).pkt, strayWrite) ∧
    apOperand (apState up [apItem strayWrite, apOp]) (apItem strayWrite).pkt = some apData := by decide +kernel

/-- The stream runs, the sillage FIFO is full, and the word completes a packet of port 23. -/
def trFull : State :=
  setStager (apState { tracing with obs := { tracing.obs with storage := List.replicate 512 (List.replicate 8 0), assembly := List.replicate 7 0 } }
    [apItem traceWrite, apOp]) 23 ⟨[8], 1, false⟩

theorem witness_ApertureAccesses_full : Awake trFull ∧ trcOn trFull = true ∧ stageFull trFull 23 (apWord traceWrite apData) = true ∧
    apRequest trFull 23 = some ((apItem traceWrite).pkt, traceWrite) ∧
    apOperand trFull (apItem traceWrite).pkt = some apData ∧ (port trFull 23).fenced = false := by unfold Awake; decide +kernel

/-- The dump runs and its comparator is due; the same with a snapshot not yet written. -/
def dumping : State := { setReg up 0x332010 0x8007D1 with mirror := { freshMirror with hbTxDue := 1, hbRxDue := 1 } }
def dumpBusy : State := { dumping with obs := { freshObs with dumpQ := [(0x80000000, 5)] } }
def dumpTxn (k : BitVec 8) (ring : Bool) : DumpTxn := { (default : DumpTxn) with txn := k, ring := ring }
def fourOut : State := { dumping with obs := { freshObs with dumpTxns := [dumpTxn 0 false, dumpTxn 1 false, dumpTxn 2 false, dumpTxn 3 false] } }

theorem witness_DumpWriter_tick : Ticking dumping ∧ getBit dumping 0x332010 0 = true ∧ comparatorTurn dumping 3 = true ∧
    dumping.obs.dumpDue ≤ dumping.tick ∧ dumpMode dumping = true ∧ snapPending dumping = false ∧ Ticking dumpBusy ∧
    comparatorTurn dumpBusy 3 = true ∧ snapPending dumpBusy = true ∧ getBit up 0x332010 0 = false := by
  unfold Ticking Awake; decide +kernel

theorem witness_DumpWriter_issue : fourOut.obs.dumpTxns.length = 4 ∧ (∀ t ∈ fourOut.obs.dumpTxns, t.grant = false) ∧
    (∀ k, k < 4 → ∃ t ∈ fourOut.obs.dumpTxns, t.txn.toNat = k) ∧ dumpMode dumpBusy = true ∧ dumpBusy.obs.dumpTxns = [] ∧
    itemFirst dumpBusy = false ∧ dumpBusy.obs.dumpStop = false ∧ dumpBusy.obs.dumpQ = (0x80000000, 5) :: [] := by decide +kernel

/-- A line outside the window to write; and an item that is ready. -/
def dumpOutside : State := { dumping with obs := { freshObs with dumpQ := [(0x1000, 5)] } }
def ringing : State :=
  { setReg (setReg dumping 0x340000 0x140C9) 0x340018 0x80000000 with
    obs := { freshObs with storage := [List.replicate 8 7] } }

theorem witness_DumpWriter_issue_lines : Awake dumpBusy ∧ homeOf dumpBusy (0x80000000 : Addr).toNat = some (homeOfLine up 0 0) ∧
    Awake dumpOutside ∧ dumpMode dumpOutside = true ∧ dumpOutside.obs.dumpTxns = [] ∧ itemFirst dumpOutside = false ∧
    dumpOutside.obs.dumpStop = false ∧ dumpOutside.obs.dumpQ = (0x1000, 5) :: [] ∧ homeOf dumpOutside (0x1000 : Addr).toNat = none ∧
    Awake ringing ∧ dumpMode ringing = true ∧ ringing.obs.dumpTxns = [] ∧ itemFirst ringing = true ∧
    ringing.obs.storage = List.replicate 8 7 :: [] ∧ ringing.obs.apWait = [] ∧
    (homeOf ringing (BitVec.ofNat 48 (ringNext ringing)).toNat).isSome = true := by unfold Awake; decide +kernel

/-- An answer for the dump writer. -/
def dumpRsp (op : BitVec 4) : Rsp := ⟨op, 0, 0, 0, 0, 0, 0, 0, false⟩
def answered (op : BitVec 4) (ring : Bool) : State :=
  { up with obs := { freshObs with dumpTxns := [dumpTxn 0 ring], dumpInbox := [inItem (.rsp (dumpRsp op)) 0] } }

theorem witness_DumpWriter_answers : Awake (answered 7 false) ∧
    (answered 7 false).obs.dumpInbox = [inItem (.rsp (dumpRsp 7)) 0] ∧ (answered 7 false).obs.dumpTxns = [dumpTxn 0 false] ∧
    (dumpTxn 0 false).txn = (dumpRsp 7).txn ∧ (dumpTxn 0 false).gone = false ∧ (dumpTxn 0 false).ring = false ∧
    Awake (answered 2 true) ∧ (dumpTxn 0 true).ring = true ∧ getFld (answered 2 true) 0x340020 0 15 + 1 < ringLines (answered 2 true) ∧
    up.obs.dumpInbox = [] := by unfold Awake; decide +kernel

/-- An item that is open with three words. -/
def openItem : State := { up with obs := { freshObs with assembly := [1, 2, 3], flushDue := some 0 } }

theorem witness_DumpWriter_flush : Ticking openItem ∧ openItem.obs.flushDue = some 0 ∧ 0 ≤ openItem.tick ∧
    openItem.obs.storage.length < 512 ∧ up.obs.flushDue = none := by unfold Ticking Awake; decide +kernel

-- faults and Safe

/-- One event counted at source 7 of the last channel, its window over. -/
def oneCount : State := { up with faults := { freshFaults with counts := [(23 * 32 + 7, ⟨1, 0⟩)] } }

theorem witness_CountedFaults : Awake up ∧ unitOn up 23 = true ∧ srcClass 23 7 = .counted ∧ inFault up 23 7 = false ∧
    (fltCount up 23 7).count + 1 < fltThresh up 23 ∧ srcClass 23 8 = .reserved ∧ Awake oneCount ∧
    (fltCount oneCount 23 7).count ≠ 0 ∧ (fltCount oneCount 23 7).due ≤ oneCount.tick ∧ (fltCount up 23 7).count = 0 := by
  unfold Awake; decide +kernel

/-- M10, entered from M3, the quiet period over. -/
def calm : State := setReg (inMode 10) 0x320004 0x3000 |> fun s => { setReg s 0x320010 0x180C9 with tick := 1000000000 }

theorem witness_SafeIsEnteredAndLeft : srcClass 24 8 = .immediate ∧ srcClass 26 0 = .terminal ∧ Awake up ∧ unitOn up 24 = true ∧
    inSafe up = false ∧ (1 : BitVec 17).toNat % 2 ^ parityBits 7 ≠ 0 ∧ blotArmed up 0x0C 7 = false ∧
    (0 : BitVec 17).toNat % 2 ^ parityBits 7 = 0 := by unfold Awake; decide +kernel

theorem witness_SafeIsEnteredAndLeft_drydown : Awake calm ∧ inSafe calm = true ∧ blockedCode calm = 0 ∧
    calm.faults.quietStart + quietPeriod calm ≤ calm.tick ∧ blockedCode (inMode 10) ≠ 0 := by unfold Awake; decide +kernel

-- modes

/-- M1 in its stages. -/
def booting (b : Boot) : State := { inMode 1 with seq := { freshSeq with boot := b } }

theorem witness_CalibrateSelfTestTrain : Awake (booting .calibrate) ∧ curMode (booting .calibrate) = 1 ∧
    (booting .calibrate).seq.boot = .calibrate ∧ Awake (booting .sram) ∧ (booting .sram).seq.boot = .sram ∧
    (booting .sram).seq.exit8 = false ∧ popCountOk (booting .sram) = true ∧ 25 ≤ (25 : BitVec 8).toNat ∧ (24 : BitVec 8).toNat < 25 ∧ Awake (booting .train) ∧
    inTraining (booting .train) 0 = true ∧ inTraining (booting .train) 15 = true ∧ inTraining up 0 = false ∧ up.seq.run = none := by
  unfold Awake; decide +kernel

theorem witness_CalibrateSelfTestTrain_wake : (inMode 8).undef = false ∧ (inMode 8).pins.porstLow = false ∧
    (inMode 8).pins.brstLow = false ∧ (inMode 8).pins.aonClk = true ∧ curMode (inMode 8) = 8 ∧ curMode up ≠ 8 ∧ curMode up ≠ 1 ∧
    twinPwr (inMode 8) = true ∧ twinPwr (setReg noTwin 0x10 8) = false ∧ (inMode 8).twin.perstLow = false ∧
    { inMode 8 with twin := { freshTwin with perstLow := true } }.twin.perstLow = true := by decide +kernel

/-- A `SET_MODE` from M3 to M5 in its last phase; a Drain to M2, to M8 and to M11; a Wipe. -/
def runOf (op arg phase : Nat) : RunCmd := ⟨.host, BitVec.ofNat 32 op, [], phase, none, arg, false, 1⟩
def moving : State := { inMode 0x1503 with seq := { freshSeq with run := some (runOf 2 0 2), boot := .run } }
def draining : State := { inMode 0x1237 with seq := { freshSeq with run := some (runOf 2 0 1), trans := some ⟨3, 2, 0⟩, boot := .run } }
def drainDown : State := { inMode 0x1837 with seq := { freshSeq with run := some (runOf 2 0 1), trans := some ⟨3, 8, 0⟩, boot := .run } }
def drainWipe : State := { inMode 0x1B37 with seq := { freshSeq with run := some (runOf 0x49 0 1), trans := some ⟨3, 11, 0⟩, boot := .run } }
def wipes : State := { inMode 0x123B with seq := { freshSeq with run := some (runOf 0x49 0 1), boot := .run } }

theorem witness_TransitionsEnd : Awake moving ∧ inTransit moving = true ∧ curMode moving ≠ 7 ∧ curMode moving ≠ 11 ∧
    moving.seq.run = some (runOf 2 0 2) ∧ bitsOf (runOf 2 0 2).hdr 0 8 = 2 ∧ (runOf 2 0 2).phase = 2 ∧ inSafe moving = false ∧
    swapPending moving = false ∧ inTransit up = false := by unfold Awake; decide +kernel

theorem witness_TransitionsEnd_drain : curMode draining = 7 ∧ draining.seq.trans = some ⟨3, 2, 0⟩ ∧
    curMode (flushAll (drainWork draining 2)) = 7 ∧ (List.range 8).any (metaDirty (flushAll (drainWork draining 2))) = false ∧
    curMode (flushAll (drainWork drainDown 8)) = 7 ∧ (List.range 8).any (metaDirty (flushAll (drainWork drainDown 8))) = false ∧
    curMode (flushAll (drainWork drainWipe 11)) = 7 ∧ (List.range 8).any (metaDirty (flushAll (drainWork drainWipe 11))) = false ∧
    drained (drainWork draining 2) 2 = true ∧ drained (drainWork drainDown 8) 8 = true ∧ curMode drainDown = 7 ∧
    drainDown.seq.trans = some ⟨3, 8, 0⟩ ∧ drained (drainWork drainWipe 11) 11 = true ∧ curMode drainWipe = 7 ∧
    drainWipe.seq.trans = some ⟨3, 11, 0⟩ ∧ curMode up ≠ 7 ∧ curMode wipes = 11 ∧ wipes.pins.lcAdvReq = false ∧
    wipes.seq.lcTarget = none ∧ curMode up ≠ 11 := by decide +kernel

/-- The Drain to M2 with a changed metadata line far above the watermark of channel 0, which may hold no more early units. -/
def drainHeld : State :=
  setReg (setSlice (setChan draining 0 { chan draining 0 with early := List.range 64 }) 0
    { freshSlice with ctc := [⟨0, 2800, 0, true, false, none, false⟩] }) (mcBase 0 + 0xA0) 0x1000000

theorem witness_TransitionsEnd_held : curMode drainHeld = 7 ∧ drainHeld.seq.trans = some ⟨3, 2, 0⟩ ∧
    drained (drainWork drainHeld 2) 2 = true ∧ (List.range 8).any (metaDirty (flushAll (drainWork drainHeld 2))) = true := by
  decide +kernel

/-- `SLICE_POWER` for slice 7 in a phase; `ACCORD_CFG` for pair 3 with an active entry. -/
def powering (k : Nat) : State := { up with seq := { freshSeq with run := some (runOf 0x38 7 k), boot := .run } }
def joining (k : Nat) : State := { up with seq := { freshSeq with run := some { runOf 0x39 3 k with params := [8] }, boot := .run } }
def joiningBusy : State := setSlice (joining 2) 6 { freshSlice with entries := [snooping] }

theorem witness_SlicesMoveAndPowerDown_waits : mover up = none ∧ Awake joiningBusy ∧
    mover joiningBusy = some { runOf 0x39 3 2 with params := [8] } ∧
    (closedSlices joiningBusy { runOf 0x39 3 2 with params := [8] }).any (activeHere joiningBusy) = true := by
  unfold Awake; decide +kernel

theorem witness_SlicesMoveAndPowerDown_moves : Awake (joining 3) ∧ mover (joining 3) = some { runOf 0x39 3 3 with params := [8] } ∧
    (let r : RunCmd := { runOf 0x39 3 3 with params := [8] }
     let u := dropWalks (joining 3) (movePairOf r)
     backOn r = false ∧ fitsIn (thinCrowds u (switchPair u r) (movePairOf r)) (switchPair u r) (movePairOf r) = true ∧
     pairQuiet (thinCrowds u (switchPair u r) (movePairOf r)) (movePairOf r) = true) := by unfold Awake; decide +kernel

/-- The same with a notice in a lane of slice 6. -/
def joiningLate : State := setSlice (joining 3) 6 { freshSlice with lanes := [notice] }

theorem witness_SlicesMoveAndPowerDown_waits_on : Awake joiningLate ∧
    mover joiningLate = some { runOf 0x39 3 3 with params := [8] } ∧
    (let r : RunCmd := { runOf 0x39 3 3 with params := [8] }
     let u := dropWalks joiningLate (movePairOf r)
     pairQuiet (thinCrowds u (switchPair u r) (movePairOf r)) (movePairOf r) = false) := by unfold Awake; decide +kernel

theorem witness_SlicesMoveAndPowerDown_power : Awake (powering 4) ∧ mover (powering 4) = some (runOf 0x38 7 4) ∧
    isAccordCfg (runOf 0x38 7 4) = false ∧ (runOf 0x38 7 4).phase = 4 ∧ (runOf 0x38 7 4).arg = 7 ∧
    pairJoined (powering 4) (7 / 2) = false ∧ sliceEmpty (powering 4) 7 = true ∧ ownQueuesEmpty (powering 4) 7 = true ∧
    metaDirty (flushCaches (powering 4) 7) 7 = false ∧ (mover (flushCaches (powering 4) 7)).isNone = false ∧
    mover (powering 5) = some (runOf 0x38 7 5) ∧ (runOf 0x38 7 5).phase = 5 := by unfold Awake; decide +kernel

-- words that the manual writes out

/-- The `AtomOp` of the worked example of R81: compare and swap, TXN 0x2A, 8 bytes at 0x004123456798. -/
def exampleCas : Req := ⟨0x18, 2, 0x2A, 1, 5, 1, false, false, false, 0x004123456798, 3, 0⟩

theorem test_reqWords_of_the_example : withPar (reqBits exampleCas) = 0x0000000000030041234567980454A898#128 := by decide +kernel

theorem test_reqOf_example : reqOf (withPar (reqBits exampleCas)) = exampleCas := by decide +kernel

end Sys2Proof.Tests
end

section
/-! SUPPORT. A control-port access by steps: what a free port passes on, and what a read of a register gives that holds no RC
bits and that no parity check covers. -/

namespace Sys2Proof.Laws

open Sys2Proof.Machine Sys2Proof.Safety

/-- A guarded command completes where the block is defined, when its effect leaves the queue alone. -/
theorem completes_of_guarded {c : Instr} {s t : State} {P : State → Prop} (hc : exec c s = guarded s t)
    (hdef : s.undef = false) (hqueue : t.pending = s.pending) (hP : P t) : Completes c s P := by
  refine ⟨t, ?_, hP⟩
  rw [hc, guarded, hdef, resume, ← hqueue]
  rfl

theorem defined_of_portFree {s : State} (h : PortFree s) : s.undef = false := h.1.1

/-- A free port takes the access of the register that holds the byte (R33). -/
theorem cpAccess_of_portFree {s : State} (h : PortFree s) (write : Bool) (a : Nat) (v : Word) :
    cpAccess s write a v = cpServe (portTook s) write (a / 4 * 4) v := by
  obtain ⟨⟨-, hrun⟩, hlive, hreq⟩ := h
  rw [cpAccess, if_neg (by simp [hreq])]
  exact if_pos (Bool.and_eq_true_iff.mpr ⟨hrun, hlive⟩)

@[simp] theorem domainOff_portTook (s : State) (a : Nat) : domainOff (portTook s) a = domainOff s a := rfl
@[simp] theorem getReg_portTook (s : State) (a : Nat) : getReg (portTook s) a = getReg s a := rfl
@[simp] theorem probeCount_portTook (s : State) (r : Nat) : probeCount (portTook s) r = probeCount s r := rfl

@[simp] theorem getReg_cpGive (r : State × Word) (a : Nat) : getReg (cpGive r) a = getReg r.1 a := rfl

/-- A read where the domain is on and the offset is known (R45, R461). -/
theorem cpServe_read {s : State} {a : Nat} (v : Word) (hon : domainOff s a = false) (hknown : offsetKnown a = true) :
    cpServe s false a v = cpGive (regRead s .control a) := by
  simp [cpServe, hon, hknown]

theorem clearRc_of_rc_zero {a : Nat} {d : RegDesc} (s : State) (hd : regDesc a = some d) (hrc : d.rc = 0) :
    clearRc s a = s := by
  simp [clearRc, hd, hrc]

theorem accessParity_of_no_item {a : Nat} (s : State) (h : parityItem a = none) : accessParity s a = s := by
  simp [accessParity, h]

/-- The register at offset `a` has no RC bits, no parity field covers it, and a read of it takes nothing from a mailbox and
inspects no filter entry: a read makes the copy that belongs to it and gives what the register shows. -/
structure PlainRead (a : Nat) : Prop where
  aligned : a % 4 = 0
  noRc : ∃ d, regDesc a = some d ∧ d.rc = 0
  noParity : parityItem a = none
  noMail : a ≠ 0x350004
  noInspect : ¬ (0x100000 ≤ a ∧ a < 0x180000 ∧ 0x224 ≤ a % 0x10000 ∧ a % 0x10000 ≤ 0x22C)

theorem regRead_of_plain {a : Nat} (h : PlainRead a) (s : State) (p : ReadPath) :
    regRead s p a = (readEffects s p a, regView s p a) := by
  obtain ⟨d, hd, hrc⟩ := h.noRc
  rw [regRead, if_neg h.noMail, if_neg h.noInspect, clearRc_of_rc_zero s hd hrc, accessParity_of_no_item _ h.noParity]

theorem offsetKnown_of_plain {a : Nat} (h : PlainRead a) : offsetKnown a = true := by
  obtain ⟨d, hd, -⟩ := h.noRc
  simp [offsetKnown, hd]

/-- A free port gives what a plain register shows, and the copy of its pair is made. -/
theorem cpRead_of_plain {s : State} {a : Nat} (hfree : PortFree s) (hon : domainOff s a = false) (h : PlainRead a) :
    cpRead s a = cpGive (readEffects (portTook s) .control a, regView (portTook s) .control a) := by
  have ha : a / 4 * 4 = a := by have := h.aligned; omega
  have hon' : domainOff (portTook s) a = false := (domainOff_portTook s a).trans hon
  rw [cpRead, cpAccess_of_portFree hfree, ha, cpServe_read 0 hon' (offsetKnown_of_plain h), regRead_of_plain h]

end Sys2Proof.Laws
end

section
/-! SUPPORT. Proof of O18: the LO and HI pairs of the timebase (R61) and of the probes (R241). -/

namespace Sys2Proof.Proofs

open Sys2Proof.Machine Sys2Proof.Safety Sys2Proof.Laws

-- the timebase pair: GLB_TB_LO at 0x80, GLB_TB_HI at 0x84

theorem plainRead_tbLo : PlainRead 0x80 := ⟨rfl, ⟨roReg 0, rfl, rfl⟩, rfl, by decide, by decide⟩

theorem regView_tbHi (s : State) (p : ReadPath) : regView s p 0x84 = s.pins.tbHi := rfl

/-- The state that a read of GLB_TB_LO leaves (R61). -/
theorem cpRead_tbLo {s : State} (h : PortFree s) : cpRead s 0x80 =
    { portTook s with pins := { (portTook s).pins with
        tbHi := BitVec.ofNat 32 (s.tick / 2 ^ 32), cpRdata := BitVec.ofNat 32 s.tick } } :=
  cpRead_of_plain h rfl plainRead_tbLo

theorem tbLoRead_copies {s : State} (h : PortFree s) : Completes .tbLoRead s (fun t =>
    t.pins.cpRdata = BitVec.ofNat 32 s.tick ∧ t.pins.tbHi = BitVec.ofNat 32 (s.tick / 2 ^ 32) ∧ t.pins.cpAck = true ∧
    t.pins.cpErr = false ∧ OnlyPins s t) := by
  refine completes_of_guarded (t := cpRead s 0x80) rfl (defined_of_portFree h) ?_ ?_ <;> rw [cpRead_tbLo h]
  · rfl
  · exact ⟨rfl, rfl, rfl, rfl, rfl⟩

-- the pair of a probe: SPN_PROBE_CNT_LO at 0xC of its block, SPN_PROBE_CNT_HI at 0x10

theorem regDesc_probeLo (r : RouterId) : regDesc (probeBase r.val + 0xC) = some (roReg 0) := by
  revert r; decide

theorem domainOff_probe (s : State) (r : RouterId) {o : Nat} (ho : o < 0x20) :
    domainOff s (probeBase r.val + o) = false := by
  have := r.isLt
  unfold domainOff probeBase
  repeat rw [if_neg (by omega)]

theorem plainRead_probeLo (r : RouterId) : PlainRead (probeBase r.val + 0xC) := by
  have := r.isLt
  refine ⟨?_, ⟨_, regDesc_probeLo r, rfl⟩, ?_, ?_, ?_⟩
  · unfold probeBase; omega
  · unfold parityItem probeBase
    rw [if_neg (by omega), if_neg (by omega), if_neg (by omega)]
  · unfold probeBase; omega
  · unfold probeBase; omega

/-- A probe's block shows its registers, and the count of the probe at CNT_LO. -/
theorem regView_probe (s : State) (p : ReadPath) (r : RouterId) {o : Nat} (ho : o < 0x20) :
    regView s p (probeBase r.val + o) =
      if o = 0xC then BitVec.ofNat 32 (probeCount s r.val) else getReg s (probeBase r.val + o) := by
  have hr := r.isLt
  have hoff : probeBase r.val + o - 0x300000 = 0x1000 + r.val * 0x20 + o := by unfold probeBase; omega
  have hreg : 0x300000 + (0x1000 + r.val * 0x20 + o) = probeBase r.val + o := by unfold probeBase; omega
  have hspn : regView s p (probeBase r.val + o) = spnView s (probeBase r.val + o - 0x300000) := by
    unfold regView probeBase
    rw [if_neg (by omega), if_neg (by omega), if_neg (by omega), if_neg (by omega), if_pos (by omega)]
  rw [hspn, hoff, spnView, if_neg (by omega), if_neg (by omega), hreg]
  by_cases hlo : o = 0xC
  · rw [if_pos (by omega), if_pos hlo, show (0x1000 + r.val * 0x20 + o - 0x1000) / 32 = r.val by omega]
  · rw [if_neg (by omega), if_neg (by omega), if_neg hlo]

/-- A read of CNT_LO copies the upper part of its probe's count to CNT_HI (R241). -/
theorem readEffects_probeLo (s : State) (p : ReadPath) (r : RouterId) : readEffects s p (probeBase r.val + 0xC) =
    setReg s (probeBase r.val + 0x10) (BitVec.ofNat 32 (probeCount s r.val / 2 ^ 32)) := by
  have hr := r.isLt
  have hprobe : (probeBase r.val + 0xC - 0x301000) / 32 = r.val := by unfold probeBase; omega
  rw [readEffects, if_neg (by unfold probeBase; omega), if_neg (by unfold probeBase; omega),
    if_pos (by unfold probeBase; omega), hprobe]

theorem cpRead_probeLo {s : State} (h : PortFree s) (r : RouterId) : cpRead s (probeBase r.val + 0xC) =
    cpGive (setReg (portTook s) (probeBase r.val + 0x10) (BitVec.ofNat 32 (probeCount s r.val / 2 ^ 32)),
      BitVec.ofNat 32 (probeCount s r.val)) := by
  rw [cpRead_of_plain h (domainOff_probe s r (by decide)) (plainRead_probeLo r), readEffects_probeLo,
    regView_probe _ _ _ (by decide), if_pos rfl, probeCount_portTook]

theorem probeCntLoRead_copies {s : State} (h : PortFree s) (r : RouterId) : Completes (.probeCntLoRead r) s (fun t =>
    t.pins.cpRdata = BitVec.ofNat 32 (probeCount s r.val) ∧
    getReg t (probeBase r.val + 0x10) = BitVec.ofNat 32 (probeCount s r.val / 2 ^ 32) ∧
    RegsBut (probeBase r.val + 0x10) s t ∧ OnlyRegsPins s t) := by
  refine completes_of_guarded (t := cpRead s (probeBase r.val + 0xC)) rfl (defined_of_portFree h) ?_ ?_ <;> rw [cpRead_probeLo h]
  · rfl
  · refine ⟨rfl, getReg_setReg_same _ _ _, fun b hb => ?_, rfl⟩
    rw [getReg_cpGive, getReg_setReg_ne _ _ hb, getReg_portTook]

theorem regView_probeHi (s : State) (p : ReadPath) (r : RouterId) :
    regView s p (probeBase r.val + 0x10) = getReg s (probeBase r.val + 0x10) := by
  rw [regView_probe s p r (by decide), if_neg (by decide)]

/-- Settles O18: each LO register is a plain read, whose effect is the copy that its HI register shows. -/
theorem loReadCopiesHi : Obligations.LoReadCopiesHi :=
  ⟨fun _ h => tbLoRead_copies h, fun _ r h => probeCntLoRead_copies h r, fun s => regView_tbHi s .control,
    fun s r => regView_probeHi s .control r⟩

end Sys2Proof.Proofs
end

section
/-! SUPPORT. A control-port write by steps: what a free port passes on, what a write leaves in each bit of a register, and the
registers of the channels, which a write gives their fields and no other effect. -/

namespace Sys2Proof.Laws

open Sys2Proof.Machine Sys2Proof.Safety

theorem aligned_of_regDesc {a : Nat} (h : (regDesc a).isSome = true) : a % 4 = 0 := by
  by_contra hn
  simp [regDesc, hn] at h

/-- A free port writes a register whose domain is on (R45, R461). -/
theorem cpWrite_of_reachable {s : State} {a : Nat} (hfree : PortFree s) (h : Reachable s a) (v : Word) :
    cpWrite s a v = regWrite (portTook s) a v := by
  obtain ⟨hon, hcfg, hreg⟩ := h
  have ha : a / 4 * 4 = a := by have := aligned_of_regDesc hreg; omega
  rw [cpWrite, cpAccess_of_portFree hfree, ha]
  simp [cpServe, hon, hcfg, hreg, offsetKnown]

/-- Bit `i` of a register once `v` is written (R7, R462). -/
theorem bitOf_written (s : State) (a : Nat) (d : RegDesc) (v : Word) {i : Nat} (hi : i < 32) :
    bitOf (written s a d v) i =
      ((if bitOf (writeMask s a d) i then bitOf v i else getBit s a i) && !(bitOf v i && bitOf d.w1c i) ||
        bitOf v i && bitOf d.w1s i) := by
  cases hm : bitOf (writeMask s a d) i <;>
    simp only [bitOf, BitVec.getLsbD_eq_getElem hi] at hm <;> simp [written, getBit, bitOf, hm, hi]

/-- Offset `o` of the space of a channel (Table 19.2). -/
theorem chanOffset_bounds (c : ChanId) {o : Nat} (ho : o < 0x4000) :
    0x200000 ≤ mcBase c.val + o ∧ mcBase c.val + o < 0x240000 ∧ (mcBase c.val + o) % 0x4000 = o := by
  have := c.isLt
  unfold mcBase
  omega

theorem regDesc_chan (c : ChanId) {o : Nat} (ho : o < 0x4000) (h4 : o % 4 = 0) : regDesc (mcBase c.val + o) = mcDesc o := by
  obtain ⟨hlo, hhi, hmod⟩ := chanOffset_bounds c ho
  rw [regDesc, if_neg (by omega), if_neg (by omega), if_neg (by omega), if_neg (by omega), if_pos hhi, hmod]

theorem regView_chan (s : State) (p : ReadPath) (c : ChanId) {o : Nat} (ho : o < 0x4000) :
    regView s p (mcBase c.val + o) = mcView s c.val o := by
  obtain ⟨hlo, hhi, hmod⟩ := chanOffset_bounds c ho
  have hchan : (mcBase c.val + o - 0x200000) / 0x4000 = c.val := by unfold mcBase; omega
  rw [regView, if_neg (by omega), if_neg (by omega), if_pos hhi, hchan, hmod]

theorem parityItem_chan (c : ChanId) {o : Nat} (ho : o < 0x4000) : parityItem (mcBase c.val + o) = none := by
  obtain ⟨hlo, hhi, -⟩ := chanOffset_bounds c ho
  rw [parityItem, if_neg (by omega), if_neg (by omega), if_neg (by omega)]

/-- The registers with an effect in chapters 9 and 17 lie above the channels. -/
theorem observeWrite_chan (t s : State) (c : ChanId) {o : Nat} (ho : o < 0x4000) (v : Word) :
    observeWrite t s (mcBase c.val + o) v = t := by
  obtain ⟨hlo, hhi, -⟩ := chanOffset_bounds c ho
  rw [observeWrite, if_neg (by omega), if_neg (by omega), if_neg (by omega), if_neg (by omega)]
  -- the last match runs over single offsets, all above the channels
  all_goals (intro h; omega)

theorem regWrite_chan (s : State) (c : ChanId) {o : Nat} (ho : o < 0x4000) (v : Word) :
    regWrite s (mcBase c.val + o) v = storeReg s (mcBase c.val + o) v := by
  obtain ⟨hlo, hhi, -⟩ := chanOffset_bounds c ho
  rw [regWrite, accessParity_of_no_item _ (parityItem_chan c ho), if_neg (by omega), observeWrite_chan _ _ c ho]

/-- Of the registers of a channel, MC_ERR at 0x54 alone has a capture. -/
theorem captureOf_chan (c : ChanId) {o : Nat} (ho : o < 0x4000) (herr : o ≠ 0x54) : captureOf (mcBase c.val + o) = none := by
  obtain ⟨hlo, hhi, hmod⟩ := chanOffset_bounds c ho
  rw [captureOf, if_neg (by omega), if_neg (by omega), if_neg (by omega), if_neg (by omega)]

theorem storeReg_chan (s : State) (c : ChanId) {o : Nat} {d : RegDesc} (ho : o < 0x4000) (h4 : o % 4 = 0) (herr : o ≠ 0x54)
    (hd : mcDesc o = some d) (v : Word) :
    storeReg s (mcBase c.val + o) v = setReg s (mcBase c.val + o) (written s (mcBase c.val + o) d v) := by
  simp only [storeReg, regDesc_chan c ho h4, hd, releaseCapture, captureOf_chan c ho herr]

end Sys2Proof.Laws
end

section
/-! SUPPORT. Proof of O13: EN of MC_NREF (R263). -/

namespace Sys2Proof.Proofs

open Sys2Proof.Machine Sys2Proof.Safety Sys2Proof.Laws

/-- MC_NREF: EN is bit 6, and every field is RW (Table 19.5). -/
def nrefReg : RegDesc := rwReg 0x4A 0x7F

theorem mcDesc_nref : mcDesc 0x4C = some nrefReg := rfl

/-- A write may set EN in Develop and Return alone (R263). -/
theorem bitOf_writeMask_nrefEn (s : State) (c : ChanId) :
    bitOf (writeMask s (mcBase c.val + 0x4C) nrefReg) 6 = (lcState s == 1 || lcState s == 3) := by
  obtain ⟨hlo, hhi, hmod⟩ := chanOffset_bounds c (o := 0x4C) (by decide)
  cases hlc : lcState s == 1 || lcState s == 3 <;> simp [writeMask, nrefReg, rwReg, bitOf, hlo, hhi, hmod, hlc]

theorem bitOf_written_nrefEn (s : State) (c : ChanId) (v : Word) :
    bitOf (written s (mcBase c.val + 0x4C) nrefReg v) 6 =
      if lcState s == 1 || lcState s == 3 then bitOf v 6 else getBit s (mcBase c.val + 0x4C) 6 := by
  have hw1c : bitOf nrefReg.w1c 6 = false := rfl
  have hw1s : bitOf nrefReg.w1s 6 = false := rfl
  rw [bitOf_written s _ _ v (by decide), bitOf_writeMask_nrefEn, hw1c, hw1s]
  simp

theorem cpWrite_nref {s : State} {c : ChanId} (hfree : PortFree s) (h : Reachable s (mcBase c.val + 0x4C)) (v : Word) :
    cpWrite s (mcBase c.val + 0x4C) v =
      setReg (portTook s) (mcBase c.val + 0x4C) (written (portTook s) (mcBase c.val + 0x4C) nrefReg v) := by
  rw [cpWrite_of_reachable hfree h, regWrite_chan _ c (by decide),
    storeReg_chan _ c (by decide) (by decide) (by decide) mcDesc_nref]

/-- EN after a write: the value written in Develop and Return, the value before elsewhere. -/
theorem getBit_cpWrite_nrefEn {s : State} {c : ChanId} (hfree : PortFree s) (h : Reachable s (mcBase c.val + 0x4C)) (v : Word) :
    getBit (cpWrite s (mcBase c.val + 0x4C) v) (mcBase c.val + 0x4C) 6 =
      if lcState s == 1 || lcState s == 3 then bitOf v 6 else getBit s (mcBase c.val + 0x4C) 6 := by
  rw [cpWrite_nref hfree h, getBit, getReg_setReg_same, bitOf_written_nrefEn]
  rfl

theorem nrefWrite_needs_develop_or_return (s : State) (c : ChanId) (a : BitVec 22) (v : Word) (hfree : PortFree s)
    (h : Reachable s (mcBase c.val + 0x4C)) (ha : a.toNat = mcBase c.val + 0x4C) : Completes (.registerWrite a v) s (fun t =>
      (lcState s = 1 ∨ lcState s = 3 → getBit t (mcBase c.val + 0x4C) 6 = bitOf v 6) ∧
      (lcState s ≠ 1 → lcState s ≠ 3 → getBit t (mcBase c.val + 0x4C) 6 = getBit s (mcBase c.val + 0x4C) 6)) := by
  have hexec : exec (.registerWrite a v) s = guarded s (cpWrite s (mcBase c.val + 0x4C) v) := by rw [← ha]; rfl
  refine completes_of_guarded hexec (defined_of_portFree hfree) ?_ ⟨fun hlc => ?_, fun h1 h3 => ?_⟩
  · rw [cpWrite_nref hfree h]; rfl
  · rw [getBit_cpWrite_nrefEn hfree h, if_pos (by simpa using hlc)]
  · rw [getBit_cpWrite_nrefEn hfree h, if_neg (by simp [h1, h3])]

/-- Every path shows EN as it is in force. -/
theorem bitOf_regView_nrefEn (s : State) (p : ReadPath) (c : ChanId) :
    bitOf (regView s p (mcBase c.val + 0x4C)) 6 = nrefOn s c.val := by
  have hview : mcView s c.val 0x4C = bitsTo (getReg s (mcBase c.val + 0x4C)) 6 1 (b2n (nrefOn s c.val)) := rfl
  rw [regView_chan s p c (by decide), hview, bitOf_bitsTo _ _ _ (by decide), if_pos (by decide), Nat.sub_self, testBit_b2n]

theorem nrefOn_outside_develop_and_return {s : State} (c : ChanId) (h1 : lcState s ≠ 1) (h3 : lcState s ≠ 3) :
    nrefOn s c.val = true := by
  simp [nrefOn, h1, h3]

/-- Settles O13: the write mask of MC_NREF holds EN in Develop and Return alone, and what a read shows is EN in force. -/
theorem neighbourRefreshEnable : Obligations.NeighbourRefreshEnable :=
  ⟨nrefWrite_needs_develop_or_return,
    fun s p c h1 h3 => (bitOf_regView_nrefEn s p c).trans (nrefOn_outside_develop_and_return c h1 h3)⟩

end Sys2Proof.Proofs
end

section
/-! SUPPORT. The two shapes of a command: one that acts in every state, and one that the undefined state stops; with what they say
of the step, of the queue and of the end of the undefined state. -/

namespace Sys2Proof.Laws

open Sys2Proof.Machine Sys2Proof.Safety

/-- A reset, a supply event or an event of the always-on domain acts in every state. -/
theorem exec_of_actsAlways {c : Instr} (h : actsAlways c = true) (s : State) : ∃ t, exec c s = resume s t := by
  cases c with
  | resetAssert _ | resetRelease _ _ _ _ _ | alwaysOnPowerOn | supplyExcursion _ | vddCoreRemove | calendarLoss
  | calendarSecond | aonClkReturn => exact ⟨_, rfl⟩
  | _ => cases h

/-- Every other command is guarded by the undefined state. -/
theorem exec_of_not_actsAlways {c : Instr} (h : actsAlways c = false) (s : State) : ∃ t, exec c s = guarded s t := by
  cases c with
  | resetAssert _ | resetRelease _ _ _ _ _ | alwaysOnPowerOn | supplyExcursion _ | vddCoreRemove | calendarLoss
  | calendarSecond | aonClkReturn => cases h
  | _ => exact ⟨_, rfl⟩

theorem guarded_undefined {s : State} (t : State) (h : s.undef = true) : guarded s t = .fault .undefinedState := by
  simp [guarded, h]

theorem exec_undefined {s : State} {c : Instr} (hundef : s.undef = true) (h : actsAlways c = false) :
    exec c s = .fault .undefinedState := by
  obtain ⟨t, ht⟩ := exec_of_not_actsAlways h s
  rw [ht, guarded_undefined t hundef]

theorem step_cons {s : State} {c : Instr} {rest : List Instr} (h : s.pending = c :: rest) :
    step s = exec c { s with pending := rest } := by
  simp [step, h]

theorem step_nil {s : State} (h : s.pending = []) : step s = .next s := by simp [step, h]

-- what the commands that act always do to the undefined state

@[simp] theorem coreReset_undef (s : State) : (coreReset s).undef = s.undef := rfl

@[simp] theorem toOff_undef (s : State) : (toOff s).undef = s.undef := by
  unfold toOff; split <;> rfl

theorem applyFuse_kept_undef (s : State) (f : BitVec 16) : (applyFuse s f).undef = s.undef := by
  unfold applyFuse
  simp only []
  split
  · rfl
  · exact (report_kept _ _ _).undef

theorem powerUp_undef (s : State) : (powerUp s).undef = s.undef := by
  refine (Kept.forEach (fun u n => ?_) 8 _).undef
  split
  · exact Kept.refl u
  · exact (setFld_kept _ _ _ _ _).trans (setBit_kept _ _ _ _)

theorem startCold_undef (s : State) (straps : Straps) (fuse : BitVec 16) : (startCold s straps fuse).undef = s.undef :=
  (applyFuse_kept_undef _ fuse).trans (powerUp_undef _)

theorem resetAssertEffect_undef (s : State) (brst : Bool) : (resetAssertEffect s brst).undef = s.undef := by
  unfold resetAssertEffect
  simp only [toOff_undef, coreReset_undef]
  split <;> rfl

theorem supplyEffect_undef {s : State} (k : SupplyCause) (h : s.undef = true) : (supplyEffect s k).undef = true := by
  unfold supplyEffect
  split
  · split
    · exact h
    · split <;> exact h
  · split
    · exact h
    · split
      · exact h
      · rfl
  · split <;> exact h

theorem coreRemoveEffect_undef (s : State) : (coreRemoveEffect s).undef = s.undef := by
  unfold coreRemoveEffect
  split
  · rfl
  · dsimp only
    split
    · rfl
    · exact toOff_undef _

theorem calendarLossEffect_undef (s : State) : (calendarLossEffect s).undef = s.undef := by
  unfold calendarLossEffect
  dsimp only
  split
  · exact (report_kept _ _ _).undef
  · rfl

theorem calendarSecondEffect_undef (s : State) : (calendarSecondEffect s).undef = s.undef := by
  unfold calendarSecondEffect
  split <;> rfl

/-- Only a valid release ends the undefined state, and where it asks for one of `PORST_N`, only that (R27, R28). -/
theorem resetReleaseEffect_defined {s : State} {brst heldLong refclkOk : Bool} {straps : Straps} {fuse : BitVec 16}
    (hundef : s.undef = true) (h : (resetReleaseEffect s brst straps fuse heldLong refclkOk).undef = false) :
    heldLong = true ∧ refclkOk = true ∧ (brst = true → s.pins.needPorst = false) := by
  by_contra hnot
  have hvalid : ¬ ((heldLong && refclkOk) = true ∧ ((!brst) = true ∨ (!s.pins.needPorst) = true)) := by
    rintro ⟨hv, hp⟩
    obtain ⟨hl, hr⟩ := Bool.and_eq_true_iff.mp hv
    refine hnot ⟨hl, hr, fun hb => ?_⟩
    simpa [hb] using hp
  refine absurd h ?_
  unfold resetReleaseEffect
  extract_lets valid _ s₁ s₂ s₃ _ s₄ _ s₅
  have h₃ : s₃.undef = true := (congrArg State.undef (if_neg hvalid)).trans hundef
  have h₄ : s₄.undef = true := by
    unfold s₄
    split
    · exact h₃
    · exact h₃
  have h₅ : s₅.undef = true := by simp [s₅, h₄]
  have hend : (if s₄.pins.porstLow || s₄.pins.brstLow then s₄ else startCold s₅ straps fuse).undef = true := by
    split
    · exact h₄
    · exact (startCold_undef _ _ _).trans h₅
  rw [apply_ite State.undef, hend, hundef, ite_self]
  decide

theorem exec_actsAlways_defined {s t : State} {c : Instr} (hundef : s.undef = true) (hc : actsAlways c = true)
    (h : exec c s = .next t) (ht : t.undef = false) :
    ∃ b st f, c = .resetRelease b st f true true ∧ (b = true → s.pins.needPorst = false) := by
  have hstay : ∀ u : State, u.undef = true → exec c s ≠ resume s u := by
    intro u hu he
    rw [h, resume] at he
    injection he with he
    rw [he] at ht
    exact absurd (hu.symm.trans ht) (by decide)
  cases c with
  | resetAssert b => exact absurd rfl (hstay _ ((resetAssertEffect_undef s b).trans hundef))
  | resetRelease b st f l r =>
    have he : resume s (resetReleaseEffect s b st f l r) = .next t := h
    injection he with he
    have hd : (resetReleaseEffect s b st f l r).undef = false := by rw [← he] at ht; exact ht
    obtain ⟨rfl, rfl, hp⟩ := resetReleaseEffect_defined hundef hd
    exact ⟨b, st, f, rfl, hp⟩
  | alwaysOnPowerOn => exact absurd rfl (hstay (aonPowerOnEffect s) (by simp [aonPowerOnEffect, hundef]))
  | supplyExcursion k => exact absurd rfl (hstay _ (supplyEffect_undef k hundef))
  | vddCoreRemove => exact absurd rfl (hstay _ ((coreRemoveEffect_undef s).trans hundef))
  | calendarLoss => exact absurd rfl (hstay _ ((calendarLossEffect_undef s).trans hundef))
  | calendarSecond => exact absurd rfl (hstay _ ((calendarSecondEffect_undef s).trans hundef))
  | aonClkReturn => exact absurd rfl (hstay (aonReturnEffect s) hundef)
  | _ => cases hc

end Sys2Proof.Laws
end

section
/-! PROOF. O1, O2 and O3: the step, the two outcomes of a command, and the end of the undefined state. -/

namespace Sys2Proof.Proofs

open Sys2Proof.Machine Sys2Proof.Safety Sys2Proof.Laws

/-- Settles O1: the equation of `step` at a queue with a front command and at the empty queue. -/
theorem stepRunsTheFrontCommand : Obligations.StepRunsTheFrontCommand :=
  ⟨fun _ _ _ => step_cons, fun _ => step_nil⟩

theorem completes_of_defined_or_actsAlways (s : State) (c : Instr) (h : s.undef = false ∨ actsAlways c = true) :
    Completes c s (fun t => t.pending = s.pending) := by
  cases hc : actsAlways c with
  | true =>
    obtain ⟨t, ht⟩ := exec_of_actsAlways hc s
    exact ⟨_, ht, rfl⟩
  | false =>
    obtain ⟨t, ht⟩ := exec_of_not_actsAlways hc s
    have hdef : s.undef = false := h.resolve_right (by simp [hc])
    exact ⟨_, ht.trans (guarded_defined t hdef), rfl⟩

/-- Settles O2: every meaning is `resume` or `guarded` of an effect. -/
theorem everyCommandCompletes : Obligations.EveryCommandCompletes :=
  ⟨completes_of_defined_or_actsAlways, fun _ _ => exec_undefined⟩

/-- Settles O3: by the two shapes of a command, and of those that act always, by what each does to the flag. -/
theorem undefinedUntilAValidReset : Obligations.UndefinedUntilAValidReset := by
  intro s c rest hundef hq
  rw [step_cons hq]
  refine ⟨exec_undefined hundef, fun t hstep ht => ?_⟩
  cases hc : actsAlways c with
  | true => exact exec_actsAlways_defined (s := { s with pending := rest }) hundef hc hstep ht
  | false =>
    rw [exec_undefined (s := { s with pending := rest }) hundef hc] at hstep
    cases hstep

end Sys2Proof.Proofs
end

section
/-! SUPPORT. Fields of a flit: what a field of a concatenation reads, and how adjacent fields join. -/

namespace Sys2Proof.Laws

open Sys2Proof.Machine

variable {v w n : Nat}

theorem getLsbD_append_low (x : BitVec v) (y : BitVec w) {i : Nat} (h : i < w) : (x ++ y).getLsbD i = y.getLsbD i := by
  rw [BitVec.getLsbD_append, if_pos h]

theorem getLsbD_append_high (x : BitVec v) (y : BitVec w) {i : Nat} (h : w ≤ i) :
    (x ++ y).getLsbD i = x.getLsbD (i - w) := by
  rw [BitVec.getLsbD_append, if_neg (by omega)]

theorem ofBool_getLsbD (f : BitVec n) (i : Nat) : BitVec.ofBool (f.getLsbD i) = f.extractLsb' i 1 := by
  refine BitVec.eq_of_getLsbD_eq fun j hj => ?_
  obtain rfl : j = 0 := by omega
  simp

theorem zero_bit_of_getLsbD {f : BitVec n} {i : Nat} (h : f.getLsbD i = false) : (0#1 : BitVec 1) = f.extractLsb' i 1 := by
  rw [← ofBool_getLsbD, h]
  rfl

/-- A flit with even parity is the low part with its parity. -/
theorem withPar_of_parityOk {f : BitVec 128} (h : parityOk f = true) : withPar (f.extractLsb' 0 124) = f := by
  have hpar : f.extractLsb' 124 4 = par128 (f.extractLsb' 0 124) := by simpa [parityOk] using h
  rw [withPar, ← hpar]
  exact BitVec.extractLsb'_append_extractLsb' (len := 124) (w := 4)

/-- A `DAT` flit with even parity is its data and its header with their parity. -/
theorem dat_of_parityDatOk {f : BitVec 352} (h : parityDatOk f = true) :
    parDat (f.extractLsb' 0 256) (f.extractLsb' 256 85) ++ f.extractLsb' 256 85 ++ f.extractLsb' 0 256 = f := by
  have hpar : f.extractLsb' 341 11 = parDat (f.extractLsb' 0 256) (f.extractLsb' 256 85) := by simpa [parityDatOk] using h
  rw [← hpar]
  repeat rw [BitVec.extractLsb'_append_extractLsb'_eq_extractLsb' (by decide)]
  exact BitVec.extractLsb'_eq_self

/-- Every field is read back where the encoder put it. -/
theorem flits_decode_encode : (∀ r : Req, reqOf (withPar (reqBits r)) = r) ∧ (∀ r : Snp, snpOf (withPar (snpBits r)) = r) ∧
    (∀ r : Rsp, rspOf (withPar (rspBits r)) = r) ∧ (∀ d : Dat, datOf (datBits d) = d) := by
  refine ⟨fun ⟨_, _, _, _, _, _, _, _, _, _, _, _⟩ => ?_, fun ⟨_, _, _, _, _, _, _, _, _, _, _⟩ => ?_,
    fun ⟨_, _, _, _, _, _, _, _, _⟩ => ?_, fun ⟨_, _, _, _, _, _, _, _, _, _, _, _⟩ => ?_⟩
  all_goals
    simp only [reqOf, reqBits, Req.mk.injEq, snpOf, snpBits, Snp.mk.injEq, rspOf, rspBits, Rsp.mk.injEq, withPar, datOf,
      datBits, datHdr, Dat.mk.injEq]
  all_goals and_intros
  all_goals
    repeat first
      | rw [BitVec.extractLsb'_append_eq_left]
      | rw [BitVec.extractLsb'_append_eq_right]
      | rw [BitVec.extractLsb'_append_eq_of_add_le (by decide)]
      | rw [BitVec.extractLsb'_append_eq_of_le (by decide)]
      | rw [getLsbD_append_low _ _ (by decide)]
      | rw [getLsbD_append_high _ _ (by decide)]
  all_goals simp

theorem reqBits_reqOf {f : BitVec 128} (h₃₁ : f.getLsbD 31 = false) (h₈₃ : f.getLsbD 83 = false)
    (h₁₀₀ : f.extractLsb' 100 24 = 0) : reqBits (reqOf f) = f.extractLsb' 0 124 := by
  simp only [reqBits, reqOf, ofBool_getLsbD]
  rw [← h₁₀₀]
  nth_rewrite 1 [BitVec.ofNat_eq_ofNat, zero_bit_of_getLsbD h₈₃]
  rw [BitVec.ofNat_eq_ofNat, zero_bit_of_getLsbD h₃₁]
  repeat rw [BitVec.extractLsb'_append_extractLsb'_eq_extractLsb' (by decide)]

theorem snpBits_snpOf {f : BitVec 128} (h₃₈ : f.extractLsb' 38 10 = 0) (h₁₁₂ : f.extractLsb' 112 12 = 0) :
    snpBits (snpOf f) = f.extractLsb' 0 124 := by
  simp only [snpBits, snpOf, ofBool_getLsbD]
  rw [← h₃₈, ← h₁₁₂]
  repeat rw [BitVec.extractLsb'_append_extractLsb'_eq_extractLsb' (by decide)]

theorem rspBits_rspOf {f : BitVec 128} (h₃₅ : f.extractLsb' 35 89 = 0) : rspBits (rspOf f) = f.extractLsb' 0 124 := by
  simp only [rspBits, rspOf, ofBool_getLsbD]
  rw [← h₃₅]
  repeat rw [BitVec.extractLsb'_append_extractLsb'_eq_extractLsb' (by decide)]

theorem datHdr_datOf {f : BitVec 352} (h₃₂₂ : f.extractLsb' 322 19 = 0) : datHdr (datOf f) = f.extractLsb' 256 85 := by
  simp only [datHdr, datOf, ofBool_getLsbD]
  rw [← h₃₂₂]
  repeat rw [BitVec.extractLsb'_append_extractLsb'_eq_extractLsb' (by decide)]

end Sys2Proof.Laws
end

section
/-! PROOF. O5: the flits. -/

namespace Sys2Proof.Proofs

open Sys2Proof.Machine Sys2Proof.Laws

/-- Settles O5: each field lies where the decoder looks, and the fields with the zero reserved bits fill the flit. -/
theorem flitsDecodeToWhatWasEncoded : Obligations.FlitsDecodeToWhatWasEncoded := by
  obtain ⟨hreq, hsnp, hrsp, hdat⟩ := flits_decode_encode
  refine ⟨hreq, hsnp, hrsp, hdat, ?_, ?_, ?_, ?_⟩
  · intro f hpar h₃₁ h₈₃ h₁₀₀
    rw [reqBits_reqOf h₃₁ h₈₃ h₁₀₀, withPar_of_parityOk hpar]
  · intro f hpar h₃₈ h₁₁₂
    rw [snpBits_snpOf h₃₈ h₁₁₂, withPar_of_parityOk hpar]
  · intro f hpar h₃₅
    rw [rspBits_rspOf h₃₅, withPar_of_parityOk hpar]
  · intro f hpar h₃₂₂
    rw [datBits, datHdr_datOf h₃₂₂]
    exact dat_of_parityDatOk hpar

end Sys2Proof.Proofs
end

section
/-! SUPPORT. Parity: the ones of a word counted modulo 2, and what one changed bit does to that. -/

namespace Sys2Proof.Laws

open Sys2Proof.Machine

/-- The number of `j < n` with `p j` is odd. -/
def oddBelow (p : Nat → Bool) : Nat → Bool
  | 0 => false
  | n + 1 => oddBelow p n != p n

theorem oddOnes_eq_oddBelow (w : BitVec 32) : oddOnes w = oddBelow w.getLsbD 32 := by
  have h : ∀ n, (List.range n).foldl (fun b i => b != w.getLsbD i) false = oddBelow w.getLsbD n := by
    intro n
    induction n with
    | zero => rfl
    | succ n ih => rw [List.range_succ, List.foldl_append, ih]; rfl
  exact h 32

theorem oddBelow_eq_filter (p : Nat → Bool) (n : Nat) :
    (oddBelow p n).toNat = ((List.range n).filter p).length % 2 := by
  induction n with
  | zero => rfl
  | succ n ih =>
    rw [List.range_succ, List.filter_append, List.length_append, Nat.add_mod, ← ih]
    cases h : p n <;> cases h' : oddBelow p n <;> simp [oddBelow, h, h']

theorem oddBelow_congr {p q : Nat → Bool} {n : Nat} (h : ∀ j, j < n → p j = q j) : oddBelow p n = oddBelow q n := by
  induction n with
  | zero => rfl
  | succ n ih => rw [oddBelow, oddBelow, ih fun j hj => h j (Nat.lt_succ_of_lt hj), h n n.lt_succ_self]

/-- One changed bit changes the parity. -/
theorem oddBelow_flip {p q : Nat → Bool} {i n : Nat} (hne : ∀ j, j ≠ i → q j = p j) (hi : q i = !p i) (hin : i < n) :
    oddBelow q n = !oddBelow p n := by
  induction n with
  | zero => omega
  | succ n ih =>
    rw [oddBelow, oddBelow]
    rcases Nat.lt_succ_iff_lt_or_eq.mp hin with h | rfl
    · rw [ih h, hne n (by omega)]
      cases oddBelow p n <;> cases p n <;> rfl
    · rw [oddBelow_congr (fun j hj => hne j (by omega)), hi]
      cases oddBelow p i <;> cases p i <;> rfl

/-- An even number of ones, with the parity bit that makes it so. -/
theorem even_with_parity_iff (p : Nat → Bool) (n : Nat) (b : Bool) :
    (((List.range n).filter p).length + b.toNat) % 2 = 0 ↔ b = oddBelow p n := by
  rw [Nat.add_mod, ← oddBelow_eq_filter]
  cases b <;> cases oddBelow p n <;> decide

/-- Bits picked one by one into a number. -/
theorem testBit_foldl_bits (p : Nat → Bool) (n i : Nat) :
    ((List.range n).foldl (fun a i => if p i then a + 2 ^ i else a) 0).testBit i = (decide (i < n) && p i) ∧
      (List.range n).foldl (fun a i => if p i then a + 2 ^ i else a) 0 < 2 ^ n := by
  induction n generalizing i with
  | zero => simp
  | succ n ih =>
    rw [List.range_succ, List.foldl_append, List.foldl_cons, List.foldl_nil]
    generalize hx : (List.range n).foldl (fun a i => if p i then a + 2 ^ i else a) 0 = x at ih
    have hlt : x < 2 ^ n := (ih 0).2
    cases hp : p n with
    | false =>
      refine ⟨?_, by simp only [Bool.false_eq_true, if_false]; omega⟩
      simp only [Bool.false_eq_true, if_false, (ih i).1]
      rcases Nat.lt_trichotomy i n with h | rfl | h
      · simp [h, Nat.lt_succ_of_lt h]
      · simp [hp]
      · simp [show ¬ i < n by omega, show ¬ i < n + 1 by omega]
    | true =>
      refine ⟨?_, by simp only [if_true]; omega⟩
      simp only [if_true]
      rw [Nat.add_comm, ← Nat.mul_one (2 ^ n), Nat.testBit_two_pow_mul_add _ hlt]
      rcases Nat.lt_trichotomy i n with h | rfl | h
      · simp [h, Nat.lt_succ_of_lt h, (ih i).1]
      · simp [hp]
      · obtain ⟨k, hk⟩ : ∃ k, i - n = k + 1 := ⟨i - n - 1, by omega⟩
        simp [show ¬ i < n by omega, show ¬ i < n + 1 by omega, hk, Nat.testBit_succ]

theorem getLsbD_ofNat_foldl_bits (p : Nat → Bool) (n : Nat) {i : Nat} (h : i < n) :
    (BitVec.ofNat n ((List.range n).foldl (fun a i => if p i then a + 2 ^ i else a) 0)).getLsbD i = p i := by
  rw [← BitVec.testBit_toNat, BitVec.toNat_ofNat, Nat.testBit_mod_two_pow, (testBit_foldl_bits p n i).1]
  simp [h]

theorem getLsbD_wordOf {n : Nat} (f : BitVec n) (i : Nat) {j : Nat} (h : j < 32) :
    (wordOf f i).getLsbD j = f.getLsbD (32 * i + j) := by
  simp [wordOf, h]

/-- Bit `j` of word `k` of a 128-bit flit, with bits [127:124] counted as zero (R76). -/
def wordBit (f : BitVec 128) (k j : Nat) : Bool := decide (32 * k + j < 124) && f.getLsbD (32 * k + j)

/-- Bit `j` of word `k` of a `DAT` flit: eight data words, then three header words (R76). -/
def datBit (f : BitVec 352) (k j : Nat) : Bool :=
  if k < 8 then f.getLsbD (32 * k + j) else decide (32 * (k - 8) + j < 85) && f.getLsbD (256 + 32 * (k - 8) + j)

theorem getLsbD_par128 (f : BitVec 128) {k : Nat} (h : k < 4) :
    (par128 (f.extractLsb' 0 124)).getLsbD k = oddBelow (wordBit f k) 32 := by
  rw [par128, getLsbD_ofNat_foldl_bits _ _ h, oddOnes_eq_oddBelow]
  refine oddBelow_congr fun j hj => ?_
  rw [getLsbD_wordOf _ _ hj]
  simp only [wordBit, BitVec.getLsbD_setWidth, BitVec.getLsbD_extractLsb', Nat.zero_add]
  simp [show 32 * k + j < 128 by omega]

theorem getLsbD_parDat (f : BitVec 352) {k : Nat} (h : k < 11) :
    (parDat (f.extractLsb' 0 256) (f.extractLsb' 256 85)).getLsbD k = oddBelow (datBit f k) 32 := by
  rw [parDat, getLsbD_ofNat_foldl_bits _ _ h]
  by_cases hk : k < 8
  · rw [if_pos hk, oddOnes_eq_oddBelow]
    refine oddBelow_congr fun j hj => ?_
    rw [getLsbD_wordOf _ _ hj, datBit, if_pos hk, BitVec.getLsbD_extractLsb']
    simp [show 32 * k + j < 256 by omega]
  · rw [if_neg hk, oddOnes_eq_oddBelow]
    refine oddBelow_congr fun j hj => ?_
    rw [getLsbD_wordOf _ _ hj, datBit, if_neg hk]
    simp only [BitVec.getLsbD_setWidth, BitVec.getLsbD_extractLsb', ← Nat.add_assoc]
    simp [show 32 * (k - 8) + j < 96 by omega]

theorem parityOk_iff (f : BitVec 128) :
    parityOk f = true ↔ ∀ k, k < 4 → f.getLsbD (124 + k) = oddBelow (wordBit f k) 32 := by
  rw [parityOk, beq_iff_eq]
  refine ⟨fun h k hk => ?_, fun h => BitVec.eq_of_getLsbD_eq fun k hk => ?_⟩
  · rw [← getLsbD_par128 f hk, ← h, BitVec.getLsbD_extractLsb']
    simp [hk]
  · rw [getLsbD_par128 f hk, ← h k hk, BitVec.getLsbD_extractLsb']
    simp [hk]

theorem parityDatOk_iff (f : BitVec 352) :
    parityDatOk f = true ↔ ∀ k, k < 11 → f.getLsbD (341 + k) = oddBelow (datBit f k) 32 := by
  rw [parityDatOk, beq_iff_eq]
  refine ⟨fun h k hk => ?_, fun h => BitVec.eq_of_getLsbD_eq fun k hk => ?_⟩
  · rw [← getLsbD_parDat f hk, ← h, BitVec.getLsbD_extractLsb']
    simp [hk]
  · rw [getLsbD_parDat f hk, ← h k hk, BitVec.getLsbD_extractLsb']
    simp [hk]

theorem getLsbD_flip {n : Nat} (f : BitVec n) {i : Nat} (h : i < n) (j : Nat) :
    (f ^^^ (1#n <<< i)).getLsbD j = if j = i then !f.getLsbD j else f.getLsbD j := by
  rw [BitVec.getLsbD_xor, BitVec.getLsbD_shiftLeft]
  by_cases hj : j = i
  · subst hj
    simp [h, show 0 < n by omega]
  · rw [if_neg hj]
    have : (decide (j < n) && !decide (j < i) && (1#n).getLsbD (j - i)) = false := by
      rcases Nat.lt_trichotomy j i with hlt | rfl | hgt
      · simp [hlt]
      · exact absurd rfl hj
      · simp [BitVec.getLsbD_one, show j - i ≠ 0 by omega]
    rw [this, Bool.xor_false]

/-- A parity bit, or a bit that one word counts: either way one word's check changes. -/
theorem parityOk_flip {f : BitVec 128} {i : Nat} (hi : i < 128) (h : parityOk f = true) : parityOk (f ^^^ (1#128 <<< i)) = false := by
  rw [parityOk_iff] at h
  rw [← Bool.not_eq_true, parityOk_iff]
  intro h'
  by_cases hpar : 124 ≤ i
  · have hk : i - 124 < 4 := by omega
    have hsame : oddBelow (wordBit (f ^^^ (1#128 <<< i)) (i - 124)) 32 = oddBelow (wordBit f (i - 124)) 32 := by
      refine oddBelow_congr fun j _ => ?_
      rw [wordBit, wordBit, getLsbD_flip f hi]
      by_cases hb : 32 * (i - 124) + j < 124
      · rw [if_neg (by omega)]
      · simp [hb]
    have := h' _ hk
    rw [hsame, ← h _ hk, getLsbD_flip f hi, if_pos (by omega)] at this
    simp at this
  · have hk : i / 32 < 4 := by omega
    have hflip : oddBelow (wordBit (f ^^^ (1#128 <<< i)) (i / 32)) 32 = !oddBelow (wordBit f (i / 32)) 32 := by
      refine oddBelow_flip (i := i % 32) (fun j hj => ?_) ?_ (Nat.mod_lt _ (by decide))
      · rw [wordBit, wordBit, getLsbD_flip f hi, if_neg (by omega)]
      · have e : 32 * (i / 32) + i % 32 = i := Nat.div_add_mod i 32
        rw [wordBit, wordBit, getLsbD_flip f hi, e, if_pos rfl]
        simp [show i < 124 by omega]
    have := h' _ hk
    rw [hflip, ← h _ hk, getLsbD_flip f hi, if_neg (by omega)] at this
    simp at this

theorem parityDatOk_flip {f : BitVec 352} {i : Nat} (hi : i < 352) (h : parityDatOk f = true) :
    parityDatOk (f ^^^ (1#352 <<< i)) = false := by
  rw [parityDatOk_iff] at h
  rw [← Bool.not_eq_true, parityDatOk_iff]
  intro h'
  by_cases hpar : 341 ≤ i
  · have hk : i - 341 < 11 := by omega
    have hsame : oddBelow (datBit (f ^^^ (1#352 <<< i)) (i - 341)) 32 = oddBelow (datBit f (i - 341)) 32 := by
      refine oddBelow_congr fun j hj => ?_
      rw [datBit, datBit, getLsbD_flip f hi, getLsbD_flip f hi]
      by_cases hk8 : i - 341 < 8
      · rw [if_pos hk8, if_pos hk8, if_neg (by omega)]
      · rw [if_neg hk8, if_neg hk8]
        by_cases hb : 32 * (i - 341 - 8) + j < 85
        · rw [if_neg (by omega)]
        · simp [hb]
    have := h' _ hk
    rw [hsame, ← h _ hk, getLsbD_flip f hi, if_pos (by omega)] at this
    simp at this
  · have hk : i / 32 < 11 := by omega
    have hflip : oddBelow (datBit (f ^^^ (1#352 <<< i)) (i / 32)) 32 = !oddBelow (datBit f (i / 32)) 32 := by
      refine oddBelow_flip (i := i % 32) (fun j hj => ?_) ?_ (Nat.mod_lt _ (by decide))
      · rw [datBit, datBit, getLsbD_flip f hi, getLsbD_flip f hi]
        by_cases hk8 : i / 32 < 8
        · rw [if_pos hk8, if_pos hk8, if_neg (by omega)]
        · rw [if_neg hk8, if_neg hk8, if_neg (by omega)]
      · rw [datBit, datBit, getLsbD_flip f hi, getLsbD_flip f hi]
        have e : 32 * (i / 32) + i % 32 = i := Nat.div_add_mod i 32
        by_cases hk8 : i / 32 < 8
        · rw [if_pos hk8, if_pos hk8, if_pos e]
        · rw [if_neg hk8, if_neg hk8, if_pos (by omega)]
          simp [show 32 * (i / 32 - 8) + i % 32 < 85 by omega]
    have := h' _ hk
    rw [hflip, ← h _ hk, getLsbD_flip f hi, if_neg (by omega)] at this
    simp at this

theorem parityOk_withPar (b : BitVec 124) : parityOk (withPar b) = true := by
  rw [parityOk, withPar, beq_iff_eq]
  rw [BitVec.extractLsb'_append_eq_left, BitVec.extractLsb'_append_eq_right]

theorem parityDatOk_datBits (d : Dat) : parityDatOk (datBits d) = true := by
  rw [parityDatOk, datBits, beq_iff_eq]
  have h₀ : (parDat d.data (datHdr d) ++ datHdr d ++ d.data).extractLsb' 0 256 = d.data := BitVec.extractLsb'_append_eq_right
  have h₁ : (parDat d.data (datHdr d) ++ datHdr d ++ d.data).extractLsb' 256 85 = datHdr d := by
    rw [BitVec.extractLsb'_append_eq_of_le (by decide), BitVec.extractLsb'_append_eq_right]
  have h₂ : (parDat d.data (datHdr d) ++ datHdr d ++ d.data).extractLsb' 341 11 = parDat d.data (datHdr d) := by
    rw [BitVec.extractLsb'_append_eq_of_le (by decide), BitVec.extractLsb'_append_eq_left]
  rw [h₀, h₁, h₂]

end Sys2Proof.Laws
end

section
/-! SUPPORT. The bridge and a flit with wrong parity. -/

namespace Sys2Proof.Laws

open Sys2Proof.Machine Sys2Proof.Safety

theorem takeCredit_fenced (s : State) (n : PortId) (ch : Nat) (dl : Bool) :
    (port (takeCredit s n.val ch dl).1 n.val).fenced = (port s n.val).fenced := by
  unfold takeCredit
  extract_lets p i c
  split
  · rfl
  · simp only [port_setPort_same _ _ _ n.isLt, p]

/-- What the bridge does under a credit depends on what it does of the state that has taken it. -/
theorem underCredit_congr {s : State} {n ch : Nat} {dl : Bool} {f g : State → Bool → State}
    (h : f (takeCredit s n ch dl).1 (takeCredit s n ch dl).2 = g (takeCredit s n ch dl).1 (takeCredit s n ch dl).2) :
    underCredit s n ch dl f = underCredit s n ch dl g := by
  unfold underCredit
  simp only [h]

theorem parityInject_unarmed {s : State} {n : Nat} (w : Nat) (h : blotArmed s 1 n = false) : parityInject s n w = (s, false) := by
  simp [parityInject, h]

theorem mem_reqKinds_parity (s : State) (n : Nat) (dl late : Bool) (r : Req) : 0 ∈ reqKinds s n dl late true r := by
  simp [reqKinds]

theorem mem_rspKinds_parity (s : State) (n : Nat) (late : Bool) (r : Rsp) : 0 ∈ rspKinds s n late true r := by
  simp [rspKinds]

theorem mem_datKinds_parity (s : State) (n : Nat) (late : Bool) (d : Dat) : 0 ∈ datKinds s n late true d := by
  simp [datKinds]

theorem any_below_of_zero_mem {l : List Nat} (h : 0 ∈ l) {k : Nat} (hk : 0 < k) : l.any (fun x => decide (x < k)) = true :=
  List.any_eq_true.mpr ⟨0, h, by simpa using hk⟩

theorem reqFlitEffect_badParity {s : State} {n : PortId} {dl : Bool} {f : BitVec 128} (hlive : portLive s n.val = true)
    (hblot : blotArmed s 1 n.val = false) (hpar : parityOk f = false) (hfence : (port s n.val).fenced = false) :
    reqFlitEffect s n.val dl f = underCredit s n.val 0 dl (fun t late => fencePort
      (portViolate t n.val (reqKinds t n.val dl late true (reqOf f)) 0 (opOf (reqOf f)) (reqOf f).txn.toNat dl) n.val) := by
  rw [reqFlitEffect, hlive, parityInject_unarmed 4 hblot, hpar, if_neg (by decide)]
  refine underCredit_congr ?_
  have hf := (takeCredit_fenced s n 0 dl).trans hfence
  simp [hf, judgeReq, any_below_of_zero_mem (mem_reqKinds_parity _ _ _ _ _)]

theorem rspFlitEffect_badParity {s : State} {n : PortId} {dl : Bool} {f : BitVec 128} (hlive : portLive s n.val = true)
    (hblot : blotArmed s 1 n.val = false) (hpar : parityOk f = false) (hfence : (port s n.val).fenced = false) :
    rspFlitEffect s n.val dl f = underCredit s n.val 1 dl (fun t late => fencePort
      (portViolate t n.val (rspKinds t n.val late true (rspOf f)) 1 (rspOf f).opcode.toNat (rspOf f).txn.toNat dl) n.val) := by
  rw [rspFlitEffect, hlive, parityInject_unarmed 4 hblot, hpar, if_neg (by decide)]
  refine underCredit_congr ?_
  have hf := (takeCredit_fenced s n 1 dl).trans hfence
  simp only [hf, Bool.false_eq_true, false_and, if_false, Bool.not_false, Bool.true_or, List.filter_true]
  exact if_pos (any_below_of_zero_mem (mem_rspKinds_parity _ _ _ _) (by decide))

theorem datFlitEffect_badParity {s : State} {n : PortId} {dl : Bool} {f : BitVec 352} (hlive : portLive s n.val = true)
    (hblot : blotArmed s 1 n.val = false) (hpar : parityDatOk f = false) (hfence : (port s n.val).fenced = false) :
    datFlitEffect s n.val dl f = underCredit s n.val 2 dl (fun t late => fencePort
      (portViolate t n.val (datKinds t n.val late true (datOf f)) 2 (datOf f).kind.toNat (datOf f).txn.toNat dl) n.val) := by
  rw [datFlitEffect, hlive, parityInject_unarmed 11 hblot, hpar, if_neg (by decide)]
  refine underCredit_congr ?_
  have hf := (takeCredit_fenced s n 2 dl).trans hfence
  simp only [hf, Bool.false_eq_true, false_and, if_false, Bool.not_false, Bool.true_or, List.filter_true]
  exact if_pos (any_below_of_zero_mem (mem_datKinds_parity _ _ _ _) (by decide))

end Sys2Proof.Laws
end

section
/-! PROOF. O6: parity of the flits. -/

namespace Sys2Proof.Proofs

open Sys2Proof.Machine Sys2Proof.Laws

theorem parityOk_iff_even (f : BitVec 128) : parityOk f = true ↔ ∀ i, i < 4 →
    (((List.range 32).filter (fun j => decide (32 * i + j < 124) && f.getLsbD (32 * i + j))).length
      + (f.getLsbD (124 + i)).toNat) % 2 = 0 :=
  (parityOk_iff f).trans (forall₂_congr fun i _ => (even_with_parity_iff (wordBit f i) 32 _).symm)

theorem parityDatOk_iff_even (f : BitVec 352) : parityDatOk f = true ↔
    (∀ i, i < 8 → (((List.range 32).filter (fun j => f.getLsbD (32 * i + j))).length + (f.getLsbD (341 + i)).toNat) % 2 = 0) ∧
    (∀ i, i < 3 → (((List.range 32).filter (fun j => decide (32 * i + j < 85) && f.getLsbD (256 + 32 * i + j))).length
      + (f.getLsbD (349 + i)).toNat) % 2 = 0) := by
  have hdata : ∀ i, i < 8 → datBit f i = fun j => f.getLsbD (32 * i + j) := fun i hi => by
    funext j
    rw [datBit, if_pos hi]
  have hhead : ∀ i, datBit f (8 + i) = fun j => decide (32 * i + j < 85) && f.getLsbD (256 + 32 * i + j) := fun i => by
    funext j
    rw [datBit, if_neg (by omega), Nat.add_sub_cancel_left]
  rw [parityDatOk_iff]
  simp only [even_with_parity_iff, ← hhead]
  refine ⟨fun h => ⟨fun i hi => ?_, fun i hi => ?_⟩, fun ⟨h₁, h₂⟩ k hk => ?_⟩
  · rw [← hdata i hi]
    exact h i (by omega)
  · rw [show 349 + i = 341 + (8 + i) by omega]
    exact h (8 + i) (by omega)
  · by_cases hk8 : k < 8
    · rw [hdata k hk8]
      exact h₁ k hk8
    · obtain ⟨i, rfl⟩ := Nat.exists_eq_add_of_le (Nat.not_lt.mp hk8)
      rw [show 341 + (8 + i) = 349 + i by omega]
      exact h₂ i (by omega)

theorem parityOk_flit (b : BitVec 124) : parityOk (((withPar b).setWidth 352).setWidth 128) = true := by
  rw [BitVec.setWidth_setWidth_of_le _ (by decide), BitVec.setWidth_eq, parityOk_withPar]

/-- Settles O6: the check word by word, what one bit does to it, and the bridge's path with a violation of parity. -/
theorem everyFlitHasEvenParity : Obligations.EveryFlitHasEvenParity := by
  refine ⟨parityOk_iff_even, parityDatOk_iff_even, fun r q p d b => ?_, fun f i => parityOk_flip, fun f i => parityDatOk_flip,
    fun s n dl f hdef hlive hblot hpar hfence => ⟨?_, ?_⟩, fun s n dl f hdef hlive hblot hpar hfence => ?_, fun s n dl r q d => ?_⟩
  · refine ⟨parityOk_flit _, parityOk_flit _, parityOk_flit _, parityDatOk_datBits d, fun d' => ?_⟩
    cases b <;> exact parityDatOk_datBits _
  · rw [← reqFlitEffect_badParity hlive hblot hpar hfence]
    exact guarded_defined _ hdef
  · rw [← rspFlitEffect_badParity hlive hblot hpar hfence]
    exact guarded_defined _ hdef
  · rw [← datFlitEffect_badParity hlive hblot hpar hfence]
    exact guarded_defined _ hdef
  · exact ⟨mem_reqKinds_parity s n dl false r, mem_rspKinds_parity s n false q, mem_datKinds_parity s n false d⟩

end Sys2Proof.Proofs
end

section
/-! SUPPORT. The numbers of the address decode (R244) and of the placement in a filter array (R134). -/

namespace Sys2Proof.Laws

open Sys2Proof.Machine

/-- A line number of the window in its three parts: chunk number within a channel, channel index, line within a grain. -/
theorem chunk_parts {gl cb q c r : Nat} (hc : c < 2 ^ cb) (hr : r < 2 ^ gl) :
    ((q * 2 ^ cb + c) * 2 ^ gl + r) / 2 ^ gl = q * 2 ^ cb + c ∧ ((q * 2 ^ cb + c) * 2 ^ gl + r) % 2 ^ gl = r ∧
      (q * 2 ^ cb + c) / 2 ^ cb = q ∧ (q * 2 ^ cb + c) % 2 ^ cb = c := by
  refine ⟨?_, ?_, ?_, ?_⟩
  · rw [Nat.mul_comm, Nat.mul_add_div (Nat.two_pow_pos gl), Nat.div_eq_of_lt hr, Nat.add_zero]
  · rw [Nat.mul_comm, Nat.mul_add_mod, Nat.mod_eq_of_lt hr]
  · rw [Nat.mul_comm, Nat.mul_add_div (Nat.two_pow_pos cb), Nat.div_eq_of_lt hc, Nat.add_zero]
  · rw [Nat.mul_comm, Nat.mul_add_mod, Nat.mod_eq_of_lt hc]

theorem foldHash_lt (cb q : Nat) : foldHash cb q < 2 ^ cb := by
  have h : ∀ (l : List Nat) (a : Nat), a < 2 ^ cb → l.foldl (fun a i => a ^^^ ((q / 2 ^ (i * cb)) % 2 ^ cb)) a < 2 ^ cb := by
    intro l
    induction l with
    | nil => exact fun a ha => ha
    | cons i l ih => exact fun a ha => ih _ (Nat.xor_lt_two_pow ha (Nat.mod_lt _ (Nat.two_pow_pos cb)))
  exact h _ 0 (Nat.two_pow_pos cb)

/-- The index of a channel with the hash of its chunk, where the hash is on. -/
def hashed (s : State) (q ci : Nat) : Nat := if getBit s 0x240004 4 then ci ^^^ foldHash (chanBits s) q else ci

theorem hashed_lt (s : State) (q : Nat) {ci : Nat} (h : ci < 2 ^ chanBits s) : hashed s q ci < 2 ^ chanBits s := by
  unfold hashed
  split
  · exact Nat.xor_lt_two_pow h (foldHash_lt _ _)
  · exact h

theorem hashed_hashed (s : State) (q ci : Nat) : hashed s q (hashed s q ci) = ci := by
  unfold hashed
  split
  · rw [Nat.xor_assoc, Nat.xor_self, Nat.xor_zero]
  · rfl

theorem nodup_popChans (s : State) : (popChans s).Nodup := List.nodup_range.filter _

theorem decodeAddr_eq (s : State) (pa : Nat) (h : inWindow s pa = true) {gl n q : Nat} (hgl : gl = grainLines s)
    (hn : n = (pa - windowBase s) / 64) (hq : q = n / 2 ^ gl / 2 ^ chanBits s) :
    decodeAddr s pa = (popChans s)[hashed s q (n / 2 ^ gl % 2 ^ chanBits s)]?.map fun ch => (ch, q * 2 ^ gl + n % 2 ^ gl) := by
  subst hgl hn hq
  rw [decodeAddr, if_pos h]
  rfl

theorem encodeAddr_eq (s : State) (ch m : Nat) : encodeAddr s ch m = windowBase s +
    ((m / 2 ^ grainLines s * 2 ^ chanBits s + hashed s (m / 2 ^ grainLines s) ((popChans s).idxOf ch) % 2 ^ chanBits s)
      * 2 ^ grainLines s + m % 2 ^ grainLines s) * 64 := rfl

theorem decodeAddr_encodeAddr {s : State} {ch m o : Nat} (hlen : (popChans s).length = 2 ^ chanBits s) (hch : ch ∈ popChans s)
    (ho : o < 64) (hwin : inWindow s (encodeAddr s ch m + o) = true) : decodeAddr s (encodeAddr s ch m + o) = some (ch, m) := by
  have hidx : (popChans s).idxOf ch < 2 ^ chanBits s := hlen ▸ List.idxOf_lt_length_iff.mpr hch
  have hline : (encodeAddr s ch m + o - windowBase s) / 64 =
      (m / 2 ^ grainLines s * 2 ^ chanBits s + hashed s (m / 2 ^ grainLines s) ((popChans s).idxOf ch)) * 2 ^ grainLines s
        + m % 2 ^ grainLines s := by
    rw [encodeAddr_eq, Nat.mod_eq_of_lt (hashed_lt s _ hidx)]
    omega
  obtain ⟨h₁, h₂, h₃, h₄⟩ := chunk_parts (q := m / 2 ^ grainLines s) (hashed_lt s (m / 2 ^ grainLines s) hidx)
    (Nat.mod_lt m (Nat.two_pow_pos (grainLines s)))
  rw [decodeAddr_eq s _ hwin rfl rfl rfl, hline, h₁, h₂, h₃, h₄, hashed_hashed, Nat.div_add_mod',
    List.getElem?_eq_getElem (List.idxOf_lt_length_iff.mpr hch), List.getElem_idxOf]
  rfl

theorem encodeAddr_of_decodeAddr {s : State} {pa ch m : Nat} (h : decodeAddr s pa = some (ch, m)) :
    ch ∈ popChans s ∧ encodeAddr s ch m = windowBase s + (pa - windowBase s) / 64 * 64 := by
  by_cases hwin : inWindow s pa = true
  · obtain ⟨n, hn⟩ : ∃ n, n = (pa - windowBase s) / 64 := ⟨_, rfl⟩
    obtain ⟨q, hq⟩ : ∃ q, q = n / 2 ^ grainLines s / 2 ^ chanBits s := ⟨_, rfl⟩
    rw [decodeAddr_eq s pa hwin rfl hn hq, Option.map_eq_some_iff] at h
    obtain ⟨c, hc, hcm⟩ := h
    obtain ⟨rfl, rfl⟩ := Prod.mk.inj hcm
    obtain ⟨hlt, hget⟩ := List.getElem?_eq_some_iff.mp hc
    have hr : n % 2 ^ grainLines s < 2 ^ grainLines s := Nat.mod_lt _ (Nat.two_pow_pos _)
    have hidx : (popChans s).idxOf c = hashed s q (n / 2 ^ grainLines s % 2 ^ chanBits s) := by
      rw [← hget, (nodup_popChans s).idxOf_getElem]
    have hq' : (q * 2 ^ grainLines s + n % 2 ^ grainLines s) / 2 ^ grainLines s = q := by
      rw [Nat.mul_comm, Nat.mul_add_div (Nat.two_pow_pos _), Nat.div_eq_of_lt hr, Nat.add_zero]
    have hm' : (q * 2 ^ grainLines s + n % 2 ^ grainLines s) % 2 ^ grainLines s = n % 2 ^ grainLines s := by
      rw [Nat.mul_comm, Nat.mul_add_mod, Nat.mod_eq_of_lt hr]
    refine ⟨hget ▸ List.getElem_mem hlt, ?_⟩
    rw [encodeAddr_eq, hq', hm', hidx, hashed_hashed, Nat.mod_mod, hq, Nat.div_add_mod', Nat.div_add_mod', hn]
  · simp [decodeAddr, hwin] at h

theorem same_line_of_same_decode {s : State} {pa qa : Nat}
    (hsome : (decodeAddr s pa).isSome = true) (h : decodeAddr s pa = decodeAddr s qa) :
    (pa - windowBase s) / 64 = (qa - windowBase s) / 64 := by
  obtain ⟨⟨ch, m⟩, hp⟩ := Option.isSome_iff_exists.mp hsome
  have h₁ := (encodeAddr_of_decodeAddr hp).2
  have h₂ := (encodeAddr_of_decodeAddr (h ▸ hp)).2
  omega

-- placement in a filter array

theorem placePair_slice (s : State) (p l : Nat) : (placePair s p l).1 / 2 = p := by
  have hidx : (l % 2 ^ 15) ^^^ (l / 2 ^ 15 % 2 ^ 15) < 2 ^ 15 :=
    Nat.xor_lt_two_pow (Nat.mod_lt _ (by decide)) (Nat.mod_lt _ (by decide))
  unfold placePair
  extract_lets idx on array
  simp only [array]
  split
  · omega
  · split <;> omega

theorem placePair_set (s : State) (p l : Nat) :
    (placePair s p l).2.1 = ((l % 2 ^ 15) ^^^ (l / 2 ^ 15 % 2 ^ 15)) % 2 ^ 14 := rfl

theorem placePair_tag (s : State) (p l : Nat) : (placePair s p l).2.2 = BitVec.ofNat 29 (l / 2) := rfl

/-- The line number of channel line `m` of channel `ch` in Accord: the pair line number. -/
def pairLine (ch m : Nat) : Nat := 2 * (2 * m + ch % 2) + ch / 2 % 2

theorem homeOfLine_joined {s : State} {ch m : Nat} (h : pairJoined s (ch / 4) = true) :
    homeOfLine s ch m = ⟨(placePair s (ch / 4) (pairLine ch m)).1, ch, m, pairLine ch m, true,
      (placePair s (ch / 4) (pairLine ch m)).2.1, (placePair s (ch / 4) (pairLine ch m)).2.2⟩ := by
  simp only [homeOfLine, h, if_true, pairLine]

theorem homeOfLine_apart {s : State} {ch m : Nat} (h : pairJoined s (ch / 4) = false) :
    homeOfLine s ch m = ⟨ch / 2, ch, m, 2 * m + ch % 2, false, (placeSlice (2 * m + ch % 2)).1,
      (placeSlice (2 * m + ch % 2)).2⟩ := by
  simp [homeOfLine, h]

theorem homeOfLine_pair (s : State) (ch m : Nat) : (homeOfLine s ch m).slice / 2 = ch / 4 := by
  cases h : pairJoined s (ch / 4) with
  | true => rw [homeOfLine_joined h]; exact placePair_slice _ _ _
  | false => rw [homeOfLine_apart h]; exact Nat.div_div_eq_div_mul ch 2 2

theorem homeOfLine_set_lt (s : State) (ch m : Nat) : (homeOfLine s ch m).set < 16384 := by
  cases h : pairJoined s (ch / 4) with
  | true => rw [homeOfLine_joined h]; exact Nat.mod_lt _ (by decide)
  | false =>
    rw [homeOfLine_apart h]
    exact Nat.xor_lt_two_pow (n := 14) (Nat.mod_lt _ (by decide)) (Nat.mod_lt _ (by decide))

theorem chanOfLine_homeOfLine (s : State) (ch m : Nat) :
    chanOfLine s (homeOfLine s ch m).slice (homeOfLine s ch m).line = (ch, m) := by
  have hpair := homeOfLine_pair s ch m
  cases h : pairJoined s (ch / 4) with
  | true =>
    rw [homeOfLine_joined h] at hpair ⊢
    dsimp only at hpair ⊢
    simp only [chanOfLine, hpair, h, if_true]
    have hhln : pairLine ch m / 2 = 2 * m + ch % 2 := by unfold pairLine; omega
    have hlow : pairLine ch m % 2 = ch / 2 % 2 := by unfold pairLine; omega
    have hquad : ch / 2 / 2 = ch / 4 := Nat.div_div_eq_div_mul ch 2 2
    rw [hhln, hlow, Prod.mk.injEq]
    omega
  | false =>
    rw [homeOfLine_apart h] at hpair ⊢
    dsimp only at hpair ⊢
    simp only [chanOfLine, hpair, h, Bool.false_eq_true, if_false, Prod.mk.injEq]
    omega

/-- In Accord the lowest bit of the number is the one that the set keeps under the hash; the tag holds the rest. -/
theorem lineOfEntry_homeOfLine (s : State) {ch m : Nat} (hch : ch < 16) (hm : m < 2 ^ 28) :
    lineOfEntry s (homeOfLine s ch m).slice (homeOfLine s ch m).set (homeOfLine s ch m).tag = (homeOfLine s ch m).line := by
  have hpair := homeOfLine_pair s ch m
  cases h : pairJoined s (ch / 4) with
  | true =>
    rw [homeOfLine_joined h] at hpair ⊢
    dsimp only at hpair ⊢
    have hl : pairLine ch m < 2 ^ 30 := by unfold pairLine; omega
    generalize pairLine ch m = l at hpair hl ⊢
    have hset : (placePair s (ch / 4) l).2.1 % 2 = (l % 2) ^^^ (l / 2 ^ 15 % 2) := by
      have hxor := Nat.xor_mod_two_pow (a := l % 2 ^ 15) (b := l / 2 ^ 15 % 2 ^ 15) (n := 1)
      rw [placePair_set, Nat.mod_mod_of_dvd _ (by decide)]
      rw [Nat.pow_one, Nat.mod_mod_of_dvd _ (by decide), Nat.mod_mod_of_dvd _ (by decide)] at hxor
      exact hxor
    have htag : (placePair s (ch / 4) l).2.2.toNat = l / 2 := by
      rw [placePair_tag, BitVec.toNat_ofNat, Nat.mod_eq_of_lt (by omega)]
    have hhi : l / 2 * 2 / 2 ^ 15 % 2 = l / 2 ^ 15 % 2 := by omega
    simp only [lineOfEntry, hpair, h, if_true]
    rw [htag, hset, hhi, Nat.xor_assoc, Nat.xor_self, Nat.xor_zero]
    omega
  | false =>
    rw [homeOfLine_apart h] at hpair ⊢
    dsimp only at hpair ⊢
    have htag : (placeSlice (2 * m + ch % 2)).2.toNat = 2 * m + ch % 2 := by
      rw [placeSlice, BitVec.toNat_ofNat, Nat.mod_eq_of_lt (by omega)]
    simp only [lineOfEntry, hpair, h, Bool.false_eq_true, if_false, htag]

end Sys2Proof.Laws
end

section
/-! PROOF. O7 and O8: addresses, lines and filter entries. -/

namespace Sys2Proof.Proofs

open Sys2Proof.Machine Sys2Proof.Laws

/-- Settles O7: the hash of an index is its own inverse, and the parts of a line number are apart. -/
theorem addressDecodeIsABijection : Obligations.AddressDecodeIsABijection :=
  ⟨fun _ _ _ _ => decodeAddr_encodeAddr, fun _ _ _ _ _ => encodeAddr_of_decodeAddr, fun _ _ _ _ => same_line_of_same_decode⟩

theorem same_entry_same_line (s : State) (ch m ch' m' : Nat) (hch : ch < 16) (hch' : ch' < 16) (hm : m < 2 ^ 28) (hm' : m' < 2 ^ 28)
    (hslice : (homeOfLine s ch m).slice = (homeOfLine s ch' m').slice) (hset : (homeOfLine s ch m).set = (homeOfLine s ch' m').set)
    (htag : (homeOfLine s ch m).tag = (homeOfLine s ch' m').tag) : ch = ch' ∧ m = m' := by
  have hline : (homeOfLine s ch m).line = (homeOfLine s ch' m').line := by
    rw [← lineOfEntry_homeOfLine s hch hm, ← lineOfEntry_homeOfLine s hch' hm', hslice, hset, htag]
  have h := chanOfLine_homeOfLine s ch m
  rw [hslice, hline, chanOfLine_homeOfLine s ch' m'] at h
  exact ⟨(Prod.mk.inj h).1.symm, (Prod.mk.inj h).2.symm⟩

/-- Settles O8: in both modes the parts of the number lie in the set and the tag, the rest in the slice. -/
theorem filterPlacesNameTheirLines : Obligations.FilterPlacesNameTheirLines :=
  ⟨fun s ch m _ => chanOfLine_homeOfLine s ch m, fun s _ _ => lineOfEntry_homeOfLine s,
    fun s ch m _ => ⟨homeOfLine_set_lt s ch m, homeOfLine_pair s ch m⟩, same_entry_same_line⟩

end Sys2Proof.Proofs
end

section
/-! SUPPORT. A command that completes, from the equation of its meaning; folds over the units; and the resets. -/

namespace Sys2Proof.Laws

open Sys2Proof.Machine Sys2Proof.Safety

variable {c : Instr} {s t : State} {P : State → Prop}

theorem completes_of_resume (hc : exec c s = resume s t) (hP : P { t with pending := s.pending }) : Completes c s P :=
  ⟨_, hc, hP⟩

theorem completes_of_guarded_defined (hc : exec c s = guarded s t) (hdef : s.undef = false)
    (hP : P { t with pending := s.pending }) : Completes c s P :=
  ⟨_, hc.trans (guarded_defined t hdef), hP⟩

theorem guarded_same (hdef : s.undef = false) : guarded s s = .next s := guarded_defined s hdef

theorem resume_same (s : State) : resume s s = .next s := rfl

theorem forEach_succ (n : Nat) (s : State) (f : State → Nat → State) : forEach (n + 1) s f = f (forEach n s f) n := by
  rw [forEach, List.range_succ, List.foldl_append]
  rfl

/-- What each step of a fold over the units keeps, the fold keeps. -/
theorem forEach_keeps {f : State → Nat → State} (h : ∀ u k, P u → P (f u k)) (n : Nat) (h₀ : P s) : P (forEach n s f) := by
  induction n with
  | zero => exact h₀
  | succ n ih => rw [forEach_succ]; exact h _ n ih

-- the resets

theorem onlyRegs_toOff (s : State) : OnlyRegs s (toOff s) := by
  unfold toOff
  split <;> rfl

theorem curMode_toOff (s : State) : curMode (toOff s) = 0 := by
  unfold toOff
  split
  · assumption
  · exact curMode_enterMode s 0

theorem getReg_toOff {a : Nat} (s : State) (h : a ≠ 0x10) : getReg (toOff s) a = getReg s a := by
  unfold toOff
  split
  · rfl
  · exact getReg_setReg_ne s _ h

theorem getReg_coreReset {a : Nat} (s : State) (h : regAon a = false) : getReg (coreReset s) a = regReset a := by
  have hdrop : (coreReset s).regs = cellsDrop (fun b => !regAon b) s.regs := by simp [coreReset, cellsDrop]
  rw [getReg, hdrop]
  exact cellsGet_drop_same _ (by simp [h]) _

theorem fenced_coreReset (s : State) (n : Nat) : (port (coreReset s) n).fenced = true := by
  unfold port
  split
  · simp [coreReset, freshPort]
  · rfl

/-- A reset input that falls, by what it makes of the core, of M0 and of the pins (R29). -/
theorem resetAssertEffect_eq (s : State) (brst : Bool) : ∃ u : State,
    (u.aon = { s.aon with wipePend := s.aon.wipePend || (wiping s && !s.undef) } ∧ u.pins = s.pins ∧ u.undef = s.undef) ∧
    resetAssertEffect s brst = { toOff (coreReset u) with pins := { (toOff (coreReset u)).pins with
      porstLow := (toOff (coreReset u)).pins.porstLow || !brst, brstLow := (toOff (coreReset u)).pins.brstLow || brst,
      heldFaultN := false, heldSafe := false } } := by
  refine ⟨if wiping s ∧ !s.undef then setBit { s with aon := { s.aon with wipePend := true } } 0x40 3 true else s, ?_, rfl⟩
  by_cases h : wiping s = true ∧ (!s.undef) = true
  · rw [if_pos h]
    exact ⟨by simp [h.1, h.2], rfl, rfl⟩
  · have hno : (wiping s && !s.undef) = false := by simpa using h
    rw [if_neg h, hno, Bool.or_false]
    exact ⟨rfl, rfl, rfl⟩

theorem coreAlive_of_asserted (u : State) (p q brst : Bool) (h : u.pins.porstLow = (p || !brst)) (h' : u.pins.brstLow = (q || brst)) :
    coreAlive u = false ∧ faultN u = false := by
  cases brst <;> simp [coreAlive, faultN, h, h']

theorem resetAssert_completes (s : State) (brst : Bool) : Completes (.resetAssert brst) s (fun t =>
    curMode t = 0 ∧ t.tick = 0 ∧ t.dram = [] ∧ t.slices = Vector.replicate 8 freshSlice ∧
    (∀ n, (port t n).fenced = true) ∧ (∀ a, regAon a = false → getReg t a = regReset a) ∧
    t.pins.memResetN = false ∧ t.aon.calendar = s.aon.calendar ∧ t.aon.modeSec = s.aon.modeSec ∧
    t.aon.wipePend = (s.aon.wipePend || (wiping s && !s.undef)) ∧
    coreAlive t = false ∧ faultN t = false ∧ t.undef = s.undef ∧ t.pending = s.pending) := by
  obtain ⟨u, ⟨haon, hpins, hundef⟩, heq⟩ := resetAssertEffect_eq s brst
  have hoff := onlyRegs_toOff (coreReset u)
  refine completes_of_resume (t := resetAssertEffect s brst) rfl ?_
  rw [heq]
  refine ⟨curMode_toOff _, ?_⟩
  have hreg : ∀ a, regAon a = false → getReg (toOff (coreReset u)) a = regReset a := fun a ha => by
    rw [getReg_toOff _ (by rintro rfl; exact absurd ha (by decide)), getReg_coreReset u ha]
  generalize toOff (coreReset u) = w at hoff hreg ⊢
  rw [hoff] at hreg ⊢
  have hcal : u.aon.calendar = s.aon.calendar := by rw [haon]
  have hsec : u.aon.modeSec = s.aon.modeSec := by rw [haon]
  have hwipe : u.aon.wipePend = (s.aon.wipePend || (wiping s && !s.undef)) := by rw [haon]
  refine ⟨rfl, rfl, rfl, fenced_coreReset u, hreg, rfl, hcal, hsec, hwipe, ?_, ?_, hundef, rfl⟩
  · exact (coreAlive_of_asserted _ _ _ brst rfl rfl).1
  · exact (coreAlive_of_asserted _ _ _ brst rfl rfl).2

/-- The domains that come on touch only the registers of the spine. -/
theorem powerUp_frame (s : State) : OnlyRegs s (powerUp s) ∧ ∀ a, a < 0x300000 → getReg (powerUp s) a = getReg s a := by
  refine forEach_keeps (P := fun u => OnlyRegs s u ∧ ∀ a, a < 0x300000 → getReg u a = getReg s a) (fun u k h => ?_) 8 ⟨rfl, ?_⟩
  · obtain ⟨hu, hreg⟩ := h
    split
    · exact ⟨hu, hreg⟩
    · refine ⟨?_, fun a ha => ?_⟩
      · rw [OnlyRegs] at hu ⊢
        rw [hu]
        rfl
      · rw [getReg_setBit_ne _ _ _ (by omega), getReg_setFld_ne _ _ _ _ (by omega), hreg a ha]
  · intro a ha
    rw [getReg_setBit_ne _ _ _ (by omega), getReg_setBit_ne _ _ _ (by omega), getReg_setFld_ne _ _ _ _ (by omega)]

theorem lcDecode_lt {f : BitVec 16} {lc : Nat} (h : lcDecode f = some lc) : lc < 2 ^ 3 := by
  unfold lcDecode at h
  repeat' split at h
  all_goals simp at h
  all_goals omega

theorem applyFuse_of_lcDecode {f : BitVec 16} {lc : Nat} (s : State) (h : lcDecode f = some lc) :
    applyFuse s f = setFld (setLcValid { s with pins := { s.pins with fuse := f, fuseAt := f } } f) 0x44 16 3 lc := by
  simp [applyFuse, h]

theorem startCold_of_lcDecode {fuse : BitVec 16} {lc : Nat} (s : State) (straps : Straps) (h : lcDecode fuse = some lc) :
    let t := startCold s straps fuse
    t.pins.straps = straps ∧ getReg t 0x48 = straps.chPop ++ straps.portEn ∧ curMode t = 1 ∧ t.seq.boot = .lock ∧
      t.pins.fuse = fuse ∧ lcState t = lc ∧ t.pins.coreOn = s.pins.coreOn ∧ t.dram = s.dram ∧ t.undef = s.undef := by
  intro t
  obtain ⟨v, hv⟩ : ∃ v, v = enterMode (setReg { s with pins := { s.pins with straps := straps } } 0x48
      (straps.chPop ++ straps.portEn)) 1 := ⟨_, rfl⟩
  obtain ⟨hframe, hreg⟩ := powerUp_frame v
  have ht : t = setFld (setLcValid { powerUp v with
      seq := { (powerUp v).seq with boot := .lock }
      pins := { (powerUp v).pins with fuse := fuse, fuseAt := fuse } } fuse) 0x44 16 3 lc := by
    rw [hv]
    exact applyFuse_of_lcDecode _ h
  have hget : ∀ a, a ≠ 0x44 → a < 0x300000 → getReg t a = getReg v a := fun a ha hlt => by
    rw [ht, getReg_setFld_ne _ _ _ _ ha, setLcValid, getReg_setBit_ne _ _ _ ha]
    exact hreg a hlt
  have hmode : curMode t = curMode v := by
    unfold curMode getFld
    rw [hget 0x10 (by decide) (by decide)]
  have hlc : lcState t = lc := by
    rw [ht, lcState, getFld_setFld_same _ _ _ (by decide), Nat.mod_eq_of_lt (lcDecode_lt h)]
  have h48 : getReg t 0x48 = straps.chPop ++ straps.portEn := by
    rw [hget 0x48 (by decide) (by decide), hv, enterMode, getReg_setReg_ne _ _ (by decide), getReg_setReg_same]
  refine ⟨?_, h48, hmode.trans (by rw [hv, curMode_enterMode]), ?_, ?_, hlc, ?_, ?_, ?_⟩
  all_goals
    rw [ht]
    generalize powerUp v = w at hframe
    rw [hframe, hv]
    rfl

/-- A valid release with the other input high starts M1 (Table 2.4 step 3). -/
theorem resetReleaseEffect_valid {s : State} {brst : Bool} (straps : Straps) (fuse : BitVec 16) (hlow : s.pins.porstLow = !brst)
    (hhigh : s.pins.brstLow = brst) (hporst : brst = true → s.pins.needPorst = false) : ∃ u : State,
    u.undef = false ∧ u.pins.coreOn = true ∧ u.dram = s.dram ∧
      resetReleaseEffect s brst straps fuse true true = startCold u straps fuse := by
  cases brst with
  | true =>
    have hn := hporst rfl
    refine ⟨_, ?_, ?_, ?_, by simp only [resetReleaseEffect, hlow, hhigh, hn]; rfl⟩ <;> rfl
  | false => refine ⟨_, ?_, ?_, ?_, by simp only [resetReleaseEffect, hlow, hhigh]; rfl⟩ <;> rfl

theorem resetRelease_completes (s : State) (brst : Bool) (straps : Straps) (fuse : BitVec 16) (lc : Nat)
    (hlow : s.pins.porstLow = !brst) (hhigh : s.pins.brstLow = brst) (hporst : brst = true → s.pins.needPorst = false)
    (hlc : lcDecode fuse = some lc) : Completes (.resetRelease brst straps fuse true true) s (fun t =>
      t.undef = false ∧ t.pins.straps = straps ∧ getReg t 0x48 = straps.chPop ++ straps.portEn ∧ curMode t = 1 ∧
      t.seq.boot = .lock ∧ t.pins.fuse = fuse ∧ lcState t = lc ∧ t.pins.coreOn = true ∧ t.dram = s.dram) := by
  obtain ⟨u, hundef, hcore, hdram, heq⟩ := resetReleaseEffect_valid straps fuse hlow hhigh hporst
  obtain ⟨h₁, h₂, h₃, h₄, h₅, h₆, h₇, h₈, h₉⟩ := startCold_of_lcDecode u straps hlc
  refine completes_of_resume (t := resetReleaseEffect s brst straps fuse true true) rfl ?_
  rw [heq]
  exact ⟨h₉.trans hundef, h₁, h₂, h₃, h₄, h₅, h₆, h₇.trans hcore, h₈.trans hdram⟩

end Sys2Proof.Laws
end

section
/-! PROOF. O10: the resets of the core. -/

namespace Sys2Proof.Proofs

open Sys2Proof.Machine Sys2Proof.Laws

/-- Settles O10: assertion is the core's reset and M0; a valid release is the start of M1. -/
theorem resetsOfTheCore : Obligations.ResetsOfTheCore :=
  ⟨resetAssert_completes, resetRelease_completes⟩

end Sys2Proof.Proofs
end

section
/-! SUPPORT. The state after power-on, the supplies, and the registers that a tick leaves alone. -/

namespace Sys2Proof.Laws

open Sys2Proof.Machine Sys2Proof.Safety

theorem getReg_reset (a : Nat) : getReg State.reset a = regReset a := rfl

theorem port_reset {n : Nat} (h : n < 24) : port State.reset n = freshPort := by simp [port, h, State.reset]

theorem slice_reset {n : Nat} (h : n < 8) : slice State.reset n = freshSlice := by simp [slice, h, State.reset]

theorem chan_reset {c : Nat} (h : c < 16) : chan State.reset c = freshChan := by simp [chan, h, State.reset]

/-- Region 0 alone is valid after reset (R284). -/
theorem rgnAttr_reset_valid : ∀ i, i < 64 → (bitOf (rgnAttr State.reset i) 0 = true ↔ i = 0) := by
  have h : ∀ i : Fin 64, bitOf (regReset (0x360000 + i.val * 0x10 + 8)) 0 = true ↔ i.val = 0 := by decide +kernel
  exact fun i hi => h ⟨i, hi⟩

-- supplies

theorem coreRemoveEffect_eq {s : State} (h : s.pins.coreOn = true) : ∃ u : State,
    u = (if curMode s = 8 ∨ curMode s = 0 then s else toOff (coreReset s)) ∧
    coreRemoveEffect s = { u with pins := { u.pins with coreOn := false, heldFaultN := faultN s, heldSafe := safeAct s } } :=
  ⟨_, rfl, by simp only [coreRemoveEffect, h]; rfl⟩

/-- The levels that outlast `VDD_CORE` (R23). -/
theorem levels_held {s u : State} (hporst : u.pins.porstLow = false) (hbrst : u.pins.brstLow = false) (hoff : u.pins.coreOn = false)
    (hfault : u.pins.heldFaultN = faultN s) (hsafe : u.pins.heldSafe = safeAct s) : faultN u = faultN s ∧ safeAct u = safeAct s := by
  constructor
  · rw [← hfault]
    simp [faultN, hporst, hbrst, hoff]
  · rw [← hsafe]
    simp [safeAct, hporst, hbrst, hoff]

theorem vddCoreRemove_completes (s : State) (hcore : s.pins.coreOn = true) : Completes .vddCoreRemove s (fun t =>
    t.pins.coreOn = false ∧ t.aon = { s.aon with roots := t.aon.roots, secAt := t.aon.secAt } ∧
    (curMode s ≠ 0 → curMode s ≠ 8 → curMode t = 0 ∧ t.dram = [] ∧ t.slices = Vector.replicate 8 freshSlice) ∧
    (curMode s = 0 ∨ curMode s = 8 → OnlyPins s t) ∧
    (s.pins.porstLow = false → s.pins.brstLow = false → faultN t = faultN s ∧ safeAct t = safeAct s)) := by
  obtain ⟨u, hu, heq⟩ := coreRemoveEffect_eq hcore
  refine completes_of_resume (t := coreRemoveEffect s) rfl ?_
  rw [heq]
  by_cases hstay : curMode s = 8 ∨ curMode s = 0
  · rw [if_pos hstay] at hu
    subst hu
    exact ⟨rfl, rfl, fun h₀ h₈ => absurd hstay (by simp [h₀, h₈]), fun _ => rfl,
      fun hp hb => levels_held hp hb rfl rfl rfl⟩
  · rw [if_neg hstay] at hu
    have hmode : curMode u = 0 := hu ▸ curMode_toOff _
    have hoff : u = { coreReset s with regs := u.regs } := hu ▸ onlyRegs_toOff _
    refine ⟨rfl, by rw [hoff]; rfl, fun _ _ => ⟨hmode, by rw [hoff]; rfl, by rw [hoff]; rfl⟩,
      fun h => absurd h.symm hstay, fun hp hb => levels_held ?_ ?_ rfl rfl rfl⟩
    · rw [hoff]
      exact hp
    · rw [hoff]
      exact hb

-- counters at a tick

/-- What a counter that counts may change: the overflow registers and the counters 0 to 7 of the sets. -/
structure Counted (s t : State) : Prop where
  frame : t = { s with regs := t.regs, obs := { s.obs with counts := t.obs.counts } }
  regs : ∀ a, (∀ k, k < 24 → a ≠ pmuBase k + 0x80) → getReg t a = getReg s a

theorem Counted.refl (s : State) : Counted s s := ⟨rfl, fun _ _ => rfl⟩

theorem Counted.trans {s t u : State} (a : Counted s t) (b : Counted t u) : Counted s u := by
  refine ⟨?_, fun r h => (b.regs r h).trans (a.regs r h)⟩
  rw [b.frame, a.frame]

theorem setPmuCount_counted (s : State) (k i v : Nat) : Counted s (setPmuCount s k i v) := ⟨rfl, fun _ _ => rfl⟩

theorem setOvf_counted (s : State) {k : Nat} (i : Nat) (b : Bool) (h : k < 24) : Counted s (setBit s (pmuBase k + 0x80) i b) :=
  ⟨rfl, fun _ ha => getReg_setBit_ne s i b (ha k h)⟩

theorem pmuCount_setPmuCount_same (s : State) (k i v : Nat) : pmuCount (setPmuCount s k i v) k i = v :=
  cellsGet_set_same _ _ _

theorem pmuCount_setPmuCount_ne (s : State) {k i k' i' : Nat} (v : Nat) (h : k' * 16 + i' ≠ k * 16 + i) :
    pmuCount (setPmuCount s k i v) k' i' = pmuCount s k' i' :=
  cellsGet_set_ne _ _ h

/-- A carry goes up to counter 7 at most: no elapsed counter changes. -/
theorem pmuAdd_counted {k : Nat} (hk : k < 24) (fuel : Nat) : ∀ (s : State) (i n : Nat), i < 8 →
    Counted s (pmuAdd fuel s k i n) ∧ ∀ k', pmuCount (pmuAdd fuel s k i n) k' 8 = pmuCount s k' 8 := by
  induction fuel with
  | zero => exact fun s _ _ _ => ⟨Counted.refl s, fun _ => rfl⟩
  | succ fuel ih =>
    intro s i n hi
    have hset := setPmuCount_counted s k i ((pmuCount s k i + n) % 2 ^ 48)
    have hcount : ∀ k', pmuCount (setPmuCount s k i ((pmuCount s k i + n) % 2 ^ 48)) k' 8 = pmuCount s k' 8 :=
      fun k' => pmuCount_setPmuCount_ne s _ (by omega)
    rw [pmuAdd]
    split
    · exact ⟨hset, hcount⟩
    · split
      · next h =>
        obtain ⟨hc, h8⟩ := ih (setPmuCount s k i ((pmuCount s k i + n) % 2 ^ 48)) (i + 1) 1 (by omega)
        exact ⟨hset.trans hc, fun k' => (h8 k').trans (hcount k')⟩
      · exact ⟨hset.trans (setOvf_counted _ i true hk), hcount⟩

theorem pmuOn_counted {s t : State} (h : Counted s t) (k : Nat) : pmuOn t k = pmuOn s k := by
  have hreg : ∀ a, a = 0x332000 ∨ a = 0x300004 ∨ a = 0x10 → getReg t a = getReg s a :=
    fun a ha => h.regs a fun k hk => by unfold pmuBase; omega
  have hmode : curMode t = curMode s := by unfold curMode getFld; rw [hreg 0x10 (by simp)]
  have hpins : t.pins = s.pins := by rw [h.frame]
  unfold pmuOn pmuPowered slicePwr slicePop coreAlive getBit
  rw [hreg 0x332000 (by simp), hreg 0x300004 (by simp), hmode, hpins]

/-- A set at a tick: its elapsed counter goes up where it counts, and no other set's does. -/
theorem tickSet_counted (s : State) {k : Nat} (hk : k < 24) : Counted s (tickSet s k) ∧ ∀ k', pmuCount (tickSet s k) k' 8 =
    if k' = k ∧ pmuOn s k = true then (pmuCount s k 8 + 1) % 2 ^ 48 else pmuCount s k' 8 := by
  unfold tickSet
  by_cases hon : pmuOn s k = true
  · rw [if_pos hon]
    obtain ⟨u, hu⟩ : ∃ u, u = setPmuCount s k 8 ((pmuCount s k 8 + 1) % 2 ^ 48) := ⟨_, rfl⟩
    have hmove : Counted s u ∧ ∀ k', pmuCount u k' 8 =
        if k' = k ∧ pmuOn s k = true then (pmuCount s k 8 + 1) % 2 ^ 48 else pmuCount s k' 8 := by
      rw [hu]
      refine ⟨setPmuCount_counted _ _ _ _, fun k' => ?_⟩
      by_cases h : k' = k
      · subst h
        rw [if_pos ⟨rfl, hon⟩, pmuCount_setPmuCount_same]
      · rw [if_neg (fun e => h e.1), pmuCount_setPmuCount_ne _ _ (by omega)]
    have hall : ∀ n, n ≤ 8 → Counted s (forEach n u (tickCounter k)) ∧ ∀ k', pmuCount (forEach n u (tickCounter k)) k' 8 =
        if k' = k ∧ pmuOn s k = true then (pmuCount s k 8 + 1) % 2 ^ 48 else pmuCount s k' 8 := by
      intro n
      induction n with
      | zero => exact fun _ => hmove
      | succ n ih =>
        intro hn
        obtain ⟨hc, h8⟩ := ih (by omega)
        rw [forEach_succ]
        unfold tickCounter
        extract_lets c
        split
        · obtain ⟨hc', h8'⟩ := pmuAdd_counted hk 8 (forEach n u (tickCounter k)) n 1 (by omega)
          exact ⟨hc.trans hc', fun k' => (h8' k').trans (h8 k')⟩
        · exact ⟨hc, h8⟩
    rw [← hu]
    exact hall 8 (Nat.le_refl 8)
  · rw [if_neg hon]
    exact ⟨Counted.refl s, fun k' => by rw [if_neg (fun e => hon e.2)]⟩

theorem tickSets_counted (s : State) (n : Nat) (hn : n ≤ 24) : Counted s (forEach n s tickSet) ∧
    ∀ k, pmuCount (forEach n s tickSet) k 8 =
      if k < n ∧ pmuOn s k = true then (pmuCount s k 8 + 1) % 2 ^ 48 else pmuCount s k 8 := by
  induction n with
  | zero => exact ⟨Counted.refl s, fun k => by simp [forEach]⟩
  | succ n ih =>
    obtain ⟨hc, h8⟩ := ih (by omega)
    obtain ⟨hc', h8'⟩ := tickSet_counted (forEach n s tickSet) (k := n) (by omega)
    rw [forEach_succ]
    refine ⟨hc.trans hc', fun k => ?_⟩
    rw [h8', h8, h8, pmuOn_counted hc]
    by_cases hk : k = n
    · subst hk
      by_cases hon : pmuOn s k = true <;> simp [hon]
    · rw [if_neg (fun e => hk e.1)]
      by_cases hlt : k < n
      · simp [hlt, Nat.lt_succ_of_lt hlt]
      · simp [hlt, show ¬ k < n + 1 by omega]

theorem probeTicks_frame (s : State) (n : Nat) :
    forEach n s probeTick = { s with spine := { s.spine with probe := (forEach n s probeTick).spine.probe } } := by
  refine forEach_keeps (P := fun u => u = { s with spine := { s.spine with probe := u.spine.probe } }) (fun u k hu => ?_) n rfl
  unfold probeTick
  split
  · rw [hu]
    rfl
  · exact hu

theorem tickEffect_of_ticking {s : State} (h : Ticking s) :
    tickEffect s = forEach 24 (forEach 24 { s with tick := s.tick + 1 } tickSet) probeTick := by
  obtain ⟨⟨-, hrun⟩, htb⟩ := h
  exact if_pos (by rw [hrun, htb]; rfl)

theorem tick_completes (s : State) (h : Ticking s) : Completes .tick s (fun t =>
    t.tick = s.tick + 1 ∧
    (∀ k, k < 24 → pmuCount t k 8 = if pmuOn s k then (pmuCount s k 8 + 1) % 2 ^ 48 else pmuCount s k 8) ∧
    t = { s with tick := t.tick, regs := t.regs, spine := t.spine, obs := t.obs } ∧
    t.spine = { s.spine with probe := t.spine.probe } ∧ t.obs = { s.obs with counts := t.obs.counts } ∧
    (∀ a, (∀ k, k < 24 → a ≠ pmuBase k + 0x80) → getReg t a = getReg s a)) := by
  refine completes_of_guarded_defined (t := tickEffect s) rfl h.1.1 ?_
  rw [tickEffect_of_ticking h]
  obtain ⟨hc, h8⟩ := tickSets_counted { s with tick := s.tick + 1 } 24 (Nat.le_refl 24)
  obtain ⟨u, hu⟩ : ∃ u, u = forEach 24 { s with tick := s.tick + 1 } tickSet := ⟨_, rfl⟩
  rw [← hu] at hc h8 ⊢
  have hprobe := probeTicks_frame u 24
  obtain ⟨w, hw⟩ : ∃ w, w = forEach 24 u probeTick := ⟨_, rfl⟩
  rw [← hw] at hprobe ⊢
  have hcount : ∀ k, pmuCount w k 8 = pmuCount u k 8 := fun k => by rw [hprobe]; rfl
  have hframe := hc.frame
  refine ⟨by rw [hprobe, hframe], fun k hk => ?_, by rw [hprobe, hframe], by rw [hprobe, hframe], by rw [hprobe, hframe],
    fun a ha => ?_⟩
  · refine (hcount k).trans ((h8 k).trans ?_)
    rw [show pmuOn { s with tick := s.tick + 1 } k = pmuOn s k from rfl]
    simp only [hk, true_and]
    rfl
  · have hreg : getReg w a = getReg u a := by rw [hprobe]; rfl
    exact hreg.trans (hc.regs a ha)

-- the timebase and the calendar

theorem timebaseLock_completes (s : State) (h : Awake s) (hmode : curMode s = 1) (hboot : s.seq.boot = .lock)
    (hexit : s.seq.exit8 = false) : Completes .timebaseLock s (fun t =>
      t.tick = 0 ∧ t.pins.tbRun = true ∧ t.seq.boot = .calibrate ∧ t.regs = s.regs) := by
  have hlock : lockTick s = (s, 0) := by simp [lockTick, hexit]
  have hafter : afterLock s = .calibrate := by simp [afterLock, hexit]
  refine completes_of_guarded_defined (t := timebaseLockEffect s) rfl h.1 ?_
  rw [timebaseLockEffect, if_pos ⟨h.2, hmode, hboot⟩, hlock]
  exact ⟨rfl, rfl, hafter, rfl⟩

theorem calendarLoss_reported {s : State} (h : Ticking s) (hclk : s.pins.aonClk = true) :
    exec .calendarLoss s = resume s (report { s with
      pins := { s.pins with aonClk := false, calSeen := true }, aon := { s.aon with secAt := none } } 26 1) := by
  obtain ⟨⟨hdef, hrun⟩, htb⟩ := h
  have : exec .calendarLoss s = resume s (calendarLossEffect s) := rfl
  rw [this, calendarLossEffect]
  simp [hdef, hrun, htb, hclk]

theorem calendarSecond_completes (s : State) (hclk : s.pins.aonClk = true) : Completes .calendarSecond s (fun t =>
    t.aon.calendar = s.aon.calendar + 1 ∧ t.aon.modeSec = bumpVec s.aon.modeSec (curMode s) ∧
    t.aon.powered = (if curMode s = 0 ∨ curMode s = 8 then s.aon.powered else min (s.aon.powered + 1) (2 ^ 32 - 1)) ∧
    t = { s with aon := t.aon }) := by
  refine completes_of_resume (t := calendarSecondEffect s) rfl ?_
  rw [calendarSecondEffect, if_pos hclk]
  exact ⟨rfl, rfl, rfl, rfl⟩

end Sys2Proof.Laws
end

section
/-! PROOF. O4, O11 and O12: the state after power-on, the supplies, and the timebase with its counters. -/

namespace Sys2Proof.Proofs

open Sys2Proof.Machine Sys2Proof.Safety Sys2Proof.Laws

/-- Settles O4: unit by unit, from the fresh records and the reset column of the register map. -/
theorem stateAfterReset : Obligations.StateAfterReset := by
  refine ⟨by decide, by decide, by decide, rfl, fun n hn => ?_, rfl, rfl, rfl, fun n hn => ?_, fun c hc => ?_,
    rgnAttr_reset_valid, rfl, rfl, rfl⟩
  · rw [port_reset hn]
    exact ⟨rfl, rfl⟩
  · rw [slice_reset hn]
    exact ⟨rfl, rfl⟩
  · rw [chan_reset hc]
    exact ⟨rfl, rfl⟩

/-- Settles O11: each supply event by the mode in which it comes. -/
theorem suppliesOfTheBlock : Obligations.SuppliesOfTheBlock := by
  refine ⟨vddCoreRemove_completes, fun s k hk h₀ h₈ => ?_, fun s h₈ => ?_, fun s k hk h₈ => ?_, fun s hoff hp hb h₈ => ?_,
    fun s => ?_⟩
  · refine completes_of_resume (t := supplyEffect s k) rfl ?_
    cases k with
    | coreRiseReleased => exact absurd rfl hk
    | dramSupplyLost => simp [supplyEffect, h₀, h₈, OnlyPins]
    | railOutOfRange | slewTooFast => simp [supplyEffect, h₀, h₈, OnlyPins]
  · refine completes_of_resume (t := supplyEffect s .dramSupplyLost) rfl ?_
    simp [supplyEffect, h₈]
  · have hsame : supplyEffect s k = s := by rcases hk with rfl | rfl <;> simp [supplyEffect, h₈]
    exact (congrArg (resume s) hsame).trans (resume_same s)
  · refine completes_of_resume (t := supplyEffect s .coreRiseReleased) rfl ?_
    simp [supplyEffect, hoff, hp, hb, h₈]
  · exact completes_of_resume (t := aonPowerOnEffect s) rfl ⟨rfl, rfl, rfl, rfl, rfl, rfl⟩

/-- Settles O12: the lock, the loss and the return of the clocks, the second and the tick. -/
theorem timebaseCalendarAndTick : Obligations.TimebaseCalendarAndTick := by
  refine ⟨timebaseLock_completes, fun s h => ?_, fun s h hwait => ?_, calendarSecond_completes, fun s hclk => ?_, fun s => ?_,
    fun s => ?_, fun s => calendarLoss_reported, tick_completes, fun s hdef hstop => ?_⟩
  · refine (guarded_defined _ h.1.1).trans (congrArg (resume s) ?_)
    exact if_pos ⟨h.1.2, Or.inl h.2⟩
  · refine completes_of_guarded_defined (t := refclkReturnEffect s) rfl h.1 ?_
    rw [refclkReturnEffect, if_pos ⟨h.2, by simp [hwait]⟩]
  · refine completes_of_resume (t := calendarSecondEffect s) rfl ?_
    simp [calendarSecondEffect, hclk]
  · exact completes_of_resume (t := aonReturnEffect s) rfl rfl
  · refine completes_of_resume (t := calendarLossEffect s) rfl fun htb => ?_
    simp [calendarLossEffect, htb]
  · have hsame : tickEffect s = s := if_neg (by rcases hstop with h | h <;> simp [h])
    exact (congrArg (guarded s) hsame).trans (guarded_same hdef)

end Sys2Proof.Proofs
end

section
/-! SUPPORT. The temperature input and the monitors (R51, R63, R64, R72). -/

namespace Sys2Proof.Laws

open Sys2Proof.Machine Sys2Proof.Safety

theorem tempUpd_completes (s : State) (c : BitVec 9) (h : Awake s) (hwait : waitsLock s = false) : Completes (.tempUpd c) s (fun t =>
    getFld t 0x44 24 8 = c.toNat % 256 ∧ getBit t 0x44 2 = true ∧ t.pins.temp = c ∧
    t.pins.tempDue = some (s.tick + 10000000) ∧
    t.pins.hotSince = (if 135 < c.toInt then some (s.pins.hotSince.getD s.tick) else none) ∧
    RegsBut 0x44 s t ∧ OnlyRegsPins s t) := by
  refine completes_of_guarded_defined (t := tempUpdEffect s c) rfl h.1 ?_
  obtain ⟨w, hw⟩ : ∃ w, w = setFld (setBit s 0x44 2 true) 0x44 24 8 (c.toNat % 256) := ⟨_, rfl⟩
  have hreg : RegsBut 0x44 s w := fun a ha => by rw [hw, getReg_setFld_ne _ _ _ _ ha, getReg_setBit_ne _ _ _ ha]
  have hframe : OnlyRegs s w := by rw [hw]; rfl
  have htick : w.tick = s.tick := by rw [hframe]
  have hpins : w.pins = s.pins := by rw [hframe]
  have hwait' : waitsLock w = false := by
    rw [← hwait, waitsLock, waitsLock, curMode, curMode, getFld, getFld, hreg 0x10 (by decide), hframe]
  have hfld : getFld w 0x44 24 8 = c.toNat % 256 := by
    rw [hw, getFld_setFld_same _ _ _ (by decide)]
    exact Nat.mod_mod _ 256
  have hbit : getBit w 0x44 2 = true := by
    rw [hw, getBit_setFld_ne _ _ _ (by decide) (by decide), getBit_setBit_same _ _ _ (by decide)]
  have heq : tempUpdEffect s c = { w with pins := { w.pins with
      temp := c, hotSince := if 135 < c.toInt then some (s.pins.hotSince.getD s.tick) else none,
      tempDue := some (s.tick + 10000000) } } := by
    rw [tempUpdEffect, if_pos h.2, ← hw]
    simp only [hwait', Bool.false_eq_true, if_false, htick, hpins]
  rw [heq]
  refine ⟨hfld, hbit, rfl, rfl, rfl, hreg, ?_⟩
  rw [OnlyRegsPins, hframe]

/-- The registers of a monitor are apart from each other and from GLB_PACE_WARN and GLB_PACE_WORST (Table 3.6). -/
theorem monitorAt_apart (m : Monitor) : (monitorAt m).2.2.1 ≠ (monitorAt m).2.2.2 ∧ (monitorAt m).2.2.1 + 4 ≠ (monitorAt m).2.2.2 ∧
    0x100 ≤ (monitorAt m).2.2.1 ∧ 0x100 ≤ (monitorAt m).2.2.2 := by
  cases m <;> simp only [monitorAt, slcBase, mcBase] <;> omega

theorem paceBit_clear {count t : Nat} (hn : count ≠ 0) (ht : paceOf count ≤ t) : paceBit count t false = false := by
  rw [paceBit, if_neg (by omega), Bool.false_and]

theorem getFld_lt (s : State) (a lo n : Nat) : getFld s a lo n < 2 ^ n := Nat.mod_lt _ (Nat.two_pow_pos n)

theorem onlyRegs_noteExtremes (s : State) (e p u x : Nat) : OnlyRegs s (noteExtremes s e p u x) := by
  unfold noteExtremes
  extract_lets v w
  split <;> rfl

theorem getReg_noteExtremes {s : State} {a e p u x : Nat} (he : a ≠ e) (h : a ≠ 0x8C) :
    getReg (noteExtremes s e p u x) a = getReg s a := by
  unfold noteExtremes
  extract_lets v w
  have hw : getReg w a = getReg s a := by
    rw [getReg_setFld_ne _ _ _ _ he, getReg_setFld_ne _ _ _ _ he]
  split
  · rw [getReg_setReg_ne _ _ h, hw]
  · exact hw

theorem getFld_noteExtremes {s : State} {e p u x : Nat} (h : e ≠ 0x8C) (hp : p < 1024) :
    getFld (noteExtremes s e p u x) e 0 10 = min (getFld s e 0 10) p ∧
      getFld (noteExtremes s e p u x) e 16 10 = max (getFld s e 16 10) p := by
  have hmin := getFld_lt s e 0 10
  have hmax := getFld_lt s e 16 10
  unfold noteExtremes
  extract_lets v w
  have hlow : getFld w e 0 10 = min (getFld s e 0 10) p := by
    rw [getFld_setFld_ne _ _ _ (by decide) (by decide), getFld_setFld_same _ _ _ (by decide)]
    exact Nat.mod_eq_of_lt (by omega)
  have hhigh : getFld w e 16 10 = max (getFld s e 16 10) p := by
    rw [getFld_setFld_same _ _ _ (by decide), getFld_setFld_ne _ _ _ (by decide) (by decide)]
    exact Nat.mod_eq_of_lt (by omega)
  split
  · have hkeep : getReg (setReg w 0x8C (BitVec.ofNat 32 (p + 2 ^ 16 * u + 2 ^ 21 * x))) e = getReg w e := getReg_setReg_ne _ _ h
    have hfld : ∀ lo k, getFld (setReg w 0x8C (BitVec.ofNat 32 (p + 2 ^ 16 * u + 2 ^ 21 * x))) e lo k = getFld w e lo k :=
      fun lo k => by rw [getFld, hkeep, getFld]
    rw [hfld, hfld]
    exact ⟨hlow, hhigh⟩
  · exact ⟨hlow, hhigh⟩

theorem noteAging_frame (s : State) (p u x : Nat) : noteAging s p u x =
    { s with aon := { s.aon with aging := (noteAging s p u x).aon.aging, agingAt := (noteAging s p u x).aon.agingAt } } := by
  unfold noteAging
  split <;> rfl

theorem noteAging_aging {s : State} {p : Nat} (u x : Nat) (hp : p < 1024) :
    (noteAging s p u x).aon.aging.toNat % 1024 = max (s.aon.aging.toNat % 1024) p := by
  unfold noteAging
  split
  · next h =>
    simp only [BitVec.toNat_ofNat]
    omega
  · next h => omega

/-- A window that sets no bit (R63, R64): what it writes, in order. -/
theorem paceEffect_clear {s : State} {m : Monitor} {n : BitVec 16} (f : BitVec 12) (h : Ticking s) (hon : monitorOn s m = true)
    (hn : n ≠ 0) (hslow : paceOf n.toNat ≤ 610) (hwarn : paceOf n.toNat ≤ getFld s 0x88 0 10)
    (hbit : getBit s (monitorAt m).2.2.1 10 = false) (hbit' : getBit s (monitorAt m).2.2.1 11 = false) :
    ∃ v : State, (v = setReg s (monitorAt m).2.2.1 (BitVec.ofNat 32 (paceOf n.toNat + 2 ^ 16 * n.toNat)) ∨
        v = setReg (setReg s (monitorAt m).2.2.1 (BitVec.ofNat 32 (paceOf n.toNat + 2 ^ 16 * n.toNat))) ((monitorAt m).2.2.1 + 4)
          (BitVec.ofNat 32 f.toNat)) ∧
      paceEffect s m n f = noteAging (noteExtremes v (monitorAt m).2.2.2 (paceOf n.toNat) (monitorAt m).1 (monitorAt m).2.1)
        (paceOf n.toNat) (monitorAt m).1 (monitorAt m).2.1 := by
  obtain ⟨⟨-, hrun⟩, htb⟩ := h
  have hn' : n.toNat ≠ 0 := by simpa [BitVec.toNat_eq] using hn
  have hshown : paceShown s n.toNat = (s, paceOf n.toNat) := if_pos ⟨hn', by omega⟩
  have hw : paceBit n.toNat (getFld s 0x88 0 10) (getBit s (monitorAt m).2.2.1 10) = false := hbit ▸ paceBit_clear hn' hwarn
  have hs : paceBit n.toNat 610 (getBit s (monitorAt m).2.2.1 11) = false := hbit' ▸ paceBit_clear hn' hslow
  refine ⟨if (monitorAt m).1 < 8 then setReg (setReg s (monitorAt m).2.2.1 (BitVec.ofNat 32 (paceOf n.toNat + 2 ^ 16 * n.toNat)))
      ((monitorAt m).2.2.1 + 4) (BitVec.ofNat 32 f.toNat)
    else setReg s (monitorAt m).2.2.1 (BitVec.ofNat 32 (paceOf n.toNat + 2 ^ 16 * n.toNat)), ?_, ?_⟩
  · split
    · exact Or.inr rfl
    · exact Or.inl rfl
  · rw [paceEffect, if_pos (by simp [hrun, htb, hon])]
    simp only [hshown, hw, hs, Bool.false_and, Bool.false_eq_true, if_false, b2n, Nat.mul_zero, Nat.add_zero]

theorem paceWindowEnd_completes (s : State) (m : Monitor) (n : BitVec 16) (f : BitVec 12) (h : Ticking s)
    (hon : monitorOn s m = true) (hn : n ≠ 0) (hslow : paceOf n.toNat ≤ 610) (hwarn : paceOf n.toNat ≤ getFld s 0x88 0 10)
    (hbit : getBit s (monitorAt m).2.2.1 10 = false) (hbit' : getBit s (monitorAt m).2.2.1 11 = false) :
    Completes (.paceWindowEnd m n f) s (fun t =>
      getReg t (monitorAt m).2.2.1 = BitVec.ofNat 32 (paceOf n.toNat + 2 ^ 16 * n.toNat) ∧
      getFld t (monitorAt m).2.2.2 0 10 = min (getFld s (monitorAt m).2.2.2 0 10) (paceOf n.toNat) ∧
      getFld t (monitorAt m).2.2.2 16 10 = max (getFld s (monitorAt m).2.2.2 16 10) (paceOf n.toNat) ∧
      t.aon.aging.toNat % 1024 = max (s.aon.aging.toNat % 1024) (paceOf n.toNat) ∧
      t = { s with regs := t.regs, aon := { s.aon with aging := t.aon.aging, agingAt := t.aon.agingAt } }) := by
  refine completes_of_guarded_defined (t := paceEffect s m n f) rfl h.1.1 ?_
  obtain ⟨v, hv, heq⟩ := paceEffect_clear f h hon hn hslow hwarn hbit hbit'
  obtain ⟨hre, hre', hr, he⟩ := monitorAt_apart m
  generalize (monitorAt m).2.2.1 = r at *
  generalize (monitorAt m).2.2.2 = e at *
  generalize (monitorAt m).2.1 = x at *
  generalize (monitorAt m).1 = u at *
  have hpace : paceOf n.toNat < 1024 := by omega
  have hvr : getReg v r = BitVec.ofNat 32 (paceOf n.toNat + 2 ^ 16 * n.toNat) := by
    rcases hv with rfl | rfl
    · exact getReg_setReg_same _ _ _
    · rw [getReg_setReg_ne _ _ (by omega), getReg_setReg_same]
  have hve : getReg v e = getReg s e := by
    rcases hv with rfl | rfl
    · exact getReg_setReg_ne _ _ hre.symm
    · rw [getReg_setReg_ne _ _ hre'.symm, getReg_setReg_ne _ _ hre.symm]
  have hvs : OnlyRegs s v := by rcases hv with rfl | rfl <;> rfl
  obtain ⟨hmin, hmax⟩ := getFld_noteExtremes (s := v) (e := e) (u := u) (x := x) (by omega) hpace
  have hr' : getReg (noteExtremes v e (paceOf n.toNat) u x) r = getReg v r := getReg_noteExtremes hre (by omega)
  have hext := onlyRegs_noteExtremes v e (paceOf n.toNat) u x
  have hag : (noteExtremes v e (paceOf n.toNat) u x).aon = s.aon := by rw [hext, hvs]
  have hage := noteAging_aging (s := noteExtremes v e (paceOf n.toNat) u x) u x hpace
  have hframe := noteAging_frame (noteExtremes v e (paceOf n.toNat) u x) (paceOf n.toNat) u x
  rw [hag] at hage
  have hold : getFld v e = getFld s e := by funext lo k; rw [getFld, hve, getFld]
  rw [hold] at hmin hmax
  rw [heq]
  refine ⟨?_, ?_, ?_, hage, ?_⟩
  · exact (congrArg (fun w => getReg w r) hframe).trans (hr'.trans hvr)
  · exact (congrArg (fun w => getFld w e 0 10) hframe).trans hmin
  · exact (congrArg (fun w => getFld w e 16 10) hframe).trans hmax
  · generalize noteAging (noteExtremes v e (paceOf n.toNat) u x) (paceOf n.toNat) u x = w at hframe
    rw [hframe, hext, hvs]

end Sys2Proof.Laws
end

section
/-! SUPPORT. The fuse samples, the lifecycle handshake and the key port (R47, R50, R413). -/

namespace Sys2Proof.Laws

open Sys2Proof.Machine Sys2Proof.Safety

theorem partOfAdvance_without_advance {s : State} (f : BitVec 16) (h : s.pins.lcAdvReq = false) : partOfAdvance s f = false := by
  simp [partOfAdvance, h]

/-- A sample that is due (R50), with what it judges and what it may end. -/
theorem fuseSampleEffect_due {s : State} (f : BitVec 16) (h : Ticking s) (hdue : s.pins.fuseDue ≤ s.tick) :
    fuseSampleEffect s f =
      (let u := judgeSample (setLcValid { s with pins := { s.pins with fuse := f, fuseDue := s.pins.fuseDue + 1000000 } } f) f
        (f != s.pins.fuse && !partOfAdvance s f)
       if s.pins.lcAdvReq && s.seq.lcDone then advanceCheck u f else u) := by
  obtain ⟨⟨-, hrun⟩, htb⟩ := h
  rw [fuseSampleEffect, if_pos ⟨hrun, htb, hdue⟩]

theorem fuseSample_same_completes (s : State) (h : Ticking s) (hdue : s.pins.fuseDue ≤ s.tick) (hadv : s.pins.lcAdvReq = false) :
    Completes (.fuseSample s.pins.fuse) s (fun t =>
      t.pins.fuseDue = s.pins.fuseDue + 1000000 ∧ getBit t 0x44 3 = (lcDecode s.pins.fuse).isSome ∧ lcState t = lcState s ∧
      RegsBut 0x44 s t ∧ OnlyRegsPins s t) := by
  refine completes_of_guarded_defined (t := fuseSampleEffect s s.pins.fuse) rfl h.1.1 ?_
  obtain ⟨w, hw⟩ : ∃ w : State, w = { s with pins := { s.pins with fuse := s.pins.fuse, fuseDue := s.pins.fuseDue + 1000000 } } :=
    ⟨_, rfl⟩
  have heq : fuseSampleEffect s s.pins.fuse = setBit w 0x44 3 (lcDecode s.pins.fuse).isSome := by
    rw [fuseSampleEffect_due _ h hdue, ← hw, hadv, bne_self_eq_false]
    rfl
  have hframe : OnlyRegsPins s (setBit w 0x44 3 (lcDecode s.pins.fuse).isSome) := by rw [hw]; rfl
  have hdue' : w.pins.fuseDue = s.pins.fuseDue + 1000000 := by rw [hw]
  have hlc : lcState (setBit w 0x44 3 (lcDecode s.pins.fuse).isSome) = lcState w := getFld_setFld_ne _ _ _ (by decide) (by decide)
  have hreg : ∀ a, getReg w a = getReg s a := fun a => by rw [hw]; rfl
  have hlc' : lcState w = lcState s := by rw [lcState, getFld, hreg]; rfl
  rw [heq]
  refine ⟨hdue', getBit_setBit_same _ _ _ (by decide), hlc.trans hlc', fun a ha => ?_, ?_⟩
  · exact (getReg_setBit_ne _ _ _ ha).trans (hreg a)
  · exact congrArg (fun u : State => { u with pending := s.pending }) hframe

theorem fuseSample_changed {s : State} {f : BitVec 16} (h : Ticking s) (hdue : s.pins.fuseDue ≤ s.tick)
    (hadv : s.pins.lcAdvReq = false) (hf : f ≠ s.pins.fuse) : exec (.fuseSample f) s = resume s
      (let u := setLcValid { s with pins := { s.pins with fuse := f, fuseDue := s.pins.fuseDue + 1000000 } } f
       report (if (lcDecode f).isSome then u else report u 26 3) 26 4) := by
  refine (guarded_defined _ h.1.1).trans (congrArg (resume s) ?_)
  rw [fuseSampleEffect_due f h hdue, partOfAdvance_without_advance f hadv]
  simp [hadv, hf, judgeSample]

theorem fuseSample_ends_advance {s : State} {f : BitVec 16} (h : Ticking s) (hdue : s.pins.fuseDue ≤ s.tick)
    (hadv : s.pins.lcAdvReq = true) (hdone : s.seq.lcDone = true) (hf : f = s.pins.fuse ∨ partOfAdvance s f = true) :
    exec (.fuseSample f) s = resume s (advanceCheck (setLcValid { s with
      pins := { s.pins with fuse := f, fuseDue := s.pins.fuseDue + 1000000 } } f) f) := by
  refine (guarded_defined _ h.1.1).trans (congrArg (resume s) ?_)
  have hsame : (f != s.pins.fuse && !partOfAdvance s f) = false := by rcases hf with hf | hf <;> simp [hf]
  rw [fuseSampleEffect_due f h hdue, hsame]
  simp [hadv, hdone, judgeSample]

theorem advTimeoutEffect_due {s : State} (h : Awake s) (hadv : s.pins.lcAdvReq = true) (hdone : s.seq.lcDone = false)
    (hdue : s.seq.lcDue ≤ s.tick) : advTimeoutEffect s = advanceEnds
      (if partOfAdvance s s.pins.fuse && (lcDecode s.pins.fuse).isNone then applyFuse s s.pins.fuse else s) stTimeout := by
  rw [advTimeoutEffect, if_pos ⟨h.2, hadv, by simp [hdone], hdue⟩]

theorem lifecycleTimeout_safe_completes (s : State) (h : Awake s) (hadv : s.pins.lcAdvReq = true) (hdone : s.seq.lcDone = false)
    (hdue : s.seq.lcDue ≤ s.tick) (hsafe : inSafe s = true) (hcode : (lcDecode s.pins.fuse).isSome = true) :
    Completes .lifecycleAdvanceTimeout s (fun t =>
      t.pins.lcAdvReq = false ∧ t.seq.lcTarget = none ∧ t.seq.advHeld = false ∧ t.regs = s.regs ∧ t.slices = s.slices) := by
  refine completes_of_guarded_defined (t := advTimeoutEffect s) rfl h.1 ?_
  have hnone : (lcDecode s.pins.fuse).isNone = false := by simpa using hcode
  have hmode : curMode s = 10 := by simpa [inSafe] using hsafe
  have hcut : advanceEnds s stTimeout = { s with
      pins := { s.pins with lcAdvReq := false }, seq := { s.seq with lcTarget := none, lcDone := false, advHeld := false } } :=
    if_neg (by
      have : curMode s ≠ 11 := by omega
      exact this)
  rw [advTimeoutEffect_due h hadv hdone hdue, hnone, Bool.and_false, if_neg (by decide), hcut]
  exact ⟨rfl, rfl, rfl, rfl, rfl⟩

theorem keyTake_refused {s : State} {slot : Fin 2} {beat : BitVec 2} (data : BitVec 64)
    (h : (s.pins.keys[slot]).isSome = true ∨ beat.toNat ≠ (s.pins.keyPart[slot]).length) : keyTake s slot beat data = keyRefuse s := by
  refine if_pos ?_
  rcases h with h | h
  · rw [h, Bool.true_or]
  · rw [bne_iff_ne.mpr h, Bool.or_true]

/-- The next beat of a slot that is not loaded (R47). -/
theorem keyTake_next {s : State} {slot : Fin 2} {beat : BitVec 2} (data : BitVec 64) (hkey : s.pins.keys[slot] = none)
    (hbeat : beat.toNat = (s.pins.keyPart[slot]).length) : keyTake s slot beat data =
      if (s.pins.keyPart[slot] ++ [data]).length < 4 then
        { s with pins := { s.pins with keyPart := s.pins.keyPart.set slot (s.pins.keyPart[slot] ++ [data]) } }
      else
        let t := { s with pins := { s.pins with keyPart := s.pins.keyPart.set slot []
                                                keys := s.pins.keys.set slot (some (keyOf (s.pins.keyPart[slot] ++ [data]))) } }
        if slot = 0 then pinAll t else t := by
  rw [keyTake, hkey, hbeat]
  exact if_neg (by simp)

/-- The port has seen a beat rise, and answers it (R33, R47). -/
def keySeen (s : State) : State := { s with pins := { s.pins with keyReq := true, keyAck := true, keyErr := false } }

theorem keyBeatEffect_seen {s : State} (slot : Fin 2) (beat : BitVec 2) (data : BitVec 64) (h : Awake s)
    (hreq : s.pins.keyReq = false) : keyBeatEffect s slot beat data = keyTake (keySeen s) slot beat data := by
  have hrun : running { s with pins := { s.pins with keyReq := true } } = true := h.2
  rw [keyBeatEffect, hreq]
  simp only [hrun]
  rfl

end Sys2Proof.Laws
end

section
/-! PROOF. O14 and O15: temperature, pace, fuses and keys. -/

namespace Sys2Proof.Proofs

open Sys2Proof.Machine Sys2Proof.Safety Sys2Proof.Laws

/-- Settles O14: each event in its own case; the pace window by what it writes, in order. -/
theorem temperatureAndPace : Obligations.TemperatureAndPace := by
  refine ⟨tempUpd_completes, fun s d h hd hle => ?_, fun s d h hd hlt => ?_, paceWindowEnd_completes,
    fun s m n f hdef hoff => ?_, fun s u r h hon hr => ?_, fun s u hdef hoff => ?_⟩
  · refine (guarded_defined _ h.1).trans (congrArg (resume s) ?_)
    simp only [tempStaleEffect, hd]
    exact if_pos ⟨h.2, hle⟩
  · refine (guarded_defined _ h.1).trans (congrArg (resume s) ?_)
    simp only [overTempEffect, hd]
    exact if_pos ⟨h.2, hlt⟩
  · have hsame : paceEffect s m n f = s := if_neg (by rcases hoff with h | h <;> simp [h])
    exact (congrArg (guarded s) hsame).trans (guarded_same hdef)
  · refine (guarded_defined _ h.1).trans (congrArg (resume s) ?_)
    simp only [canaryEffect, hr]
    exact if_pos (by rw [h.2, hon]; rfl)
  · have hsame : canaryEffect s u.val = s := by
      unfold canaryEffect
      rcases hoff with h | h
      · rw [h]
      · split
        · rw [h, Bool.and_false, if_neg (by decide)]
        · rfl
    exact (congrArg (guarded s) hsame).trans (guarded_same hdef)

/-- Settles O15: a sample by what it judges, a beat by what the slot has taken. -/
theorem fusesAndKeys : Obligations.FusesAndKeys := by
  refine ⟨fuseSample_same_completes, fun s f => fuseSample_changed, fun s f => fuseSample_ends_advance, fun s h hadv => ?_,
    fun s h hadv hdone hdue => ?_, lifecycleTimeout_safe_completes, fun s slot beat data h hreq hkey hbeat hlt => ?_,
    fun s data h hreq hkey hlen => ?_, fun s data h hreq hkey hlen => ?_, fun s slot beat data h hreq hbad => ?_,
    fun s hdef => completes_of_guarded_defined (t := keyReleaseEffect s) rfl hdef rfl⟩
  · refine completes_of_guarded_defined (t := advDoneEffect s) rfl h.1 ?_
    rw [advDoneEffect, if_pos (by rw [h.2, hadv]; rfl)]
  · exact (guarded_defined _ h.1).trans (congrArg (resume s) (advTimeoutEffect_due h hadv hdone hdue))
  · refine completes_of_guarded_defined (t := keyBeatEffect s slot beat data) rfl h.1 ?_
    rw [keyBeatEffect_seen slot beat data h hreq, keyTake_next (s := keySeen s) data hkey hbeat, if_pos (by rw [List.length_append]; exact Nat.succ_lt_succ (hbeat.symm.trans_lt hlt))]
    refine ⟨rfl, rfl, ?_, rfl, rfl⟩
    exact Vector.getElem_set_self slot.isLt
  · refine completes_of_guarded_defined (t := keyBeatEffect s 1 3 data) rfl h.1 ?_
    rw [keyBeatEffect_seen 1 3 data h hreq, keyTake_next (s := keySeen s) (beat := 3) data hkey hlen.symm,
      if_neg (by rw [List.length_append]; exact Nat.not_lt.mpr (Nat.succ_le_succ hlen.ge)), if_neg (by decide)]
    exact ⟨rfl, Vector.getElem_set_self (by decide), Vector.getElem_set_self (by decide), rfl⟩
  · refine (guarded_defined _ h.1).trans (congrArg (resume s) ?_)
    rw [keyBeatEffect_seen 0 3 data h hreq, keyTake_next (s := keySeen s) (beat := 3) data hkey hlen.symm,
      if_neg (by rw [List.length_append]; exact Nat.not_lt.mpr (Nat.succ_le_succ hlen.ge)), if_pos rfl]
    rfl
  · refine (guarded_defined _ h.1).trans (congrArg (resume s) ?_)
    rw [keyBeatEffect_seen slot beat data h hreq, keyTake_refused (s := keySeen s) data hbad]
    rfl

end Sys2Proof.Proofs
end

section
/-! SUPPORT. Register writes on the control port and in the register file (R7, R45, R110, R461). -/

namespace Sys2Proof.Laws

open Sys2Proof.Machine Sys2Proof.Safety

/-- A write to a register that can be reached is performed (R45). -/
theorem cpServe_write {s : State} {a : Nat} (v : Word) (h : Reachable s a) : cpServe (portTook s) true a v = regWrite (portTook s) a v := by
  obtain ⟨hon, hcfg, hreg⟩ := h
  simp [cpServe, hon, hcfg, hreg, offsetKnown]

/-- A write that cannot reach its register fails, and the capture says whether its domain is off (R461). -/
theorem cpServe_write_fails {s : State} {a : Nat} (v : Word)
    (h : domainOff s a = true ∨ inCfgSpace a = true ∨ offsetKnown a = false) :
    cpServe (portTook s) true a v = cpFail (portTook s) a true (domainOff s a) := by
  cases hoff : domainOff s a with
  | true => simp [cpServe, hoff]
  | false =>
    have hbad : inCfgSpace a = true ∨ offsetKnown a = false := h.resolve_left (by simp [hoff])
    rw [cpServe, domainOff_portTook, hoff, if_neg (by decide), if_pos (by rcases hbad with h | h <;> simp [h])]

theorem cpFail_write_frame (s : State) (a : Nat) (off : Bool) : cpFail s a true off =
    { s with pins := { s.pins with cpErr := true }, regs := (cpFail s a true off).regs } := by
  unfold cpFail
  extract_lets v
  split <;> rfl

theorem getReg_cpFail (s : State) (a : Nat) (off : Bool) : RegsBut 0x50 s (cpFail s a true off) ∧
    getReg (cpFail s a true off) 0x50 = if getBit s 0x50 0 then getReg s 0x50
      else BitVec.ofNat 32 (1 + 2 * b2n true + a % 2 ^ 22 / 4 * 4 + 2 ^ 22 * b2n off) := by
  unfold cpFail
  extract_lets v w
  have hbit : getBit w 0x50 0 = getBit s 0x50 0 := rfl
  rw [hbit]
  split
  · exact ⟨fun b _ => rfl, rfl⟩
  · exact ⟨fun b hb => getReg_setReg_ne w _ hb, getReg_setReg_same _ _ _⟩

theorem registerWrite_fails_completes (s : State) (a : BitVec 22) (v : Word) (hfree : PortFree s)
    (hbad : domainOff s (a.toNat / 4 * 4) = true ∨ inCfgSpace (a.toNat / 4 * 4) = true ∨ offsetKnown (a.toNat / 4 * 4) = false) :
    Completes (.registerWrite a v) s (fun t =>
      t.pins.cpAck = true ∧ t.pins.cpErr = true ∧ t.pins.cpRdata = s.pins.cpRdata ∧ RegsBut 0x50 s t ∧
      getReg t 0x50 = (if getBit s 0x50 0 then getReg s 0x50
        else BitVec.ofNat 32 (3 + a.toNat / 4 * 4 + 2 ^ 22 * b2n (domainOff s (a.toNat / 4 * 4)))) ∧ OnlyRegsPins s t) := by
  refine completes_of_guarded_defined (t := cpWrite s a.toNat v) rfl (defined_of_portFree hfree) ?_
  rw [cpWrite, cpAccess_of_portFree hfree, cpServe_write_fails v hbad]
  have hlt : a.toNat / 4 * 4 % 2 ^ 22 / 4 * 4 = a.toNat / 4 * 4 := by have := a.isLt; omega
  obtain ⟨hbut, hcap⟩ := getReg_cpFail (portTook s) (a.toNat / 4 * 4) (domainOff s (a.toNat / 4 * 4))
  rw [hlt] at hcap
  have hframe := cpFail_write_frame (portTook s) (a.toNat / 4 * 4) (domainOff s (a.toNat / 4 * 4))
  generalize cpFail (portTook s) (a.toNat / 4 * 4) true (domainOff s (a.toNat / 4 * 4)) = w at hframe hbut hcap
  refine ⟨by rw [hframe]; rfl, by rw [hframe], by rw [hframe]; rfl, hbut, hcap, by rw [hframe]; rfl⟩

/-- While the port does not answer, a request only stands (R33). -/
theorem cpAccess_unanswered {s : State} (write : Bool) (a : Nat) (v : Word) (hreq : s.pins.cpReq = false)
    (hdead : (running s && s.pins.live) = false) : cpAccess s write a v = { s with pins := { s.pins with cpReq := true } } := by
  have hdead' : (running { s with pins := { s.pins with cpReq := true } } && s.pins.live) = false := hdead
  rw [cpAccess, if_neg (by simp [hreq])]
  exact if_neg (by rw [hdead']; decide)

theorem cpAccess_repeated {s : State} (write : Bool) (a : Nat) (v : Word) (hreq : s.pins.cpReq = true) :
    cpAccess s write a v = s := if_pos hreq

-- the fields of a register

theorem captureOf_ne {a r b : Nat} (h : captureOf a = some (r, b)) : r ≠ a ∧ b < 32 := by
  unfold captureOf at h
  repeat' split at h
  all_goals simp only [Option.some.injEq, Prod.mk.injEq, reduceCtorEq] at h
  all_goals omega

theorem storeReg_of_none {a : Nat} (s : State) (v : Word) (h : regDesc a = none) : storeReg s a v = s := by simp [storeReg, h]

/-- What a register write does to the register file: the register takes the value, and the capture that belongs to it may go. -/
theorem storeReg_cases {a : Nat} {d : RegDesc} (s : State) (v : Word) (h : regDesc a = some d) :
    (captureOf a = none ∧ storeReg s a v = setReg s a (written s a d v)) ∨
    (∃ r b, captureOf a = some (r, b) ∧ storeReg s a v = if written s a d v = 0 then
      setBit (setReg s a (written s a d v)) r b false else setReg s a (written s a d v)) := by
  cases hc : captureOf a with
  | none => exact Or.inl ⟨rfl, by simp only [storeReg, h, releaseCapture, hc]⟩
  | some rb => exact Or.inr ⟨rb.1, rb.2, rfl, by simp only [storeReg, h, releaseCapture, hc, getReg_setReg_same]⟩

theorem getReg_storeReg_same {a : Nat} {d : RegDesc} (s : State) (v : Word) (h : regDesc a = some d) :
    getReg (storeReg s a v) a = written s a d v := by
  rcases storeReg_cases s v h with ⟨-, heq⟩ | ⟨r, b, hc, heq⟩
  · rw [heq, getReg_setReg_same]
  · rw [heq]
    split
    · rw [getReg_setBit_ne _ _ _ (captureOf_ne hc).1.symm, getReg_setReg_same]
    · exact getReg_setReg_same _ _ _

theorem onlyRegs_storeReg (s : State) (a : Nat) (v : Word) : OnlyRegs s (storeReg s a v) := by
  cases hd : regDesc a with
  | none => rw [storeReg_of_none s v hd]; rfl
  | some d =>
    rcases storeReg_cases s v hd with ⟨-, heq⟩ | ⟨r, b, -, heq⟩
    · rw [heq]
      rfl
    · rw [heq]
      split <;> rfl

/-- Outside MC_NREF.EN a write may set the RW bits, and the RWL bits while unlocked. -/
theorem bitOf_writeMask (s : State) {a : Nat} (d : RegDesc) {i : Nat} (hi : i < 32)
    (hnref : ¬ (i = 6 ∧ 0x200000 ≤ a ∧ a < 0x240000 ∧ a % 0x4000 = 0x4C)) :
    bitOf (writeMask s a d) i = (d.rw.getLsbD i || (d.rwl.getLsbD i && !regLocked s d)) := by
  have hm : bitOf (d.rw ||| (if regLocked s d then 0 else d.rwl)) i = (d.rw.getLsbD i || (d.rwl.getLsbD i && !regLocked s d)) := by
    cases hl : regLocked s d <;> simp [bitOf]
  rw [writeMask, ← hm]
  split
  · next h =>
    have h6 : i ≠ 6 := fun h6 => hnref ⟨h6, h.1, h.2.1, h.2.2.1⟩
    have hkeep : (~~~(0x40 : Word)).getLsbD i = true := by
      revert h6
      have : ∀ k : Fin 32, k.val ≠ 6 → (~~~(0x40 : Word)).getLsbD k.val = true := by decide
      exact this ⟨i, hi⟩
    rw [bitOf, BitVec.getLsbD_and, hkeep, Bool.and_true, bitOf]
  · rfl

theorem storeReg_bit (s : State) (a : Nat) (d : RegDesc) (v : Word) (i : Nat) (hd : regDesc a = some d) (hi : i < 32)
    (hnref : ¬ (i = 6 ∧ 0x200000 ≤ a ∧ a < 0x240000 ∧ a % 0x4000 = 0x4C)) :
    bitOf (getReg (storeReg s a v) a) i =
      ((v.getLsbD i && d.w1s.getLsbD i) || (!(v.getLsbD i && d.w1c.getLsbD i) &&
        (if d.rw.getLsbD i || (d.rwl.getLsbD i && !regLocked s d) then v.getLsbD i else bitOf (getReg s a) i))) := by
  rw [getReg_storeReg_same s v hd, bitOf_written s a d v hi, bitOf_writeMask s d hi hnref, Bool.or_comm, Bool.and_comm (x := ite _ _ _)]
  rfl

theorem storeReg_nrefEn (s : State) (c : ChanId) (v : Word) : getBit (storeReg s (mcBase c.val + 0x4C) v) (mcBase c.val + 0x4C) 6 =
    if lcState s = 1 ∨ lcState s = 3 then bitOf v 6 else getBit s (mcBase c.val + 0x4C) 6 := by
  have hd : regDesc (mcBase c.val + 0x4C) = some Proofs.nrefReg := regDesc_chan c (by decide) (by decide)
  rw [getBit, getReg_storeReg_same s v hd, Proofs.bitOf_written_nrefEn]
  simp only [Bool.or_eq_true, beq_iff_eq]

theorem storeReg_keeps_others {a : Nat} (s : State) (v : Word) (h : captureOf a = none) : RegsBut a s (storeReg s a v) := by
  intro b hb
  cases hd : regDesc a with
  | none => rw [storeReg_of_none s v hd]
  | some d =>
    rcases storeReg_cases s v hd with ⟨-, heq⟩ | ⟨r, b', hc, -⟩
    · rw [heq, getReg_setReg_ne _ _ hb]
    · rw [h] at hc
      cases hc

theorem storeReg_capture {a r b : Nat} (s : State) (v : Word) (h : captureOf a = some (r, b)) :
    (∀ q, q ≠ a → q ≠ r → getReg (storeReg s a v) q = getReg s q) ∧
    (∀ j, getBit (storeReg s a v) r j =
      if j = b ∧ getReg (storeReg s a v) a = 0 ∧ (regDesc a).isSome = true then false else getBit s r j) := by
  obtain ⟨hra, hb⟩ := captureOf_ne h
  cases hd : regDesc a with
  | none =>
    rw [storeReg_of_none s v hd]
    exact ⟨fun q _ _ => rfl, fun j => by simp⟩
  | some d =>
    rw [getReg_storeReg_same s v hd]
    rcases storeReg_cases s v hd with ⟨hc, -⟩ | ⟨r', b', hc, heq⟩
    · rw [h] at hc
      cases hc
    · rw [h] at hc
      obtain ⟨rfl, rfl⟩ := Prod.mk.inj (Option.some.inj hc)
      rw [heq]
      by_cases hz : written s a d v = 0
      · rw [if_pos hz]
        refine ⟨fun q hqa hqr => by rw [getReg_setBit_ne _ _ _ hqr, getReg_setReg_ne _ _ hqa], fun j => ?_⟩
        by_cases hj : j = b
        · rw [if_pos ⟨hj, hz, rfl⟩, hj, getBit_setBit_same _ _ _ hb]
        · rw [if_neg (fun e => hj e.1), getBit_setBit_ne _ _ _ hb hj, getBit, getReg_setReg_ne _ _ hra, getBit]
      · rw [if_neg hz]
        refine ⟨fun q hqa _ => getReg_setReg_ne _ _ hqa, fun j => ?_⟩
        rw [if_neg (fun e => hz e.2.1), getBit, getReg_setReg_ne _ _ hra, getBit]

end Sys2Proof.Laws
end

section
/-! PROOF. O16 and O17: register writes. -/

namespace Sys2Proof.Proofs

open Sys2Proof.Machine Sys2Proof.Safety Sys2Proof.Laws

/-- Settles O16: the four answers of the control port to a write. -/
theorem registerWriteAccess : Obligations.RegisterWriteAccess := by
  refine ⟨fun s a v hfree hreach => ?_, registerWrite_fails_completes, fun s a v hdef hreq hdead => ?_, fun s a v hdef hreq => ?_⟩
  · refine (guarded_defined _ (defined_of_portFree hfree)).trans (congrArg (resume s) ?_)
    rw [cpWrite, cpAccess_of_portFree hfree, cpServe_write v hreach]
  · refine completes_of_guarded_defined (t := cpWrite s a.toNat v) rfl hdef ?_
    rw [cpWrite, cpAccess_unanswered _ _ _ hreq hdead]
  · exact (congrArg (guarded s) (cpAccess_repeated true _ v hreq)).trans (guarded_same hdef)

/-- Settles O17: bit by bit from the value written, and register by register from the capture rule. -/
theorem writeTouchesWritableBits : Obligations.WriteTouchesWritableBits :=
  ⟨storeReg_bit, storeReg_nrefEn, fun s _ v => storeReg_keeps_others s v, fun s _ _ _ v => storeReg_capture s v,
    onlyRegs_storeReg, fun s _ v => storeReg_of_none s v⟩

end Sys2Proof.Proofs
end

section
/-! SUPPORT. Reads on the control port: the general read, and what the registers of the ports, the hazard counts, the inspected
entries, the calendar and the counters show. -/

namespace Sys2Proof.Laws

open Sys2Proof.Machine Sys2Proof.Safety

theorem offsetKnown_of_regDesc {a : Nat} {d : RegDesc} (h : regDesc a = some d) : offsetKnown a = true := by simp [offsetKnown, h]

/-- A read of a register whose domain is on (R45). -/
theorem cpRead_of_known {s : State} {a : Nat} (hfree : PortFree s) (h4 : a % 4 = 0) (hon : domainOff s a = false)
    (hknown : offsetKnown a = true) : cpRead s a = cpGive (regRead (portTook s) .control a) := by
  have ha : a / 4 * 4 = a := by omega
  rw [cpRead, cpAccess_of_portFree hfree, ha, cpServe_read 0 ((domainOff_portTook s a).trans hon) hknown]

/-- A read that takes nothing from a mailbox, inspects no entry and checks no parity. -/
theorem regRead_general {a : Nat} (s : State) (p : ReadPath) (hmail : a ≠ 0x350004)
    (hinspect : ¬ (0x100000 ≤ a ∧ a < 0x180000 ∧ 0x224 ≤ a % 0x10000 ∧ a % 0x10000 ≤ 0x22C)) (hpar : parityItem a = none) :
    regRead s p a = (readEffects (clearRc s a) p a, regView s p a) := by
  rw [regRead, if_neg hmail, if_neg hinspect, accessParity_of_no_item _ hpar]

theorem onlyRegs_clearRc (s : State) (a : Nat) : OnlyRegs s (clearRc s a) := by
  unfold clearRc
  split
  · split <;> rfl
  · rfl

theorem regsBut_clearRc (s : State) (a : Nat) : RegsBut a s (clearRc s a) := by
  intro b hb
  unfold clearRc
  split
  · split
    · rfl
    · exact getReg_setReg_ne _ _ hb
  · rfl

theorem getReg_clearRc_same {a : Nat} {d : RegDesc} (s : State) (hd : regDesc a = some d) (hrc : d.rc ≠ 0) :
    getReg (clearRc s a) a = (getReg s a &&& ~~~d.rc) ||| (d.reset &&& d.rc) := by
  simp only [clearRc, hd, if_neg hrc, getReg_setReg_same]

-- the ports' blocks

theorem regView_portBlock (s : State) (p : ReadPath) {a : Nat} (hlo : 0x302000 ≤ a) (hhi : a < 0x302600) :
    regView s p a = portView s ((a - 0x302000) / 64) ((a - 0x302000) % 64) := by
  have hspn : regView s p a = spnView s (a - 0x300000) := by
    unfold regView
    rw [if_neg (by omega), if_neg (by omega), if_neg (by omega), if_neg (by omega), if_pos (by omega)]
  rw [hspn, spnView, if_neg (by omega), if_neg (by omega), if_neg (by omega), if_pos (by omega),
    show a - 0x300000 - 0x2000 = a - 0x302000 by omega, show (a - 0x300000) % 64 = (a - 0x302000) % 64 by omega]

theorem portView_portTook (s : State) (n o : Nat) : portView (portTook s) n o = portView s n o := rfl

theorem readEffects_portBlock (s : State) (p : ReadPath) {a : Nat} (hlo : 0x302000 ≤ a) (hhi : a < 0x302600) :
    readEffects s p a = s := by
  rw [readEffects, if_neg (by omega), if_neg (by omega), if_neg (by omega), if_neg (by omega), if_neg (by omega)]

theorem rcRegisterRead_completes (s : State) (a : BitVec 22) (d : RegDesc) (hfree : PortFree s) (h4 : a.toNat % 4 = 0)
    (h : Reachable s a.toNat) (hd : regDesc a.toNat = some d) (hlo : 0x302000 ≤ a.toNat) (hhi : a.toNat < 0x302600) :
    Completes (.rcRegisterRead a) s (fun t =>
      t.pins.cpRdata = regView s .control a.toNat ∧ t.pins.cpAck = true ∧ t.pins.cpErr = false ∧
      (d.rc ≠ 0 → getReg t a.toNat = (getReg s a.toNat &&& ~~~d.rc) ||| (d.reset &&& d.rc)) ∧ RegsBut a.toNat s t ∧
      OnlyRegsPins s t) := by
  refine completes_of_guarded_defined (t := cpRead s a.toNat) rfl (defined_of_portFree hfree) ?_
  have hpar : parityItem a.toNat = none := by
    rw [parityItem, if_neg (by omega), if_neg (by omega), if_neg (by omega)]
  have hframe := onlyRegs_clearRc (portTook s) a.toNat
  have hbut := regsBut_clearRc (portTook s) a.toNat
  have hrc : d.rc ≠ 0 → getReg (clearRc (portTook s) a.toNat) a.toNat = (getReg s a.toNat &&& ~~~d.rc) ||| (d.reset &&& d.rc) :=
    getReg_clearRc_same (portTook s) hd
  have hview : regView (portTook s) .control a.toNat = regView s .control a.toNat := by
    rw [regView_portBlock _ _ hlo hhi, portView_portTook, ← regView_portBlock s .control hlo hhi]
  rw [cpRead_of_known hfree h4 h.1 (offsetKnown_of_regDesc hd), regRead_general _ _ (by omega) (by omega) hpar,
    readEffects_portBlock _ _ hlo hhi, hview]
  generalize clearRc (portTook s) a.toNat = w at hframe hbut hrc ⊢
  refine ⟨rfl, ?_, ?_, hrc, hbut, ?_⟩
  all_goals
    rw [hframe]
    rfl

-- offsets of a slice's space

theorem slcOffset_bounds (n : SliceId) {o : Nat} (ho : o < 0x10000) :
    0x100000 ≤ slcBase n.val + o ∧ slcBase n.val + o < 0x180000 ∧ (slcBase n.val + o) % 0x10000 = o ∧
      (slcBase n.val + o - 0x100000) / 0x10000 = n.val := by
  have := n.isLt
  unfold slcBase
  omega

theorem regDesc_slice (n : SliceId) {o : Nat} (ho : o < 0x10000) (h4 : o % 4 = 0) :
    regDesc (slcBase n.val + o) = slcDesc n.val o := by
  obtain ⟨hlo, hhi, hmod, hdiv⟩ := slcOffset_bounds n ho
  rw [regDesc, if_neg (by omega), if_neg (by omega), if_pos hhi, hmod, hdiv]

theorem domainOff_slice (s : State) (n : SliceId) {o : Nat} (ho : o < 0x10000) :
    domainOff s (slcBase n.val + o) = !slicePwr s n.val := by
  obtain ⟨hlo, hhi, -, hdiv⟩ := slcOffset_bounds n ho
  rw [domainOff, if_pos ⟨hlo, hhi⟩, hdiv]

theorem parityItem_slice (n : SliceId) {o : Nat} (ho : o < 0x700) : parityItem (slcBase n.val + o) = none := by
  obtain ⟨hlo, hhi, hmod, -⟩ := slcOffset_bounds n (o := o) (by omega)
  rw [parityItem, if_neg (by omega), if_neg (by omega), if_neg (by omega)]

theorem regDesc_hazCnt (n : SliceId) : regDesc (slcBase n.val + 0x410) = some (rcReg 0 0xFFFFFFFF) :=
  regDesc_slice n (by decide) (by decide)

theorem regView_hazCnt (s : State) (p : ReadPath) (n : SliceId) :
    regView s p (slcBase n.val + 0x410) = getReg s (slcBase n.val + 0x410) := by
  obtain ⟨hlo, hhi, hmod, hdiv⟩ := slcOffset_bounds n (o := 0x410) (by decide)
  rw [regView, if_neg (by omega), if_pos hhi, hmod, hdiv]
  rfl

theorem readEffects_hazCnt (s : State) (p : ReadPath) (n : SliceId) :
    readEffects s p (slcBase n.val + 0x410) = setBit s (slcBase n.val + 0x408) 31 false := by
  obtain ⟨hlo, hhi, hmod, hdiv⟩ := slcOffset_bounds n (o := 0x410) (by decide)
  rw [readEffects, if_neg (by omega), if_neg (by omega), if_neg (by omega), if_neg (by omega), if_pos ⟨hlo, hhi, hmod⟩,
    show slcBase n.val + 0x410 - 8 = slcBase n.val + 0x408 by omega]

theorem getReg_clearRc_hazCnt (s : State) (n : SliceId) :
    getReg (clearRc s (slcBase n.val + 0x410)) (slcBase n.val + 0x410) = 0 := by
  rw [getReg_clearRc_same _ (regDesc_hazCnt n) (by decide)]
  simp [rcReg]

theorem hazCntRead_eq {s : State} (n : SliceId) (hfree : PortFree s) (hon : slicePwr s n.val = true) :
    cpRead s (slcBase n.val + 0x410) = cpGive (setBit (clearRc (portTook s) (slcBase n.val + 0x410))
      (slcBase n.val + 0x408) 31 false, getReg (portTook s) (slcBase n.val + 0x410)) := by
  obtain ⟨hlo, hhi, hmod, hdiv⟩ := slcOffset_bounds n (o := 0x410) (by decide)
  rw [cpRead_of_known hfree (by omega) (by rw [domainOff_slice s n (by decide), hon]; rfl)
    (offsetKnown_of_regDesc (regDesc_hazCnt n)), regRead_general _ _ (by omega) (by omega) (parityItem_slice n (by decide)),
    readEffects_hazCnt, regView_hazCnt]

theorem hazCntRead_completes (s : State) (n : SliceId) (hfree : PortFree s) (hon : slicePwr s n.val = true) :
    Completes (.hazCntRead n) s (fun t =>
      t.pins.cpRdata = getReg s (slcBase n.val + 0x410) ∧ getReg t (slcBase n.val + 0x410) = 0 ∧
      getBit t (slcBase n.val + 0x408) 31 = false) := by
  refine completes_of_guarded_defined (t := cpRead s (slcBase n.val + 0x410)) rfl (defined_of_portFree hfree) ?_
  rw [hazCntRead_eq n hfree hon, getReg_portTook]
  have hz := getReg_clearRc_hazCnt (portTook s) n
  have hne : slcBase n.val + 0x410 ≠ slcBase n.val + 0x408 := by omega
  have hkeep := (getReg_setBit_ne (clearRc (portTook s) (slcBase n.val + 0x410)) 31 false hne).trans hz
  have hgone := getBit_setBit_same (clearRc (portTook s) (slcBase n.val + 0x410)) (slcBase n.val + 0x408) false
    (show 31 < 32 by decide)
  obtain ⟨w, hw⟩ : ∃ w, w = setBit (clearRc (portTook s) (slcBase n.val + 0x410)) (slcBase n.val + 0x408) 31 false := ⟨_, rfl⟩
  rw [← hw] at hkeep hgone ⊢
  exact ⟨rfl, hkeep, hgone⟩

-- inspected entries

theorem regDesc_inspect (n : SliceId) (w : Fin 3) : regDesc (slcBase n.val + (0x224 + 4 * w.val)) = some (roReg 0) := by
  rw [regDesc_slice n (by omega) (by omega)]
  revert w
  revert n
  decide

/-- The word of an inspected entry that a read gives, before the bits that stand wrong (R162). -/
theorem cpRead_inspect {s : State} (n : SliceId) (w : Fin 3) (hfree : PortFree s) (hon : slicePwr s n.val = true) :
    cpRead s (slcBase n.val + 0x224 + 4 * w.val) = cpGive (inspectRead (portTook s) n.val w.val) := by
  have hw := w.isLt
  obtain ⟨hlo, hhi, hmod, hdiv⟩ := slcOffset_bounds n (o := 0x224 + 4 * w.val) (by omega)
  rw [Nat.add_assoc, cpRead_of_known hfree (by unfold slcBase; omega)
    (by rw [domainOff_slice s n (by omega), hon]; rfl) (offsetKnown_of_regDesc (regDesc_inspect n w)), regRead,
    if_neg (by omega), if_pos (by omega), hmod, hdiv, Nat.add_sub_cancel_left,
    Nat.mul_div_cancel_left w.val (by decide)]

theorem inspected_portTook (s : State) (n : Nat) : inspected (portTook s) n = inspected s n := rfl

theorem filterInspect_hidden_completes (s : State) (n : SliceId) (w : Fin 3) (f : BitVec 72) (hfree : PortFree s)
    (hon : slicePwr s n.val = true) (h1 : lcState s ≠ 1) (h3 : lcState s ≠ 3) :
    Completes (.filterInspectRead n ⟨w, f⟩) s (fun t => t.pins.cpRdata = 0 ∧ t.pins.cpErr = false ∧ OnlyPins s t) := by
  refine completes_of_guarded_defined (t := inspectEffect s n.val w.val f) rfl (defined_of_portFree hfree) ?_
  have hread : inspectRead (portTook s) n.val w.val = (portTook s, 0) := if_neg (by
    rintro (h | h)
    · exact h1 h
    · exact h3 h)
  rw [inspectEffect, cpRead_inspect n w hfree hon, hread]
  dsimp only
  rw [if_neg (by rintro ⟨-, -, -, h | h, -⟩ <;> contradiction)]
  exact ⟨rfl, rfl, rfl⟩

theorem filterInspect_shown_completes (s : State) (n : SliceId) (w : Fin 3) (f : BitVec 72) (e : FEntry) (hfree : PortFree s)
    (hon : slicePwr s n.val = true) (hlc : lcState s = 1 ∨ lcState s = 3) (he : inspected s n.val = some e) :
    Completes (.filterInspectRead n ⟨w, f⟩) s (fun t =>
      t.pins.cpRdata = (rawEntry e ^^^ f).extractLsb' (32 * w.val) 32 ∧ t.pins.cpErr = false ∧ OnlyPins s t) := by
  refine completes_of_guarded_defined (t := inspectEffect s n.val w.val f) rfl (defined_of_portFree hfree) ?_
  have hread : inspectRead (portTook s) n.val w.val = (portTook s, (rawEntry e).extractLsb' (32 * w.val) 32) := by
    have hlc' : lcState (portTook s) = 1 ∨ lcState (portTook s) = 3 := hlc
    rw [inspectRead, if_pos hlc', inspected_portTook, he]
  rw [inspectEffect, cpRead_inspect n w hfree hon, hread]
  dsimp only
  rw [if_pos ⟨by simp [hfree.2.2], rfl, rfl, hlc, by rw [he]; rfl⟩]
  exact ⟨(BitVec.extractLsb'_xor).symm, rfl, rfl⟩

-- the calendar and the counters

theorem plainRead_calLo : PlainRead 0x370004 := ⟨rfl, ⟨roReg 0, rfl, rfl⟩, rfl, by decide, by decide⟩

theorem calLoRead_completes (s : State) (hfree : PortFree s) : Completes .calLoRead s (fun t =>
    t.pins.cpRdata = BitVec.ofNat 32 s.aon.calendar.toNat ∧
    getReg t 0x370008 = BitVec.ofNat 32 (s.aon.calendar.toNat / 2 ^ 32) ∧ RegsBut 0x370008 s t ∧ OnlyRegsPins s t) := by
  refine completes_of_guarded_defined (t := cpRead s 0x370004) rfl (defined_of_portFree hfree) ?_
  rw [cpRead_of_plain hfree rfl plainRead_calLo]
  refine ⟨rfl, getReg_setReg_same (portTook s) _ _, fun b hb => ?_, rfl⟩
  exact getReg_setReg_ne (portTook s) _ hb

/-- Where the LO register of a counter lies in the block of its set, and that HI follows it. -/
theorem counterAt_counterLo (c : CounterSel) : counterAt (counterLo c) = some (counterIndex c, false) ∧
    counterAt (counterLo c + 4) = some (counterIndex c, true) ∧ counterLo c % 4 = 0 ∧ counterLo c < 0x50 := by
  cases c with
  | elapsed => decide
  | cnt i => revert i; decide

theorem pmuOffset_bounds (k : Fin 24) {o : Nat} (ho : o < 0x100) : 0x330000 ≤ pmuBase k.val + o ∧ pmuBase k.val + o < 0x331800 ∧
    (pmuBase k.val + o) % 256 = o ∧ (pmuBase k.val + o - 0x330000) / 256 = k.val := by
  have := k.isLt
  unfold pmuBase
  omega

theorem regDesc_pmu (k : Fin 24) {o : Nat} (ho : o < 0x100) (h4 : o % 4 = 0) :
    regDesc (pmuBase k.val + o) = pmuDesc (pmuBase k.val + o - 0x330000) := by
  obtain ⟨hlo, hhi, -, -⟩ := pmuOffset_bounds k ho
  have hal : (pmuBase k.val + o) % 4 = 0 := by unfold pmuBase; omega
  rw [regDesc, if_neg (by omega)]
  repeat rw [if_neg (by omega)]
  rw [if_pos (by omega)]

theorem plainRead_counterLo (k : Fin 24) (c : CounterSel) : PlainRead (pmuBase k.val + counterLo c) := by
  obtain ⟨-, -, h4, hlt⟩ := counterAt_counterLo c
  obtain ⟨hlo, hhi, hmod, -⟩ := pmuOffset_bounds k (o := counterLo c) (by omega)
  have hd : regDesc (pmuBase k.val + counterLo c) = some (roReg 0) := by
    rw [regDesc_pmu k (by omega) h4]
    cases c with
    | elapsed => revert k; decide
    | cnt i => revert k i; decide
  refine ⟨by unfold pmuBase; omega, ⟨_, hd, rfl⟩, ?_, by omega, by omega⟩
  rw [parityItem, if_neg (by omega), if_neg (by omega), if_neg (by omega)]

theorem regView_pmu (s : State) (p : ReadPath) (k : Fin 24) {o : Nat} (ho : o < 0x100) :
    regView s p (pmuBase k.val + o) = pmuView s p (k.val * 256 + o) := by
  obtain ⟨hlo, hhi, -, -⟩ := pmuOffset_bounds k ho
  rw [regView]
  repeat rw [if_neg (by omega)]
  rw [if_pos (by omega), show pmuBase k.val + o - 0x330000 = k.val * 256 + o by unfold pmuBase; omega]

theorem regView_counter (s : State) (p : ReadPath) (k : Fin 24) (c : CounterSel) :
    regView s p (pmuBase k.val + counterLo c) = BitVec.ofNat 32 (pmuCount s k.val (counterIndex c)) ∧
    regView s p (pmuBase k.val + counterLo c + 4) = cellsGet (fun _ => 0) s.obs.hiCopy (hiKey p k.val (counterIndex c)) := by
  obtain ⟨hat, hat4, -, hlt⟩ := counterAt_counterLo c
  have hk := k.isLt
  constructor
  · rw [regView_pmu s p k (by omega), pmuView]
    simp only [if_pos (show k.val * 256 + counterLo c < 0x1800 by omega), show (k.val * 256 + counterLo c) % 256 = counterLo c by omega,
      show (k.val * 256 + counterLo c) / 256 = k.val by omega, hat]
  · rw [Nat.add_assoc, regView_pmu s p k (by omega), pmuView]
    simp only [if_pos (show k.val * 256 + (counterLo c + 4) < 0x1800 by omega),
      show (k.val * 256 + (counterLo c + 4)) % 256 = counterLo c + 4 by omega,
      show (k.val * 256 + (counterLo c + 4)) / 256 = k.val by omega, hat4]

theorem readEffects_counterLo (s : State) (p : ReadPath) (k : Fin 24) (c : CounterSel) :
    readEffects s p (pmuBase k.val + counterLo c) = copyHi s p k.val (counterIndex c) := by
  obtain ⟨hat, -, -, hlt⟩ := counterAt_counterLo c
  obtain ⟨hlo, hhi, hmod, hdiv⟩ := pmuOffset_bounds k (o := counterLo c) (by omega)
  rw [readEffects, if_neg (by omega), if_neg (by omega), if_neg (by omega), if_pos ⟨hlo, hhi⟩, hmod, hdiv, hat]

theorem domainOff_pmu (s : State) (k : Fin 24) {o : Nat} (ho : o < 0x100) : domainOff s (pmuBase k.val + o) =
    if k.val < 8 then !slicePwr s k.val else !slicePop s ((k.val - 8) / 2) := by
  have hk := k.isLt
  have hbase : pmuBase k.val = 0x330000 + k.val * 0x100 := rfl
  rw [domainOff, if_neg (by omega), if_neg (by omega), if_neg (by omega), if_neg (by omega)]
  by_cases h8 : k.val < 8
  · rw [if_pos (by omega), if_pos h8, show (pmuBase k.val + o - 0x330000) / 0x100 = k.val by omega]
  · rw [if_neg (by omega), if_pos (by omega), if_neg h8,
      show (pmuBase k.val + o - 0x330800) / 0x200 = (k.val - 8) / 2 by omega]

theorem domainOff_counter {s : State} {k : Fin 24} (c : CounterSel) (h : domainOff s (pmuBase k.val) = false) :
    domainOff s (pmuBase k.val + counterLo c) = false := by
  obtain ⟨-, -, -, hlt⟩ := counterAt_counterLo c
  rw [domainOff_pmu s k (by omega), ← domainOff_pmu s k (o := 0) (by decide), Nat.add_zero, h]

/-- The copy of a counter's upper part lies under the key of its path, and no other copy changes (R421). -/
theorem hiCopy_copyHi (s : State) (p : ReadPath) (k i : Nat) :
    cellsGet (fun _ => 0) (copyHi s p k i).obs.hiCopy (hiKey p k i) = BitVec.ofNat 32 (pmuCount s k i / 2 ^ 32) ∧
    (∀ key, key ≠ hiKey p k i →
      cellsGet (fun _ => 0) (copyHi s p k i).obs.hiCopy key = cellsGet (fun _ => 0) s.obs.hiCopy key) :=
  ⟨cellsGet_set_same _ _ _, fun _ h => cellsGet_set_ne _ _ h⟩

end Sys2Proof.Laws
end

section
/-! PROOF. O19: reads with effects. -/

namespace Sys2Proof.Proofs

open Sys2Proof.Machine Sys2Proof.Safety Sys2Proof.Laws

/-- Settles O19: each read by what its register shows and what it copies or clears. -/
theorem readsOnTheControlPort : Obligations.ReadsOnTheControlPort := by
  refine ⟨rcRegisterRead_completes, hazCntRead_completes, filterInspect_hidden_completes, filterInspect_shown_completes,
    calLoRead_completes, fun s k c hfree hon => ?_, fun s n k c h hpow => ?_, fun s => rfl,
    fun s p k c => (regView_counter s p k c).2, fun s hdef => completes_of_guarded_defined (t := cpReleaseEffect s) rfl hdef rfl⟩
  · obtain ⟨-, -, -, hlt⟩ := counterAt_counterLo c
    refine completes_of_guarded_defined (t := cpRead s (pmuBase k.val + counterLo c)) rfl (defined_of_portFree hfree) ?_
    rw [cpRead_of_plain hfree (domainOff_counter c hon) (plainRead_counterLo k c), readEffects_counterLo,
      (regView_counter (portTook s) .control k c).1]
    exact ⟨rfl, hiCopy_copyHi (portTook s) .control k.val (counterIndex c)⟩
  · refine completes_of_guarded_defined (t := counterLoEffect s (.agent n) k.val c) rfl h.1 ?_
    rw [counterLoEffect]
    dsimp only
    rw [if_pos (by rw [h.2, hpow]; rfl)]
    obtain ⟨hsame, hne⟩ := hiCopy_copyHi s (.agent n) k.val (counterIndex c)
    exact ⟨hsame, hne, rfl⟩

end Sys2Proof.Proofs
end

section
/-! SUPPORT. Register writes that act on the units, and the register commands of the twin port (R329, R344, R346). -/

namespace Sys2Proof.Laws

open Sys2Proof.Machine Sys2Proof.Safety

-- a write that acts

theorem storeReg_noCapture {a : Nat} {d : RegDesc} (s : State) (v : Word) (hd : regDesc a = some d) (hc : captureOf a = none) :
    storeReg s a v = setReg s a (written s a d v) := by simp only [storeReg, hd, releaseCapture, hc]

/-- A bit that software may always write takes the value (R7). -/
theorem bitOf_written_rw {a i : Nat} {d : RegDesc} (s : State) (v : Word) (hi : i < 32) (hrw : d.rw.getLsbD i = true)
    (hw1c : bitOf d.w1c i = false) (hw1s : bitOf d.w1s i = false) (hnref : ¬ (i = 6 ∧ 0x200000 ≤ a ∧ a < 0x240000 ∧ a % 0x4000 = 0x4C)) :
    bitOf (written s a d v) i = bitOf v i := by
  rw [bitOf_written s a d v hi, bitOf_writeMask s d hi hnref, hrw, hw1c, hw1s]
  simp

/-- The registers of the twin port, the slot command port and the sequencer act as devices when written. -/
theorem regWrite_device {a : Nat} (s : State) (v : Word) (h : 0x310000 ≤ a ∧ (a < 0x320000 ∨ 0x350000 ≤ a))
    (hp : parityItem a = none) : regWrite s a v = deviceWrite (storeReg s a v) s a v := by
  unfold regWrite
  extract_lets u
  rw [if_pos h, accessParity_of_no_item _ hp]

theorem regWrite_observe {a : Nat} (s : State) (v : Word) (h : ¬ (0x310000 ≤ a ∧ (a < 0x320000 ∨ 0x350000 ≤ a)))
    (hp : parityItem a = none) : regWrite s a v = observeWrite (storeReg s a v) s a v := by
  unfold regWrite
  extract_lets u
  rw [if_neg h, accessParity_of_no_item _ hp]

theorem regsBut_storeReg {a : Nat} (s : State) (v : Word) (hc : captureOf a = none) : RegsBut a s (storeReg s a v) := by
  cases hd : regDesc a with
  | none => rw [storeReg_of_none s v hd]; exact fun _ _ => rfl
  | some d => rw [storeReg_noCapture s v hd hc]; exact fun b hb => getReg_setReg_ne s _ hb

/-- A register write by a command, given what the device does with it. -/
theorem completes_cpWrite {c : Instr} {s : State} {a : Nat} {v : Word} {P : State → Prop}
    (hc : exec c s = guarded s (cpWrite s a v)) (hfree : PortFree s) (hr : Reachable s a)
    (hP : P { regWrite (portTook s) a v with pending := s.pending }) : Completes c s P :=
  completes_of_guarded_defined hc (defined_of_portFree hfree) (by rw [cpWrite_of_reachable hfree hr]; exact hP)

theorem onlyRegs_setBit (s : State) (a i : Nat) (b : Bool) : OnlyRegs s (setBit s a i b) := rfl

theorem keepsMemory_setBit {s u : State} {a : Nat} {b : Bool} (i : Nat) (h : KeepsMemory s u) : KeepsMemory s (setBit u a i b) := h

theorem running_of_onlyRegs {s u : State} (hframe : OnlyRegs s u) (h : getReg u 0x10 = getReg s 0x10) :
    running u = running s := by
  have hmode : curMode u = curMode s := by simp only [curMode, getFld, h]
  have hcore : coreAlive u = coreAlive s := by rw [hframe]; rfl
  rw [running, running, hcore, hmode]

-- the copy of the windows

/-- What one commit copies of window `w`. -/
def copyWindow (s : State) (w : Nat) : State :=
  forEach 4 s (fun s i => setReg s (winActive w + 4 * i) (getReg s (winShadow w + 4 * i)))

def copyWindows (n : Nat) (mask : BitVec 16) (s : State) : State :=
  forEach n s (fun s w => if mask.getLsbD w then copyWindow s w else s)

theorem commitEffect_eq (s : State) (mask : BitVec 16) : commitEffect s mask =
    if !running s || !s.pins.live then s
    else if commitBad s mask then setBit s 0x31001C 16 true else activeEnables (copyWindows 16 mask s) := rfl

theorem onlyRegs_trans {s u t : State} (h₁ : OnlyRegs s u) (h₂ : OnlyRegs u t) : OnlyRegs s t := by
  have h : t = { u with regs := t.regs } := h₂
  rw [h, show u = { s with regs := u.regs } from h₁]
  rfl

/-- A copy of registers `B i` to registers `A i`, of which none is a source. -/
theorem getReg_copyRegs {A B : Nat → Nat} (s : State) (n : Nat) (hAB : ∀ i j, i < n → j < n → B i ≠ A j)
    (hA : ∀ i j, i < n → j < n → i ≠ j → A i ≠ A j) :
    OnlyRegs s (forEach n s (fun s i => setReg s (A i) (getReg s (B i)))) ∧
    (∀ b, (∀ i, i < n → b ≠ A i) → getReg (forEach n s (fun s i => setReg s (A i) (getReg s (B i)))) b = getReg s b) ∧
    (∀ i, i < n → getReg (forEach n s (fun s i => setReg s (A i) (getReg s (B i)))) (A i) = getReg s (B i)) := by
  induction n with
  | zero => exact ⟨rfl, fun _ _ => rfl, fun _ h => absurd h (by omega)⟩
  | succ n ih =>
    obtain ⟨hframe, hbut, hto⟩ := ih (fun i j hi hj => hAB i j (by omega) (by omega)) (fun i j hi hj => hA i j (by omega) (by omega))
    rw [forEach_succ]
    generalize forEach n s (fun s i => setReg s (A i) (getReg s (B i))) = u at hframe hbut hto ⊢
    refine ⟨by rw [hframe]; rfl, fun b hb => ?_, fun i hi => ?_⟩
    · exact (getReg_setReg_ne u _ (hb n (by omega))).trans (hbut b (fun i hi => hb i (by omega)))
    · rcases Nat.lt_succ_iff_lt_or_eq.mp hi with hlt | rfl
      · exact (getReg_setReg_ne u _ (hA i n hi (by omega) (by omega))).trans (hto i hlt)
      · exact (getReg_setReg_same u _ _).trans (hbut _ (fun j hj => hAB i j hi (by omega)))

theorem getReg_copyWindow (s : State) {w : Nat} (hw : w < 16) : OnlyRegs s (copyWindow s w) ∧
    (∀ b, (∀ i, i < 4 → b ≠ winActive w + 4 * i) → getReg (copyWindow s w) b = getReg s b) ∧
    (∀ i, i < 4 → getReg (copyWindow s w) (winActive w + 4 * i) = getReg s (winShadow w + 4 * i)) :=
  getReg_copyRegs (A := fun i => winActive w + 4 * i) (B := fun i => winShadow w + 4 * i) s 4
    (fun i j _ _ => by unfold winShadow winActive; omega) (fun i j _ _ _ => by omega)

theorem getReg_copyWindows (mask : BitVec 16) (s : State) {n : Nat} (hn : n ≤ 16) : OnlyRegs s (copyWindows n mask s) ∧
    (∀ b, (∀ w i, w < n → i < 4 → b ≠ winActive w + 4 * i) → getReg (copyWindows n mask s) b = getReg s b) ∧
    (∀ w i, w < n → i < 4 → getReg (copyWindows n mask s) (winActive w + 4 * i) =
      if mask.getLsbD w then getReg s (winShadow w + 4 * i) else getReg s (winActive w + 4 * i)) := by
  induction n with
  | zero => exact ⟨rfl, fun _ _ => rfl, fun _ _ h => absurd h (by omega)⟩
  | succ n ih =>
    obtain ⟨hframe, hbut, hto⟩ := ih (by omega)
    rw [copyWindows, forEach_succ, ← copyWindows]
    generalize copyWindows n mask s = u at hframe hbut hto ⊢
    obtain ⟨wframe, wbut, wto⟩ := getReg_copyWindow u (w := n) (by omega)
    have hother : ∀ w i, w < n → i < 4 → ∀ j, j < 4 → winActive w + 4 * i ≠ winActive n + 4 * j := by
      intro w i hw hi j hj
      unfold winActive
      omega
    have hlast : ∀ i, i < 4 → ∀ w j, w < n → j < 4 → winActive n + 4 * i ≠ winActive w + 4 * j :=
      fun i hi w j hw hj => (hother w j hw hj i hi).symm
    cases hm : mask.getLsbD n with
    | false =>
      rw [if_neg (by decide)]
      refine ⟨hframe, fun b hb => hbut b (fun w i hw => hb w i (by omega)), fun w i hw hi => ?_⟩
      rcases Nat.lt_succ_iff_lt_or_eq.mp hw with hlt | rfl
      · exact hto w i hlt hi
      · rw [hm]
        exact hbut _ (hlast i hi)
    | true =>
      rw [if_pos rfl]
      refine ⟨onlyRegs_trans hframe wframe, fun b hb => ?_, fun w i hw hi => ?_⟩
      · exact (wbut b (fun i hi => hb n i (by omega) hi)).trans (hbut b (fun w i hw => hb w i (by omega)))
      · rcases Nat.lt_succ_iff_lt_or_eq.mp hw with hlt | rfl
        · exact (wbut _ (hother w i hlt hi)).trans (hto w i hlt hi)
        · rw [hm]
          exact (wto i hi).trans (hbut _ (fun v j hv hj => by unfold winShadow winActive; omega))

-- the commit

theorem commitBad_congr {s u : State} (htwin : u.twin = s.twin) (hbut : RegsBut 0x310018 s u) (mask : BitVec 16) :
    commitBad u mask = commitBad s mask := by
  have hat : ∀ w, w < 16 → winAt u (winAfter mask w) = winAt s (winAfter mask w) := by
    intro w hw
    have hlo : 0x310100 ≤ winAfter mask w := by
      unfold winAfter winShadow winActive
      split <;> omega
    simp only [winAt, getFld, getBit, hbut _ (show winAfter mask w ≠ 0x310018 by omega),
      hbut _ (show winAfter mask w + 4 ≠ 0x310018 by omega), hbut _ (show winAfter mask w + 0xC ≠ 0x310018 by omega)]
  have hlist : (List.range 16).map (fun w => (w, winAt u (winAfter mask w))) =
      (List.range 16).map (fun w => (w, winAt s (winAfter mask w))) :=
    List.map_congr_left fun w hw => by rw [hat w (List.mem_range.mp hw)]
  have hsize : bar4Size u = bar4Size s := by simp only [bar4Size, bar4Log, htwin]
  rw [commitBad, commitBad, hlist, hsize]

/-- What the commit works on: the command port's access and the store to WCOMMIT leave all other registers. -/
theorem commit_store (s : State) (v : Word) : OnlyRegs (portTook s) (storeReg (portTook s) 0x310018 v) ∧
    RegsBut 0x310018 s (storeReg (portTook s) 0x310018 v) :=
  ⟨onlyRegs_storeReg _ _ _, regsBut_storeReg (portTook s) v (by decide)⟩

theorem reachable_commit (s : State) : Reachable s 0x310018 := ⟨rfl, by decide, rfl⟩

theorem commit_eq {s : State} (hfree : PortFree s) (mask : BitVec 16) :
    regWrite (portTook s) 0x310018 (mask.setWidth 32) =
      if commitBad s mask then setBit (storeReg (portTook s) 0x310018 (mask.setWidth 32)) 0x31001C 16 true
      else activeEnables (copyWindows 16 mask (storeReg (portTook s) 0x310018 (mask.setWidth 32))) := by
  obtain ⟨⟨-, hrun⟩, hlive, -⟩ := hfree
  rw [regWrite_device (portTook s) (mask.setWidth 32) (by decide) (by decide)]
  obtain ⟨hframe, hbut⟩ := commit_store s (mask.setWidth 32)
  generalize storeReg (portTook s) 0x310018 (mask.setWidth 32) = u at hframe hbut ⊢
  have hmask : (mask.setWidth 32).setWidth 16 = mask := by simp
  have hdev : ∀ v, deviceWrite u (portTook s) 0x310018 v = commitEffect u (v.setWidth 16) := fun _ => rfl
  have hrun' : running u = true := (running_of_onlyRegs hframe (hbut _ (by decide))).trans hrun
  have hlive' : u.pins.live = true := by rw [hframe]; exact hlive
  rw [hdev, hmask, commitEffect_eq, hrun', hlive', if_neg (by decide),
    commitBad_congr (by rw [hframe]; rfl) hbut]

theorem twnWCommit_completes (s : State) (mask : BitVec 16) (hfree : PortFree s) (hok : commitBad s mask = false) :
    Completes (.twnWCommit mask) s (fun t =>
      (∀ w i, w < 16 → i < 4 → mask.getLsbD w = true → getReg t (winActive w + 4 * i) = getReg s (winShadow w + 4 * i)) ∧
      (∀ w i, w < 16 → i < 4 → mask.getLsbD w = false → getReg t (winActive w + 4 * i) = getReg s (winActive w + 4 * i)) ∧
      KeepsMemory s t ∧ t.twin = s.twin) := by
  refine completes_cpWrite rfl hfree (reachable_commit s) ?_
  rw [commit_eq hfree, hok, if_neg (by decide)]
  obtain ⟨hframe, hbut⟩ := commit_store s (mask.setWidth 32)
  generalize storeReg (portTook s) 0x310018 (mask.setWidth 32) = u at hframe hbut ⊢
  obtain ⟨cframe, -, cto⟩ := getReg_copyWindows mask u (le_refl 16)
  generalize copyWindows 16 mask u = c at cframe cto ⊢
  have hfr := onlyRegs_trans hframe cframe
  have hto : ∀ w i, w < 16 → i < 4 → getReg (activeEnables c) (winActive w + 4 * i) =
      if mask.getLsbD w then getReg s (winShadow w + 4 * i) else getReg s (winActive w + 4 * i) := by
    intro w i hw hi
    have hne : winActive w + 4 * i ≠ 0x31001C := by unfold winActive; omega
    rw [activeEnables, getReg_setFld_ne _ _ _ _ hne, cto w i hw hi, hbut _ (by unfold winShadow; omega),
      hbut _ (by unfold winActive; omega)]
  have hact : OnlyRegs (portTook s) (activeEnables c) := onlyRegs_trans hfr rfl
  generalize activeEnables c = w at hto hact ⊢
  refine ⟨fun k i hk hi hm => (hto k i hk hi).trans (by rw [hm]; rfl), fun k i hk hi hm => (hto k i hk hi).trans (by rw [hm]; rfl), ?_, ?_⟩
  · rw [hact]
    exact ⟨rfl, rfl, rfl⟩
  · rw [hact]
    rfl

theorem twnWCommit_refused (s : State) (mask : BitVec 16) (hfree : PortFree s) (hbad : commitBad s mask = true) :
    Completes (.twnWCommit mask) s (fun t =>
      getBit t 0x31001C 16 = true ∧ (∀ w i, w < 16 → i < 4 → getReg t (winActive w + 4 * i) = getReg s (winActive w + 4 * i)) ∧
      KeepsMemory s t ∧ t.twin = s.twin) := by
  refine completes_cpWrite rfl hfree (reachable_commit s) ?_
  rw [commit_eq hfree, hbad, if_pos rfl]
  obtain ⟨hframe, hbut⟩ := commit_store s (mask.setWidth 32)
  generalize storeReg (portTook s) 0x310018 (mask.setWidth 32) = u at hframe hbut ⊢
  have hset := getBit_setBit_same u 0x31001C true (show 16 < 32 by decide)
  have hwin : ∀ w i, getReg (setBit u 0x31001C 16 true) (winActive w + 4 * i) = getReg s (winActive w + 4 * i) := by
    intro w i
    have hlo : 0x310200 ≤ winActive w + 4 * i := by unfold winActive; omega
    rw [getReg_setBit_ne u 16 true (show winActive w + 4 * i ≠ 0x31001C by omega), hbut _ (by omega)]
  have hfr : OnlyRegs (portTook s) (setBit u 0x31001C 16 true) := onlyRegs_trans hframe (onlyRegs_setBit _ _ _ _)
  obtain ⟨w, hw⟩ : ∃ w, w = setBit u 0x31001C 16 true := ⟨_, rfl⟩
  rw [← hw] at hset hwin hfr ⊢
  refine ⟨hset, fun k i _ _ => hwin k i, ?_, ?_⟩
  · rw [hfr]
    exact ⟨rfl, rfl, rfl⟩
  · rw [hfr]
    rfl

-- the link enable and the power request

theorem getReg_resetWindows (s : State) {b : Nat} (h : b < 0x310100 ∨ 0x310300 ≤ b) (hne : b ≠ 0x31001C) :
    getReg (resetWindows s) b = getReg s b := by
  rw [resetWindows, getReg_setReg_ne _ _ hne]
  show cellsGet regReset (cellsDrop (fun a => decide (0x310100 ≤ a) && decide (a < 0x310300)) s.regs) b = getReg s b
  refine cellsGet_drop_ne _ ?_ _
  rw [Bool.and_eq_false_iff, decide_eq_false_iff_not, decide_eq_false_iff_not]
  omega

/-- Switching the domain on (R344): the port's configuration is latched and its memories are empty. -/
theorem twinOn_effect (s : State) : getReg (twinOn s) 0x310000 = getReg s 0x310000 ∧ twinPwr (twinOn s) = true ∧
    getBit (twinOn s) 0x300008 8 = false ∧ (twinOn s).twin.cfg = [] ∧ (twinOn s).twin.latched = getReg s 0x310000 ∧
    KeepsMemory s (twinOn s) := by
  unfold twinOn
  extract_lets _ t u
  have h0 : getReg u 0x310000 = getReg s 0x310000 :=
    (getReg_setBit_ne _ 8 false (show 0x310000 ≠ 0x300008 by decide)).trans
      (getReg_setBit_ne { s with twin := t } 12 true (show 0x310000 ≠ 0x300004 by decide))
  have hpwr : getBit u 0x300004 12 = true :=
    (congrArg (bitOf · 12) (getReg_setBit_ne _ 8 false (show 0x300004 ≠ 0x300008 by decide))).trans
      (getBit_setBit_same { s with twin := t } 0x300004 true (by decide))
  have hfence : getBit u 0x300008 8 = false :=
    getBit_setBit_same (setBit { s with twin := t } 0x300004 12 true) 0x300008 false (show 8 < 32 by decide)
  have hkeep : u.twin = t ∧ KeepsMemory s u := ⟨rfl, keepsMemory_setBit 8 (keepsMemory_setBit 12 ⟨rfl, rfl, rfl⟩)⟩
  clear_value u
  split
  · have hw : ∀ b, (b < 0x310100 ∨ 0x310300 ≤ b) → b ≠ 0x31001C → getReg (resetWindows u) b = getReg u b :=
      fun b hb hne => getReg_resetWindows u hb hne
    refine ⟨(hw _ (by decide) (by decide)).trans h0, ?_, ?_, congrArg (·.cfg) hkeep.1, congrArg (·.latched) hkeep.1, hkeep.2⟩
    · rw [twinPwr, getBit, hw _ (by decide) (by decide)]
      exact hpwr
    · rw [getBit, hw _ (by decide) (by decide)]
      exact hfence
  · exact ⟨h0, hpwr, hfence, congrArg (·.cfg) hkeep.1, congrArg (·.latched) hkeep.1, hkeep.2⟩

theorem linkEnEffect_on {s : State} (hen : getBit s 0x310000 9 = false) (hoff : twinPwr s = false) :
    linkEnEffect s true = twinOn (setBit s 0x310000 9 true) := by
  unfold linkEnEffect
  extract_lets old u
  have hp : twinPwr u = false := (congrArg (bitOf · 12) (getReg_setBit_ne s 9 true (by decide))).trans hoff
  have ho : old = false := hen
  rw [if_pos rfl, hp, ho, if_pos (by decide)]

theorem linkEn_completes (s : State) (hfree : PortFree s) (hen : getBit s 0x310000 9 = false) (hoff : twinPwr s = false) :
    Completes (.linkEn true) s (fun t =>
      getBit t 0x310000 9 = true ∧ twinPwr t = true ∧ getBit t 0x300008 8 = false ∧ t.twin.cfg = [] ∧
      t.twin.latched = getReg t 0x310000 ∧ KeepsMemory s t) := by
  refine completes_cpWrite (v := bitsTo (getReg s 0x310000) 9 1 1) rfl hfree ⟨rfl, by decide, rfl⟩ ?_
  have hv : bitOf (bitsTo (getReg s 0x310000) 9 1 1) 9 = true := by
    rw [bitOf_bitsTo _ _ _ (by decide)]
    rfl
  rw [regWrite_device _ _ (by decide) (by decide)]
  generalize bitsTo (getReg s 0x310000) 9 1 1 = v at hv ⊢
  have hframe := onlyRegs_storeReg (portTook s) 0x310000 v
  have hbut : RegsBut 0x310000 s (storeReg (portTook s) 0x310000 v) := regsBut_storeReg (portTook s) v (by decide)
  generalize storeReg (portTook s) 0x310000 v = u at hframe hbut ⊢
  have hdev : deviceWrite u (portTook s) 0x310000 v =
      linkEnEffect (setBit u 0x310000 9 (getBit s 0x310000 9)) (bitOf v 9) := rfl
  have hset := getBit_setBit_same u 0x310000 false (show 9 < 32 by decide)
  have hpwr : twinPwr (setBit u 0x310000 9 false) = false :=
    (congrArg (bitOf · 12) ((getReg_setBit_ne u 9 false (by decide)).trans (hbut _ (by decide)))).trans hoff
  rw [hdev, hen, hv, linkEnEffect_on hset hpwr]
  have hkeep : KeepsMemory s u := by
    rw [hframe]
    exact ⟨rfl, rfl, rfl⟩
  replace hkeep := keepsMemory_setBit (a := 0x310000) (b := true) 9 (keepsMemory_setBit (a := 0x310000) (b := false) 9 hkeep)
  have hon := getBit_setBit_same (setBit u 0x310000 9 false) 0x310000 true (show 9 < 32 by decide)
  obtain ⟨w, hw⟩ : ∃ w, w = setBit (setBit u 0x310000 9 false) 0x310000 9 true := ⟨_, rfl⟩
  rw [← hw] at hkeep hon ⊢
  obtain ⟨h0, hp, hf, hc, hl, hd, hs, hch⟩ := twinOn_effect w
  generalize twinOn w = t at h0 hp hf hc hl hd hs hch
  exact ⟨(congrArg (bitOf · 9) h0).trans hon, hp, hf, hc, hl.trans h0.symm, hd.trans hkeep.1, hs.trans hkeep.2.1, hch.trans hkeep.2.2⟩

theorem drivePower_on {s : State} (hreq : getBit s 0x310040 0 = true) (hdrive : present s = true) :
    (drivePower s).pins.pwrEn = true ∧ getBit (drivePower s) 0x310044 1 = true ∧ getBit (drivePower s) 0x310040 0 = true ∧
      KeepsMemory s (drivePower s) := by
  unfold drivePower
  extract_lets keep on _ _
  have hon : on = true := by
    show (getBit s 0x310040 0 && (present s || keep)) = true
    rw [hreq, hdrive]
    rfl
  clear_value on
  rw [hon]
  refine ⟨rfl, getBit_setBit_same _ 0x310044 true (show 1 < 32 by decide), ?_, rfl, rfl, rfl⟩
  exact (congrArg (bitOf · 0) (getReg_setBit_ne _ 1 true (show 0x310040 ≠ 0x310044 by decide))).trans hreq

theorem pwrReq_completes (s : State) (hfree : PortFree s) (hdrive : present s = true) :
    Completes (.pwrReq true) s (fun t =>
      t.pins.pwrEn = true ∧ getBit t 0x310044 1 = true ∧ getBit t 0x310040 0 = true ∧ KeepsMemory s t) := by
  refine completes_cpWrite (v := bitsTo (getReg s 0x310040) 0 1 1) rfl hfree ⟨rfl, by decide, rfl⟩ ?_
  have hv : bitOf (bitsTo (getReg s 0x310040) 0 1 1) 0 = true := by
    rw [bitOf_bitsTo _ _ _ (by decide)]
    rfl
  rw [regWrite_device _ _ (by decide) (by decide)]
  generalize bitsTo (getReg s 0x310040) 0 1 1 = v at hv ⊢
  have hframe := onlyRegs_storeReg (portTook s) 0x310040 v
  have hbut : RegsBut 0x310040 s (storeReg (portTook s) 0x310040 v) := regsBut_storeReg (portTook s) v (by decide)
  have hreq : getBit (storeReg (portTook s) 0x310040 v) 0x310040 0 = true := by
    rw [getBit, getReg_storeReg_same _ _ (show regDesc 0x310040 = some (rwReg 0x20 0x3F) from rfl),
      bitOf_written_rw _ _ (by decide) (by decide) (by decide) (by decide) (by decide), hv]
  generalize storeReg (portTook s) 0x310040 v = u at hframe hbut hreq ⊢
  have hdev : deviceWrite u (portTook s) 0x310040 v = drivePower u := rfl
  have hpres : present u = true := (congrArg (bitOf · 0) (hbut 0x310044 (by decide))).trans hdrive
  have hkeep : KeepsMemory s u := by
    rw [hframe]
    exact ⟨rfl, rfl, rfl⟩
  obtain ⟨hen, hshown, hctl, hd, hs, hc⟩ := drivePower_on hreq hpres
  rw [hdev]
  generalize drivePower u = t at hen hshown hctl hd hs hc ⊢
  exact ⟨hen, hshown, hctl, hd.trans hkeep.1, hs.trans hkeep.2.1, hc.trans hkeep.2.2⟩

end Sys2Proof.Laws
end

section
/-! PROOF. O20: register commands of the twin port. -/

namespace Sys2Proof.Proofs

open Sys2Proof.Machine Sys2Proof.Safety Sys2Proof.Laws

/-- Settles O20: the commit by the copy of its windows, the link enable and the power request by what their registers drive. -/
theorem twinRegisterCommands : Obligations.TwinRegisterCommands :=
  ⟨twnWCommit_completes, twnWCommit_refused, fun s hfree hen hoff _ => linkEn_completes s hfree hen hoff,
    fun s hfree hdrive _ => pwrReq_completes s hfree hdrive⟩

end Sys2Proof.Proofs
end

section
/-! SUPPORT. Register writes of the observability units: counters, probes, dump, trace, firmware writer, error log (R418-R443). -/

namespace Sys2Proof.Laws

open Sys2Proof.Machine Sys2Proof.Safety

/-- The memory stays where a register write changes nothing but the register file and what its device does. -/
theorem keepsMemory_storeReg (s : State) (a : Nat) (v : Word) : KeepsMemory s (storeReg (portTook s) a v) := by
  rw [onlyRegs_storeReg (portTook s) a v]
  exact ⟨rfl, rfl, rfl⟩

theorem bitOf_bitsTo_one (w : Word) {i : Nat} (hi : i < 32) : bitOf (bitsTo w i 1 1) i = true := by
  rw [bitOf_bitsTo _ _ _ (by omega), if_pos (by omega), Nat.sub_self]
  rfl

theorem bitOf_bitsTo_zero (w : Word) {i : Nat} (hi : i < 32) : bitOf (bitsTo w i 1 0) i = false := by
  rw [bitOf_bitsTo _ _ _ (by omega), if_pos (by omega), Nat.sub_self]
  rfl

-- counters and probes

theorem pmuClear_all_completes (s : State) (hfree : PortFree s) :
    Completes (.pmuClear .all) s (fun t => ∀ k i, pmuCount t k i = 0) := by
  refine completes_cpWrite (v := bitsTo (getReg s 0x332000) 5 1 1) rfl hfree ⟨rfl, by decide, rfl⟩ ?_
  have hv := bitOf_bitsTo_one (getReg s 0x332000) (i := 5) (by decide)
  rw [regWrite_observe _ _ (by decide) (by decide)]
  unfold observeWrite
  rw [if_pos rfl, if_pos hv]
  exact fun _ _ => rfl

theorem inCfgSpace_of_ge {a : Nat} (h : 0x319000 ≤ a) : inCfgSpace a = false := by
  rw [inCfgSpace, Bool.and_eq_false_iff, decide_eq_false_iff_not, decide_eq_false_iff_not]
  omega

theorem regDesc_pmuCfg (k : Fin 24) (i : Fin 8) : regDesc (pmuBase k.val + (0x60 + 4 * i.val)) = some (rwReg 0 0xFFFFF) := by
  revert k i
  decide

theorem pmuClear_one_completes (s : State) (k : Fin 24) (i : Fin 8) (hfree : PortFree s)
    (hon : domainOff s (pmuBase k.val) = false) : Completes (.pmuClear (.one k i)) s (fun t =>
      pmuCount t k.val i.val = 0 ∧ (∀ k' i', k' * 16 + i' ≠ k.val * 16 + i.val → pmuCount t k' i' = pmuCount s k' i')) := by
  have hi := i.isLt
  obtain ⟨hlo, hhi, hmod, hdiv⟩ := pmuOffset_bounds k (o := 0x60 + 4 * i.val) (by omega)
  have hr : Reachable s (pmuBase k.val + (0x60 + 4 * i.val)) := by
    refine ⟨?_, ?_, ?_⟩
    · rw [domainOff_pmu s k (by omega), ← domainOff_pmu s k (o := 0) (by decide), Nat.add_zero, hon]
    · exact inCfgSpace_of_ge (by omega)
    · rw [regDesc_pmuCfg]
      rfl
  refine completes_cpWrite (a := pmuBase k.val + (0x60 + 4 * i.val))
    (v := bitsTo (getReg s (pmuBase k.val + (0x60 + 4 * i.val))) 31 1 1) (by rw [← Nat.add_assoc]; rfl) hfree hr ?_
  have hv := bitOf_bitsTo_one (getReg s (pmuBase k.val + (0x60 + 4 * i.val))) (i := 31) (by decide)
  generalize pmuBase k.val + (0x60 + 4 * i.val) = a at hlo hhi hmod hdiv hv ⊢
  have hobs : (storeReg (portTook s) a (bitsTo (getReg s a) 31 1 1)).obs = s.obs := by rw [onlyRegs_storeReg (portTook s)]; rfl
  rw [regWrite_observe _ _ (by omega) (by rw [parityItem, if_neg (by omega), if_neg (by omega), if_neg (by omega)])]
  unfold observeWrite
  rw [if_neg (by omega), if_neg (by omega), if_pos (by omega)]
  dsimp only
  rw [if_pos ⟨by omega, by omega, hv⟩, hmod, hdiv, Nat.add_sub_cancel_left, Nat.mul_div_cancel_left _ (by decide)]
  generalize storeReg (portTook s) a (bitsTo (getReg s a) 31 1 1) = u at hobs ⊢
  have hother : ∀ k' i', k' * 16 + i' ≠ k.val * 16 + i.val → pmuCount (setPmuCount u k.val i.val 0) k' i' = pmuCount s k' i' := by
    intro k' i' hne
    rw [pmuCount_setPmuCount_ne _ _ hne, pmuCount, pmuCount, hobs]
  exact ⟨pmuCount_setPmuCount_same u k.val i.val 0, hother⟩

theorem probeCount_setProbe (s : State) (r v : Nat) : probeCount (setProbe s r v) r = v % 2 ^ 48 ∧
    ∀ q, q ≠ r → probeCount (setProbe s r v) q = probeCount s q :=
  ⟨cellsGet_set_same _ _ _, fun _ h => cellsGet_set_ne _ _ h⟩

theorem regDesc_probe (r : RouterId) : regDesc (probeBase r.val) = some (rwReg 0x20 0x7FF) := by
  revert r
  decide

theorem probeClear_completes (s : State) (r : RouterId) (hfree : PortFree s) : Completes (.probeClear r) s (fun t =>
    probeCount t r.val = 0 ∧ (∀ q, q ≠ r.val → probeCount t q = probeCount s q) ∧ KeepsMemory s t) := by
  have hr := r.isLt
  have ha : probeBase r.val = 0x301000 + r.val * 32 := rfl
  have hv := bitOf_bitsTo_one (getReg s (probeBase r.val)) (i := 11) (by decide)
  refine completes_cpWrite (v := bitsTo (getReg s (probeBase r.val)) 11 1 1) rfl hfree
    ⟨?_, ?_, by rw [regDesc_probe]; rfl⟩ ?_
  · rw [domainOff]
    repeat rw [if_neg (by omega)]
  · rw [inCfgSpace, Bool.and_eq_false_iff, decide_eq_false_iff_not]
    omega
  have hkeep := keepsMemory_storeReg s (probeBase r.val) (bitsTo (getReg s (probeBase r.val)) 11 1 1)
  have hspine : (storeReg (portTook s) (probeBase r.val) (bitsTo (getReg s (probeBase r.val)) 11 1 1)).spine = s.spine := by
    rw [onlyRegs_storeReg (portTook s)]; rfl
  rw [regWrite_observe _ _ (by omega) (by rw [parityItem, if_neg (by omega), if_neg (by omega), if_neg (by omega)])]
  unfold observeWrite
  rw [if_neg (by omega), if_neg (by omega), if_neg (by omega), if_pos (by omega), if_pos hv,
    show (probeBase r.val - 0x301000) / 32 = r.val by omega]
  generalize storeReg (portTook s) (probeBase r.val) (bitsTo (getReg s (probeBase r.val)) 11 1 1) = u at hkeep hspine ⊢
  obtain ⟨hz, hother⟩ := probeCount_setProbe u r.val 0
  exact ⟨hz, fun q hq => (hother q hq).trans (by rw [probeCount, probeCount, hspine]), hkeep⟩

-- the dump comparator and the trace switch

theorem bitsOf_congr {v w : Word} {lo n : Nat} (h : ∀ i, lo ≤ i → i < lo + n → bitOf v i = bitOf w i) :
    bitsOf v lo n = bitsOf w lo n := by
  apply Nat.eq_of_testBit_eq
  intro i
  rw [testBit_bitsOf, testBit_bitsOf]
  by_cases hi : i < n
  · rw [h (lo + i) (by omega) (by omega)]
  · simp [hi]

theorem dumpEnable_completes (s : State) (hfree : PortFree s) (hoff : getBit s 0x332010 0 = false) :
    Completes .dumpEnable s (fun t =>
      getBit t 0x332010 0 = true ∧ t.obs.dumpDue = s.tick + max 1 (getFld s 0x332010 1 20) * 1000 ∧ t.obs.dumpStop = false ∧
      RegsBut 0x332010 s t ∧ KeepsMemory s t) := by
  refine completes_cpWrite (v := bitsTo (getReg s 0x332010) 0 1 1) rfl hfree ⟨rfl, by decide, rfl⟩ ?_
  have hv := bitOf_bitsTo_one (getReg s 0x332010) (i := 0) (by decide)
  have hrest : ∀ i, 1 ≤ i → bitOf (bitsTo (getReg s 0x332010) 0 1 1) i = bitOf (getReg s 0x332010) i := by
    intro i hi
    rw [bitOf_bitsTo _ _ _ (by decide), if_neg (by omega)]
  generalize bitsTo (getReg s 0x332010) 0 1 1 = v at hv hrest ⊢
  have hbits : ∀ i, i < 27 → bitOf (written (portTook s) 0x332010 (rwReg 0x008007D0 0x7FFFFFF) v) i = bitOf v i := by
    intro i hi
    refine bitOf_written_rw _ v (by omega) ?_ ?_ ?_ (by omega)
    all_goals interval_cases i <;> rfl
  have hreg := getReg_storeReg_same (portTook s) v (show regDesc 0x332010 = some (rwReg 0x008007D0 0x7FFFFFF) from rfl)
  have hset : getBit (storeReg (portTook s) 0x332010 v) 0x332010 0 = true := by
    rw [getBit, hreg, hbits 0 (by decide), hv]
  have hperiod : getFld (storeReg (portTook s) 0x332010 v) 0x332010 1 20 = getFld s 0x332010 1 20 := by
    rw [getFld, hreg]
    exact bitsOf_congr fun i hlo hhi => (hbits i (by omega)).trans (hrest i hlo)
  have hkeep := keepsMemory_storeReg s 0x332010 v
  have hbut : RegsBut 0x332010 s (storeReg (portTook s) 0x332010 v) := regsBut_storeReg (portTook s) v (by decide)
  have htick : (storeReg (portTook s) 0x332010 v).tick = s.tick := by rw [onlyRegs_storeReg (portTook s)]; rfl
  rw [regWrite_observe _ _ (by decide) (by decide)]
  generalize storeReg (portTook s) 0x332010 v = u at hset hperiod hkeep hbut htick ⊢
  have hdev : observeWrite u (portTook s) 0x332010 v = dumpStart u := by
    unfold observeWrite
    rw [if_neg (by decide), if_pos rfl, hv, show getBit (portTook s) 0x332010 0 = false from hoff, if_pos (by decide)]
  rw [hdev, ← hperiod, ← htick]
  exact ⟨hset, rfl, rfl, hbut, hkeep⟩

/-- The store of EN to TRC_CTL. -/
theorem trcCtl_store (s : State) (b : Bool) (hv : bitOf v 0 = b) : trcOn (storeReg (portTook s) 0x340000 v) = b ∧
    RegsBut 0x340000 s (storeReg (portTook s) 0x340000 v) ∧ OnlyRegs (portTook s) (storeReg (portTook s) 0x340000 v) := by
  refine ⟨?_, regsBut_storeReg (portTook s) v (by decide), onlyRegs_storeReg _ _ _⟩
  rw [trcOn, getBit, getReg_storeReg_same _ _ (show regDesc 0x340000 = some (rwReg 0x140C8 0x1FFFF) from rfl),
    bitOf_written_rw _ _ (by decide) (by decide) (by decide) (by decide) (by decide), hv]

theorem observeWrite_trcCtl (s old : State) (v : Word) : observeWrite s old 0x340000 v = trcSwitch s (trcOn old) := rfl

theorem wakeWriters_nil {s : State} (h : s.obs.apWait = []) : wakeWriters s = { s with obs := { s.obs with apWait := [] } } := by
  rw [wakeWriters, h]
  rfl

theorem trcSwitch_start {s : State} (h : trcOn s = true) :
    trcSwitch s false = { s with obs := { s.obs with stagers := [], ringStop := false } } := by
  unfold trcSwitch
  extract_lets on
  rw [show on = true from h, if_pos (by decide)]

theorem trcSwitch_stop {s : State} {was : Bool} (h : trcOn s = false) (hwait : s.obs.apWait = []) :
    trcSwitch s was = { s with obs := { s.obs with stagers := [], apWait := [] } } := by
  unfold trcSwitch
  extract_lets on
  rw [show on = false from h, Bool.false_and, if_neg (by decide), if_neg (by decide)]
  exact wakeWriters_nil (s := { s with obs := { s.obs with stagers := [] } }) hwait

theorem trcEnable_on_completes (s : State) (hfree : PortFree s) (hoff : getBit s 0x340000 0 = false) :
    Completes (.trcEnable true) s (fun t =>
      getBit t 0x340000 0 = true ∧ t.obs.ringStop = false ∧ t.obs.stagers = [] ∧ RegsBut 0x340000 s t) := by
  refine completes_cpWrite (v := bitsTo (getReg s 0x340000) 0 1 1) rfl hfree ⟨rfl, by decide, rfl⟩ ?_
  obtain ⟨hon, hbut, -⟩ := trcCtl_store s true (bitOf_bitsTo_one (getReg s 0x340000) (i := 0) (by decide))
  rw [regWrite_observe _ _ (by decide) (by decide), observeWrite_trcCtl]
  generalize storeReg (portTook s) 0x340000 _ = u at hon hbut ⊢
  rw [show trcOn (portTook s) = false from hoff, trcSwitch_start hon]
  exact ⟨hon, rfl, rfl, hbut⟩

theorem trcEnable_off_completes (s : State) (hfree : PortFree s) (hwait : s.obs.apWait = []) :
    Completes (.trcEnable false) s (fun t => getBit t 0x340000 0 = false ∧ t.obs.stagers = [] ∧ RegsBut 0x340000 s t) := by
  refine completes_cpWrite (v := bitsTo (getReg s 0x340000) 0 1 0) rfl hfree ⟨rfl, by decide, rfl⟩ ?_
  obtain ⟨hon, hbut, hframe⟩ := trcCtl_store s false (bitOf_bitsTo_zero (getReg s 0x340000) (i := 0) (by decide))
  rw [regWrite_observe _ _ (by decide) (by decide), observeWrite_trcCtl]
  generalize storeReg (portTook s) 0x340000 _ = u at hon hbut hframe ⊢
  have hnone : u.obs.apWait = [] := by rw [hframe]; exact hwait
  rw [trcSwitch_stop hon hnone]
  exact ⟨hon, rfl, hbut⟩

-- the firmware writer

theorem hdrBytes_acceptHeader (s : State) (o : Nat) (h : BitVec 64) : hdrBytes (acceptHeader s o h) = hdrBytes h := by
  unfold acceptHeader
  extract_lets b
  have hb : b ≤ 56 := Nat.min_le_left _ _
  have heq : hdrBytes h = b := rfl
  rw [heq, hdrBytes, BitVec.toNat_ofNat]
  omega

theorem hdrWords_acceptHeader (s : State) (o : Nat) (h : BitVec 64) : hdrWords (acceptHeader s o h) = hdrWords h := by
  rw [hdrWords, hdrBytes_acceptHeader, ← hdrWords]

theorem stagerOf_setStager_same (s : State) (o : Nat) (x : Stager) : stagerOf (setStager s o x) o = x := cellsGet_set_same _ _ _

theorem stagerOf_setStager_ne (s : State) {o p : Nat} (x : Stager) (h : p ≠ o) : stagerOf (setStager s o x) p = stagerOf s p :=
  cellsGet_set_ne _ _ h

/-- The first word of a packet, its header, is staged (R430). -/
theorem stagePush_header {s : State} {o : Nat} {w : BitVec 64} (hon : trcOn s = true) (hidle : stagerOf s o = ⟨[], 0, false⟩)
    (hlen : hdrWords w ≠ 0) : stagePush s o w = setStager s o ⟨[acceptHeader s o w], hdrWords w, false⟩ := by
  have hword : stageWord s o w = (⟨[acceptHeader s o w], hdrWords w, false⟩, none) := by
    unfold stageWord
    rw [hidle]
    dsimp only
    rw [if_neg (by decide), if_pos (show ([] : List (BitVec 64)).isEmpty = true from rfl), hdrWords_acceptHeader, if_neg hlen]
  rw [stagePush, hon, hword, if_neg (by decide)]

theorem trcWrHi_completes (s : State) (w : Word) (hfree : PortFree s) (hon : trcOn s = true)
    (hidle : stagerOf s 0x20 = ⟨[], 0, false⟩) (hlen : hdrWords (w ++ s.obs.trcLo) ≠ 0) : Completes (.trcWrHi w) s (fun t =>
      stagerOf t 0x20 = ⟨[acceptHeader s 0x20 (w ++ s.obs.trcLo)], hdrWords (w ++ s.obs.trcLo), false⟩ ∧
      t.obs.storage = s.obs.storage ∧ t.obs.assembly = s.obs.assembly) := by
  refine completes_cpWrite (v := w) rfl hfree ⟨rfl, by decide, rfl⟩ ?_
  have hframe := onlyRegs_storeReg (portTook s) 0x340034 w
  have hbut : RegsBut 0x340034 s (storeReg (portTook s) 0x340034 w) := regsBut_storeReg (portTook s) w (by decide)
  rw [regWrite_observe _ _ (by decide) (by decide)]
  generalize storeReg (portTook s) 0x340034 w = u at hframe hbut ⊢
  have hdev : observeWrite u (portTook s) 0x340034 w = stagePush u 0x20 (w ++ u.obs.trcLo) := rfl
  have hobs : u.obs = s.obs := by rw [hframe]; rfl
  have hhdr : acceptHeader u 0x20 (w ++ s.obs.trcLo) = acceptHeader s 0x20 (w ++ s.obs.trcLo) := by rw [hframe]; rfl
  have hon' : trcOn u = true := (congrArg (bitOf · 0) (hbut 0x340000 (by decide))).trans hon
  have hidle' : stagerOf u 0x20 = ⟨[], 0, false⟩ := by rw [stagerOf, hobs]; exact hidle
  rw [hdev, hobs, stagePush_header hon' hidle' hlen, hhdr]
  refine ⟨stagerOf_setStager_same u _ _, ?_, ?_⟩
  · exact congrArg (·.storage) hobs
  · exact congrArg (·.assembly) hobs

theorem stageDrop_of_words {s : State} {o : Nat} (h : (stagerOf s o).words ≠ []) :
    stageDrop s o = setStager s o ⟨[], (stagerOf s o).need, true⟩ := by
  have hne : (stagerOf s o).words.isEmpty = false := by rw [List.isEmpty_eq_false_iff]; exact h
  unfold stageDrop
  extract_lets x
  rw [if_neg (by rw [hne]; decide)]

theorem stageDrop_of_nil {s : State} {o : Nat} (h : (stagerOf s o).words = []) : stageDrop s o = s := by
  unfold stageDrop
  extract_lets x
  rw [if_pos (by rw [h]; rfl)]

theorem dropRest_firmware_completes (s : State) (x : Stager) (hfree : PortFree s) (hx : stagerOf s 0x20 = x) (hne : x.words ≠ []) :
    Completes (.dropRest .firmware) s (fun t =>
      stagerOf t 0x20 = ⟨[], x.need, true⟩ ∧ (∀ o, o ≠ 0x20 → stagerOf t o = stagerOf s o)) := by
  refine completes_cpWrite (v := 1) rfl hfree ⟨rfl, by decide, rfl⟩ ?_
  have hframe := onlyRegs_storeReg (portTook s) 0x340038 1
  rw [regWrite_observe _ _ (by decide) (by decide)]
  generalize storeReg (portTook s) 0x340038 1 = u at hframe ⊢
  have hdev : observeWrite u (portTook s) 0x340038 1 = stageDrop u 0x20 := rfl
  have hst : ∀ o, stagerOf u o = stagerOf s o := by
    intro o
    rw [hframe]
    rfl
  rw [hdev, stageDrop_of_words (by rw [hst, hx]; exact hne), hst, hx]
  exact ⟨stagerOf_setStager_same u _ _, fun o ho => (stagerOf_setStager_ne u _ ho).trans (hst o)⟩

/-- What DROP_REST does to the staging buffers of the ports it names. -/
def dropPorts (n : Nat) (v : Word) (s : State) : State := forEach n s (fun s n => if bitOf v n then stageDrop s n else s)

theorem dropPorts_effect (v : Word) (s : State) (n : Nat) :
    dropPorts n v s = { s with obs := { s.obs with stagers := (dropPorts n v s).obs.stagers } } ∧
    (∀ o, o < n → bitOf v o = true → (stagerOf s o).words ≠ [] → stagerOf (dropPorts n v s) o = ⟨[], (stagerOf s o).need, true⟩) ∧
    (∀ o, n ≤ o ∨ bitOf v o = false ∨ (stagerOf s o).words = [] → stagerOf (dropPorts n v s) o = stagerOf s o) := by
  induction n with
  | zero => exact ⟨rfl, fun _ h => absurd h (by omega), fun _ _ => rfl⟩
  | succ n ih =>
    obtain ⟨hframe, hdrop, hkeep⟩ := ih
    rw [dropPorts, forEach_succ, ← dropPorts]
    generalize dropPorts n v s = u at hframe hdrop hkeep ⊢
    have hn : stagerOf u n = stagerOf s n := hkeep n (Or.inl (le_refl n))
    by_cases h : bitOf v n = true ∧ (stagerOf s n).words ≠ []
    · obtain ⟨hv, hw⟩ := h
      rw [if_pos hv, stageDrop_of_words (by rw [hn]; exact hw), hn]
      refine ⟨by rw [hframe]; rfl, fun o ho hvo hwo => ?_, fun o ho => ?_⟩
      · rcases Nat.lt_succ_iff_lt_or_eq.mp ho with hlt | rfl
        · exact (stagerOf_setStager_ne u _ (by omega)).trans (hdrop o hlt hvo hwo)
        · exact stagerOf_setStager_same u _ _
      · have hne : o ≠ n := by
          rintro rfl
          rcases ho with ho | ho | ho
          · omega
          · rw [hv] at ho
            contradiction
          · exact hw ho
        exact (stagerOf_setStager_ne u _ hne).trans (hkeep o (ho.imp_left (by omega)))
    · have hsame : (if bitOf v n = true then stageDrop u n else u) = u := by
        split
        · next hv => exact stageDrop_of_nil (by rw [hn]; by_contra hw; exact h ⟨hv, hw⟩)
        · rfl
      rw [hsame]
      refine ⟨hframe, fun o ho hvo hwo => ?_, fun o ho => hkeep o (ho.imp_left (by omega))⟩
      rcases Nat.lt_succ_iff_lt_or_eq.mp ho with hlt | rfl
      · exact hdrop o hlt hvo hwo
      · exact absurd ⟨hvo, hwo⟩ h

theorem dropRest_agents_completes (s : State) (mask : BitVec 24) (hfree : PortFree s) (hwait : s.obs.apWait = []) :
    Completes (.dropRest (.agents mask)) s (fun t =>
      (∀ n, n < 24 → mask.getLsbD n = true → (stagerOf s n).words ≠ [] → stagerOf t n = ⟨[], (stagerOf s n).need, true⟩) ∧
      (∀ n, n < 24 → mask.getLsbD n = false ∨ (stagerOf s n).words = [] → stagerOf t n = stagerOf s n) ∧
      (∀ o, 24 ≤ o → stagerOf t o = stagerOf s o) ∧ KeepsMemory s t) := by
  refine completes_cpWrite (v := mask.setWidth 32) rfl hfree ⟨rfl, by decide, rfl⟩ ?_
  have hv : ∀ n, n < 24 → bitOf (mask.setWidth 32) n = mask.getLsbD n := by
    intro n hn
    rw [bitOf, BitVec.getLsbD_setWidth]
    simp
    omega
  have hframe := onlyRegs_storeReg (portTook s) 0x34003C (mask.setWidth 32)
  rw [regWrite_observe _ _ (by decide) (by decide)]
  generalize storeReg (portTook s) 0x34003C (mask.setWidth 32) = u at hframe ⊢
  have hdev : observeWrite u (portTook s) 0x34003C (mask.setWidth 32) = wakeWriters (dropPorts 24 (mask.setWidth 32) u) := rfl
  have hst : ∀ o, stagerOf u o = stagerOf s o := by
    intro o
    rw [hframe]
    rfl
  obtain ⟨dframe, hdrop, hkeep⟩ := dropPorts_effect (mask.setWidth 32) u 24
  rw [hdev]
  generalize dropPorts 24 (mask.setWidth 32) u = w at dframe hdrop hkeep ⊢
  have hnone : w.obs.apWait = [] := by
    rw [dframe, hframe]
    exact hwait
  rw [wakeWriters_nil hnone]
  simp only [hst] at hdrop hkeep
  refine ⟨fun n hn hm hw => hdrop n hn ((hv n hn).trans hm) hw,
    fun n hn h => hkeep n (Or.inr (h.imp_left (hv n hn).trans)), fun o ho => hkeep o (Or.inl ho), ?_⟩
  rw [dframe, hframe]
  exact ⟨rfl, rfl, rfl⟩

-- the error log

theorem logPop_cons {s : State} {r : BitVec 128} {l : List (BitVec 128)} (h : s.obs.log = r :: l) : logPop s =
    if s.obs.loss = 0 then { s with obs := { s.obs with log := l, loss := 0 } }
    else setBit (logRecord { s with obs := { s.obs with log := l, loss := 0 } } 0xF 26 0 s.obs.loss 0) 0x340008 3 true := by
  unfold logPop
  rw [h]

theorem logPop_completes {s : State} {P : State → Prop} (hfree : PortFree s)
    (hP : ∀ u, OnlyRegs (portTook s) u → P { logPop u with pending := s.pending }) : Completes .trcLogPop s P := by
  refine completes_cpWrite (v := 1) rfl hfree ⟨rfl, by decide, rfl⟩ ?_
  rw [regWrite_observe _ _ (by decide) (by decide)]
  exact hP _ (onlyRegs_storeReg (portTook s) 0x340064 1)

theorem trcLogPop_completes (s : State) (r : BitVec 128) (l : List (BitVec 128)) (hfree : PortFree s) (hlog : s.obs.log = r :: l)
    (hloss : s.obs.loss = 0) : Completes .trcLogPop s (fun t => t.obs.log = l ∧ t.obs.loss = 0) := by
  refine logPop_completes hfree fun u hframe => ?_
  have hobs : u.obs = s.obs := by rw [hframe]; rfl
  rw [logPop_cons (by rw [hobs]; exact hlog), hobs, if_pos hloss]
  exact ⟨rfl, rfl⟩

theorem trcLogPop_loss_completes (s : State) (r : BitVec 128) (l : List (BitVec 128)) (hfree : PortFree s)
    (hlog : s.obs.log = r :: l) (hroom : l.length < 64) (hloss : s.obs.loss ≠ 0) : Completes .trcLogPop s (fun t =>
      t.obs.log = l ++ [logWord s 0xF 26 0 s.obs.loss 0] ∧ t.obs.loss = 0 ∧ getBit t 0x340008 3 = true) := by
  refine logPop_completes hfree fun u hframe => ?_
  have hobs : u.obs = s.obs := by rw [hframe]; rfl
  rw [logPop_cons (by rw [hobs]; exact hlog), hobs, if_neg hloss]
  have hrec : (logRecord { u with obs := { s.obs with log := l, loss := 0 } } 0xF 26 0 s.obs.loss 0).obs =
      { s.obs with log := l ++ [logWord s 0xF 26 0 s.obs.loss 0], loss := 0 } := by
    unfold logRecord
    rw [if_pos hroom, hframe]
    rfl
  generalize logRecord { u with obs := { s.obs with log := l, loss := 0 } } 0xF 26 0 s.obs.loss 0 = w at hrec ⊢
  have hset := getBit_setBit_same w 0x340008 true (show 3 < 32 by decide)
  have hobs' : (setBit w 0x340008 3 true).obs = w.obs := rfl
  obtain ⟨t, ht⟩ : ∃ t, t = setBit w 0x340008 3 true := ⟨_, rfl⟩
  rw [← ht] at hset hobs' ⊢
  rw [hrec] at hobs'
  exact ⟨congrArg (·.log) hobs', congrArg (·.loss) hobs', hset⟩

end Sys2Proof.Laws
end

section
/-! PROOF. O21: registers of the observability units. -/

namespace Sys2Proof.Proofs

open Sys2Proof.Machine Sys2Proof.Safety Sys2Proof.Laws

/-- Settles O21: each register write by what its unit does with the value stored. -/
theorem observabilityRegisters : Obligations.ObservabilityRegisters :=
  ⟨pmuClear_all_completes, pmuClear_one_completes, probeClear_completes, dumpEnable_completes, trcEnable_on_completes,
    trcEnable_off_completes, trcWrHi_completes, dropRest_firmware_completes, dropRest_agents_completes, trcLogPop_completes,
    trcLogPop_loss_completes⟩

end Sys2Proof.Proofs
end

section
/-! SUPPORT. The Safe reaction and the report of an event: the registers and the sequencer's record that they leave as they are
(R372, R380, R381). -/

namespace Sys2Proof.Laws

open Sys2Proof.Machine Sys2Proof.Safety

/-- A register that the fencing of ports, the clearing of slices and channels and the trace records of a Safe reaction leave. -/
def QuietReg (a : Nat) : Prop := a ≠ 0x30000C ∧ a ≠ 0x300300 ∧ a ≠ 0x340008 ∧ a ≠ 0x340010 ∧ a ≠ 0x340014 ∧ (a < 0x302000 ∨ 0x302600 ≤ a)

/-- `t` has the sequencer's record and the quiet registers of `s`. -/
structure Undisturbed (s t : State) : Prop where
  seq : t.seq = s.seq
  regs : ∀ a, QuietReg a → getReg t a = getReg s a

theorem Undisturbed.refl (s : State) : Undisturbed s s := ⟨rfl, fun _ _ => rfl⟩

theorem Undisturbed.trans {s t u : State} (a : Undisturbed s t) (b : Undisturbed t u) : Undisturbed s u :=
  ⟨b.seq.trans a.seq, fun r h => (b.regs r h).trans (a.regs r h)⟩

theorem Undisturbed.foldl {α : Type} {f : State → α → State} (h : ∀ s a, Undisturbed s (f s a)) :
    ∀ (l : List α) (s : State), Undisturbed s (l.foldl f s)
  | [], s => Undisturbed.refl s
  | a :: l, s => (h s a).trans (Undisturbed.foldl h l (f s a))

theorem Undisturbed.forEach {f : State → Nat → State} (h : ∀ s n, Undisturbed s (f s n)) (n : Nat) (s : State) :
    Undisturbed s (forEach n s f) := Undisturbed.foldl h _ s

theorem Undisturbed.forEach_lt {f : State → Nat → State} {n : Nat} (h : ∀ s k, k < n → Undisturbed s (f s k)) (s : State) :
    Undisturbed s (Machine.forEach n s f) := by
  induction n with
  | zero => exact Undisturbed.refl s
  | succ n ih =>
    rw [forEach_succ]
    exact (ih fun s k hk => h s k (by omega)).trans (h _ n (by omega))

theorem undisturbed_of_eq {s t : State} (hseq : t.seq = s.seq) (hregs : t.regs = s.regs) : Undisturbed s t :=
  ⟨hseq, fun a _ => by rw [getReg, getReg, hregs]⟩

theorem setFld_undisturbed (s : State) {b : Nat} (lo n v : Nat) (h : ¬ QuietReg b) : Undisturbed s (setFld s b lo n v) :=
  ⟨rfl, fun a ha => getReg_setFld_ne s lo n v (fun hab => h (hab ▸ ha))⟩

theorem setBit_undisturbed (s : State) {b : Nat} (i : Nat) (v : Bool) (h : ¬ QuietReg b) : Undisturbed s (setBit s b i v) :=
  setFld_undisturbed s i 1 _ h

theorem satAdd_undisturbed (s : State) {b : Nat} (lo n k : Nat) (h : ¬ QuietReg b) : Undisturbed s (satAdd s b lo n k) :=
  setFld_undisturbed s lo n _ h

theorem not_quietReg_port {n : Nat} (o : Nat) (hn : n < 24) (ho : o < 64) : ¬ QuietReg (portBase n + o) := by
  rintro ⟨-, -, -, -, -, h⟩
  unfold portBase at h
  omega

theorem setPort_undisturbed (s : State) (n : Nat) (p : Port) : Undisturbed s (setPort s n p) :=
  undisturbed_of_eq (by simp) (by simp)

theorem setSlice_undisturbed (s : State) (n : Nat) (x : Slice) : Undisturbed s (setSlice s n x) :=
  undisturbed_of_eq (by simp) (by simp)

theorem setChan_undisturbed (s : State) (c : Nat) (x : Chan) : Undisturbed s (setChan s c x) :=
  undisturbed_of_eq (by simp) (by simp)

theorem wakePme_undisturbed (s : State) : Undisturbed s (wakePme s) := by
  unfold wakePme
  extract_lets c
  split
  · exact undisturbed_of_eq rfl rfl
  · exact Undisturbed.refl s

theorem obs_undisturbed (s : State) (x : Obs) : Undisturbed s { s with obs := x } := undisturbed_of_eq rfl rfl

theorem toEgress_undisturbed (s : State) (n : Nat) (m : Msg) (dl : Bool) (prio : BitVec 2) (src : BitVec 5) :
    Undisturbed s (toEgress s n m dl prio src) := setPort_undisturbed s n _

theorem spine_undisturbed (s : State) (x : Spine) : Undisturbed s { s with spine := x } := undisturbed_of_eq rfl rfl

theorem fenceBare_undisturbed (s : State) {n : Nat} (hn : n < 24) : Undisturbed s (fenceBare s n) := by
  unfold fenceBare
  extract_lets p late u v _ w
  have hv : Undisturbed s v := Undisturbed.trans (t := u) (undisturbed_of_eq rfl rfl) (setPort_undisturbed u n _)
  exact (hv.trans (spine_undisturbed v _)).trans (setBit_undisturbed w 0 true (not_quietReg_port 0x10 hn (by decide)))

theorem safePort_undisturbed (s : State) {n : Nat} (hn : n < 24) : Undisturbed s (safePort s n) :=
  (((fenceBare_undisturbed s hn).trans (setPort_undisturbed _ n _)).trans (obs_undisturbed _ _)).trans
    (Undisturbed.foldl (fun s _ => toEgress_undisturbed s n _ _ _ _) _ _)

theorem sillageMove_undisturbed (s : State) (ws : List (BitVec 64)) : Undisturbed s (sillageMove s ws) :=
  ((obs_undisturbed s _).trans (satAdd_undisturbed _ 0 32 1 (by simp [QuietReg]))).trans
    (setBit_undisturbed _ 0 true (by simp [QuietReg]))

theorem sillageDrop_undisturbed (s : State) (lo n : Nat) : Undisturbed s (sillageDrop s lo n) :=
  (satAdd_undisturbed s lo n 1 (by simp [QuietReg])).trans (setBit_undisturbed _ 1 true (by simp [QuietReg]))

theorem hwPacket_undisturbed (s : State) (o kind bytes : Nat) (ws : List (BitVec 64)) (lo n : Nat) :
    Undisturbed s (hwPacket s o kind bytes ws lo n) := by
  unfold hwPacket
  split
  · exact Undisturbed.refl s
  · extract_lets pkt
    split
    · exact sillageMove_undisturbed s pkt
    · exact sillageDrop_undisturbed s lo n

theorem closeSlot_undisturbed (s : State) (x : Sample) : Undisturbed s (closeSlot s x) := by
  unfold closeSlot
  extract_lets u unit o
  split
  · exact (obs_undisturbed s _).trans (hwPacket_undisturbed _ _ _ _ _ _ _)
  · exact (obs_undisturbed s _).trans (hwPacket_undisturbed _ _ _ _ _ _ _)

/-- What the synchronisations of a slice close, in every slice. -/
theorem closeSyncs_undisturbed (l : List XSlot) (s : State) : Undisturbed s (l.foldl (fun s t =>
    forEach 8 s (fun s k => setSlice s k (closeWatches t.src t.taken (slice s k)))) s) :=
  Undisturbed.foldl (fun s _ => Undisturbed.forEach (fun s k => setSlice_undisturbed s k _) 8 s) l s

theorem safeSlice_undisturbed (s : State) (n : Nat) : Undisturbed s (safeSlice s n) := by
  refine Undisturbed.trans ?_ (closeSyncs_undisturbed _ _)
  refine Undisturbed.trans (Undisturbed.foldl closeSlot_undisturbed (s.obs.samples.filter (fun t => t.unit == 32 + n)) s) ?_
  exact undisturbed_of_eq (by simp) (by simp)

theorem startReclaim_undisturbed (s : State) (a : Nat) : Undisturbed s (startReclaim s a) := by
  refine Undisturbed.trans ((setPort_undisturbed s a _).trans (setBit_undisturbed _ a true (by simp [QuietReg])))
    (Undisturbed.forEach (fun s k => ?_) 8 _)
  extract_lets x
  split
  · exact setSlice_undisturbed s k _
  · exact Undisturbed.refl s

theorem wakeChan_undisturbed (s : State) (c : Nat) : Undisturbed s (wakeChan s c) := by
  unfold wakeChan
  extract_lets x
  split
  · exact setChan_undisturbed s c _
  · exact Undisturbed.refl s

theorem safeChan_undisturbed (s : State) (c : Nat) : Undisturbed s (safeChan s c) := by
  refine Undisturbed.trans ?_ (setChan_undisturbed _ c _)
  split
  · exact wakeChan_undisturbed s c
  · exact Undisturbed.refl s

theorem undoPower_undisturbed (s : State) : Undisturbed s (undoPower s) := by
  refine Undisturbed.forEach (fun s n => ?_) 8 s
  extract_lets x u
  split
  · exact (setSlice_undisturbed s n _).trans (setFld_undisturbed _ (4 * n) 3 n (by simp [QuietReg]))
  · exact setSlice_undisturbed s n _

-- the Safe reaction in two parts

/-- The first part of a Safe reaction: the capture, the end of the running command, and M10. -/
def safeHead (s : State) (u src kind : Nat) (inj : Bool) : State :=
  let cur := curMode s
  let s := setReg s 0x320004 (BitVec.ofNat 32 (u + 2 ^ 5 * src + 2 ^ 10 * kind + 2 ^ 12 * cur
    + 2 ^ 16 * b2n inj + 2 ^ 17 + 2 ^ 18 * drainFrom s))
  let s := setReg (setReg s 0x320008 (BitVec.ofNat 32 (s.tick % 2 ^ 32))) 0x32000C (BitVec.ofNat 32 (s.tick / 2 ^ 32))
  let s := { s with aon := { s.aon with safe := min (s.aon.safe + 1) (2 ^ 32 - 1) } }
  let adv := s.pins.lcAdvReq
  let cut := cur == 11 && !adv
  let s := keepMove s
  let s := finishCmd (if s.seq.moveLeft.isSome then s else undoPower s) stHwFault []
  let s := enterMode s 10
  { s with seq := { s.seq with trans := none, advHeld := adv, wipeCut := cut }, faults := { s.faults with quietStart := s.tick } }

/-- The second part: the agents, the ports, the slices and the channels. -/
def safeTail (s : State) : State :=
  let s := wakePme s
  let s := (cachingAgents s).foldl (fun s a => if (port s a).dead then s else startReclaim s a) s
  let s := forEach 24 s (fun s n => if portEnabled s n then safePort s n else s)
  let s := forEach 8 s safeSlice
  forEach 16 s safeChan

theorem safeEntry_eq (s : State) (u src kind : Nat) (inj : Bool) : safeEntry s u src kind inj =
    if curMode s = 0 ∨ curMode s = 8 ∨ curMode s = 10 then s else safeTail (safeHead s u src kind inj) := rfl

theorem safeTail_undisturbed (s : State) : Undisturbed s (safeTail s) := by
  unfold safeTail
  refine Undisturbed.trans ?_ (Undisturbed.forEach safeChan_undisturbed 16 _)
  refine Undisturbed.trans ?_ (Undisturbed.forEach safeSlice_undisturbed 8 _)
  refine Undisturbed.trans ?_ (Undisturbed.forEach_lt (fun s n hn => ?_) _)
  · refine (wakePme_undisturbed s).trans (Undisturbed.foldl (fun s a => ?_) _ _)
    split
    · exact Undisturbed.refl s
    · exact startReclaim_undisturbed s a
  · split
    · exact safePort_undisturbed s hn
    · exact Undisturbed.refl s

-- the registers of the first part

theorem getReg_keepMove (s : State) (a : Nat) : getReg (keepMove s) a = getReg s a := by
  unfold keepMove
  split
  · split <;> rfl
  · rfl

theorem getReg_setMail (s : State) (mb : Mailbox) (m : Mail) (a : Nat) : getReg (setMail s mb m) a = getReg s a := by cases mb <;> rfl

theorem getReg_wakePme (s : State) (a : Nat) : getReg (wakePme s) a = getReg s a := by
  unfold wakePme
  extract_lets c
  split <;> rfl

/-- A reply sets the event of its mailbox and no other register bit (R446). -/
theorem pushReply_regs (s : State) (mb : Mailbox) (r : List Word) : RegsBut 0x35000C s (pushReply s mb r) ∧
    ∀ i, i ≠ 0 → i ≠ 5 → getBit (pushReply s mb r) 0x35000C i = getBit s 0x35000C i := by
  have hbit : replyBit mb = 0 ∨ replyBit mb = 5 := by cases mb <;> simp [replyBit]
  have hset : ∀ u : State, (∀ a, getReg u a = getReg s a) → RegsBut 0x35000C s (setBit u 0x35000C (replyBit mb) true) ∧
      ∀ i, i ≠ 0 → i ≠ 5 → getBit (setBit u 0x35000C (replyBit mb) true) 0x35000C i = getBit s 0x35000C i := by
    intro u hu
    refine ⟨fun b hb => (getReg_setBit_ne u _ _ hb).trans (hu b), fun i h0 h5 => ?_⟩
    rw [getBit_setBit_ne u _ _ (by omega) (by omega), getBit, getBit, hu]
  unfold pushReply
  extract_lets m u
  split
  · obtain ⟨hbut, hbits⟩ := hset _ (getReg_setMail s mb _)
    split
    · exact ⟨fun b hb => (getReg_wakePme _ b).trans (hbut b hb),
        fun i h0 h5 => (congrArg (bitOf · i) (getReg_wakePme _ _)).trans (hbits i h0 h5)⟩
    · exact ⟨hbut, hbits⟩
  · exact ⟨fun b _ => getReg_setMail s mb _ b, fun i _ _ => congrArg (bitOf · i) (getReg_setMail s mb _ _)⟩

theorem sendReply_regs (s : State) (mb : Mailbox) (hdr : Word) (st : Nat) (d : List Word) :
    RegsBut 0x35000C s (sendReply s mb hdr st d) ∧
    ∀ i, i ≠ 0 → i ≠ 5 → getBit (sendReply s mb hdr st d) 0x35000C i = getBit s 0x35000C i := by
  unfold sendReply
  split
  · exact ⟨fun _ _ => rfl, fun _ _ _ => rfl⟩
  · exact pushReply_regs s mb _

theorem finishCmd_regs (s : State) (st : Nat) (d : List Word) : RegsBut 0x35000C s (finishCmd s st d) ∧
    ∀ i, i ≠ 0 → i ≠ 5 → getBit (finishCmd s st d) 0x35000C i = getBit s 0x35000C i := by
  unfold finishCmd
  split
  · exact ⟨fun _ _ => rfl, fun _ _ _ => rfl⟩
  · extract_lets _ u
    split
    · exact ⟨fun _ _ => rfl, fun _ _ _ => rfl⟩
    · exact sendReply_regs u _ _ st d

/-- The fields of the sequencer that a reply and the end of a command leave. -/
theorem pushReply_seq (s : State) (mb : Mailbox) (r : List Word) :
    (pushReply s mb r).seq.run = s.seq.run ∧ (pushReply s mb r).seq.trans = s.seq.trans ∧
      (pushReply s mb r).seq.patchBusy = s.seq.patchBusy := by
  have hmail : ∀ m, (setMail s mb m).seq.run = s.seq.run ∧ (setMail s mb m).seq.trans = s.seq.trans ∧
      (setMail s mb m).seq.patchBusy = s.seq.patchBusy := fun m => by cases mb <;> exact ⟨rfl, rfl, rfl⟩
  unfold pushReply
  extract_lets m u
  split
  · split
    · rw [(wakePme_undisturbed _).seq]
      exact hmail _
    · exact hmail _
  · exact hmail _

theorem finishCmd_seq (s : State) (st : Nat) (d : List Word) :
    (finishCmd s st d).seq.run = none ∧ (finishCmd s st d).seq.patchBusy = s.seq.patchBusy := by
  unfold finishCmd
  split
  · next h => exact ⟨h, rfl⟩
  · next r h =>
    extract_lets _ u
    split
    · exact ⟨rfl, rfl⟩
    · unfold sendReply
      split
      · exact ⟨rfl, rfl⟩
      · obtain ⟨hrun, -, hpatch⟩ := pushReply_seq u r.mb (mkReply r.hdr st d)
        exact ⟨hrun.trans rfl, hpatch.trans rfl⟩

/-- The end of the running command and of a move in a Safe reaction. -/
def safeCut (s : State) : State :=
  finishCmd (if (keepMove s).seq.moveLeft.isSome then keepMove s else undoPower (keepMove s)) stHwFault []

theorem keepMove_patchBusy (s : State) : (keepMove s).seq.patchBusy = s.seq.patchBusy := by
  unfold keepMove
  split
  · split <;> rfl
  · rfl

theorem safeCut_regs (s : State) : (∀ a, QuietReg a → a ≠ 0x35000C → getReg (safeCut s) a = getReg s a) ∧
    (∀ i, i ≠ 0 → i ≠ 5 → getBit (safeCut s) 0x35000C i = getBit s 0x35000C i) ∧
    (safeCut s).seq.run = none ∧ (safeCut s).seq.patchBusy = s.seq.patchBusy := by
  unfold safeCut
  have hmove : ∀ u, u = (if (keepMove s).seq.moveLeft.isSome then keepMove s else undoPower (keepMove s)) →
      (∀ a, QuietReg a → getReg u a = getReg s a) ∧ u.seq.patchBusy = s.seq.patchBusy := by
    rintro u rfl
    split
    · exact ⟨fun a _ => getReg_keepMove s a, keepMove_patchBusy s⟩
    · have hundo := undoPower_undisturbed (keepMove s)
      exact ⟨fun a ha => (hundo.regs a ha).trans (getReg_keepMove s a),
        (congrArg (·.patchBusy) hundo.seq).trans (keepMove_patchBusy s)⟩
  obtain ⟨u, hu⟩ : ∃ u, u = (if (keepMove s).seq.moveLeft.isSome then keepMove s else undoPower (keepMove s)) := ⟨_, rfl⟩
  obtain ⟨hregs, hpatch⟩ := hmove u hu
  rw [← hu]
  obtain ⟨hbut, hbits⟩ := finishCmd_regs u stHwFault []
  obtain ⟨hrun, hpatch'⟩ := finishCmd_seq u stHwFault []
  exact ⟨fun a ha hne => (hbut a hne).trans (hregs a ha),
    fun i h0 h5 => (hbits i h0 h5).trans (congrArg (bitOf · i) (hregs _ (by simp [QuietReg]))), hrun, hpatch'.trans hpatch⟩

/-- The capture of a Safe reaction (Table 15.14). -/
def safeCapture (s : State) (u src kind : Nat) (inj : Bool) : State :=
  let s := setReg s 0x320004 (BitVec.ofNat 32 (u + 2 ^ 5 * src + 2 ^ 10 * kind + 2 ^ 12 * curMode s
    + 2 ^ 16 * b2n inj + 2 ^ 17 + 2 ^ 18 * drainFrom s))
  let s := setReg (setReg s 0x320008 (BitVec.ofNat 32 (s.tick % 2 ^ 32))) 0x32000C (BitVec.ofNat 32 (s.tick / 2 ^ 32))
  { s with aon := { s.aon with safe := min (s.aon.safe + 1) (2 ^ 32 - 1) } }

theorem safeCapture_regs (s : State) (u src kind : Nat) (inj : Bool) :
    (∀ a, a ≠ 0x320004 → a ≠ 0x320008 → a ≠ 0x32000C → getReg (safeCapture s u src kind inj) a = getReg s a) ∧
    getReg (safeCapture s u src kind inj) 0x320004 = BitVec.ofNat 32 (u + 2 ^ 5 * src + 2 ^ 10 * kind + 2 ^ 12 * curMode s
      + 2 ^ 16 * b2n inj + 2 ^ 17 + 2 ^ 18 * drainFrom s) ∧ (safeCapture s u src kind inj).seq = s.seq := by
  unfold safeCapture
  extract_lets v w
  have hw : ∀ a, a ≠ 0x320008 → a ≠ 0x32000C → getReg w a = getReg v a := fun a h8 hC =>
    (getReg_setReg_ne _ _ hC).trans (getReg_setReg_ne v _ h8)
  exact ⟨fun a h4 h8 hC => (hw a h8 hC).trans (getReg_setReg_ne s _ h4),
    (hw _ (by decide) (by decide)).trans (getReg_setReg_same s _ _), rfl⟩

theorem safeHead_eq (s : State) (u src kind : Nat) (inj : Bool) : ∃ (q : Bool) (x : Faults),
    safeHead s u src kind inj = { enterMode (safeCut (safeCapture s u src kind inj)) 10 with
      seq := { (safeCut (safeCapture s u src kind inj)).seq with trans := none, advHeld := s.pins.lcAdvReq, wipeCut := q }, faults := x } :=
  ⟨_, _, rfl⟩

/-- A register that no part of a Safe reaction writes. -/
def SparedReg (a : Nat) : Prop := QuietReg a ∧ a ≠ 0x10 ∧ a ≠ 0x35000C ∧ a ≠ 0x320004 ∧ a ≠ 0x320008 ∧ a ≠ 0x32000C

theorem safeHead_effect (s : State) (u src kind : Nat) (inj : Bool) :
    (∀ a, SparedReg a → getReg (safeHead s u src kind inj) a = getReg s a) ∧
    (∀ i, i ≠ 0 → i ≠ 5 → getBit (safeHead s u src kind inj) 0x35000C i = getBit s 0x35000C i) ∧
    getReg (safeHead s u src kind inj) 0x10 = BitVec.ofNat 32 (10 + 16 * curMode s + 2560) ∧
    getReg (safeHead s u src kind inj) 0x320004 = BitVec.ofNat 32 (u + 2 ^ 5 * src + 2 ^ 10 * kind + 2 ^ 12 * curMode s
      + 2 ^ 16 * b2n inj + 2 ^ 17 + 2 ^ 18 * drainFrom s) ∧
    (safeHead s u src kind inj).seq.run = none ∧ (safeHead s u src kind inj).seq.trans = none ∧
    (safeHead s u src kind inj).seq.patchBusy = s.seq.patchBusy := by
  obtain ⟨q, x, heq⟩ := safeHead_eq s u src kind inj
  obtain ⟨hcap, hval, hseq⟩ := safeCapture_regs s u src kind inj
  obtain ⟨hcut, hbits, hrun, hpatch⟩ := safeCut_regs (safeCapture s u src kind inj)
  have hkeep : ∀ a, SparedReg a ∨ a = 0x10 → getReg (safeCut (safeCapture s u src kind inj)) a = getReg s a := by
    rintro a (⟨hq, -, hC, h4, h8, h12⟩ | rfl)
    · exact (hcut a hq hC).trans (hcap a h4 h8 h12)
    · exact (hcut _ (by simp [QuietReg]) (by decide)).trans (hcap _ (by decide) (by decide) (by decide))
  have hbits' : ∀ i, i ≠ 0 → i ≠ 5 → getBit (safeCut (safeCapture s u src kind inj)) 0x35000C i = getBit s 0x35000C i :=
    fun i h0 h5 => (hbits i h0 h5).trans (congrArg (bitOf · i) (hcap _ (by decide) (by decide) (by decide)))
  have hval' := (hcut 0x320004 (by simp [QuietReg]) (by decide)).trans hval
  rw [heq]
  rw [hseq] at hpatch
  generalize safeCut (safeCapture s u src kind inj) = w at hkeep hbits' hval' hrun hpatch ⊢
  have hmode : curMode w = curMode s := congrArg (bitsOf · 0 4) (hkeep _ (Or.inr rfl))
  have hne : ∀ a, a ≠ 0x10 → getReg (enterMode w 10) a = getReg w a := fun a h => getReg_setReg_ne w _ h
  have hsame : getReg (enterMode w 10) 0x10 = BitVec.ofNat 32 (10 + 16 * curMode s + 2560) := by
    rw [enterMode, getReg_setReg_same, hmode]
  have hcause := (hne 0x320004 (by decide)).trans hval'
  have hevents := hne 0x35000C (by decide)
  generalize enterMode w 10 = v at hne hsame hcause hevents ⊢
  exact ⟨fun a ha => (hne a ha.2.1).trans (hkeep a (Or.inl ha)),
    fun i h0 h5 => (congrArg (bitOf · i) hevents).trans (hbits' i h0 h5), hsame, hcause, hrun, rfl, hpatch⟩

theorem safeEntry_kept_regs (s : State) (u src kind : Nat) (inj : Bool) :
    (∀ a, SparedReg a → getReg (safeEntry s u src kind inj) a = getReg s a) ∧
    (∀ i, i ≠ 0 → i ≠ 5 → getBit (safeEntry s u src kind inj) 0x35000C i = getBit s 0x35000C i) ∧
    (safeEntry s u src kind inj).seq.patchBusy = s.seq.patchBusy := by
  rw [safeEntry_eq]
  split
  · exact ⟨fun _ _ => rfl, fun _ _ _ => rfl, rfl⟩
  · obtain ⟨hregs, hbits, -, -, -, -, hpatch⟩ := safeHead_effect s u src kind inj
    have htail := safeTail_undisturbed (safeHead s u src kind inj)
    exact ⟨fun a ha => (htail.regs a ha.1).trans (hregs a ha),
      fun i h0 h5 => (congrArg (bitOf · i) (htail.regs _ (by simp [QuietReg]))).trans (hbits i h0 h5),
      (congrArg (·.patchBusy) htail.seq).trans hpatch⟩

-- the report of an event

/-- A register of a fault unit (Table 15.4). -/
def FaultReg (a : Nat) : Prop := (0x100000 ≤ a ∧ a < 0x180000) ∨ (0x321000 ≤ a ∧ a < 0x322000)

theorem faultReg_fltBase {u : Nat} (o : Nat) (hu : u < 32) (ho : o < 0x40) : FaultReg (fltBase u + o) := by
  unfold FaultReg fltBase
  split <;> omega

/-- `t` has the spared registers, the command events that no reply sets, and the patch engine of `s`. -/
structure Spares (s t : State) : Prop where
  regs : ∀ a, SparedReg a → ¬ FaultReg a → getReg t a = getReg s a
  events : ∀ i, i ≠ 0 → i ≠ 5 → getBit t 0x35000C i = getBit s 0x35000C i
  patch : t.seq.patchBusy = s.seq.patchBusy

theorem Spares.refl (s : State) : Spares s s := ⟨fun _ _ _ => rfl, fun _ _ _ => rfl, rfl⟩

theorem Spares.trans {s t u : State} (a : Spares s t) (b : Spares t u) : Spares s u :=
  ⟨fun r h f => (b.regs r h f).trans (a.regs r h f), fun i h0 h5 => (b.events i h0 h5).trans (a.events i h0 h5), b.patch.trans a.patch⟩

theorem setReg_spares (s : State) {a : Nat} (v : Word) (h : FaultReg a) : Spares s (setReg s a v) :=
  ⟨fun r _ hf => getReg_setReg_ne s v (fun heq => hf (heq ▸ h)),
    fun i _ _ => congrArg (bitOf · i) (getReg_setReg_ne s v (by rintro rfl; simp [FaultReg] at h)), rfl⟩

theorem safeEntry_spares (s : State) (u src kind : Nat) (inj : Bool) : Spares s (safeEntry s u src kind inj) := by
  obtain ⟨hregs, hbits, hpatch⟩ := safeEntry_kept_regs s u src kind inj
  exact ⟨fun a ha _ => hregs a ha, hbits, hpatch⟩

theorem spares_of_eq {s t : State} (hregs : t.regs = s.regs) (hseq : t.seq = s.seq) : Spares s t :=
  ⟨fun a _ _ => by rw [getReg, getReg, hregs], fun i _ _ => by rw [getBit, getBit, getReg, getReg, hregs], by rw [hseq]⟩

theorem restartQuiet_spares (s : State) : Spares s (restartQuiet s) := by
  unfold restartQuiet
  split
  · exact spares_of_eq rfl rfl
  · exact Spares.refl s

theorem countEvent_spares (s : State) {u : Nat} (src : Nat) (hu : u < 32) : Spares s (countEvent s u src) :=
  (setReg_spares s _ (faultReg_fltBase 0 hu (by decide))).trans (setReg_spares _ _ (faultReg_fltBase 0x20 hu (by decide)))

theorem enterFault_spares (s : State) {u : Nat} (src : Nat) (inj : Bool) (hu : u < 32) : Spares s (enterFault s u src inj) := by
  have hbit : Spares s (setBit s (fltBase u + 4) src true) := setReg_spares s _ (faultReg_fltBase 4 hu (by decide))
  unfold enterFault
  extract_lets b first v w
  split
  · exact ((hbit.trans (setReg_spares v _ (faultReg_fltBase 0x14 hu (by decide)))).trans
      (setReg_spares w _ (faultReg_fltBase 0x18 hu (by decide)))).trans (setReg_spares _ _ (faultReg_fltBase 0x1C hu (by decide)))
  · exact hbit

theorem countedEvent_spares (s : State) {u : Nat} (src : Nat) (inj : Bool) (hu : u < 32) : Spares s (countedEvent s u src inj) := by
  unfold countedEvent
  split
  · exact restartQuiet_spares s
  · extract_lets c d v w
    have hv : Spares s v := spares_of_eq rfl rfl
    have hw : Spares s w := (hv.trans (enterFault_spares v src inj hu)).trans (restartQuiet_spares _)
    split
    · split
      · exact hw.trans (safeEntry_spares w u src 0 inj)
      · exact hw
    · exact hv

theorem eventAt_spares (s : State) {u : Nat} (src : Nat) (inj : Bool) (hu : u < 32) : Spares s (eventAt s u src inj) := by
  have hcount := countEvent_spares s src hu
  unfold eventAt
  split
  · exact Spares.refl s
  · exact hcount.trans (countedEvent_spares _ src inj hu)
  · exact ((hcount.trans (enterFault_spares _ src inj hu)).trans (restartQuiet_spares _)).trans (safeEntry_spares _ u src _ inj)
  · exact ((hcount.trans (enterFault_spares _ src inj hu)).trans (restartQuiet_spares _)).trans (safeEntry_spares _ u src _ inj)

theorem report_spares (s : State) {u : Nat} (src : Nat) (hu : u < 32) : Spares s (report s u src) := eventAt_spares s src false hu

end Sys2Proof.Laws
end

section
/-! SUPPORT. Mailboxes and patches (R444-R447, R455). -/

namespace Sys2Proof.Laws

open Sys2Proof.Machine Sys2Proof.Safety

theorem headPkt_of_cmd_nil {s : State} {mb : Mailbox} (h : (mailOf s mb).cmd = []) : headPkt s mb = none := by
  unfold headPkt
  extract_lets m
  rw [show m.cmd = [] from h]
  split <;> rfl

theorem headPkt_of_owed {s : State} {mb : Mailbox} {p : CmdPkt} (h : (mailOf s mb).cmd = [p]) (howed : p.owed ≠ 0) :
    headPkt s mb = none := by
  unfold headPkt
  extract_lets m
  rw [show m.cmd = [p] from h]
  split
  · simp [howed]
  · rfl

/-- Nothing is settled while no mailbox has a whole packet. -/
theorem settleMail_idle {s : State} (hhost : headPkt s .host = none) (hpartner : headPkt s .partner = none) : settleMail s = s := by
  have hnext : nextMailbox s = .partner := by rw [nextMailbox, hhost]; rfl
  rw [settleMail, answerReserved]
  simp only [hnext, hpartner]

/-- The first word of a packet opens it (R445). -/
theorem pushWord_opens {s : State} {mb : Mailbox} {w : Word} (hempty : (mailOf s mb).cmd = [])
    (hfit : mb = .partner → hdrLength w ≤ 31) :
    pushWord s mb w = setMail s mb { mailOf s mb with cmd := [⟨w, [], 1, hdrLength w, false, false⟩] } := by
  have hopen : openPkt (mailOf s mb) = none := by rw [openPkt, hempty]; rfl
  have hstart : startPkt (mailOf s mb) (mailCap mb) w =
      ({ mailOf s mb with cmd := [⟨w, [], 1, hdrLength w, false, false⟩] }, false) := by
    have hfull : decide (mailCap mb ≤ fifoWords (mailOf s mb)) = false := by
      rw [fifoWords, hempty]
      cases mb <;> rfl
    unfold startPkt
    extract_lets full p
    have hf : full = false := hfull
    have hp : p = ⟨w, [], 1, hdrLength w, false, false⟩ := by
      show (⟨w, [], b2n (!full), hdrLength w, full, false⟩ : CmdPkt) = _
      rw [hf]
      rfl
    rw [hf, hp, hempty]
    rfl
  unfold pushWord
  extract_lets m
  rw [show openPkt m = none from hopen]
  dsimp only
  rw [if_neg (by rintro ⟨hmb, hlen⟩; have := hfit hmb; omega), show startPkt m (mailCap mb) w = _ from hstart]
  rfl

theorem cmdWr_completes (s : State) (w : Word) (hfree : PortFree s) (hready : readyLink s = true) (hhost : s.seq.host.cmd = [])
    (hpartner : s.seq.partner.cmd = []) (hlen : hdrLength w ≠ 0) : Completes (.cmdWr w) s (fun t =>
      t.seq.host.cmd = [⟨w, [], 1, hdrLength w, false, false⟩] ∧ t.seq.partner = s.seq.partner ∧ t.seq.run = s.seq.run ∧
      t.seq.host.reply = s.seq.host.reply) := by
  refine completes_cpWrite rfl hfree ⟨rfl, by decide, rfl⟩ ?_
  have hframe := onlyRegs_storeReg (portTook s) 0x350000 w
  have hbut : RegsBut 0x350000 s (storeReg (portTook s) 0x350000 w) := regsBut_storeReg (portTook s) w (by decide)
  rw [regWrite_device _ _ (by decide) (by decide)]
  generalize storeReg (portTook s) 0x350000 w = u at hframe hbut ⊢
  have hdev : deviceWrite u (portTook s) 0x350000 w = mailWrite u .host w := rfl
  have hseq : u.seq = s.seq := by rw [hframe]; rfl
  have hready' : readyLink u = true := (congrArg (bitOf · 0) (hbut 0x14 (by decide))).trans hready
  have hempty : (mailOf u .host).cmd = [] := by rw [mailOf, hseq]; exact hhost
  rw [hdev, mailWrite, if_pos hready', pushWord_opens hempty (fun h => by contradiction)]
  rw [settleMail_idle (s := setMail u .host { mailOf u .host with cmd := [⟨w, [], 1, hdrLength w, false, false⟩] }) (headPkt_of_owed (p := ⟨w, [], 1, hdrLength w, false, false⟩) rfl hlen)
    (headPkt_of_cmd_nil (show u.seq.partner.cmd = [] by rw [hseq]; exact hpartner))]
  exact ⟨rfl, congrArg (·.partner) hseq, congrArg (·.run) hseq, congrArg (·.host.reply) hseq⟩

theorem mailRead_cons {s : State} {mb : Mailbox} {w : Word} {l : List Word} (h : (mailOf s mb).reply = w :: l) :
    mailRead s mb = (setMail s mb { mailOf s mb with reply := l }, w) := by
  unfold mailRead
  extract_lets m
  rw [show m.reply = w :: l from h]

theorem cmdRd_completes (s : State) (w : Word) (l : List Word) (hfree : PortFree s) (hreply : s.seq.host.reply = w :: l) :
    Completes .cmdRd s (fun t =>
      t.pins.cpRdata = w ∧ t.seq = { s.seq with host := { s.seq.host with reply := l } } ∧ t.regs = s.regs) := by
  refine completes_of_guarded_defined (t := cpRead s 0x350004) rfl (defined_of_portFree hfree) ?_
  rw [cpRead_of_known hfree (by decide) rfl (by decide), regRead, if_pos rfl,
    mailRead_cons (show (mailOf (portTook s) .host).reply = w :: l from hreply)]
  exact ⟨rfl, rfl, rfl⟩

-- the flush

theorem sendReply_partner_host (s : State) (hdr : Word) (st : Nat) (d : List Word) :
    (sendReply s .partner hdr st d).seq.host = s.seq.host := by
  unfold sendReply
  split
  · rfl
  · unfold pushReply
    extract_lets m u
    split
    · rw [if_pos rfl, (wakePme_undisturbed _).seq]
      rfl
    · rfl

/-- Packets of the partner that have no rule leave the host's mailbox. -/
theorem answerReserved_host (n : Nat) {s : State} (h : s.seq.host.cmd = []) : (answerReserved n s).seq.host = s.seq.host := by
  induction n generalizing s with
  | zero => rfl
  | succ n ih =>
    have hnext : nextMailbox s = .partner := by
      rw [nextMailbox, headPkt_of_cmd_nil (mb := .host) h]
      rfl
    rw [answerReserved]
    simp only [hnext]
    cases headPkt s .partner with
    | none => rfl
    | some p =>
      dsimp only
      split
      · rfl
      · have hhost : (sendReply (popPkt s .partner) .partner p.hdr (reservedStatus s .partner p) []).seq.host = s.seq.host :=
          (sendReply_partner_host _ _ _ _).trans rfl
        rw [ih (by rw [hhost]; exact h), hhost]

theorem settleMail_host {s : State} (h : s.seq.host.cmd = []) : (settleMail s).seq.host = s.seq.host := answerReserved_host 300 h

theorem deviceWrite_cmdCtl (s old : State) (v : Word) :
    deviceWrite s old 0x350014 v = if bitOf v 17 then settleMail (flushMail s) else s := by
  unfold deviceWrite
  rw [if_neg (by decide)]
  rfl

theorem flush_completes (s : State) (hfree : PortFree s) : Completes .flush s (fun t =>
    t.seq.host = freshMail ∧ (s.seq.partner.cmd = [] → t.seq.partner = s.seq.partner)) := by
  refine completes_cpWrite (v := bitsTo (getReg s 0x350014) 17 1 1) rfl hfree ⟨rfl, by decide, rfl⟩ ?_
  have hv := bitOf_bitsTo_one (getReg s 0x350014) (i := 17) (by decide)
  generalize bitsTo (getReg s 0x350014) 17 1 1 = v at hv ⊢
  have hframe := onlyRegs_storeReg (portTook s) 0x350014 v
  rw [regWrite_device _ _ (by decide) (by decide)]
  generalize storeReg (portTook s) 0x350014 v = u at hframe ⊢
  have hdev := deviceWrite_cmdCtl u (portTook s) v
  have hseq : u.seq = s.seq := by rw [hframe]; rfl
  have hhost : (flushMail u).seq.host = freshMail := rfl
  have hpartner : (flushMail u).seq.partner = s.seq.partner := congrArg (·.partner) hseq
  rw [hdev, if_pos hv]
  generalize flushMail u = f at hhost hpartner ⊢
  have hkeep := settleMail_host (show f.seq.host.cmd = [] by rw [hhost]; rfl)
  refine ⟨hkeep.trans hhost, fun hnil => ?_⟩
  rw [settleMail_idle (headPkt_of_cmd_nil (show f.seq.host.cmd = [] by rw [hhost]; rfl))
    (headPkt_of_cmd_nil (show f.seq.partner.cmd = [] by rw [hpartner]; exact hnil))]
  exact hpartner

-- the partner's mailbox

theorem linkDead_of_claims {s : State} (hawake : Awake s) (h : claimsMemory s = true) : linkDead s = false := by
  obtain ⟨-, hrun⟩ := hawake
  simp only [claimsMemory, Bool.and_eq_true, Bool.not_eq_true'] at h
  obtain ⟨⟨⟨hup, -⟩, hflr⟩, -⟩ := h
  rw [linkDead, hrun, hup]
  simpa using hflr

theorem partnerMailboxWrite_completes (s : State) (w : Word) (hawake : Awake s) (hclaims : claimsMemory s = true)
    (hready : readyLink s = true) (hhost : s.seq.host.cmd = []) (hpartner : s.seq.partner.cmd = []) (hlen : hdrLength w ≠ 0)
    (hfit : hdrLength w ≤ 31) : Completes (.partnerMailboxWrite w) s (fun t =>
      t.seq = { s.seq with partner := { s.seq.partner with cmd := [⟨w, [], 1, hdrLength w, false, false⟩] } }) := by
  refine completes_of_guarded_defined (t := partnerWriteEffect s w) rfl hawake.1 ?_
  rw [partnerWriteEffect, linkDead_of_claims hawake hclaims, hclaims, if_neg (by decide), if_neg (by decide), mailWrite, if_pos hready,
    pushWord_opens (mb := .partner) hpartner (fun _ => hfit),
    settleMail_idle (s := setMail s .partner { mailOf s .partner with cmd := [⟨w, [], 1, hdrLength w, false, false⟩] })
      (headPkt_of_cmd_nil (mb := .host) hhost)
      (headPkt_of_owed (mb := .partner) (p := ⟨w, [], 1, hdrLength w, false, false⟩) rfl hlen)]
  rfl

theorem partnerMailboxRead_completes (s : State) (w : Word) (l : List Word) (hawake : Awake s) (hclaims : claimsMemory s = true)
    (hreply : s.seq.partner.reply = w :: l) : Completes (.partnerMailboxRead 4) s (fun t =>
      t.seq = { s.seq with partner := { s.seq.partner with reply := l } } ∧
      t.twin.out = s.twin.out ++ [.cpl 0 0 0 (wordBytes w) false]) := by
  refine completes_of_guarded_defined (t := partnerReadEffect s 4) rfl hawake.1 ?_
  rw [partnerReadEffect, linkDead_of_claims hawake hclaims, hclaims, if_neg (by decide), if_neg (by decide), if_pos rfl,
    mailRead_cons (mb := .partner) hreply]
  exact ⟨rfl, rfl⟩

theorem replyMove_completes (s : State) (r : List Word) (l : List (List Word)) (hawake : Awake s) (hheld : s.seq.host.held = r :: l)
    (hroom : s.seq.host.reply.length + r.length ≤ 256) (hhost : s.seq.host.cmd = []) (hpartner : s.seq.partner.cmd = []) :
    Completes (.replyMove .host) s (fun t =>
      t.seq = { s.seq with host := { s.seq.host with reply := s.seq.host.reply ++ r, held := l } } ∧
      getBit t 0x35000C 0 = true ∧ RegsBut 0x35000C s t) := by
  refine completes_of_guarded_defined (t := if running s then replyMoveEffect s .host else s) rfl hawake.1 ?_
  have hset := getBit_setBit_same (setMail s .host { s.seq.host with reply := s.seq.host.reply ++ r, held := l }) 0x35000C true
    (show 0 < 32 by decide)
  have hbut : RegsBut 0x35000C s (setBit (setMail s .host { s.seq.host with reply := s.seq.host.reply ++ r, held := l }) 0x35000C 0 true) :=
    fun b hb => (getReg_setBit_ne _ _ _ hb).trans (getReg_setMail s .host _ b)
  have hseq : (setBit (setMail s .host { s.seq.host with reply := s.seq.host.reply ++ r, held := l }) 0x35000C 0 true).seq =
      { s.seq with host := { s.seq.host with reply := s.seq.host.reply ++ r, held := l } } := rfl
  have heff : replyMoveEffect s .host =
      settleMail (setBit (setMail s .host { s.seq.host with reply := s.seq.host.reply ++ r, held := l }) 0x35000C 0 true) := by
    unfold replyMoveEffect
    extract_lets m
    rw [show m.held = r :: l from hheld]
    dsimp only
    rw [if_pos (show m.reply.length + r.length ≤ mailCap .host from hroom), if_neg (by decide)]
    rfl
  rw [if_pos hawake.2, heff]
  obtain ⟨u, hu⟩ : ∃ u, u = setBit (setMail s .host { s.seq.host with reply := s.seq.host.reply ++ r, held := l }) 0x35000C 0 true :=
    ⟨_, rfl⟩
  rw [← hu] at hset hbut hseq ⊢
  rw [settleMail_idle (headPkt_of_cmd_nil (show u.seq.host.cmd = [] by rw [hseq]; exact hhost))
    (headPkt_of_cmd_nil (show u.seq.partner.cmd = [] by rw [hseq]; exact hpartner))]
  exact ⟨hseq, hset, hbut⟩

-- patches

/-- The store of APPLY to PATCH_CTL. -/
theorem patchApply_eq {s : State} {P : State → Prop} (hfree : PortFree s)
    (hP : ∀ u, OnlyRegs (portTook s) u → RegsBut 0x350020 s u → P { patchApplyEffect u with pending := s.pending }) :
    Completes .patchApply s P := by
  refine completes_cpWrite (v := 1) rfl hfree ⟨rfl, by decide, rfl⟩ ?_
  rw [regWrite_device _ _ (by decide) (by decide)]
  exact hP _ (onlyRegs_storeReg (portTook s) 0x350020 1) (regsBut_storeReg (portTook s) 1 (by decide))

theorem patchApply_starts (s : State) (hfree : PortFree s) (hmode : curMode s = 1 ∨ curMode s = 2) :
    Completes .patchApply s (fun t => t.seq = { s.seq with patchBusy := true } ∧ KeepsMemory s t) := by
  refine patchApply_eq hfree fun u hframe hbut => ?_
  have hmode' : curMode u = curMode s := congrArg (bitsOf · 0 4) (hbut 0x10 (by decide))
  rw [patchApplyEffect, if_pos (by rw [hmode']; exact hmode), hframe]
  exact ⟨rfl, rfl, rfl, rfl⟩

/-- The result of a patch that is refused stands in its register through the report. -/
theorem patchFailed_report (u : State) {r : Nat} (hr : r < 8) :
    let t := report (setBit (setFld u 0x350024 2 3 r) 0x35000C 6 true) 26 9
    getFld t 0x350024 2 3 = r ∧ getBit t 0x35000C 6 = true ∧ t.seq.patchBusy = u.seq.patchBusy := by
  intro t
  have hset := getBit_setBit_same (setFld u 0x350024 2 3 r) 0x35000C true (show 6 < 32 by decide)
  have hfld : getFld (setBit (setFld u 0x350024 2 3 r) 0x35000C 6 true) 0x350024 2 3 = r := by
    rw [getFld, getReg_setBit_ne _ _ _ (by decide)]
    exact (getFld_setFld_same u 0x350024 r (by decide)).trans (Nat.mod_eq_of_lt hr)
  have hbusy : (setBit (setFld u 0x350024 2 3 r) 0x35000C 6 true).seq.patchBusy = u.seq.patchBusy := rfl
  obtain ⟨w, hw⟩ : ∃ w, w = setBit (setFld u 0x350024 2 3 r) 0x35000C 6 true := ⟨_, rfl⟩
  have ht : t = report w 26 9 := by rw [hw]
  rw [← hw] at hset hfld hbusy
  rw [ht]
  obtain ⟨hregs, hevents, hpatch⟩ := report_spares w 9 (show 26 < 32 by decide)
  exact ⟨(congrArg (bitsOf · 2 3) (hregs 0x350024 (by simp [SparedReg, QuietReg]) (by simp [FaultReg]))).trans hfld,
    (hevents 6 (by decide) (by decide)).trans hset, hpatch.trans hbusy⟩

theorem patchApply_refused (s : State) (hfree : PortFree s) (h1 : curMode s ≠ 1) (h2 : curMode s ≠ 2) :
    Completes .patchApply s (fun t =>
      getFld t 0x350024 2 3 = 5 ∧ getBit t 0x35000C 6 = true ∧ t.seq.patchBusy = s.seq.patchBusy) := by
  refine patchApply_eq hfree fun u hframe hbut => ?_
  have hmode : curMode u = curMode s := congrArg (bitsOf · 0 4) (hbut 0x10 (by decide))
  have hseq : u.seq = s.seq := by rw [hframe]; rfl
  rw [patchApplyEffect, if_neg (by rw [hmode]; rintro (h | h) <;> contradiction)]
  obtain ⟨hfld, hset, hbusy⟩ := patchFailed_report u (show 5 < 8 by decide)
  generalize report (setBit (setFld u 0x350024 2 3 5) 0x35000C 6 true) 26 9 = t at hfld hset hbusy
  exact ⟨hfld, hset, hbusy.trans (congrArg (·.patchBusy) hseq)⟩

theorem patchVerify_eq {s : State} {ok : Bool} (hawake : Awake s) (hbusy : s.seq.patchBusy = true) : patchVerifyEffect s ok =
    if patchResult s ok = 0 then
      setFld (setBit (setBit (setFld { s with seq := { s.seq with patchBusy := false } } 0x350024 2 3 (patchResult s ok)) 0x35000C 6 true)
        0x350024 0 true) 0x350024 16 16 (bitsOf (patchWord s 2) 0 16)
    else report (setBit (setFld { s with seq := { s.seq with patchBusy := false } } 0x350024 2 3 (patchResult s ok)) 0x35000C 6 true) 26 9 := by
  rw [patchVerifyEffect, if_pos ⟨hawake.2, hbusy⟩]
  rfl

theorem seq_setFld (s : State) (a lo n v : Nat) : (setFld s a lo n v).seq = s.seq := rfl

theorem seq_setBit (s : State) (a i : Nat) (b : Bool) : (setBit s a i b).seq = s.seq := rfl

theorem keepsMemory_setFld {s u : State} {a : Nat} (lo n v : Nat) (h : KeepsMemory s u) : KeepsMemory s (setFld u a lo n v) := h

theorem patchVerify_applies (s : State) (ok : Bool) (hawake : Awake s) (hbusy : s.seq.patchBusy = true) (hr : patchResult s ok = 0) :
    Completes (.patchVerifyComplete ok) s (fun t =>
      t.seq = { s.seq with patchBusy := false } ∧ getFld t 0x350024 2 3 = 0 ∧ getBit t 0x350024 0 = true ∧
      getFld t 0x350024 16 16 = bitsOf (patchWord s 2) 0 16 ∧ getBit t 0x35000C 6 = true ∧ KeepsMemory s t) := by
  refine completes_of_guarded_defined (t := patchVerifyEffect s ok) rfl hawake.1 ?_
  rw [patchVerify_eq hawake hbusy, if_pos hr, hr]
  have hrel : bitsOf (patchWord s 2) 0 16 % 2 ^ 16 = bitsOf (patchWord s 2) 0 16 :=
    Nat.mod_eq_of_lt (Nat.mod_lt _ (by decide))
  generalize bitsOf (patchWord s 2) 0 16 = rel at hrel ⊢
  obtain ⟨u, hu⟩ : ∃ u, u = { s with seq := { s.seq with patchBusy := false } } := ⟨_, rfl⟩
  have hfld := getFld_setFld_same u 0x350024 0 (show 2 + 3 ≤ 32 by decide)
  have hset := getBit_setBit_same (setFld u 0x350024 2 3 0) 0x35000C true (show 6 < 32 by decide)
  have hreg := getReg_setBit_ne (setFld u 0x350024 2 3 0) 6 true (show 0x350024 ≠ 0x35000C by decide)
  have hseq : (setBit (setFld u 0x350024 2 3 0) 0x35000C 6 true).seq = { s.seq with patchBusy := false } ∧
      KeepsMemory s (setBit (setFld u 0x350024 2 3 0) 0x35000C 6 true) := by
    rw [hu]
    exact ⟨rfl, rfl, rfl, rfl⟩
  rw [← hu]
  obtain ⟨w, hw⟩ : ∃ w, w = setBit (setFld u 0x350024 2 3 0) 0x35000C 6 true := ⟨_, rfl⟩
  rw [← hw] at hset hreg hseq ⊢
  have hfld' : getFld w 0x350024 2 3 = 0 := (congrArg (bitsOf · 2 3) hreg).trans hfld
  have h1 : getFld (setFld (setBit w 0x350024 0 true) 0x350024 16 16 rel) 0x350024 2 3 = 0 := by
    rw [getFld_setFld_ne _ _ _ (by decide) (by decide)]
    exact (getFld_setFld_ne w _ _ (by decide) (by decide)).trans hfld'
  have h2 : getBit (setFld (setBit w 0x350024 0 true) 0x350024 16 16 rel) 0x350024 0 = true := by
    rw [getBit_setFld_ne _ _ _ (by decide) (by decide), getBit_setBit_same _ _ _ (by decide)]
  have h3 : getFld (setFld (setBit w 0x350024 0 true) 0x350024 16 16 rel) 0x350024 16 16 = rel :=
    (getFld_setFld_same _ 0x350024 rel (by decide)).trans hrel
  have h4 : getBit (setFld (setBit w 0x350024 0 true) 0x350024 16 16 rel) 0x35000C 6 = true := by
    rw [getBit_setFld_reg_ne _ _ _ _ _ (by decide), getBit_setBit_reg_ne _ _ _ _ (by decide), hset]
  have h5 := hseq.1
  rw [← seq_setBit w 0x350024 0 true, ← seq_setFld _ 0x350024 16 16 rel] at h5
  have h6 := keepsMemory_setFld (a := 0x350024) 16 16 rel (keepsMemory_setBit (a := 0x350024) (b := true) 0 hseq.2)
  obtain ⟨t, ht⟩ : ∃ t, t = setFld (setBit w 0x350024 0 true) 0x350024 16 16 rel := ⟨_, rfl⟩
  rw [← ht] at h1 h2 h3 h4 h5 h6 ⊢
  exact ⟨h5, h1, h2, h3, h4, h6⟩

theorem patchVerify_rejects (s : State) (ok : Bool) (hawake : Awake s) (hbusy : s.seq.patchBusy = true) (hr : patchResult s ok ≠ 0) :
    exec (.patchVerifyComplete ok) s = resume s (report (setBit (setFld
      { s with seq := { s.seq with patchBusy := false } } 0x350024 2 3 (patchResult s ok)) 0x35000C 6 true) 26 9) := by
  refine (guarded_defined (patchVerifyEffect s ok) hawake.1).trans (congrArg (resume s) ?_)
  rw [patchVerify_eq hawake hbusy, if_neg hr]

end Sys2Proof.Laws
end

section
/-! PROOF. O23: mailboxes and patches. -/

namespace Sys2Proof.Proofs

open Sys2Proof.Machine Sys2Proof.Safety Sys2Proof.Laws

/-- Settles O23: each mailbox step by the packet that it opens or the reply that it moves, each patch step by its result. -/
theorem mailboxesAndPatches : Obligations.MailboxesAndPatches :=
  ⟨cmdWr_completes, cmdRd_completes, flush_completes, partnerMailboxWrite_completes, partnerMailboxRead_completes,
    replyMove_completes, patchApply_starts, patchApply_refused, patchVerify_applies, patchVerify_rejects⟩

end Sys2Proof.Proofs
end

section
/-! SUPPORT. Which parts of the state an operation may touch, and that it keeps the canonical form of the register file and of
DRAM. The relation is closed under composition, so each function of the model needs one lemma that follows its definition. -/

namespace Sys2Proof.Laws

open Sys2Proof.Machine Sys2Proof.Safety

/-- A set of the parts of the state. -/
structure Parts where
  regs : Bool := false
  tick : Bool := false
  ports : Bool := false
  spine : Bool := false
  slices : Bool := false
  chans : Bool := false
  dram : Bool := false
  faults : Bool := false
  mirror : Bool := false
  twin : Bool := false
  seq : Bool := false
  obs : Bool := false
  aon : Bool := false
  pins : Bool := false
  undef : Bool := false
  free : Bool := false
  pending : Bool := false
  unfence : Bool := false

/-- `K` lies within `L`. -/
def Parts.within (K L : Parts) : Bool :=
  (!K.regs || L.regs) && (!K.tick || L.tick) && (!K.ports || L.ports) && (!K.spine || L.spine) && (!K.slices || L.slices) &&
  (!K.chans || L.chans) && (!K.dram || L.dram) && (!K.faults || L.faults) && (!K.mirror || L.mirror) && (!K.twin || L.twin) &&
  (!K.seq || L.seq) && (!K.obs || L.obs) && (!K.aon || L.aon) && (!K.pins || L.pins) && (!K.undef || L.undef) &&
  (!K.free || L.free) && (!K.pending || L.pending) && (!K.unfence || L.unfence)

/-- `s` with the parts in `K` taken from `t`. -/
def Parts.merge (K : Parts) (s t : State) : State :=
  { regs := if K.regs then t.regs else s.regs
    tick := if K.tick then t.tick else s.tick
    ports := if K.ports then t.ports else s.ports
    spine := if K.spine then t.spine else s.spine
    slices := if K.slices then t.slices else s.slices
    chans := if K.chans then t.chans else s.chans
    dram := if K.dram then t.dram else s.dram
    faults := if K.faults then t.faults else s.faults
    mirror := if K.mirror then t.mirror else s.mirror
    twin := if K.twin then t.twin else s.twin
    seq := if K.seq then t.seq else s.seq
    obs := if K.obs then t.obs else s.obs
    aon := if K.aon then t.aon else s.aon
    pins := if K.pins then t.pins else s.pins
    undef := if K.undef then t.undef else s.undef
    free := if K.free then t.free else s.free
    pending := if K.pending then t.pending else s.pending }

/-- `t` differs from `s` in the parts of `K` alone, is in canonical form where `s` is, and unless `K` says so has every fence of
`s`. -/
structure Touches (K : Parts) (s t : State) : Prop where
  frame : t = K.merge s t
  canonical : Canonical s → Canonical t
  fences : K.unfence = false → ∀ n, (port s n).fenced = true → (port t n).fenced = true

/-- The parts of either set. -/
def Parts.plus (K L : Parts) : Parts :=
  { regs := K.regs || L.regs
    tick := K.tick || L.tick
    ports := K.ports || L.ports
    spine := K.spine || L.spine
    slices := K.slices || L.slices
    chans := K.chans || L.chans
    dram := K.dram || L.dram
    faults := K.faults || L.faults
    mirror := K.mirror || L.mirror
    twin := K.twin || L.twin
    seq := K.seq || L.seq
    obs := K.obs || L.obs
    aon := K.aon || L.aon
    pins := K.pins || L.pins
    undef := K.undef || L.undef
    free := K.free || L.free
    pending := K.pending || L.pending
    unfence := K.unfence || L.unfence }

/-- What the report of an event can reach through a Safe reaction. -/
def reaction : Parts :=
  { regs := true, ports := true, spine := true, slices := true, chans := true, faults := true, twin := true, seq := true, obs := true,
    aon := true }

variable {K L : Parts} {s t u : State} {α : Type}

/-- One part of a merge under a larger set. -/
theorem part_within {β : Type} {k l : Bool} {x y : β} (h : k = false ∨ l = true) (hy : y = if k then y else x) :
    y = if l then y else x := by
  cases l with
  | true => rfl
  | false =>
    rcases h with rfl | hl
    · exact hy
    · contradiction

theorem Parts.merge_within (h : K.within L = true) (hm : t = K.merge s t) : t = L.merge s t := by
  simp only [Parts.within, Bool.and_eq_true, Bool.or_eq_true, Bool.not_eq_true', and_assoc] at h
  obtain ⟨h1, h2, h3, h4, h5, h6, h7, h8, h9, h10, h11, h12, h13, h14, h15, h16, h17, -⟩ := h
  show State.mk _ _ _ _ _ _ _ _ _ _ _ _ _ _ _ _ _ = State.mk _ _ _ _ _ _ _ _ _ _ _ _ _ _ _ _ _
  congr 1
  exacts [part_within h1 (congrArg State.regs hm), part_within h2 (congrArg State.tick hm),
    part_within h3 (congrArg State.ports hm), part_within h4 (congrArg State.spine hm),
    part_within h5 (congrArg State.slices hm), part_within h6 (congrArg State.chans hm),
    part_within h7 (congrArg State.dram hm), part_within h8 (congrArg State.faults hm),
    part_within h9 (congrArg State.mirror hm), part_within h10 (congrArg State.twin hm),
    part_within h11 (congrArg State.seq hm), part_within h12 (congrArg State.obs hm),
    part_within h13 (congrArg State.aon hm), part_within h14 (congrArg State.pins hm),
    part_within h15 (congrArg State.undef hm), part_within h16 (congrArg State.free hm),
    part_within h17 (congrArg State.pending hm)]

theorem Parts.unfence_within (h : K.within L = true) (hl : L.unfence = false) : K.unfence = false := by
  simp only [Parts.within, Bool.and_eq_true, hl] at h
  simpa using h.2

theorem Parts.merge_merge (K : Parts) (s t u : State) : K.merge (K.merge s t) u = K.merge s u := by
  have part : ∀ {β : Type} (k : Bool) (x y z : β), (if k then z else if k then y else x) = if k then z else x := by
    intro β k x y z
    cases k <;> rfl
  simp only [Parts.merge, part]

-- composition

theorem Touches.refl (s : State) : Touches K s s := by
  refine ⟨?_, id, fun _ _ h => h⟩
  simp only [Parts.merge, ite_self]

theorem Touches.comp (h : Touches K t u) (h₀ : Touches K s t) : Touches K s u := by
  refine ⟨?_, fun hs => h.canonical (h₀.canonical hs), fun hk n hf => h.fences hk n (h₀.fences hk n hf)⟩
  calc u = K.merge t u := h.frame
    _ = K.merge (K.merge s t) u := by rw [← h₀.frame]
    _ = K.merge s u := Parts.merge_merge K s t u

theorem Touches.mono (h : Touches K s t) (hkl : K.within L = true) : Touches L s t :=
  ⟨Parts.merge_within hkl h.frame, h.canonical, fun hl => h.fences (Parts.unfence_within hkl hl)⟩

/-- An operation after another one. -/
theorem Touches.after (h : Touches L t u) (hkl : L.within K = true) (h₀ : Touches K s t) : Touches K s u := (h.mono hkl).comp h₀

theorem Touches.ite {c : Prop} [Decidable c] (h : Touches K s t) (h' : Touches K s u) : Touches K s (if c then t else u) := by
  split
  · exact h
  · exact h'

theorem Touches.ite_fst {c : Prop} [Decidable c] {p q : State × α} (h : Touches K s p.1) (h' : Touches K s q.1) :
    Touches K s (if c then p else q).1 := by
  split
  · exact h
  · exact h'

theorem Touches.ite_snd {c : Prop} [Decidable c] {p q : α × State} (h : Touches K s p.2) (h' : Touches K s q.2) :
    Touches K s (if c then p else q).2 := by
  split
  · exact h
  · exact h'

theorem Touches.elim {o : Option α} {f : α → State} (h : Touches K s t) (h' : ∀ a, Touches K s (f a)) : Touches K s (o.elim t f) := by
  cases o with
  | none => exact h
  | some a => exact h' a

theorem Touches.foldl {f : State → α → State} (h : ∀ s a, Touches K s (f s a)) : ∀ (l : List α) (s : State), Touches K s (l.foldl f s)
  | [], s => Touches.refl s
  | a :: l, s => (Touches.foldl h l (f s a)).comp (h s a)

theorem Touches.forEach {f : State → Nat → State} (h : ∀ s n, Touches K s (f s n)) (n : Nat) (s : State) :
    Touches K s (Machine.forEach n s f) := Touches.foldl h _ s

theorem Touches.foldl_pair {β : Type} {f : State × β → α → State × β} (h : ∀ p a, Touches K p.1 (f p a).1) :
    ∀ (l : List α) (p : State × β), Touches K p.1 (l.foldl f p).1
  | [], p => Touches.refl p.1
  | a :: l, p => (Touches.foldl_pair h l (f p a)).comp (h p a)

theorem Touches.foldl_fst {β : Type} {f : State × β → α → State × β} (h : ∀ p a, Touches K p.1 (f p a).1) (l : List α) (s : State)
    (b : β) : Touches K s (l.foldl f (s, b)).1 := Touches.foldl_pair h l (s, b)

theorem Touches.fst {a : α} (h : Touches K s t) : Touches K s (t, a).1 := h

theorem Touches.snd {a : α} (h : Touches K s t) : Touches K s (a, t).2 := h

/-- The state of a pair, once the pair is taken apart. -/
theorem Touches.of_pair {p : State × α} {a : α} (heq : p = (t, a)) (h : Touches K s p.1) : Touches K s t := by
  rw [heq] at h
  exact h

theorem Touches.of_snd {p : α × State} {a : α} (heq : p = (a, t)) (h : Touches K s p.2) : Touches K s t := by
  rw [heq] at h
  exact h

-- the parts that stay

theorem Touches.regs (h : Touches K s t) (hk : K.regs = false) : t.regs = s.regs := by
  rw [h.frame, Parts.merge, hk]
  rfl

theorem Touches.tick (h : Touches K s t) (hk : K.tick = false) : t.tick = s.tick := by
  rw [h.frame, Parts.merge, hk]
  rfl

theorem Touches.ports (h : Touches K s t) (hk : K.ports = false) : t.ports = s.ports := by
  rw [h.frame, Parts.merge, hk]
  rfl

theorem Touches.spine (h : Touches K s t) (hk : K.spine = false) : t.spine = s.spine := by
  rw [h.frame, Parts.merge, hk]
  rfl

theorem Touches.slices (h : Touches K s t) (hk : K.slices = false) : t.slices = s.slices := by
  rw [h.frame, Parts.merge, hk]
  rfl

theorem Touches.chans (h : Touches K s t) (hk : K.chans = false) : t.chans = s.chans := by
  rw [h.frame, Parts.merge, hk]
  rfl

theorem Touches.dram (h : Touches K s t) (hk : K.dram = false) : t.dram = s.dram := by
  rw [h.frame, Parts.merge, hk]
  rfl

theorem Touches.faults (h : Touches K s t) (hk : K.faults = false) : t.faults = s.faults := by
  rw [h.frame, Parts.merge, hk]
  rfl

theorem Touches.mirror (h : Touches K s t) (hk : K.mirror = false) : t.mirror = s.mirror := by
  rw [h.frame, Parts.merge, hk]
  rfl

theorem Touches.twin (h : Touches K s t) (hk : K.twin = false) : t.twin = s.twin := by
  rw [h.frame, Parts.merge, hk]
  rfl

theorem Touches.seq (h : Touches K s t) (hk : K.seq = false) : t.seq = s.seq := by
  rw [h.frame, Parts.merge, hk]
  rfl

theorem Touches.obs (h : Touches K s t) (hk : K.obs = false) : t.obs = s.obs := by
  rw [h.frame, Parts.merge, hk]
  rfl

theorem Touches.aon (h : Touches K s t) (hk : K.aon = false) : t.aon = s.aon := by
  rw [h.frame, Parts.merge, hk]
  rfl

theorem Touches.pins (h : Touches K s t) (hk : K.pins = false) : t.pins = s.pins := by
  rw [h.frame, Parts.merge, hk]
  rfl

theorem Touches.undef (h : Touches K s t) (hk : K.undef = false) : t.undef = s.undef := by
  rw [h.frame, Parts.merge, hk]
  rfl

theorem Touches.free (h : Touches K s t) (hk : K.free = false) : t.free = s.free := by
  rw [h.frame, Parts.merge, hk]
  rfl

theorem Touches.pending (h : Touches K s t) (hk : K.pending = false) : t.pending = s.pending := by
  rw [h.frame, Parts.merge, hk]
  rfl

-- one part replaced

theorem touches_tick (s : State) (x : Nat) : Touches { tick := true } s { s with tick := x } := ⟨rfl, id, fun _ _ h => h⟩

theorem touches_ports (s : State) (x : Vector Port 24) (h : ∀ (n : Nat) (hn : n < 24), s.ports[n].fenced = true → x[n].fenced = true) :
    Touches { ports := true } s { s with ports := x } := by
  refine ⟨rfl, id, fun _ n hf => ?_⟩
  unfold port at hf ⊢
  split
  · next hn =>
    rw [dif_pos hn] at hf
    exact h n hn hf
  · rfl

/-- The fence of a port may end. -/
theorem touches_ports_unfence (s : State) (x : Vector Port 24) : Touches { ports := true, unfence := true } s { s with ports := x } :=
  ⟨rfl, id, fun h => Bool.noConfusion h⟩

theorem touches_spine (s : State) (x : Spine) : Touches { spine := true } s { s with spine := x } := ⟨rfl, id, fun _ _ h => h⟩

theorem touches_slices (s : State) (x : Vector Slice 8) : Touches { slices := true } s { s with slices := x } := ⟨rfl, id, fun _ _ h => h⟩

theorem touches_chans (s : State) (x : Vector Chan 16) : Touches { chans := true } s { s with chans := x } := ⟨rfl, id, fun _ _ h => h⟩

theorem touches_faults (s : State) (x : Faults) : Touches { faults := true } s { s with faults := x } := ⟨rfl, id, fun _ _ h => h⟩

theorem touches_mirror (s : State) (x : Mirror) : Touches { mirror := true } s { s with mirror := x } := ⟨rfl, id, fun _ _ h => h⟩

theorem touches_twin (s : State) (x : Twin) : Touches { twin := true } s { s with twin := x } := ⟨rfl, id, fun _ _ h => h⟩

theorem touches_seq (s : State) (x : Machine.Seq) : Touches { seq := true } s { s with seq := x } := ⟨rfl, id, fun _ _ h => h⟩

theorem touches_obs (s : State) (x : Obs) : Touches { obs := true } s { s with obs := x } := ⟨rfl, id, fun _ _ h => h⟩

theorem touches_aon (s : State) (x : Aon) : Touches { aon := true } s { s with aon := x } := ⟨rfl, id, fun _ _ h => h⟩

theorem touches_pins (s : State) (x : Pins) : Touches { pins := true } s { s with pins := x } := ⟨rfl, id, fun _ _ h => h⟩

theorem touches_undef (s : State) (x : Bool) : Touches { undef := true } s { s with undef := x } := ⟨rfl, id, fun _ _ h => h⟩

theorem touches_free (s : State) (x : Nat) : Touches { free := true } s { s with free := x } := ⟨rfl, id, fun _ _ h => h⟩

theorem touches_pending (s : State) (x : List Instr) : Touches { pending := true } s { s with pending := x } := ⟨rfl, id, fun _ _ h => h⟩

theorem touches_setReg (s : State) (a : Nat) (v : Word) : Touches { regs := true } s (setReg s a v) :=
  ⟨rfl, fun h => ⟨cellsWf_set a v h.1, h.2⟩, fun _ _ h => h⟩

theorem touches_resetRegs (s : State) (lo hi : Nat) : Touches { regs := true } s (resetRegs s lo hi) :=
  ⟨rfl, fun h => ⟨regsWf_resetRegs h.1 lo hi, h.2⟩, fun _ _ h => h⟩

theorem touches_dramSet (s : State) (k : Nat) (v : LineData) : Touches { dram := true } s (dramSet s k v) :=
  ⟨rfl, fun h => ⟨h.1, cellsWf_set k v h.2⟩, fun _ _ h => h⟩

theorem touches_dramDrop (s : State) (p : Nat → Bool) : Touches { dram := true } s { s with dram := cellsDrop p s.dram } :=
  ⟨rfl, fun h => ⟨h.1, cellsWf_drop p h.2⟩, fun _ _ h => h⟩

-- several parts replaced at once

theorem touches_twin_obs (s : State) (x : Twin) (y : Obs) :
    Touches { twin := true, obs := true } s { s with twin := x, obs := y } := ⟨rfl, id, fun _ _ h => h⟩

theorem touches_faults_seq (s : State) (x : Faults) (y : Machine.Seq) :
    Touches { faults := true, seq := true } s { s with faults := x, seq := y } := ⟨rfl, id, fun _ _ h => h⟩

theorem touches_pins_undef (s : State) (x : Pins) (y : Bool) :
    Touches { pins := true, undef := true } s { s with pins := x, undef := y } := ⟨rfl, id, fun _ _ h => h⟩

theorem touches_mirror_twin (s : State) (x : Mirror) (y : Twin) :
    Touches { mirror := true, twin := true } s { s with mirror := x, twin := y } := ⟨rfl, id, fun _ _ h => h⟩

theorem touches_tick_seq_obs_aon_pins (s : State) (x : Nat) (y : Machine.Seq) (z : Obs) (v : Aon) (w : Pins) :
    Touches { tick := true, seq := true, obs := true, aon := true, pins := true } s { s with tick := x, seq := y, obs := z, aon := v, pins := w } := ⟨rfl, id, fun _ _ h => h⟩

theorem touches_aon_pins (s : State) (x : Aon) (y : Pins) :
    Touches { aon := true, pins := true } s { s with aon := x, pins := y } := ⟨rfl, id, fun _ _ h => h⟩

theorem touches_seq_pins (s : State) (x : Machine.Seq) (y : Pins) :
    Touches { seq := true, pins := true } s { s with seq := x, pins := y } := ⟨rfl, id, fun _ _ h => h⟩

theorem touches_twin_pins (s : State) (x : Twin) (y : Pins) :
    Touches { twin := true, pins := true } s { s with twin := x, pins := y } := ⟨rfl, id, fun _ _ h => h⟩

/-- A map over the register file that drops what it takes to the reset value. -/
theorem cellsWf_remap (f : Nat → Word → Word) : ∀ {lo : Nat} {m : Cells Word}, cellsWfFrom regReset lo m = true →
    cellsWfFrom regReset lo (m.filterMap (fun c => if f c.1 c.2 = regReset c.1 then none else some (c.1, f c.1 c.2))) = true
  | _, [], _ => rfl
  | lo, (a, x) :: m, w => by
    simp only [cellsWfFrom, Bool.and_eq_true, decide_eq_true_eq] at w
    obtain ⟨hlo, _, hm⟩ := w
    have rest := cellsWf_remap f hm
    rw [List.filterMap_cons]
    dsimp only
    split
    · next h =>
      exact cellsWfFrom_mono (Nat.le_succ_of_le hlo) rest
    · next h =>
      split at h
      · cases h
      · next hv =>
        cases h
        simp only [cellsWfFrom, Bool.and_eq_true, decide_eq_true_eq]
        exact ⟨hlo, hv, rest⟩

theorem touches_setPort (s : State) (n : Nat) (p : Port) (h : (port s n).fenced = true → p.fenced = true) :
    Touches { ports := true } s (setPort s n p) := by
  unfold setPort
  split
  · next hn =>
    refine touches_ports s _ fun m hm hf => ?_
    rw [Vector.getElem_set]
    split
    · next he =>
      subst he
      rw [port, dif_pos hn] at h
      exact h hf
    · exact hf
  · exact .refl s

/-- The fence of a port may end. -/
theorem touches_setPort_unfence (s : State) (n : Nat) (p : Port) : Touches { ports := true, unfence := true } s (setPort s n p) := by
  unfold setPort
  split
  · exact touches_ports_unfence s _
  · exact .refl s

theorem touches_setSlice (s : State) (n : Nat) (x : Slice) : Touches { slices := true } s (setSlice s n x) := by
  unfold setSlice
  split
  · exact touches_slices s _
  · exact .refl s

theorem touches_setChan (s : State) (c : Nat) (x : Chan) : Touches { chans := true } s (setChan s c x) := by
  unfold setChan
  split
  · exact touches_chans s _
  · exact .refl s

end Sys2Proof.Laws
end

section
/-! SUPPORT. The parts of the state that the operations of Machine/Ops touch. -/

namespace Sys2Proof.Laws

open Sys2Proof.Machine Sys2Proof.Safety

theorem touches_setFld (s a lo n v) : Touches { regs := true } s (setFld s a lo n v) :=
  (touches_setReg _ _ _).mono rfl

theorem touches_setBit (s a i b) : Touches { regs := true } s (setBit s a i b) :=
  (touches_setFld _ _ _ _ _).mono rfl

theorem touches_satAdd (s a lo n k) : Touches { regs := true } s (satAdd s a lo n k) :=
  (touches_setFld _ _ _ _ _).mono rfl

theorem touches_startTransit (s t) : Touches { regs := true } s (startTransit s t) :=
  (touches_setBit _ _ _ _).after rfl <| (touches_setFld _ _ _ _ _).mono rfl

theorem touches_endTransit (s) : Touches { regs := true } s (endTransit s) :=
  (touches_setBit _ _ _ _).after rfl <| (touches_setFld _ _ _ _ _).mono rfl

theorem touches_enterMode (s m) : Touches { regs := true } s (enterMode s m) :=
  (touches_setReg _ _ _).mono rfl

theorem touches_setBank (s c r b k) : Touches { chans := true } s (setBank s c r b k) := by
  unfold setBank
  split
  · extract_lets _
    exact (touches_setChan _ _ _).mono rfl
  · exact .refl _

theorem touches_wakeChan (s c) : Touches { chans := true } s (wakeChan s c) :=
  .ite ((touches_setChan _ _ _).mono rfl) (.refl _)

theorem touches_takeFree (s) : Touches { free := true } s (takeFree s).2 :=
  .snd <| (touches_free _ _).mono rfl

theorem touches_logRecord (s kind unit src detail w3) :
    Touches { regs := true, obs := true } s (logRecord s kind unit src detail w3) := by
  unfold logRecord
  refine .ite ?_ ?_
  · extract_lets _
    exact (touches_setBit _ _ _ _).after rfl <| (touches_obs _ _).mono rfl
  · extract_lets _
    exact (touches_obs _ _).mono rfl

theorem touches_raiseErr (s err i cap info) : Touches { regs := true } s (raiseErr s err i cap info) := by
  unfold raiseErr
  extract_lets _ u
  have hu : Touches { regs := true } s u := (touches_setBit _ _ _ _).mono rfl
  exact .ite ((touches_setReg _ _ _).after rfl <| hu) hu

theorem touches_setCfgByte (s a v) : Touches { twin := true } s (setCfgByte s a v) :=
  (touches_twin _ _).mono rfl

theorem touches_twinOut (s t) : Touches { twin := true } s (twinOut s t) :=
  (touches_twin _ _).mono rfl

theorem touches_wakePme (s) : Touches { twin := true } s (wakePme s) :=
  .ite ((touches_twinOut _ _).after rfl <| (touches_setCfgByte _ _ _).after rfl <| (touches_twin _ _).mono rfl) (.refl _)

end Sys2Proof.Laws
end

section
/-! SUPPORT. The parts of the state that the operations of Machine/Mailbox touch. -/

namespace Sys2Proof.Laws

open Sys2Proof.Machine Sys2Proof.Safety

theorem touches_setMail (s mb m) : Touches { seq := true } s (setMail s mb m) := by
  unfold setMail
  extract_lets _
  split
  · exact (touches_seq _ _).mono rfl
  · exact (touches_seq _ _).mono rfl

theorem touches_pushReply (s mb r) : Touches { regs := true, twin := true, seq := true } s (pushReply s mb r) := by
  unfold pushReply
  extract_lets _ u
  have hu : Touches { regs := true, twin := true, seq := true } s u := (touches_setBit _ _ _ _).after rfl <|
      (touches_setMail _ _ _).mono rfl
  exact .ite (.ite ((touches_wakePme _).after rfl <| hu) hu) ((touches_setMail _ _ _).mono rfl)

theorem touches_sendReply (s mb hdr status data) :
    Touches { regs := true, twin := true, seq := true } s (sendReply s mb hdr status data) :=
  .ite (.refl _) ((touches_pushReply _ _ _).mono rfl)

theorem touches_finishCmd (s status data) : Touches { regs := true, twin := true, seq := true } s (finishCmd s status data) := by
  unfold finishCmd
  extract_lets _ u
  have hu : Touches { regs := true, twin := true, seq := true } s u := (touches_seq _ _).mono rfl
  split
  · exact .refl _
  · exact .ite hu ((touches_sendReply _ _ _ _ _).after rfl <| hu)

end Sys2Proof.Laws
end

section
/-! SUPPORT. The parts of the state that the operations of Machine/Pmu touch. -/

namespace Sys2Proof.Laws

open Sys2Proof.Machine Sys2Proof.Safety

theorem touches_setPmuCount (s k i v) : Touches { obs := true } s (setPmuCount s k i v) :=
  (touches_obs _ _).mono rfl

theorem touches_dropCounts (s k) : Touches { obs := true } s (dropCounts s k) :=
  (touches_obs _ _).mono rfl

theorem touches_pmuAdd (fuel s k i n) : Touches { regs := true, obs := true } s (pmuAdd fuel s k i n) := by
  induction fuel generalizing s i n with
  | zero => exact .refl s
  | succ fuel ih =>
    unfold pmuAdd
    extract_lets v u
    have hu : Touches { regs := true, obs := true } s u := (touches_setPmuCount _ _ _ _).mono rfl
    split
    · exact hu
    · split
      · exact (ih _ _ _).comp hu
      · exact (touches_setBit _ _ _ _).after rfl <| hu

theorem touches_pmuEvents (s k e n) : Touches { regs := true, obs := true } s (pmuEvents s k e n) := by
  unfold pmuEvents
  refine .ite ?_ (.refl _)
  exact (.forEach (fun s _ => by
      extract_lets _
      exact .ite ((touches_pmuAdd _ _ _ _ _).mono rfl) (.refl _)) _ _)

theorem touches_pmuEvent (s k e) : Touches { regs := true, obs := true } s (pmuEvent s k e) :=
  (touches_pmuEvents _ _ _ _).mono rfl

theorem touches_setStager (s o x) : Touches { obs := true } s (setStager s o x) :=
  (touches_obs _ _).mono rfl

theorem touches_sillageMove (s ws) : Touches { regs := true, obs := true } s (sillageMove s ws) := by
  unfold sillageMove
  split
  · extract_lets _ u
    have hu : Touches { regs := true, obs := true } s u := (touches_obs _ _).mono rfl
    exact (touches_setBit _ _ _ _).after rfl <| (touches_satAdd _ _ _ _ _).after rfl <| hu

theorem touches_sillageDrop (s lo n) : Touches { regs := true } s (sillageDrop s lo n) :=
  (touches_setBit _ _ _ _).after rfl <| (touches_satAdd _ _ _ _ _).mono rfl

theorem touches_hwPacket (s o kind bytes ws lo n) : Touches { regs := true, obs := true } s (hwPacket s o kind bytes ws lo n) := by
  unfold hwPacket
  refine .ite (.refl _) ?_
  extract_lets _
  exact .ite ((touches_sillageMove _ _).mono rfl) ((touches_sillageDrop _ _ _).mono rfl)

theorem touches_stampNow (s u) : Touches { obs := true, free := true } s (stampNow s u).2 := by
  unfold stampNow
  split
  · next _ v heq =>
    have hv : Touches { obs := true, free := true } s v := .of_snd heq ((touches_takeFree _).mono rfl)
    extract_lets _ _
    exact .snd <| (touches_obs _ _).after rfl <| hv

theorem touches_sampleOpen (s unit src txn op dl info offs) :
    Touches { obs := true, free := true } s (sampleOpen s unit src txn op dl info offs) := by
  unfold sampleOpen
  split
  · next _ u heq =>
    have hu : Touches { obs := true, free := true } s u := .of_snd heq ((touches_stampNow _ _).mono rfl)
    extract_lets _ _
    exact (touches_obs _ _).after rfl <| hu

theorem touches_sampleSet (s unit src txn f) : Touches { obs := true } s (sampleSet s unit src txn f) :=
  (touches_obs _ _).mono rfl

theorem touches_sampleStamp (s unit src txn i) : Touches { obs := true, free := true } s (sampleStamp s unit src txn i) := by
  unfold sampleStamp
  split
  · refine .ite (.refl _) ?_
    split
    · next _ u heq =>
      have hu : Touches { obs := true, free := true } s u := .of_snd heq ((touches_stampNow _ _).mono rfl)
      extract_lets _
      exact (touches_sampleSet _ _ _ _ _).after rfl <| hu
  · exact .refl _

theorem touches_sampleFlag (s unit src txn b) : Touches { obs := true } s (sampleFlag s unit src txn b) :=
  (touches_sampleSet _ _ _ _ _).mono rfl

theorem touches_closeSlot (s x) : Touches { regs := true, obs := true } s (closeSlot s x) := by
  unfold closeSlot
  extract_lets _ u _ _
  have hu : Touches { regs := true, obs := true } s u := (touches_obs _ _).mono rfl
  exact .ite ((touches_hwPacket _ _ _ _ _ _ _).after rfl <| hu) ((touches_hwPacket _ _ _ _ _ _ _).after rfl <| hu)

theorem touches_sampleClose (s unit src txn) : Touches { regs := true, obs := true } s (sampleClose s unit src txn) :=
  .elim (.refl _) (fun _ => (touches_closeSlot _ _).mono rfl)

theorem touches_samplePark (s unit src txn k) : Touches { obs := true } s (samplePark s unit src txn k) :=
  (touches_sampleSet _ _ _ _ _).mono rfl

theorem touches_sampleDrop (s unit src txn) : Touches { obs := true } s (sampleDrop s unit src txn) :=
  (touches_obs _ _).mono rfl

end Sys2Proof.Laws
end

section
/-! SUPPORT. The parts of the state that the operations of Machine/Address touch. -/

namespace Sys2Proof.Laws

open Sys2Proof.Machine Sys2Proof.Safety

theorem touches_raiseSeal (s k src slice region realm pa) :
    Touches { regs := true } s (raiseSeal s k src slice region realm pa) := by
  unfold raiseSeal
  extract_lets _ u v w
  have hu : Touches { regs := true } s u := (touches_setBit _ _ _ _).mono rfl
  have hv : Touches { regs := true } s v := (touches_setReg _ _ _).after rfl <| hu
  have hw : Touches { regs := true } s w := (touches_setReg _ _ _).after rfl <| hv
  exact .ite ((touches_setReg _ _ _).after rfl <| hw) hu

end Sys2Proof.Laws
end

section
/-! SUPPORT. The parts of the state that the operations of Machine/Spine touch. -/

namespace Sys2Proof.Laws

open Sys2Proof.Machine Sys2Proof.Safety

theorem touches_onward (s r i f) : Touches { spine := true } s (onward s r i f) :=
  (touches_spine _ _).mono rfl

theorem touches_launch (s r i p) : Touches { spine := true } s (launch s r i p) :=
  (touches_onward _ _ _ _).mono rfl

theorem touches_sliceSend (s n dst dl prio m) : Touches { spine := true } s (sliceSend s n dst dl prio m) := by
  unfold sliceSend
  split
  · exact (touches_launch _ _ _ _).mono rfl

theorem touches_sliceToSlice (s n k m) : Touches { spine := true } s (sliceToSlice s n k m) :=
  (touches_launch _ _ _ _).mono rfl

end Sys2Proof.Laws
end

section
/-! SUPPORT. The parts of the state that the operations of Machine/Faults touch. -/

namespace Sys2Proof.Laws

open Sys2Proof.Machine Sys2Proof.Safety

theorem touches_setCount (s u src c) : Touches { faults := true } s (setCount s u src c) :=
  (touches_faults _ _).mono rfl

theorem touches_toEgress (s n m dl prio src) : Touches { ports := true } s (toEgress s n m dl prio src) :=
  (touches_setPort _ _ _ (fun h => by exact h)).mono rfl

theorem touches_fenceBare (s n) : Touches { regs := true, ports := true, spine := true } s (fenceBare s n) := by
  unfold fenceBare
  extract_lets _ _ u v _ w
  have hu : Touches { regs := true, ports := true, spine := true } s u := (touches_ports _ _ (fun n hn hf => by rw [Vector.getElem_map]; exact hf)).mono rfl
  have hv : Touches { regs := true, ports := true, spine := true } s v := (touches_setPort _ _ _ (fun _ => by rfl)).after rfl <| hu
  have hw : Touches { regs := true, ports := true, spine := true } s w := (touches_spine _ _).after rfl <| hv
  exact (touches_setBit _ _ _ _).after rfl <| hw

theorem touches_safePort (s n) : Touches { regs := true, ports := true, spine := true, obs := true } s (safePort s n) := by
  unfold safePort
  extract_lets _ u _ v _ w
  have hu : Touches { regs := true, ports := true, spine := true, obs := true } s u := (touches_fenceBare _ _).mono rfl
  have hv : Touches { regs := true, ports := true, spine := true, obs := true } s v := (touches_setPort _ _ _ (fun h => by exact h)).after rfl <| hu
  have hw : Touches { regs := true, ports := true, spine := true, obs := true } s w := (touches_obs _ _).after rfl <| hv
  exact .comp (.foldl (fun _ _ => (touches_toEgress _ _ _ _ _ _).mono rfl) _ _) <| hw

theorem touches_safeSlice (s n) : Touches { regs := true, slices := true, twin := true, obs := true } s (safeSlice s n) := by
  unfold safeSlice
  extract_lets _ _ _ _ _ u v _ _ w
  have hu : Touches { regs := true, slices := true, twin := true, obs := true } s u :=
      (.foldl (fun _ _ => (touches_closeSlot _ _).mono rfl) _ _)
  have hv : Touches { regs := true, slices := true, twin := true, obs := true } s v := (touches_setSlice _ _ _).after rfl <| hu
  have hw : Touches { regs := true, slices := true, twin := true, obs := true } s w := (touches_twin_obs _ _ _).after rfl <| hv
  exact .comp (.foldl (fun _ _ => (.forEach (fun _ _ => (touches_setSlice _ _ _).mono rfl) _ _)) _ _) <| hw

theorem touches_startReclaim (s a) : Touches { regs := true, ports := true, slices := true } s (startReclaim s a) := by
  unfold startReclaim
  extract_lets _ u v
  have hu : Touches { regs := true, ports := true, slices := true } s u := (touches_setPort _ _ _ (fun h => by exact h)).mono rfl
  have hv : Touches { regs := true, ports := true, slices := true } s v := (touches_setBit _ _ _ _).after rfl <| hu
  exact .comp (.forEach (fun s _ => by
      extract_lets _
      exact .ite ((touches_setSlice _ _ _).mono rfl) (.refl _)) _ _) <| hv

theorem touches_safeChan (s c) : Touches { chans := true } s (safeChan s c) := by
  unfold safeChan
  extract_lets u _
  have hu : Touches { chans := true } s u := .ite ((touches_wakeChan _ _).mono rfl) (.refl _)
  exact (touches_setChan _ _ _).after rfl <| hu

theorem touches_keepMove (s) : Touches { seq := true } s (keepMove s) := by
  unfold keepMove
  split
  · refine .ite ?_ (.refl _)
    extract_lets _
    exact (touches_seq _ _).mono rfl
  · exact .refl _

theorem touches_undoPower (s) : Touches { regs := true, slices := true } s (undoPower s) := by
  unfold undoPower
  exact (.forEach (fun s _ => by
      extract_lets _ u
      have hu : Touches { regs := true, slices := true } s u := (touches_setSlice _ _ _).mono rfl
      exact .ite ((touches_setFld _ _ _ _ _).after rfl <| hu) hu) _ _)

theorem touches_safeEntry (s u src kind inj) : Touches reaction s (safeEntry s u src kind inj) := by
  unfold safeEntry
  extract_lets _ v w _ x _ _ y z u' _ _ v' w' x' y' z'
  have hv : Touches reaction s v := (touches_setReg _ _ _).mono rfl
  have hw : Touches reaction s w := (touches_setReg _ _ _).after rfl <| (touches_setReg _ _ _).after rfl <| hv
  have hx : Touches reaction s x := (touches_aon _ _).after rfl <| hw
  have hy : Touches reaction s y := (touches_keepMove _).after rfl <| hx
  have hz : Touches reaction s z := (touches_finishCmd _ _ _).after rfl <| .ite (hy) ((touches_undoPower _).after rfl <| hy)
  have hu' : Touches reaction s u' := (touches_enterMode _ _).after rfl <| hz
  have hv' : Touches reaction s v' := (touches_faults_seq _ _ _).after rfl <| hu'
  have hw' : Touches reaction s w' := (touches_wakePme _).after rfl <| hv'
  have hx' : Touches reaction s x' := .comp (.foldl (fun _ _ => .ite (.refl _) ((touches_startReclaim _ _).mono rfl)) _ _) <| hw'
  have hy' : Touches reaction s y' := .comp (.forEach (fun _ _ => .ite ((touches_safePort _ _).mono rfl) (.refl _)) _ _) <| hx'
  have hz' : Touches reaction s z' := .comp (.forEach (fun _ _ => (touches_safeSlice _ _).mono rfl) _ _) <| hy'
  exact .ite (.refl _) (.comp (.forEach (fun _ _ => (touches_safeChan _ _).mono rfl) _ _) <| hz')

theorem touches_enterFault (s u src inj) : Touches { regs := true } s (enterFault s u src inj) := by
  unfold enterFault
  extract_lets _ _ v w
  have hv : Touches { regs := true } s v := (touches_setBit _ _ _ _).mono rfl
  have hw : Touches { regs := true } s w := (touches_setReg _ _ _).after rfl <| hv
  exact .ite ((touches_setReg _ _ _).after rfl <| (touches_setReg _ _ _).after rfl <| hw) hv

theorem touches_countEvent (s u src) : Touches { regs := true } s (countEvent s u src) :=
  (touches_satAdd _ _ _ _ _).after rfl <| (touches_setBit _ _ _ _).mono rfl

theorem touches_restartQuiet (s) : Touches { faults := true } s (restartQuiet s) := by
  unfold restartQuiet
  refine .ite ?_ (.refl _)
  extract_lets _
  exact (touches_faults _ _).mono rfl

theorem touches_countedEvent (s u src inj) : Touches reaction s (countedEvent s u src inj) := by
  unfold countedEvent
  refine .ite ((touches_restartQuiet _).mono rfl) ?_
  extract_lets _ _ v w
  have hv : Touches reaction s v := (touches_setCount _ _ _ _).mono rfl
  have hw : Touches reaction s w := (touches_restartQuiet _).after rfl <| (touches_enterFault _ _ _ _).after rfl <| hv
  exact .ite (.ite ((touches_safeEntry _ _ _ _ _).after rfl <| hw) hw) hv

theorem touches_eventAt (s u src inj) : Touches reaction s (eventAt s u src inj) := by
  unfold eventAt
  split
  · exact .refl _
  · exact (touches_countedEvent _ _ _ _).after rfl <| (touches_countEvent _ _ _).mono rfl
  · exact (touches_safeEntry _ _ _ _ _).after rfl <| (touches_restartQuiet _).after rfl <|
      (touches_enterFault _ _ _ _).after rfl <| (touches_countEvent _ _ _).mono rfl
  · exact (touches_safeEntry _ _ _ _ _).after rfl <| (touches_restartQuiet _).after rfl <|
      (touches_enterFault _ _ _ _).after rfl <| (touches_countEvent _ _ _).mono rfl

theorem touches_report (s u src) : Touches reaction s (report s u src) :=
  (touches_eventAt _ _ _ _).mono rfl

theorem touches_blotUse (s k i) : Touches { regs := true } s (blotUse s k i) := by
  unfold blotUse
  refine .ite ?_ (.refl _)
  extract_lets _ u v
  have hu : Touches { regs := true } s u := (touches_setBit _ _ _ _).mono rfl
  have hv : Touches { regs := true } s v := (touches_setFld _ _ _ _ _).after rfl <| hu
  exact .ite ((touches_setBit _ _ _ _).after rfl <| hv) hv

theorem touches_injectedEvent (s u src) : Touches reaction s (injectedEvent s u src) := by
  unfold injectedEvent
  refine .ite ?_ ((touches_eventAt _ _ _ _).mono rfl)
  extract_lets _ _ v w
  have hv : Touches reaction s v := (touches_setBit _ _ _ _).mono rfl
  have hw : Touches reaction s w := .ite ((touches_setBit _ _ _ _).after rfl <| hv) (hv)
  exact .ite ((touches_setBit _ _ _ _).after rfl <| hw) hw

end Sys2Proof.Laws
end

section
/-! SUPPORT. The parts of the state that the operations of Machine/Mirror touch. -/

namespace Sys2Proof.Laws

open Sys2Proof.Machine Sys2Proof.Safety

theorem touches_setDirtyMap (s d) : Touches { mirror := true } s (setDirtyMap s d) :=
  (touches_mirror _ _).mono rfl

theorem touches_markGranule (s w pa) : Touches { mirror := true } s (markGranule s w pa) :=
  (touches_setDirtyMap _ _).mono rfl

theorem touches_mwMove (s w st) : Touches { regs := true } s (mwMove s w st) :=
  (touches_setFld _ _ _ _ _).mono rfl

theorem touches_dropWaiting (s w) : Touches { mirror := true } s (dropWaiting s w) := by
  unfold dropWaiting
  extract_lets u _
  have hu : Touches { mirror := true } s u := (.foldl (fun _ _ => (touches_markGranule _ _ _).mono rfl) _ _)
  exact (touches_mirror _ _).after rfl <| hu

theorem touches_mwBreak (loss s w) : Touches { regs := true, mirror := true } s (mwBreak loss s w) := by
  unfold mwBreak
  refine .ite ?_ (.refl _)
  extract_lets _ u
  have hu : Touches { regs := true, mirror := true } s u := .ite ((touches_mirror _ _).mono rfl) (.refl _)
  exact .ite ((touches_setBit _ _ _ _).after rfl <| (touches_satAdd _ _ _ _ _).after rfl <| (touches_mwMove _ _ _).after rfl <|
      (touches_dropWaiting _ _).after rfl <| hu) hu

theorem touches_mwBreakAll (s loss) : Touches { regs := true, mirror := true } s (mwBreakAll s loss) :=
  (.forEach (fun _ _ => (touches_mwBreak _ _ _).mono rfl) _ _)

theorem touches_copyStop (s) : Touches { mirror := true } s (copyStop s) := by
  unfold copyStop
  split
  · extract_lets u _
    have hu : Touches { mirror := true } s u := (touches_setDirtyMap _ _).mono rfl
    exact (touches_mirror _ _).after rfl <| hu
  · exact .refl _

theorem touches_markLines (s l) : Touches { mirror := true } s (markLines s l) :=
  (.foldl (fun _ _ => (touches_markGranule _ _ _).mono rfl) _ _)

theorem touches_mirrorDiscard (s beats) : Touches { mirror := true } s (mirrorDiscard s beats) := by
  unfold mirrorDiscard
  extract_lets _ u _ _
  have hu : Touches { mirror := true } s u := (touches_copyStop _).after rfl <| (touches_markLines _ _).mono rfl
  exact (touches_mirror _ _).after rfl <| hu

theorem touches_refillQueue (s) : Touches { mirror := true } s (refillQueue s) :=
  (touches_mirror _ _).mono rfl

theorem touches_mirrorArrive (s w a img sync o) : Touches { regs := true, mirror := true } s (mirrorArrive s w a img sync o) := by
  unfold mirrorArrive
  extract_lets _ _ _ u
  have hu : Touches { regs := true, mirror := true } s u := (touches_satAdd _ _ _ _ _).after rfl <|
      (touches_markGranule _ _ _).mono rfl
  exact .ite (.refl _) (.ite ((touches_markGranule _ _ _).mono rfl) (.ite ((touches_mirror _ _).mono rfl) (.ite
      ((touches_mirror _ _).mono rfl) (.ite ((touches_mwMove _ _ _).after rfl <| hu) hu))))

theorem touches_mirrorTake (s m) : Touches { regs := true, mirror := true } s (mirrorTake s m) := by
  unfold mirrorTake
  split
  · exact (touches_mirrorArrive _ _ _ _ _ _).mono rfl
  · exact .refl _

theorem touches_mirrorLine (s n prio pa img o) : Touches { spine := true } s (mirrorLine s n prio pa img o) := by
  unfold mirrorLine
  refine .ite (.refl _) ?_
  split
  · exact .refl _
  · exact (touches_sliceSend _ _ _ _ _ _).mono rfl

theorem touches_promote (s) : Touches { regs := true, mirror := true } s (promote s) := by
  unfold promote
  extract_lets u
  have hu : Touches { regs := true, mirror := true } s u := (touches_setBit _ _ _ _).after rfl <|
      (touches_setFld _ _ _ _ _).mono rfl
  exact .comp (.forEach (fun _ _ => .ite ((touches_setBit _ _ _ _).after rfl <| (touches_satAdd _ _ _ _ _).after rfl <|
      (touches_mwMove _ _ _).after rfl <| (touches_mirror _ _).after rfl <|
          (touches_setDirtyMap _ _).mono rfl) (.refl _)) _ _) <| hu

theorem touches_partnerLost (s) : Touches (reaction.plus { mirror := true }) s (partnerLost s) := by
  unfold partnerLost
  refine .ite (.refl _) ?_
  extract_lets u v
  have hu : Touches (reaction.plus { mirror := true }) s u := (touches_setBit _ _ _ _).after rfl <|
      (touches_setBit _ _ _ _).mono rfl
  have hv : Touches (reaction.plus { mirror := true }) s v := .ite ((touches_mwBreakAll _ _).after rfl <|
      hu) (.ite ((touches_promote _).after rfl <| hu) (hu))
  exact (touches_report _ _ _).after rfl <| hv

theorem touches_armHbRx (s) : Touches { mirror := true } s (armHbRx s) :=
  (touches_mirror _ _).mono rfl

theorem touches_heartbeatReceive (s d) : Touches (reaction.plus { mirror := true }) s (heartbeatReceive s d) := by
  unfold heartbeatReceive
  extract_lets _ _ _ _ _ _ _ u v w x _ _ y z
  have hu : Touches (reaction.plus { mirror := true }) s u := .ite ((touches_setBit _ _ _ _).mono rfl) (.refl _)
  have hv : Touches (reaction.plus { mirror := true }) s v := (touches_setReg _ _ _).after rfl <| hu
  have hw : Touches (reaction.plus { mirror := true }) s w := (touches_setReg _ _ _).after rfl <| hv
  have hx : Touches (reaction.plus { mirror := true }) s x := .ite ((touches_setReg _ _ _).after rfl <| hw) (hw)
  have hy : Touches (reaction.plus { mirror := true }) s y := (touches_armHbRx _).after rfl <| (touches_mirror _ _).after rfl <| hx
  have hz : Touches (reaction.plus { mirror := true }) s z := .ite ((touches_mwBreakAll _ _).after rfl <|
      (touches_report _ _ _).after rfl <| (touches_setBit _ _ _ _).after rfl <| hy) (hy)
  exact .ite (.ite ((touches_partnerLost _).after rfl <| hz) hz) ((touches_setBit _ _ _ _).mono rfl)

theorem touches_watchHeartbeat (s n prio src pa d) : Touches { spine := true } s (watchHeartbeat s n prio src pa d) :=
  .ite ((touches_sliceSend _ _ _ _ _ _).mono rfl) (.refl _)

end Sys2Proof.Laws
end

section
/-! SUPPORT. The parts of the state that the operations of Machine/Seal touch. -/

namespace Sys2Proof.Laws

open Sys2Proof.Machine Sys2Proof.Safety

theorem touches_eccDetect (s c k u slot symbols scrub src) :
    Touches { regs := true } s (eccDetect s c k u slot symbols scrub src) := by
  unfold eccDetect
  extract_lets _ _ _ v
  have hv : Touches { regs := true } s v := (touches_raiseErr _ _ _ _ _).mono rfl
  exact .ite ((touches_setReg _ _ _).after rfl <| hv) hv

theorem touches_chanEvent (s c src inj) : Touches reaction s (chanEvent s c src inj) :=
  .ite ((touches_injectedEvent _ _ _).mono rfl) ((touches_report _ _ _).mono rfl)

theorem touches_eccCorrected (s c u slot n scrub src inj) : Touches reaction s (eccCorrected s c u slot n scrub src inj) := by
  unfold eccCorrected
  refine .ite (.refl _) ?_
  refine .ite ((touches_injectedEvent _ _ _).mono rfl) ?_
  extract_lets v _ w
  have hv : Touches reaction s v := (touches_pmuEvent _ _ _).after rfl <| (touches_satAdd _ _ _ _ _).mono rfl
  have hw : Touches reaction s w := (touches_aon _ _).after rfl <| hv
  exact (touches_chanEvent _ _ _ _).after rfl <| (touches_eccDetect _ _ _ _ _ _ _ _).after rfl <| hw

theorem touches_eccUncorrectable (s c u slot scrub src inj) : Touches reaction s (eccUncorrectable s c u slot scrub src inj) := by
  unfold eccUncorrectable
  refine .ite ((touches_injectedEvent _ _ _).mono rfl) ?_
  extract_lets v _ w x
  have hv : Touches reaction s v := (touches_pmuEvent _ _ _).after rfl <| (touches_satAdd _ _ _ _ _).mono rfl
  have hw : Touches reaction s w := (touches_aon _ _).after rfl <| hv
  have hx : Touches reaction s x := (touches_logRecord _ _ _ _ _ _).after rfl <| (touches_eccDetect _ _ _ _ _ _ _ _).after rfl <| hw
  exact (touches_chanEvent _ _ _ _).after rfl <| hx

theorem touches_loseSlot (s c u slot) : Touches { chans := true } s (loseSlot s c u slot) := by
  unfold loseSlot
  refine .ite (.refl _) ?_
  extract_lets _
  exact (touches_setChan _ _ _).mono rfl

theorem touches_slotWritten (s c u slot) : Touches { chans := true } s (slotWritten s c u slot) :=
  (touches_setChan _ _ _).mono rfl

theorem touches_ccWriteBack (s l) : Touches { regs := true, chans := true, dram := true, obs := true } s (ccWriteBack s l) :=
  .ite ((touches_dramSet _ _ _).after rfl <| (touches_slotWritten _ _ _ _).after rfl <| (touches_pmuEvent _ _ _).mono rfl) (.refl _)

theorem touches_ccPut (s l) : Touches { regs := true, slices := true, chans := true, dram := true, obs := true } s (ccPut s l) := by
  unfold ccPut
  extract_lets _ _ _ _ _
  split
  · exact (touches_setSlice _ _ _).mono rfl
  · exact (touches_ccWriteBack _ _).after rfl <| (touches_setSlice _ _ _).mono rfl

theorem touches_checkDecode (s c u k word scrub src) : Touches reaction s (checkDecode s c u k word scrub src).1 := by
  unfold checkDecode
  extract_lets lost read real armed seen v
  have hv : Touches reaction s v := (touches_blotUse _ _ _).mono rfl
  clear_value seen
  show Touches reaction s (match seen with
    | some (_, n) => eccCorrected v c u (28 + k) n scrub src armed
    | none => if real.isNone then v else eccUncorrectable v c u (28 + k) scrub src armed)
  split
  · exact (touches_eccCorrected _ _ _ _ _ _ _ _).after rfl <| hv
  · exact .ite hv ((touches_eccUncorrectable _ _ _ _ _ _ _).after rfl <| hv)

theorem touches_checkLine (s c u k err scrub src) :
    Touches (reaction.plus { dram := true }) s (checkLine s c u k err scrub src).1 := by
  unfold checkLine
  extract_lets v w
  have hv : Touches (reaction.plus { dram := true }) s v := (touches_pmuEvent _ _ _).mono rfl
  have hw : Touches (reaction.plus { dram := true }) s w := (touches_pmuEvent _ _ _).after rfl <| (touches_pmuEvent _ _ _).mono rfl
  split
  · refine .ite_fst (.fst <| (touches_ccPut _ _).after rfl <| hv) ?_
    split
    · next x _ _ heq =>
      have hx : Touches (reaction.plus { dram := true }) s x := .of_pair heq ((touches_checkDecode _ _ _ _ _ _ _).after rfl <| hv)
      exact .fst <| (touches_ccPut _ _).after rfl <| hx
    · next y heq =>
      have hy : Touches (reaction.plus { dram := true }) s y := .of_pair heq ((touches_checkDecode _ _ _ _ _ _ _).after rfl <| hv)
      extract_lets _
      exact .fst <| (touches_ccPut _ _).after rfl <| (touches_loseSlot _ _ _ _).after rfl <| hy
  · split
    · next z _ _ heq =>
      have hz : Touches (reaction.plus { dram := true }) s z := .of_pair heq ((touches_checkDecode _ _ _ _ _ _ _).after rfl <| hw)
      exact .fst <| (touches_ccPut _ _).after rfl <| hz
    · next u' heq =>
      have hu' : Touches (reaction.plus { dram := true }) s u' := .of_pair heq ((touches_checkDecode _ _ _ _ _ _ _).after rfl <| hw)
      exact .fst <| (touches_ccPut _ _).after rfl <| (touches_loseSlot _ _ _ _).after rfl <| hu'

theorem touches_decodeReport (s c u slot scrub src inj d) : Touches reaction s (decodeReport s c u slot scrub src inj d) := by
  unfold decodeReport
  split
  · exact (touches_eccCorrected _ _ _ _ _ _ _ _).mono rfl
  · exact (touches_eccCorrected _ _ _ _ _ _ _ _).mono rfl
  · exact (touches_eccUncorrectable _ _ _ _ _ _ _).mono rfl

theorem touches_dataDecode (s c m d l scrub src) : Touches reaction s (dataDecode s c m d l scrub src).1 := by
  unfold dataDecode
  extract_lets _ _ _ _ _ _ _ _ u v
  have hu : Touches reaction s u := .ite ((touches_blotUse _ _ _).mono rfl) (.refl _)
  have hv : Touches reaction s v := (touches_decodeReport _ _ _ _ _ _ _ _).after rfl <| hu
  exact .fst <| .ite ((touches_loseSlot _ _ _ _).after rfl <| hv) (hv)

theorem touches_countZero (s c) : Touches { regs := true, obs := true } s (countZero s c) :=
  (touches_pmuEvent _ _ _).after rfl <| (touches_satAdd _ _ _ _ _).mono rfl

theorem touches_unitBursts (s c) : Touches { regs := true, obs := true } s (unitBursts s c) :=
  (touches_pmuEvents _ _ _ _).after rfl <| (touches_pmuEvents _ _ _ _).mono rfl

theorem touches_initEarly (s c u) : Touches { regs := true, chans := true, obs := true } s (initEarly s c u) := by
  unfold initEarly
  refine .ite (.refl _) ?_
  extract_lets v _
  have hv : Touches { regs := true, chans := true, obs := true } s v := (touches_unitBursts _ _).after rfl <|
      (touches_satAdd _ _ _ _ _).mono rfl
  exact (touches_setChan _ _ _).after rfl <| hv

theorem touches_ccRebuild (s l m) : Touches (reaction.plus { dram := true }) s (ccRebuild s l m).1 := by
  unfold ccRebuild
  extract_lets c lines u _ v d
  have hu : Touches (reaction.plus { dram := true }) s u :=
    .comp (.foldl (fun _ _ => (touches_slotWritten _ _ _ _).mono rfl) _ _) <| (touches_slotWritten _ _ _ _).mono rfl
  have hv : Touches (reaction.plus { dram := true }) s v := (touches_setChan _ _ _).after rfl <| hu
  split
  next w bytes heq =>
  have hw : Touches (reaction.plus { dram := true }) s w := by
    refine .of_pair heq ?_
    refine .comp (.foldl_fst (fun q i => ?_) _ _ _) hv
    refine .ite_fst (.refl _) ?_
    split
    · exact .refl _
    · exact (touches_dramSet _ _ _).mono rfl
  exact (touches_report _ _ _).after rfl <| (touches_logRecord _ _ _ _ _ _).after rfl <| (touches_ccPut _ _).after rfl <| hw

theorem touches_writeBurst (s c m stored ck src) : Touches (reaction.plus { dram := true }) s (writeBurst s c m stored ck src) := by
  unfold writeBurst
  extract_lets _
  split
  · next u _ _ heq =>
    have hu : Touches (reaction.plus { dram := true }) s u := .of_pair heq ((touches_checkLine _ _ _ _ _ _ _).after rfl <|
        (touches_initEarly _ _ _).mono rfl)
    split
    · next v _ heq =>
      have hv : Touches (reaction.plus { dram := true }) s v := .of_pair heq (.ite_fst ((touches_ccRebuild _ _ _).after rfl <|
          hu) (hu))
      extract_lets w
      have hw : Touches (reaction.plus { dram := true }) s w := (touches_ccPut _ _).after rfl <| hv
      exact (touches_dramSet _ _ _).after rfl <| (touches_slotWritten _ _ _ _).after rfl <| (touches_pmuEvent _ _ _).after rfl <| hw

theorem touches_sealFail (s c m k src region inj) : Touches reaction s (sealFail s c m k src region inj) := by
  unfold sealFail
  extract_lets _ u v
  have hu : Touches reaction s u := (touches_raiseSeal _ _ _ _ _ _ _).mono rfl
  have hv : Touches reaction s v := (touches_logRecord _ _ _ _ _ _).after rfl <| (touches_satAdd _ _ _ _ _).after rfl <| hu
  exact .ite ((touches_injectedEvent _ _ _).mono rfl) (.ite ((touches_injectedEvent _ _ _).after rfl <|
      hv) ((touches_report _ _ _).after rfl <| hv))

theorem touches_sealVerdict (s c m k src region diff spoiled) :
    Touches reaction s (sealVerdict s c m k src region diff spoiled) := by
  unfold sealVerdict
  extract_lets _ _ _ u
  have hu : Touches reaction s u := (touches_blotUse _ _ _).mono rfl
  exact .ite ((touches_sealFail _ _ _ _ _ _ _).after rfl <| hu) hu

theorem touches_rootSet (s t c v) : Touches { aon := true } s (rootSet s t c v) :=
  (touches_aon _ _).mono rfl

theorem touches_parentSet (s i c l j mac) : Touches { slices := true, aon := true } s (parentSet s i c l j mac) := by
  unfold parentSet
  refine .ite ?_ ?_
  · extract_lets _ _ _
    exact (touches_rootSet _ _ _ _).mono rfl
  · extract_lets _ _ _
    exact (touches_setSlice _ _ _).mono rfl

theorem touches_metaStore (s l) : Touches (reaction.plus { dram := true }) s (metaStore s l) := by
  unfold metaStore
  extract_lets u
  have hu : Touches (reaction.plus { dram := true }) s u := by
    unfold u
    split
    · exact (touches_parentSet _ _ _ _ _ _).mono rfl
    · exact .refl _
  exact (touches_writeBurst _ _ _ _ _ _).after rfl <| hu

theorem touches_ctcPut (s l) : Touches (reaction.plus { dram := true }) s (ctcPut s l) := by
  unfold ctcPut
  extract_lets _ _ _
  refine .ite ((touches_setSlice _ _ _).mono rfl) ?_
  split
  · exact (touches_setSlice _ _ _).mono rfl
  · extract_lets u
    have hu : Touches (reaction.plus { dram := true }) s u := (touches_setSlice _ _ _).mono rfl
    exact .ite ((touches_metaStore _ _).after rfl <| hu) hu

theorem touches_metaRead (s c m pos) : Touches (reaction.plus { dram := true }) s (metaRead s c m pos).1 := by
  unfold metaRead
  extract_lets _ _ u
  have hu : Touches (reaction.plus { dram := true }) s u := (touches_pmuEvent _ _ _).mono rfl
  refine .ite_fst (.fst <| (touches_countZero _ _).after rfl <| hu) ?_
  split
  · next v _ _ heq =>
    have hv : Touches (reaction.plus { dram := true }) s v := .of_pair heq ((touches_checkLine _ _ _ _ _ _ _).after rfl <|
        (touches_pmuEvent _ _ _).after rfl <| hu)
    split
    · next w _ _ heq =>
      have hw : Touches (reaction.plus { dram := true }) s w := .of_pair heq ((touches_dataDecode _ _ _ _ _ _ _).after rfl <| hv)
      exact hw
    · next x _ _ _ heq =>
      have hx : Touches (reaction.plus { dram := true }) s x := .of_pair heq ((touches_dataDecode _ _ _ _ _ _ _).after rfl <| hv)
      exact hx
    · next y heq =>
      have hy : Touches (reaction.plus { dram := true }) s y := .of_pair heq ((touches_dataDecode _ _ _ _ _ _ _).after rfl <| hv)
      exact hy

theorem touches_ctcFetch (s c m) : Touches (reaction.plus { dram := true }) s (ctcFetch s c m).1 := by
  unfold ctcFetch
  split
  · exact .fst <| (touches_ctcPut _ _).mono rfl
  · split
    · next u _ heq =>
      have hu : Touches (reaction.plus { dram := true }) s u := .of_pair heq ((touches_metaRead _ _ _ _).mono rfl)
      exact .fst <| (touches_ctcPut _ _).after rfl <| hu

theorem touches_nodeEnter (s i c l j bad use) : Touches (reaction.plus { dram := true }) s (nodeEnter s i c l j bad use).1 := by
  unfold nodeEnter
  extract_lets _ _
  refine .ite_fst (.fst <| (touches_ctcPut _ _).mono rfl) ?_
  split
  · next u _ heq =>
    have hu : Touches (reaction.plus { dram := true }) s u := .of_pair heq ((touches_metaRead _ _ _ _).mono rfl)
    extract_lets _ v
    have hv : Touches (reaction.plus { dram := true }) s v := (touches_sealVerdict _ _ _ _ _ _ _ _).after rfl <| hu
    exact .ite_fst hv (.fst <| (touches_ctcPut _ _).after rfl <| hv)

theorem touches_pathDown (s i c v bad use l) : Touches (reaction.plus { dram := true }) s (pathDown s i c v bad use l).1 := by
  induction l generalizing s with
  | zero => exact .refl s
  | succ l ih =>
    unfold pathDown
    split
    next u ok heq =>
    have hu : Touches (reaction.plus { dram := true }) s u := .of_pair heq (touches_nodeEnter _ _ _ _ _ _ _)
    exact .ite_fst ((ih u).comp hu) hu

theorem touches_failNode (s i c l j) : Touches { slices := true } s (failNode s i c l j) :=
  (touches_setSlice _ _ _).mono rfl

theorem touches_sealPath (s i c d bad use) : Touches (reaction.plus { dram := true }) s (sealPath s i c d bad use).1 := by
  unfold sealPath
  refine .ite_fst (.refl s) (.ite_fst (.refl s) ?_)
  split
  · next u heq => exact .of_pair heq (touches_pathDown _ _ _ _ _ _ _)
  · next u l heq => exact (touches_failNode _ _ _ _ _).after rfl <| .of_pair heq (touches_pathDown _ _ _ _ _ _ _)

theorem touches_versionUse (s i c d) : Touches (reaction.plus { dram := true }) s (versionUse s i c d).1 := by
  unfold versionUse
  split
  · exact .fst <| (touches_ctcPut _ _).mono rfl
  · exact .refl _

theorem touches_sealLine (s c m img src) : Touches (reaction.plus { dram := true }) s (sealLine s c m img src).1 := by
  unfold sealLine
  extract_lets _ _ _
  split
  · extract_lets _
    split
    · next u _ heq =>
      have hu : Touches (reaction.plus { dram := true }) s u := .of_pair heq ((touches_sealPath _ _ _ _ _ _).mono rfl)
      split
      · next v _ _ heq =>
        have hv : Touches (reaction.plus { dram := true }) s v := .of_pair heq ((touches_versionUse _ _ _ _).after rfl <| hu)
        extract_lets _ _ _
        split
        · next w _ heq =>
          have hw : Touches (reaction.plus { dram := true }) s w := .of_pair heq ((touches_ctcFetch _ _ _).after rfl <| hv)
          extract_lets x y
          have hx : Touches (reaction.plus { dram := true }) s x := .ite (hw) ((touches_ctcPut _ _).after rfl <| hw)
          have hy : Touches (reaction.plus { dram := true }) s y := by
            unfold y
            split
            · exact (touches_ctcPut _ _).after rfl <| hx
            · exact hx
          exact hy
  · exact .refl _

theorem touches_sealProbe (s c m src) : Touches (reaction.plus { dram := true }) s (sealProbe s c m src).1 := by
  unfold sealProbe
  split
  · exact (touches_sealPath _ _ _ _ _ _).mono rfl
  · exact .refl _

theorem touches_unsealLine (s c m mu d badNode src) :
    Touches (reaction.plus { dram := true }) s (unsealLine s c m mu d badNode src).1 := by
  unfold unsealLine
  split
  · next i _ =>
    refine .ite_fst (.refl s) ?_
    extract_lets pa k known
    split
    next u bad heq =>
    have hu : Touches (reaction.plus { dram := true }) s u := .of_pair heq (touches_sealPath _ _ _ _ _ _)
    refine .ite_fst (.ite ((touches_sealFail _ _ _ _ _ _ _).after rfl <| hu) hu) ?_
    split
    next v _ old heq =>
    have hv : Touches (reaction.plus { dram := true }) s v := .of_pair heq ((touches_versionUse _ _ _ _).comp hu)
    split
    next w tl heq =>
    have hw : Touches (reaction.plus { dram := true }) s w := .of_pair heq ((touches_ctcFetch _ _ _).comp hv)
    have verdict : ∀ c m k src r diff sp, Touches (reaction.plus { dram := true }) s (sealVerdict w c m k src r diff sp) :=
      fun _ _ _ _ _ _ _ => (touches_sealVerdict _ _ _ _ _ _ _ _).after rfl <| hw
    refine .ite_fst (verdict c m 0 src i 0 true) ?_
    refine .ite_fst (verdict c m 0 src i 0 false) ?_
    exact .ite_fst (verdict _ _ _ _ _ _ _) (verdict _ _ _ _ _ _ _)
  · exact .refl s

theorem touches_sealRebuilt (s c) : Touches (reaction.plus { dram := true }) s (sealRebuilt s c) := by
  unfold sealRebuilt
  exact (.foldl (fun s _ => by
      extract_lets u _
      have hu : Touches (reaction.plus { dram := true }) s u := (touches_sealLine _ _ _ _ _).mono rfl
      exact (touches_setChan _ _ _).after rfl <| hu) _ _)

theorem touches_sealOwed (s) : Touches (reaction.plus { dram := true }) s (sealOwed s) :=
  (.forEach (fun _ _ => (touches_sealRebuilt _ _).mono rfl) _ _)

theorem touches_flushMeta (s n sel) : Touches (reaction.plus { dram := true }) s (flushMeta s n sel) :=
  (.foldl (fun _ _ => .ite (.refl _) ((touches_setSlice _ _ _).after rfl <| (touches_metaStore _ _).mono rfl)) _ _)

theorem touches_flushTrees (s n) : Touches (reaction.plus { dram := true }) s (flushTrees s n) :=
  .comp (.forEach (fun _ _ => (touches_flushMeta _ _ _).mono rfl) _ _) <| (touches_flushMeta _ _ _).mono rfl

theorem touches_flushCaches (s n) : Touches (reaction.plus { dram := true }) s (flushCaches s n) := by
  unfold flushCaches
  extract_lets u v _
  have hu : Touches (reaction.plus { dram := true }) s u := (touches_flushTrees _ _).after rfl <|
      (touches_sealOwed _).after rfl <| (touches_flushTrees _ _).mono rfl
  have hv : Touches (reaction.plus { dram := true }) s v := .comp (.foldl (fun _ _ => (touches_ccWriteBack _ _).mono rfl) _ _) <| hu
  exact (touches_setSlice _ _ _).after rfl <| hv

end Sys2Proof.Laws
end

section
/-! SUPPORT. The parts of the state that the operations of Machine/Memory touch. -/

namespace Sys2Proof.Laws

open Sys2Proof.Machine Sys2Proof.Safety

theorem touches_pushRead (s c r) : Touches { chans := true } s (pushRead s c r) :=
  (touches_setChan _ _ _).mono rfl

theorem touches_setWrq (s c q) : Touches { chans := true } s (setWrq s c q) :=
  (touches_setChan _ _ _).mono rfl

theorem touches_memOld (s c m) : Touches { slices := true } s (memOld s c m) :=
  (touches_setSlice _ _ _).mono rfl

theorem touches_wrqStore (s c w) : Touches { slices := true, chans := true } s (wrqStore s c w) := by
  unfold wrqStore
  extract_lets u _ v _
  have hu : Touches { slices := true, chans := true } s u := (touches_memOld _ _ _).mono rfl
  have hv : Touches { slices := true, chans := true } s v := (touches_setChan _ _ _).after rfl <| hu
  exact .ite ((touches_setWrq _ _ _).after rfl <| hv) ((touches_setWrq _ _ _).after rfl <| hv)

theorem touches_takeOrder (s c) : Touches { chans := true } s (takeOrder s c).2 :=
  .snd <| (touches_setChan _ _ _).mono rfl

theorem touches_orderFor (s c m) : Touches { chans := true } s (orderFor s c m).2 := by
  unfold orderFor
  split
  · exact .ite_snd ((touches_takeOrder _ _).mono rfl) (.refl _)
  · exact (touches_takeOrder _ _).mono rfl

theorem touches_wqFull (s c m img w) : Touches (reaction.plus { dram := true }) s (wqFull s c m img w).1 := by
  unfold wqFull
  split
  · next _ u heq =>
    have hu : Touches (reaction.plus { dram := true }) s u := .of_snd heq ((touches_orderFor _ _ _).mono rfl)
    extract_lets _
    split
    · next v _ heq =>
      have hv : Touches (reaction.plus { dram := true }) s v := .of_pair heq ((touches_sealLine _ _ _ _ _).after rfl <| hu)
      extract_lets _
      exact .fst <| (touches_mirrorLine _ _ _ _ _ _).after rfl <| (touches_wrqStore _ _ _).after rfl <| hv

theorem touches_wqPartial (s c m data poison be w) :
    Touches (reaction.plus { dram := true }) s (wqPartial s c m data poison be w).1 := by
  unfold wqPartial
  split
  · refine .ite_fst ((touches_wqFull _ _ _ _ _).mono rfl) ?_
    extract_lets _
    exact .fst <| (touches_wrqStore _ _ _).mono rfl
  · split
    · next _ u heq =>
      have hu : Touches (reaction.plus { dram := true }) s u := .of_snd heq ((touches_takeOrder _ _).mono rfl)
      extract_lets _ v _
      have hv : Touches (reaction.plus { dram := true }) s v := (touches_wrqStore _ _ _).after rfl <| hu
      exact .fst <| (touches_pushRead _ _ _).after rfl <| hv

theorem touches_wqMerged (s c m src) : Touches (reaction.plus { dram := true }) s (wqMerged s c m src) := by
  unfold wqMerged
  split
  · refine .ite (.refl _) ?_
    extract_lets _
    exact (touches_wqFull _ _ _ _ _).mono rfl
  · exact .refl _

theorem touches_wqCorrective (s c m mu stored r) :
    Touches { slices := true, chans := true } s (wqCorrective s c m mu stored r) := by
  unfold wqCorrective
  refine .ite (.refl _) ?_
  split
  · next _ u heq =>
    have hu : Touches { slices := true, chans := true } s u := .of_snd heq ((touches_takeOrder _ _).mono rfl)
    exact (touches_wrqStore _ _ _).after rfl <| hu

end Sys2Proof.Laws
end

section
/-! SUPPORT. The parts of the state that the operations of Machine/Filter touch. -/

namespace Sys2Proof.Laws

open Sys2Proof.Machine Sys2Proof.Safety

theorem touches_wayWrite (s n st w e) : Touches { regs := true, slices := true } s (wayWrite s n st w e) := by
  unfold wayWrite
  extract_lets _ _ u _
  have hu : Touches { regs := true, slices := true } s u := (touches_setSlice _ _ _).mono rfl
  exact .ite ((touches_setFld _ _ _ _ _).after rfl <| hu) hu

theorem touches_nruTouch (s n st w) : Touches { slices := true } s (nruTouch s n st w) :=
  (touches_setSlice _ _ _).mono rfl

theorem touches_sfDetect (s n k st w syn) : Touches { regs := true } s (sfDetect s n k st w syn) :=
  (touches_raiseErr _ _ _ _ _).mono rfl

theorem touches_sfCorrected (s n st w syn inj) : Touches reaction s (sfCorrected s n st w syn inj) := by
  unfold sfCorrected
  refine .ite ((touches_injectedEvent _ _ _).mono rfl) ?_
  extract_lets u
  have hu : Touches reaction s u := (touches_pmuEvent _ _ _).after rfl <| (touches_satAdd _ _ _ _ _).after rfl <|
      (touches_sfDetect _ _ _ _ _ _).mono rfl
  exact .ite ((touches_injectedEvent _ _ _).after rfl <| hu) ((touches_report _ _ _).after rfl <| hu)

theorem touches_stopSet (s n st) : Touches { slices := true } s (stopSet s n st) :=
  (touches_setSlice _ _ _).mono rfl

theorem touches_stopBank (s n b) : Touches { slices := true } s (stopBank s n b) :=
  (touches_setSlice _ _ _).mono rfl

theorem touches_sfUncorrectable (s n k st w syn inj) : Touches reaction s (sfUncorrectable s n k st w syn inj) := by
  unfold sfUncorrectable
  refine .ite ((touches_injectedEvent _ _ _).mono rfl) ?_
  extract_lets u
  have hu : Touches reaction s u := (touches_sfDetect _ _ _ _ _ _).mono rfl
  exact .ite ((touches_injectedEvent _ _ _).after rfl <| .ite ((touches_stopBank _ _ _).after rfl <|
      hu) ((touches_stopSet _ _ _).after rfl <| hu)) ((touches_report _ _ _).after rfl <|
          .ite ((touches_stopBank _ _ _).after rfl <| hu) ((touches_stopSet _ _ _).after rfl <| hu))

theorem touches_codeFound (s n st w c) : Touches reaction s (codeFound s n st w c) := by
  unfold codeFound
  split
  · exact .refl _
  · exact (touches_sfCorrected _ _ _ _ _ _).mono rfl
  · exact (touches_sfUncorrectable _ _ _ _ _ _ _).mono rfl

theorem touches_codeCheck (s n k st w c) : Touches (reaction.plus { free := true }) s (codeCheck s n k st w c) := by
  unfold codeCheck
  extract_lets _ _ u
  have hu : Touches (reaction.plus { free := true }) s u := (touches_blotUse _ _ _).mono rfl
  refine .ite ((touches_codeFound _ _ _ _ _).after rfl <| hu) ?_
  split
  · next _ v heq =>
    have hv : Touches (reaction.plus { free := true }) s v := .of_snd heq ((touches_takeFree _).after rfl <| hu)
    split
    · exact (touches_sfCorrected _ _ _ _ _ _).after rfl <| hv
    · exact (touches_sfUncorrectable _ _ _ _ _ _ _).after rfl <| hv
    · exact hv

theorem touches_nruCheck (s n st bad) : Touches { regs := true, slices := true } s (nruCheck s n st bad) := by
  unfold nruCheck
  extract_lets _ u v _
  have hu : Touches { regs := true, slices := true } s u := (touches_blotUse _ _ _).mono rfl
  have hv : Touches { regs := true, slices := true } s v := .ite ((touches_sfDetect _ _ _ _ _ _).after rfl <| hu) (hu)
  exact .ite ((touches_setSlice _ _ _).after rfl <| hv) hv

theorem touches_setChecks (s n st w lookup e) : Touches (reaction.plus { free := true }) s (setChecks s n st w lookup e) := by
  unfold setChecks
  extract_lets _ _ _ _ u v x
  have hu : Touches (reaction.plus { free := true }) s u := (touches_codeCheck _ _ _ _ _ _).mono rfl
  have hv : Touches (reaction.plus { free := true }) s v :=
      .comp (.foldl (fun _ _ => .ite (.refl _) ((touches_codeFound _ _ _ _ _).mono rfl)) _ _) <| hu
  have hx : Touches (reaction.plus { free := true }) s x :=
      .ite (.comp (.foldl (fun _ _ => .ite (.refl _) ((touches_codeFound _ _ _ _ _).mono rfl)) _ _) <|
          (touches_codeCheck _ _ _ _ _ _).after rfl <| hv) (hv)
  exact (touches_nruCheck _ _ _ _).after rfl <| hx

theorem touches_filterLookup (s n l err) : Touches (reaction.plus { free := true }) s (filterLookup s n l err) := by
  unfold filterLookup
  obtain ⟨st, x⟩ := lineSetTag s n l
  dsimp only
  generalize hitWays s n l = hits
  have hu : Touches (reaction.plus { free := true }) s (pmuEvent s n 0x02) := (touches_pmuEvent _ _ _).mono rfl
  have found : ∀ v, Touches (reaction.plus { free := true }) s v → Touches (reaction.plus { free := true }) s
      (if 2 ≤ hits.length then sfUncorrectable (setChecks v n st (hits.headD 0) true err) n 2 st (hits.headD 0) 0 false
        else setChecks v n st (hits.headD 0) true err) := by
    intro v hv
    have hw := (touches_setChecks v n st (hits.headD 0) true err).comp hv
    exact .ite ((touches_sfUncorrectable _ _ _ _ _ _ _).after rfl <| hw) hw
  refine found _ ?_
  split
  · exact (touches_nruTouch _ _ _ _).after rfl <| (touches_pmuEvent _ _ _).after rfl <| hu
  · exact hu

theorem touches_trackerCheck (s n) : Touches reaction s (trackerCheck s n) := by
  unfold trackerCheck
  refine .ite ?_ (.refl _)
  extract_lets _ u
  have hu : Touches reaction s u := (touches_blotUse _ _ _).mono rfl
  exact .ite ((touches_injectedEvent _ _ _).after rfl <| hu) hu

end Sys2Proof.Laws
end

section
/-! SUPPORT. The parts of the state that the operations of Machine/Tracker touch. -/

namespace Sys2Proof.Laws

open Sys2Proof.Machine Sys2Proof.Safety

theorem touches_setEntry (s n e) : Touches { slices := true } s (setEntry s n e) :=
  (touches_setSlice _ _ _).mono rfl

theorem touches_entryRsp (s n e r) : Touches { spine := true } s (entryRsp s n e r) :=
  .ite (.refl _) ((touches_sliceSend _ _ _ _ _ _).mono rfl)

theorem touches_sendSnoop (s n id a f prio dl addr dest txn) :
    Touches { regs := true, spine := true, obs := true } s (sendSnoop s n id a f prio dl addr dest txn) := by
  unfold sendSnoop
  split
  · extract_lets _
    exact (touches_sliceSend _ _ _ _ _ _).after rfl <| (touches_pmuEvent _ _ _).mono rfl

theorem touches_takeFree256 (s) : Touches { free := true } s (takeFree256 s).2 := by
  unfold takeFree256
  split
  · next _ u heq =>
    have hu : Touches { free := true } s u := .of_snd heq ((touches_takeFree _).mono rfl)
    split
    · next _ v heq =>
      have hv : Touches { free := true } s v := .of_snd heq ((touches_takeFree _).after rfl <| hu)
      split
      · next _ w heq =>
        have hw : Touches { free := true } s w := .of_snd heq ((touches_takeFree _).after rfl <| hv)
        split
        · next _ x heq =>
          have hx : Touches { free := true } s x := .of_snd heq ((touches_takeFree _).after rfl <| hw)
          exact hx

theorem touches_freeHalf (s img h) : Touches { free := true } s (freeHalf s img h).1 := by
  unfold freeHalf
  refine .ite_fst ?_ (.refl _)
  split
  · next _ u heq =>
    have hu : Touches { free := true } s u := .of_snd heq ((touches_takeFree256 _).mono rfl)
    exact hu

theorem touches_sendLine (s n e img st) : Touches { spine := true, obs := true, free := true } s (sendLine s n e img st) := by
  unfold sendLine
  split
  · next u _ heq =>
    have hu : Touches { spine := true, obs := true, free := true } s u := .of_pair heq ((touches_freeHalf _ _ _).mono rfl)
    split
    · next v _ heq =>
      have hv : Touches { spine := true, obs := true, free := true } s v := .of_pair heq ((touches_freeHalf _ _ _).after rfl <| hu)
      extract_lets _ _ w
      have hw : Touches { spine := true, obs := true, free := true } s w := (touches_sampleStamp _ _ _ _ _).after rfl <| hv
      exact .ite hw ((touches_sliceSend _ _ _ _ _ _).after rfl <| hw)

theorem touches_sendPoison (s n e) : Touches { spine := true, obs := true, free := true } s (sendPoison s n e) :=
  (touches_sendLine _ _ _ _ _).mono rfl

theorem touches_pendEnd (s n e) : Touches { chans := true } s (pendEnd s n e) := by
  unfold pendEnd
  refine .ite ?_ (.refl _)
  extract_lets _ _
  exact (touches_setChan _ _ _).mono rfl

theorem touches_dropReads (s n id c) : Touches { chans := true } s (dropReads s n id c) :=
  (touches_setChan _ _ _).mono rfl

theorem touches_endEntry (s n e) : Touches { regs := true, slices := true, chans := true, obs := true } s (endEntry s n e) := by
  unfold endEntry
  extract_lets u v _ w
  have hu : Touches { regs := true, slices := true, chans := true, obs := true } s u := (touches_pendEnd _ _ _).mono rfl
  have hv : Touches { regs := true, slices := true, chans := true, obs := true } s v :=
      .ite ((touches_dropReads _ _ _ _).after rfl <| hu) (hu)
  have hw : Touches { regs := true, slices := true, chans := true, obs := true } s w := (touches_setSlice _ _ _).after rfl <| hv
  split
  · exact (touches_closeSlot _ _).after rfl <| hw
  · exact .ite ((touches_sampleClose _ _ _ _).after rfl <| hw) hw

theorem touches_releaseEntry (s n e) :
    Touches { regs := true, slices := true, chans := true, obs := true } s (releaseEntry s n e) :=
  .ite ((touches_endEntry _ _ _).mono rfl) ((touches_setEntry _ _ _).mono rfl)

theorem touches_terminate (s n e r) :
    Touches { regs := true, spine := true, slices := true, chans := true, obs := true, free := true } s (terminate s n e r) := by
  unfold terminate
  extract_lets u
  have hu : Touches { regs := true, spine := true, slices := true, chans := true, obs := true, free := true } s u :=
      (touches_sampleStamp _ _ _ _ _).after rfl <| (touches_entryRsp _ _ _ _).mono rfl
  exact .ite ((touches_setEntry _ _ _).after rfl <| .ite ((touches_samplePark _ _ _ _ _).after rfl <|
      hu) (hu)) ((touches_releaseEntry _ _ _).after rfl <| hu)

theorem touches_finish (s n e r) :
    Touches { regs := true, spine := true, slices := true, chans := true, obs := true, free := true } s (finish s n e r) :=
  .ite ((touches_setEntry _ _ _).mono rfl) ((touches_terminate _ _ _ _).mono rfl)

theorem touches_complete (s n e st) :
    Touches { regs := true, spine := true, slices := true, chans := true, obs := true, free := true } s (complete s n e st) :=
  (touches_finish _ _ _ _).mono rfl

theorem touches_failEntry (s n e err data) :
    Touches { regs := true, spine := true, slices := true, chans := true, obs := true, free := true } s
        (failEntry s n e err data) := by
  unfold failEntry
  extract_lets u _
  have hu : Touches { regs := true, spine := true, slices := true, chans := true, obs := true, free := true } s u := by
    unfold u
    refine .ite (.refl _) ?_
    refine .ite ?_ (.ite ((touches_sendPoison _ _ _).mono rfl) (.refl _))
    split
    · next _ v heq =>
      have hv : Touches { regs := true, spine := true, slices := true, chans := true, obs := true, free := true } s v :=
          .of_snd heq ((touches_takeFree256 _).mono rfl)
      exact (touches_sliceSend _ _ _ _ _ _).after rfl <| hv
  exact (touches_finish _ _ _ _).after rfl <| hu

theorem touches_markLine {s t : State} {n l : Nat} {dl : Bool} {o : Nat} (h : markLine s n l dl = some (t, o)) :
    Touches (reaction.plus { dram := true }) s t := by
  unfold markLine at h
  split at h
  split at h
  · exact .of_pair (Option.some.inj h) (touches_wqFull _ _ _ _ _)
  · cases h

theorem touches_markDone (s n l) : Touches { slices := true } s (markDone s n l) :=
  (touches_setSlice _ _ _).mono rfl

theorem touches_markOwed (s n a l) : Touches { slices := true } s (markOwed s n a l) :=
  (touches_setSlice _ _ _).mono rfl

theorem touches_countLost (s n) : Touches reaction s (countLost s n) :=
  (touches_report _ _ _).after rfl <| (touches_satAdd _ _ _ _ _).mono rfl

theorem touches_loseWay (s n st w a) : Touches (reaction.plus { dram := true }) s (loseWay s n st w a).1 := by
  unfold loseWay
  extract_lets e l lost u
  have hu : Touches (reaction.plus { dram := true }) s u :=
    (touches_countLost _ _).after rfl <| (touches_wayWrite _ _ _ _ _).mono rfl
  split
  · next v o heq => exact (touches_wayWrite _ _ _ _ _).after rfl <| (touches_markLine heq).comp hu
  · exact (touches_markOwed _ _ _ _).after rfl <| hu

theorem touches_retryMark (s n st w) : Touches (reaction.plus { dram := true }) s (retryMark s n st w) := by
  unfold retryMark
  refine .ite ?_ (.refl s)
  extract_lets l
  split
  · next u _ heq =>
    exact (touches_markDone _ _ _).after rfl <| (touches_wayWrite _ _ _ _ _).after rfl <| touches_markLine heq
  · exact .refl s

theorem touches_reclaimWay (s n st w a) : Touches (reaction.plus { dram := true }) s (reclaimWay s n st w a) := by
  unfold reclaimWay
  extract_lets _ _ _ _ _
  refine .ite (.refl _) ?_
  split
  · exact (touches_loseWay _ _ _ _ _).mono rfl
  · exact (touches_wayWrite _ _ _ _ _).mono rfl
  · refine .ite ((touches_wayWrite _ _ _ _ _).mono rfl) ?_
    refine .ite ((touches_loseWay _ _ _ _ _).mono rfl) ?_
    refine .ite (.refl _) ?_
    split
    · exact .refl _
    · extract_lets _ u
      have hu : Touches (reaction.plus { dram := true }) s u := (touches_setSlice _ _ _).mono rfl
      exact .comp (.foldl (fun _ _ => (touches_sendSnoop _ _ _ _ _ _ _ _ _ _).mono rfl) _ _) <| hu
  · exact .refl _

theorem touches_moveVictim (s n st w slot prio) :
    Touches { regs := true, spine := true, slices := true, obs := true } s (moveVictim s n st w slot prio) := by
  unfold moveVictim
  extract_lets _ _ _ _ _ _ u v x
  have hu : Touches { regs := true, spine := true, slices := true, obs := true } s u := (touches_setSlice _ _ _).mono rfl
  have hv : Touches { regs := true, spine := true, slices := true, obs := true } s v := (touches_satAdd _ _ _ _ _).after rfl <|
      (touches_wayWrite _ _ _ _ _).after rfl <| hu
  have hx : Touches { regs := true, spine := true, slices := true, obs := true } s x := (touches_pmuEvent _ _ _).after rfl <| hv
  exact .comp (.foldl (fun _ _ => (touches_sendSnoop _ _ _ _ _ _ _ _ _ _).mono rfl) _ _) <| hx

theorem touches_passPtr (s n st w) : Touches { slices := true } s (passPtr s n st w) :=
  (touches_setSlice _ _ _).mono rfl

theorem touches_allocate (s n st dl prio first) :
    Touches { regs := true, spine := true, slices := true, obs := true } s (allocate s n st dl prio first).1 := by
  unfold allocate
  split
  · exact .fst <| .ite ((touches_pmuEvent _ _ _).mono rfl) (.refl _)
  · extract_lets _
    refine .ite_fst (.fst <| (touches_nruTouch _ _ _ _).after rfl <| (touches_pmuEvent _ _ _).mono rfl) ?_
    refine .ite_fst (.fst <| (touches_nruTouch _ _ _ _).after rfl <| (touches_pmuEvent _ _ _).after rfl <|
        (touches_wayWrite _ _ _ _ _).mono rfl) ?_
    split
    · exact .fst <| .ite ((touches_pmuEvent _ _ _).mono rfl) (.refl _)
    · exact .fst <| (touches_nruTouch _ _ _ _).after rfl <| (touches_pmuEvent _ _ _).after rfl <|
        (touches_passPtr _ _ _ _).after rfl <| (touches_moveVictim _ _ _ _ _ _).mono rfl

theorem touches_walkWay (s n e) : Touches { regs := true, slices := true, obs := true } s (walkWay s n e).1 := by
  unfold walkWay
  split
  · refine .ite_fst ?_ (.fst <| (touches_pmuEvent _ _ _).mono rfl)
    split
    · exact .fst <| (touches_nruTouch _ _ _ _).after rfl <| (touches_pmuEvent _ _ _).mono rfl
    · exact .fst <| (touches_pmuEvent _ _ _).mono rfl

theorem touches_reserveWalk (s n e) : Touches { regs := true, slices := true, obs := true } s (reserveWalk s n e).1 :=
  .ite_fst (.refl _) ((touches_walkWay _ _ _).mono rfl)

theorem touches_markWalked (s n l) : Touches { regs := true, slices := true, obs := true } s (markWalked s n l) := by
  unfold markWalked
  split
  · extract_lets _
    split
    · extract_lets _
      exact (touches_wayWrite _ _ _ _ _).mono rfl
    · refine .ite ?_ ((touches_pmuEvent _ _ _).mono rfl)
      split
      · exact (touches_nruTouch _ _ _ _).after rfl <| (touches_pmuEvent _ _ _).after rfl <| (touches_wayWrite _ _ _ _ _).mono rfl
      · exact (touches_pmuEvent _ _ _).mono rfl

theorem touches_markHolder (s n l) : Touches { regs := true, slices := true } s (markHolder s n l) := by
  unfold markHolder
  split
  · extract_lets _
    exact (touches_wayWrite _ _ _ _ _).mono rfl
  · exact .refl _

theorem touches_walkRefused (s n l) : Touches { regs := true, slices := true, obs := true } s (walkRefused s n l) := by
  unfold walkRefused
  split
  · exact (touches_markWalked _ _ _).mono rfl
  · extract_lets u
    have hu : Touches { regs := true, slices := true, obs := true } s u := (touches_markHolder _ _ _).mono rfl
    split
    · next v _ heq =>
      have hv : Touches { regs := true, slices := true, obs := true } s v :=
          .of_pair heq (.ite_fst (hu) ((touches_walkWay _ _ _).after rfl <| hu))
      extract_lets _
      exact (touches_setEntry _ _ _).after rfl <| hv

theorem touches_writeHalves (s n l hs w) : Touches (reaction.plus { dram := true }) s (writeHalves s n l hs w).1 := by
  unfold writeHalves
  split
  · split
    · exact .ite_fst ((touches_wqFull _ _ _ _ _).mono rfl) ((touches_wqPartial _ _ _ _ _ _ _).mono rfl)

theorem touches_lineBroken (s n l src) : Touches (reaction.plus { dram := true }) s (lineBroken s n l src).1 := by
  unfold lineBroken
  split
  · exact (touches_sealProbe _ _ _ _).mono rfl

theorem touches_noticeAck (s n t) : Touches { spine := true } s (noticeAck s n t) := by
  unfold noticeAck
  refine .ite (.refl _) ?_
  extract_lets _ _
  exact (touches_sliceSend _ _ _ _ _ _).mono rfl

theorem touches_noticeQueue (s n t) : Touches (reaction.plus { dram := true }) s (noticeQueue s n t).1 := by
  unfold noticeQueue
  refine .ite_fst (.refl _) ?_
  refine .ite_fst ?_ (.refl _)
  split
  · next u _ heq =>
    have hu : Touches (reaction.plus { dram := true }) s u := .of_pair heq ((touches_lineBroken _ _ _ _).mono rfl)
    refine .ite_fst hu ?_
    split
    · next v _ heq =>
      have hv : Touches (reaction.plus { dram := true }) s v := .of_pair heq ((touches_writeHalves _ _ _ _ _).after rfl <| hu)
      exact hv

theorem touches_noticesQueue (s n l) : Touches (reaction.plus { dram := true }) s (noticesQueue s n l).1 := by
  unfold noticesQueue
  exact .foldl_fst (fun acc _ => by
      split
      · next u _ heq =>
        have hu : Touches (reaction.plus { dram := true }) acc.1 u := .of_pair heq ((touches_noticeQueue _ _ _).mono rfl)
        exact hu) _ _ _

theorem touches_noticesAck (s n l) : Touches { spine := true } s (noticesAck s n l).1 := by
  unfold noticesAck
  exact .foldl_fst (fun acc _ => by
      exact .ite_fst (.fst <| (touches_noticeAck _ _ _).mono rfl) (.refl _)) _ _ _

theorem touches_writeLineEntry (s n l v) : Touches { regs := true, slices := true } s (writeLineEntry s n l v) := by
  unfold writeLineEntry
  split
  · split
    · exact (touches_wayWrite _ _ _ _ _).mono rfl
  · exact .refl _

theorem touches_noticeIdle (s n t) : Touches (reaction.plus { dram := true }) s (noticeIdle s n t).1 := by
  unfold noticeIdle
  refine .ite_fst ((touches_noticeQueue _ _ _).mono rfl) ?_
  refine .ite_fst (.refl _) ?_
  split
  · exact .refl _
  · split
    · next u _ heq =>
      have hu : Touches (reaction.plus { dram := true }) s u := .of_pair heq ((touches_noticeQueue _ _ _).mono rfl)
      exact .ite_fst hu (.fst <| (touches_writeLineEntry _ _ _ _).after rfl <| hu)

theorem touches_collQueue (s n l prio c) : Touches (reaction.plus { dram := true }) s (collQueue s n l prio c).1 := by
  unfold collQueue
  refine .foldl_fst (fun acc w => ?_) _ _ _
  obtain ⟨u, c, os⟩ := acc
  refine .ite_fst ?_ (.refl u)
  split
  next v bad heq =>
  have hv : Touches (reaction.plus { dram := true }) u v := .of_pair heq ((touches_lineBroken _ _ _ _).mono rfl)
  split
  next x o heq =>
  exact .of_pair heq (.ite_fst hv ((touches_writeHalves _ _ _ _ _).after rfl <| hv))

theorem touches_tryMem (s n e) : Touches { regs := true, chans := true, obs := true } s (tryMem s n e).1 := by
  unfold tryMem
  refine .ite_fst (.refl _) ?_
  split
  · extract_lets u _
    have hu : Touches { regs := true, chans := true, obs := true } s u := (touches_sampleFlag _ _ _ _ _).after rfl <|
        (touches_pendEnd _ _ _).after rfl <| (touches_pmuEvent _ _ _).mono rfl
    split
    · exact hu
    · exact .ite_fst (.fst <| (touches_pushRead _ _ _).mono rfl) (.refl _)

theorem touches_commitView (s n e v) : Touches { regs := true, spine := true, slices := true } s (commitView s n e v).1 := by
  unfold commitView
  extract_lets _
  split
  · extract_lets _ _
    split
    · extract_lets u
      have hu : Touches { regs := true, spine := true, slices := true } s u := by
        unfold u
        split
        · exact (touches_wayWrite _ _ _ _ _).mono rfl
        · exact (touches_writeLineEntry _ _ _ _).mono rfl
      split
      · next w _ heq =>
        have hw : Touches { regs := true, spine := true, slices := true } s w :=
            .of_pair heq ((touches_noticesAck _ _ _).after rfl <| hu)
        exact hw

theorem touches_commitLost (s n e who) : Touches (reaction.plus { dram := true }) s (commitLost s n e who).1 := by
  unfold commitLost
  refine .ite_fst ((touches_commitView _ _ _ _).mono rfl) ?_
  split
  next u e' heq =>
  have hu : Touches (reaction.plus { dram := true }) s u := .of_pair heq ((touches_commitView _ _ _ _).mono rfl)
  split
  · split
    next v o heq =>
    exact .of_pair heq ((touches_loseWay _ _ _ _ _).comp hu)
  · split
    · next v o heq => exact (touches_markLine heq).comp <| (touches_countLost _ _).after rfl <| hu
    · exact (touches_markOwed _ _ _ _).after rfl <| (touches_countLost _ _).after rfl <| hu

theorem touches_commitEnd (s n e v) : Touches (reaction.plus { dram := true }) s (commitEnd s n e v).1 := by
  unfold commitEnd
  split
  · exact (touches_commitLost _ _ _ _).mono rfl
  · exact (touches_commitView _ _ _ _).mono rfl

theorem touches_sendOld (s n e old) :
    Touches { regs := true, spine := true, obs := true, free := true } s (sendOld s n e old).1 := by
  unfold sendOld
  refine .ite_fst (.refl _) ?_
  extract_lets _ u _
  have hu : Touches { regs := true, spine := true, obs := true, free := true } s u :=
      (touches_sampleStamp _ _ _ _ _).after rfl <| (touches_pmuEvent _ _ _).mono rfl
  split
  · next _ v heq =>
    have hv : Touches { regs := true, spine := true, obs := true, free := true } s v :=
        .of_snd heq ((touches_takeFree256 _).after rfl <| hu)
    extract_lets _ w
    have hw : Touches { regs := true, spine := true, obs := true, free := true } s w :=
        .ite (hv) ((touches_sliceSend _ _ _ _ _ _).after rfl <| hv)
    exact hw

theorem touches_atomicFinish (s n e img) : Touches (reaction.plus { dram := true, free := true }) s (atomicFinish s n e img) := by
  unfold atomicFinish
  extract_lets _ _ _ _ _ _
  split
  · refine .ite ((touches_failEntry _ _ _ _ _).mono rfl) ?_
    refine .ite ((touches_failEntry _ _ _ _ _).mono rfl) ?_
    split
    · next u _ heq =>
      have hu : Touches (reaction.plus { dram := true, free := true }) s u := .of_pair heq ((touches_sendOld _ _ _ _).mono rfl)
      split
      · refine .ite ((touches_setEntry _ _ _).after rfl <| hu) ?_
        split
        · next v _ heq =>
          have hv : Touches (reaction.plus { dram := true, free := true }) s v :=
              .of_pair heq ((touches_wqFull _ _ _ _ _).after rfl <| hu)
          exact (touches_complete _ _ _ _).after rfl <| hv
      · exact (touches_complete _ _ _ _).after rfl <| (touches_satAdd _ _ _ _ _).after rfl <| hu

theorem touches_readFinish (s n e img uncorr) :
    Touches { regs := true, spine := true, slices := true, chans := true, obs := true, free := true } s
        (readFinish s n e img uncorr) := by
  unfold readFinish
  extract_lets _ _
  refine .ite ?_ ?_
  · split
    · next u _ heq =>
      have hu : Touches { regs := true, spine := true, slices := true, chans := true, obs := true, free := true } s u :=
          .of_pair heq ((touches_commitView _ _ _ _).mono rfl)
      exact (touches_failEntry _ _ _ _ _).after rfl <| hu
  · refine .ite ?_ ?_
    · split
      · next v _ heq =>
        have hv : Touches { regs := true, spine := true, slices := true, chans := true, obs := true, free := true } s v :=
            .of_pair heq ((touches_commitView _ _ _ _).mono rfl)
        exact (touches_failEntry _ _ _ _ _).after rfl <| hv
    · split
      · next w _ heq =>
        have hw : Touches { regs := true, spine := true, slices := true, chans := true, obs := true, free := true } s w :=
            .of_pair heq ((touches_commitView _ _ _ _).mono rfl)
        exact (touches_complete _ _ _ _).after rfl <| (touches_sendLine _ _ _ _ _).after rfl <| hw

theorem touches_readStep (s n e) : Touches (reaction.plus { dram := true, free := true }) s (readStep s n e) := by
  unfold readStep
  refine .ite ?_ ?_
  · split
    · next u _ heq =>
      have hu : Touches (reaction.plus { dram := true, free := true }) s u := .of_pair heq ((touches_commitEnd _ _ _ _).mono rfl)
      exact (touches_failEntry _ _ _ _ _).after rfl <| hu
  · refine .ite ?_ ?_
    · split
      · next v _ heq =>
        have hv : Touches (reaction.plus { dram := true, free := true }) s v := .of_pair heq ((touches_commitView _ _ _ _).mono rfl)
        exact (touches_complete _ _ _ _).after rfl <| hv
    · refine .ite ?_ ?_
      · split
        · next w _ heq =>
          have hw : Touches (reaction.plus { dram := true, free := true }) s w :=
              .of_pair heq ((touches_commitView _ _ _ _).mono rfl)
          exact (touches_complete _ _ _ _).after rfl <| (touches_pmuEvent _ _ _).after rfl <| hw
      · extract_lets _
        split
        · next x _ heq =>
          have hx : Touches (reaction.plus { dram := true, free := true }) s x := .of_pair heq ((touches_tryMem _ _ _).mono rfl)
          split
          · exact (touches_readFinish _ _ _ _ _).after rfl <| hx
          · exact (touches_setEntry _ _ _).after rfl <| hx

theorem touches_writeStep (s n e) : Touches (reaction.plus { dram := true, free := true }) s (writeStep s n e) := by
  unfold writeStep
  split
  · split
    next u e' heq =>
    exact (touches_releaseEntry _ _ _).after rfl <| .of_pair heq ((touches_commitEnd _ _ _ _).mono rfl)
  refine .ite ((touches_setEntry _ _ _).mono rfl) ?_
  split
  next u bad heq =>
  have hu : Touches (reaction.plus { dram := true, free := true }) s u := .of_pair heq ((touches_lineBroken _ _ _ _).mono rfl)
  split
  · split
    next v e' heq =>
    exact (touches_failEntry _ _ _ _ _).after rfl <| .of_pair heq ((touches_commitEnd _ _ _ _).after rfl <| hu)
  split
  next d _ _ _ =>
  extract_lets full v
  have hv : Touches (reaction.plus { dram := true, free := true }) s v := .ite ((touches_countLost _ _).after rfl <| hu) hu
  split
  next w o heq =>
  have hw : Touches (reaction.plus { dram := true, free := true }) s w := by
    refine .of_pair heq (.ite_fst ?_ (.ite_fst ?_ hv))
    · exact (touches_writeHalves _ _ _ _ _).after rfl <| hv
    · cases hm : markLine v n e.line e.dl with
      | none => exact hv
      | some t => exact (touches_markLine hm).after rfl <| hv
  extract_lets x view
  have hx : Touches (reaction.plus { dram := true, free := true }) s x :=
    .ite ((touches_watchHeartbeat _ _ _ _ _ _).after rfl <| (touches_markDone _ _ _).after rfl <| hw) hw
  split
  next y e' heq =>
  exact (touches_complete _ _ _ _).after rfl <| .of_pair heq ((touches_commitView _ _ _ _).after rfl <| hx)

theorem touches_atomicStep (s n e) : Touches (reaction.plus { dram := true, free := true }) s (atomicStep s n e) := by
  unfold atomicStep
  refine .ite ?_ ?_
  · split
    · next u _ heq =>
      have hu : Touches (reaction.plus { dram := true, free := true }) s u := .of_pair heq ((touches_commitEnd _ _ _ _).mono rfl)
      exact (touches_failEntry _ _ _ _ _).after rfl <| hu
  · refine .ite ((touches_setEntry _ _ _).mono rfl) ?_
    refine .ite ?_ ?_
    · split
      · next v _ heq =>
        have hv : Touches (reaction.plus { dram := true, free := true }) s v := .of_pair heq ((touches_commitView _ _ _ _).mono rfl)
        extract_lets w
        have hw : Touches (reaction.plus { dram := true, free := true }) s w := (touches_satAdd _ _ _ _ _).after rfl <| hv
        split
        · next x _ heq =>
          have hx : Touches (reaction.plus { dram := true, free := true }) s x :=
              .of_pair heq ((touches_tryMem _ _ _).after rfl <| hw)
          split
          · exact .ite ((touches_failEntry _ _ _ _ _).after rfl <| hx) ((touches_atomicFinish _ _ _ _).after rfl <| hx)
          · exact (touches_setEntry _ _ _).after rfl <| hx
    · split
      · next y _ heq =>
        have hy : Touches (reaction.plus { dram := true, free := true }) s y := .of_pair heq ((touches_tryMem _ _ _).mono rfl)
        split
        · exact .ite ((touches_failEntry _ _ _ _ _).after rfl <| hy) ((touches_atomicFinish _ _ _ _).after rfl <| hy)
        · exact (touches_setEntry _ _ _).after rfl <| hy

theorem touches_maintStep (s n e) : Touches (reaction.plus { dram := true, free := true }) s (maintStep s n e) := by
  unfold maintStep
  refine .ite ((touches_setEntry _ _ _).mono rfl) ?_
  split
  · next u _ heq =>
    have hu : Touches (reaction.plus { dram := true, free := true }) s u := .of_pair heq ((touches_commitEnd _ _ _ _).mono rfl)
    exact (touches_complete _ _ _ _).after rfl <| hu

theorem touches_flowStep (s n e) : Touches (reaction.plus { dram := true, free := true }) s (flowStep s n e) :=
  .ite ((touches_readStep _ _ _).mono rfl) (.ite ((touches_writeStep _ _ _).mono rfl) (.ite
      ((touches_atomicStep _ _ _).mono rfl) ((touches_maintStep _ _ _).mono rfl)))

theorem touches_sendBatch (s n e l stage) :
    Touches { regs := true, spine := true, slices := true, obs := true, free := true } s (sendBatch s n e l stage) := by
  unfold sendBatch
  extract_lets _ u v
  have hu : Touches { regs := true, spine := true, slices := true, obs := true, free := true } s u :=
      (touches_setEntry _ _ _).mono rfl
  have hv : Touches { regs := true, spine := true, slices := true, obs := true, free := true } s v :=
      .ite (hu) ((touches_sampleStamp _ _ _ _ _).after rfl <| hu)
  exact .comp (.foldl (fun _ _ => (touches_sendSnoop _ _ _ _ _ _ _ _ _ _).mono rfl) _ _) <| hv

theorem touches_mainStep (s n e) : Touches (reaction.plus { dram := true, free := true }) s (mainStep s n e) := by
  unfold mainStep
  extract_lets _ _ _ _ _ _ _ _ _ _ _ _
  split
  · next u _ heq =>
    have hu : Touches (reaction.plus { dram := true, free := true }) s u :=
        .of_pair heq (.ite_fst ((touches_tryMem _ _ _).mono rfl) (.refl _))
    extract_lets v
    have hv : Touches (reaction.plus { dram := true, free := true }) s v := (touches_setEntry _ _ _).after rfl <| hu
    exact .ite ((touches_sendBatch _ _ _ _ _).after rfl <| hv) (.ite ((touches_flowStep _ _ _).after rfl <| hv) hv)

theorem touches_startFlow (s n e) : Touches (reaction.plus { dram := true, free := true }) s (startFlow s n e) := by
  unfold startFlow
  refine .ite ?_ ((touches_mainStep _ _ _).mono rfl)
  extract_lets _
  exact (touches_sendBatch _ _ _ _ _).mono rfl

theorem touches_beginFlow (s n e) : Touches (reaction.plus { dram := true, free := true }) s (beginFlow s n e) :=
  .ite ((touches_failEntry _ _ _ _ _).mono rfl) (.ite ((touches_startFlow _ _ _).mono rfl) (.ite
      ((touches_setEntry _ _ _).mono rfl) (.ite ((touches_releaseEntry _ _ _).mono rfl) ((touches_startFlow _ _ _).mono rfl))))

theorem touches_enterFlow (s n e first) : Touches (reaction.plus { dram := true, free := true }) s (enterFlow s n e first) := by
  unfold enterFlow
  refine .ite ?_ ((touches_beginFlow _ _ _).mono rfl)
  split
  · next u _ heq =>
    have hu : Touches (reaction.plus { dram := true, free := true }) s u := .of_pair heq ((touches_allocate _ _ _ _ _ _).mono rfl)
    split
    · exact (touches_beginFlow _ _ _).after rfl <| hu
    · exact (touches_setEntry _ _ _).after rfl <| hu
    · exact (touches_setEntry _ _ _).after rfl <| .ite ((touches_sampleFlag _ _ _ _ _).after rfl <| hu) (hu)

theorem touches_advance (s n id) : Touches (reaction.plus { dram := true, free := true }) s (advance s n id) := by
  unfold advance
  split
  · exact .refl _
  · split
    · next u _ heq =>
      have hu : Touches (reaction.plus { dram := true, free := true }) s u := .of_pair heq ((touches_noticesQueue _ _ _).mono rfl)
      extract_lets _ _
      split
      · next v _ _ heq =>
        have hv : Touches (reaction.plus { dram := true, free := true }) s v :=
            .of_pair heq ((touches_collQueue _ _ _ _ _).after rfl <| hu)
        extract_lets _ _ w
        have hw : Touches (reaction.plus { dram := true, free := true }) s w := (touches_setEntry _ _ _).after rfl <| hv
        split
        · exact (touches_enterFlow _ _ _ _).after rfl <| hw
        · exact .ite ((touches_mainStep _ _ _).after rfl <| hw) hw
        · exact .ite ((touches_flowStep _ _ _).after rfl <| hw) hw
        · refine .ite ?_ hw
          refine .ite ((touches_atomicStep _ _ _).after rfl <| hw) ?_
          split
          · next x _ heq =>
            have hx : Touches (reaction.plus { dram := true, free := true }) s x :=
                .of_pair heq ((touches_tryMem _ _ _).after rfl <| hw)
            split
            · exact (touches_readFinish _ _ _ _ _).after rfl <| hx
            · exact (touches_setEntry _ _ _).after rfl <| hx
        · exact (touches_flowStep _ _ _).after rfl <| hw
        · split
          · exact .ite hw ((touches_terminate _ _ _ _).after rfl <| hw)
          · split
            · next y _ heq =>
              have hy : Touches (reaction.plus { dram := true, free := true }) s y :=
                  .of_pair heq (.comp (.foldl_fst (fun acc _ => by
                split
                · next z _ heq =>
                  have hz : Touches (reaction.plus { dram := true, free := true }) acc.1 z :=
                      .of_pair heq ((touches_noticeIdle _ _ _).mono rfl)
                  exact hz) _ _ _) <| hw)
              split
              · next u' _ heq =>
                have hu' : Touches (reaction.plus { dram := true, free := true }) s u' :=
                    .of_pair heq ((touches_noticesAck _ _ _).after rfl <| hy)
                exact (touches_releaseEntry _ _ _).after rfl <| hu'
        · split
          · next v' _ heq =>
            have hv' : Touches (reaction.plus { dram := true, free := true }) s v' :=
                .of_pair heq (.comp (.foldl_fst (fun acc _ => by
              split
              · next w' _ heq =>
                have hw' : Touches (reaction.plus { dram := true, free := true }) acc.1 w' :=
                    .of_pair heq (.ite_fst (.refl _) ((touches_noticeIdle _ _ _).mono rfl))
                exact hw') _ _ _) <| hw)
            split
            · next x' _ heq =>
              have hx' : Touches (reaction.plus { dram := true, free := true }) s x' :=
                  .of_pair heq ((touches_noticesAck _ _ _).after rfl <| hv')
              exact (touches_setEntry _ _ _).after rfl <| hx'
        · exact hw

theorem touches_allocAgain (s n) : Touches (reaction.plus { dram := true, free := true }) s (allocAgain s n) := by
  unfold allocAgain
  exact (.foldl (fun s _ => by
      split
      · exact .ite ((touches_enterFlow _ _ _ _).mono rfl) (.refl _)
      · exact .refl _) _ _)

theorem touches_memArrived (s n id img uncorr stale) :
    Touches (reaction.plus { dram := true, free := true }) s (memArrived s n id img uncorr stale) := by
  unfold memArrived
  extract_lets u
  have hu : Touches (reaction.plus { dram := true, free := true }) s u := .ite ((touches_trackerCheck _ _).mono rfl) (.refl _)
  split
  · exact hu
  · refine .ite hu ?_
    extract_lets _
    split
    · next v _ heq =>
      have hv : Touches (reaction.plus { dram := true, free := true }) s v := .of_pair heq ((touches_tryMem _ _ _).after rfl <| hu)
      exact (touches_allocAgain _ _).after rfl <| (touches_advance _ _ _).after rfl <| (touches_setEntry _ _ _).after rfl <| hv

end Sys2Proof.Laws
end

section
/-! SUPPORT. The parts of the state that the operations of Machine/Admission touch. -/

namespace Sys2Proof.Laws

open Sys2Proof.Machine Sys2Proof.Safety

theorem touches_addEntry (s n e) : Touches { slices := true } s (addEntry s n e) :=
  (touches_setSlice _ _ _).mono rfl

theorem touches_addRecord (s n r) : Touches { slices := true } s (addRecord s n r) :=
  (touches_setSlice _ _ _).mono rfl

theorem touches_sendRetry (s n src dl r record) :
    Touches { regs := true, spine := true, slices := true, obs := true } s (sendRetry s n src dl r record) := by
  unfold sendRetry
  extract_lets u
  have hu : Touches { regs := true, spine := true, slices := true, obs := true } s u := by
    unfold u
    split
    · exact (touches_addRecord _ _ _).mono rfl
    · exact .refl _
  exact (touches_sliceSend _ _ _ _ _ _).after rfl <| (touches_pmuEvent _ _ _).after rfl <| hu

theorem touches_admitCharge (s n e) : Touches { regs := true, chans := true, obs := true } s (admitCharge s n e).1 := by
  unfold admitCharge
  extract_lets _ u _ _ v
  have hu : Touches { regs := true, chans := true, obs := true } s u := (touches_pmuEvent _ _ _).after rfl <|
      (touches_setFld _ _ _ _ _).mono rfl
  have hv : Touches { regs := true, chans := true, obs := true } s v := .ite ((touches_setChan _ _ _).after rfl <| hu) (hu)
  exact hv

theorem touches_admitRead (s n e) : Touches { regs := true, chans := true, obs := true } s (admitRead s n e).1 :=
  .ite_fst ((touches_tryMem _ _ _).mono rfl) (.refl _)

theorem touches_refuseAdmission (s n src r cause cls waits) :
    Touches { regs := true, spine := true, slices := true, obs := true } s (refuseAdmission s n src r cause cls waits) := by
  unfold refuseAdmission
  extract_lets u v w _
  have hu : Touches { regs := true, spine := true, slices := true, obs := true } s u := (touches_setBit _ _ _ _).mono rfl
  have hv : Touches { regs := true, spine := true, slices := true, obs := true } s v := (touches_satAdd _ _ _ _ _).after rfl <|
      (touches_pmuEvent _ _ _).after rfl <| hu
  have hw : Touches { regs := true, spine := true, slices := true, obs := true } s w := (touches_addRecord _ _ _).after rfl <| hv
  exact (touches_sliceSend _ _ _ _ _ _).after rfl <| hw

theorem touches_homeSample (s n p r c reissue) : Touches { obs := true, free := true } s (homeSample s n p r c reissue) := by
  unfold homeSample
  refine .ite ?_ (.refl _)
  extract_lets _ _ _ _ _
  exact (touches_sampleOpen _ _ _ _ _ _ _ _).mono rfl

theorem touches_lineWaits (s n src txn l) : Touches { regs := true, obs := true } s (lineWaits s n src txn l) := by
  unfold lineWaits
  extract_lets u
  have hu : Touches { regs := true, obs := true } s u := by
    unfold u
    split
    · exact .ite ((touches_sampleFlag _ _ _ _ _).after rfl <| (touches_pmuEvent _ _ _).mono rfl) (.refl _)
    · exact .refl _
  exact .ite ((touches_sampleFlag _ _ _ _ _).after rfl <| hu) hu

theorem touches_acceptReq (s n p r l id pool st holder) :
    Touches { regs := true, slices := true, obs := true, free := true } s (acceptReq s n p r l id pool st holder) := by
  unfold acceptReq
  extract_lets u _
  have hu : Touches { regs := true, slices := true, obs := true, free := true } s u :=
      (touches_lineWaits _ _ _ _ _).after rfl <| (touches_homeSample _ _ _ _ _ _).mono rfl
  exact (touches_addEntry _ _ _).after rfl <| hu

theorem touches_acceptReissue (s n p r l e) :
    Touches { regs := true, slices := true, chans := true, obs := true, free := true } s (acceptReissue s n p r l e) := by
  unfold acceptReissue
  extract_lets u v _ _ w x
  have hu : Touches { regs := true, slices := true, chans := true, obs := true, free := true } s u :=
      (touches_lineWaits _ _ _ _ _).after rfl <| (touches_homeSample _ _ _ _ _ _).mono rfl
  have hv : Touches { regs := true, slices := true, chans := true, obs := true, free := true } s v :=
      .ite ((touches_sampleFlag _ _ _ _ _).after rfl <| hu) (hu)
  have hw : Touches { regs := true, slices := true, chans := true, obs := true, free := true } s w :=
      (touches_setSlice _ _ _).after rfl <| hv
  have hx : Touches { regs := true, slices := true, chans := true, obs := true, free := true } s x :=
      (touches_setEntry _ _ _).after rfl <| hw
  refine .ite ?_ hx
  split
  · next y _ heq =>
    have hy : Touches { regs := true, slices := true, chans := true, obs := true, free := true } s y :=
        .of_pair heq ((touches_admitRead _ _ _).after rfl <| hx)
    exact (touches_setEntry _ _ _).after rfl <| hy

theorem touches_ingressLine (s n p r l) :
    Touches { regs := true, spine := true, slices := true, obs := true, free := true } s (ingressLine s n p r l) := by
  unfold ingressLine
  refine .ite ((touches_sendRetry _ _ _ _ _ _).mono rfl) ?_
  extract_lets same holder
  clear_value same
  cases same with
  | some e => exact (touches_sendRetry _ _ _ _ _ _).mono rfl
  | none =>
    dsimp only
    split
    · exact (touches_acceptReq _ _ _ _ _ _ _ _ _).mono rfl
    · exact (touches_sendRetry _ _ _ _ _ _).mono rfl

theorem touches_ingressElsewhere (s n i r h) : Touches { spine := true, slices := true } s (ingressElsewhere s n i r h) := by
  unfold ingressElsewhere
  extract_lets _
  split
  · refine .ite ?_ ((touches_sliceSend _ _ _ _ _ _).mono rfl)
    extract_lets _
    exact (touches_setSlice _ _ _).mono rfl
  · exact (touches_sliceSend _ _ _ _ _ _).mono rfl

theorem touches_returnReserved (s n e) :
    Touches { regs := true, slices := true, chans := true, obs := true } s (returnReserved s n e) := by
  unfold returnReserved
  extract_lets _ u
  have hu : Touches { regs := true, slices := true, chans := true, obs := true } s u :=
      .ite ((touches_setFld _ _ _ _ _).mono rfl) (.refl _)
  exact (touches_endEntry _ _ _).after rfl <| hu

theorem touches_dropReservation (s n src txn) :
    Touches { regs := true, slices := true, chans := true, obs := true } s (dropReservation s n src txn) := by
  unfold dropReservation
  split
  · exact (touches_returnReserved _ _ _).mono rfl
  · exact .refl _

theorem touches_ingressTake (s n i r) :
    Touches { regs := true, spine := true, slices := true, chans := true, obs := true, free := true } s (ingressTake s n i r) := by
  unfold ingressTake
  extract_lets _ _ u _
  have hu : Touches { regs := true, spine := true, slices := true, chans := true, obs := true, free := true } s u :=
      .ite ((touches_dropReservation _ _ _ _).mono rfl) (.refl _)
  refine .ite (.ite (.refl _) ((touches_sliceSend _ _ _ _ _ _).mono rfl)) ?_
  refine .ite (.refl _) ?_
  split
  · exact (touches_ingressElsewhere _ _ _ _ _).after rfl <| hu
  · split
    · exact (touches_acceptReissue _ _ _ _ _ _).after rfl <| hu
    · exact (touches_ingressLine _ _ _ _ _).after rfl <| hu

theorem touches_requestIngressEffect (s n) :
    Touches { regs := true, spine := true, slices := true, chans := true, obs := true, free := true } s
        (requestIngressEffect s n) := by
  unfold requestIngressEffect
  extract_lets _
  split
  · split
    · exact (touches_ingressTake _ _ _ _).after rfl <| (touches_setSlice _ _ _).mono rfl
    · exact .refl _
  · exact .refl _

theorem touches_grantRecord (s n r) :
    Touches { regs := true, spine := true, slices := true, chans := true, obs := true } s (grantRecord s n r) := by
  unfold grantRecord
  extract_lets _ _ u _ _
  have hu : Touches { regs := true, spine := true, slices := true, chans := true, obs := true } s u :=
      (touches_setSlice _ _ _).mono rfl
  split
  · exact .refl _
  · extract_lets _
    split
    · next v _ heq =>
      have hv : Touches { regs := true, spine := true, slices := true, chans := true, obs := true } s v :=
          .of_pair heq (.ite_fst ((touches_admitCharge _ _ _).after rfl <| hu) (hu))
      extract_lets w
      have hw : Touches { regs := true, spine := true, slices := true, chans := true, obs := true } s w :=
          (touches_addEntry _ _ _).after rfl <| hv
      exact (touches_sliceSend _ _ _ _ _ _).after rfl <| (touches_pmuEvent _ _ _).after rfl <| hw

theorem touches_grantLeft (s n k) : Touches { regs := true, spine := true, slices := true, obs := true } s (grantLeft s n k) := by
  unfold grantLeft
  extract_lets _ _ _ u
  have hu : Touches { regs := true, spine := true, slices := true, obs := true } s u := (touches_setSlice _ _ _).mono rfl
  exact .comp (.foldl (fun _ _ => (touches_sliceSend _ _ _ _ _ _).after rfl <| (touches_pmuEvent _ _ _).mono rfl) _ _) <| hu

theorem touches_creditGrantEffect (s n) :
    Touches { regs := true, spine := true, slices := true, chans := true, obs := true } s (creditGrantEffect s n) := by
  unfold creditGrantEffect
  refine .ite (.refl _) ?_
  split
  · exact (touches_grantRecord _ _ _).mono rfl
  · exact .refl _

end Sys2Proof.Laws
end

section
/-! SUPPORT. The parts of the state that the operations of Machine/Activate touch. -/

namespace Sys2Proof.Laws

open Sys2Proof.Machine Sys2Proof.Safety

theorem touches_countPassed (s n e) : Touches { slices := true } s (countPassed s n e) :=
  (touches_setSlice _ _ _).mono rfl

theorem touches_endHold (s n l) : Touches { slices := true } s (endHold s n l) :=
  (touches_setSlice _ _ _).mono rfl

theorem touches_refuseRegion (s n e err bit region walked) :
    Touches { regs := true, spine := true, slices := true, chans := true, obs := true, free := true } s
        (refuseRegion s n e err bit region walked) := by
  unfold refuseRegion
  extract_lets u v
  have hu : Touches { regs := true, spine := true, slices := true, chans := true, obs := true, free := true } s u :=
      .ite ((touches_walkRefused _ _ _).mono rfl) (.refl _)
  have hv : Touches { regs := true, spine := true, slices := true, chans := true, obs := true, free := true } s v := by
    unfold v
    split
    · exact (touches_raiseSeal _ _ _ _ _ _ _).after rfl <| hu
    · exact hu
  exact (touches_failEntry _ _ _ _ _).after rfl <| hv

theorem touches_refuseInactive (s n e) :
    Touches { regs := true, spine := true, slices := true, chans := true, obs := true, free := true } s (refuseInactive s n e) := by
  unfold refuseInactive
  refine .ite ((touches_failEntry _ _ _ _ _).after rfl <| (touches_markHolder _ _ _).mono rfl) ?_
  extract_lets _
  exact (touches_failEntry _ _ _ _ _).mono rfl

theorem touches_refuseLeft (s n e) :
    Touches { regs := true, spine := true, slices := true, chans := true, obs := true, free := true } s (refuseLeft s n e) :=
  (touches_failEntry _ _ _ _ _).mono rfl

theorem touches_reclaimHit (s n l) : Touches (reaction.plus { dram := true }) s (reclaimHit s n l) := by
  unfold reclaimHit
  split
  · split
    · exact (.foldl (fun _ _ => (touches_reclaimWay _ _ _ _ _).mono rfl) _ _)
  · exact .refl _

theorem touches_hazardWatch (s n e v) : Touches { regs := true, slices := true } s (hazardWatch s n e v) := by
  unfold hazardWatch
  extract_lets _
  refine .ite ?_ (.refl _)
  refine .ite (.refl _) ?_
  split
  · exact (touches_setSlice _ _ _).mono rfl
  · exact (touches_satAdd _ _ _ _ _).mono rfl

theorem touches_becomeActive (s n e) : Touches (reaction.plus { dram := true, free := true }) s (becomeActive s n e) := by
  unfold becomeActive
  extract_lets _ _ _ _ u v w _ x _
  have hu : Touches (reaction.plus { dram := true, free := true }) s u := (touches_sampleStamp _ _ _ _ _).after rfl <|
      (touches_pmuEvent _ _ _).after rfl <| (touches_hazardWatch _ _ _ _).mono rfl
  have hv : Touches (reaction.plus { dram := true, free := true }) s v := .ite ((touches_sampleFlag _ _ _ _ _).after rfl <| hu) (hu)
  have hw : Touches (reaction.plus { dram := true, free := true }) s w := (touches_endHold _ _ _).after rfl <|
      .ite (hv) ((touches_countPassed _ _ _).after rfl <| hv)
  have hx : Touches (reaction.plus { dram := true, free := true }) s x := .ite ((touches_pendEnd _ _ _).after rfl <| hw) (hw)
  split
  · next y _ heq =>
    have hy : Touches (reaction.plus { dram := true, free := true }) s y :=
        .of_pair heq ((touches_reserveWalk _ _ _).after rfl <| hx)
    exact (touches_enterFlow _ _ _ _).after rfl <| hy

theorem touches_takeUp (s n e looked err) : Touches (reaction.plus { dram := true, free := true }) s (takeUp s n e looked err) := by
  unfold takeUp
  extract_lets u
  have hu : Touches (reaction.plus { dram := true, free := true }) s u :=
      .ite (.refl _) ((touches_reclaimHit _ _ _).after rfl <| (touches_trackerCheck _ _).after rfl <|
          (touches_filterLookup _ _ _ _).mono rfl)
  split
  · exact (touches_refuseRegion _ _ _ _ _ _ _).mono rfl
  · refine .ite ((touches_refuseLeft _ _ _).mono rfl) ?_
    refine .ite ((touches_refuseInactive _ _ _).mono rfl) ?_
    split
    · exact hu
    · exact .ite ((touches_becomeActive _ _ _).after rfl <| hu) hu

theorem touches_takeDeadline (s n e id) : Touches { slices := true } s (takeDeadline s n e id).1 :=
  .fst <| (touches_setSlice _ _ _).mono rfl

theorem touches_decideAdmission (s n e err) :
    Touches (reaction.plus { dram := true, free := true }) s (decideAdmission s n e err).1 := by
  unfold decideAdmission
  extract_lets u v
  have hu : Touches (reaction.plus { dram := true, free := true }) s u := (touches_trackerCheck _ _).after rfl <|
      (touches_filterLookup _ _ _ _).mono rfl
  have hv : Touches (reaction.plus { dram := true, free := true }) s v := .ite ((touches_reclaimHit _ _ _).after rfl <| hu) (hu)
  split
  · exact .fst <| (touches_refuseRegion _ _ _ _ _ _ _).mono rfl
  · split
    · exact hv
    · refine .ite_fst hv ?_
      split
      · exact .fst <| (touches_refuseAdmission _ _ _ _ _ _ _).after rfl <| (touches_endEntry _ _ _).after rfl <|
          (touches_sampleDrop _ _ _ _).after rfl <| hv
      · split
        · exact hv
        · split
          · next w _ heq =>
            have hw : Touches (reaction.plus { dram := true, free := true }) s w :=
                .of_pair heq ((touches_takeDeadline _ _ _ _).after rfl <| hv)
            split
            · next x _ heq =>
              have hx : Touches (reaction.plus { dram := true, free := true }) s x :=
                  .of_pair heq ((touches_admitCharge _ _ _).after rfl <| hw)
              split
              · next y _ heq =>
                have hy : Touches (reaction.plus { dram := true, free := true }) s y :=
                    .of_pair heq ((touches_admitRead _ _ _).after rfl <| (touches_setEntry _ _ _).after rfl <| hx)
                exact .fst <| (touches_setEntry _ _ _).after rfl <| hy

theorem touches_activation (ok err s n id) :
    Touches (reaction.plus { dram := true, free := true }) s (activation ok err s n id) := by
  unfold activation
  split
  · exact .refl _
  · refine .ite (.refl _) ?_
    refine .ite ?_ (.ite ((touches_allocAgain _ _).after rfl <|
        (touches_takeUp _ _ _ _ _).mono rfl) (.ite ((touches_advance _ _ _).mono rfl) (.refl _)))
    refine .ite (.refl _) ?_
    split
    · next u _ heq =>
      have hu : Touches (reaction.plus { dram := true, free := true }) s u :=
          .of_pair heq ((touches_decideAdmission _ _ _ _).mono rfl)
      extract_lets v
      have hv : Touches (reaction.plus { dram := true, free := true }) s v := by
        unfold v
        split
        · exact .ite ((touches_takeUp _ _ _ _ _).after rfl <| hu) hu
        · exact hu
      exact (touches_allocAgain _ _).after rfl <| hv

theorem touches_activateNext (s n l err) : Touches (reaction.plus { dram := true, free := true }) s (activateNext s n l err) := by
  unfold activateNext
  split
  · exact .ite ((touches_takeUp _ _ _ _ _).mono rfl) (.refl _)
  · exact .refl _

end Sys2Proof.Laws
end

section
/-! SUPPORT. The parts of the state that the operations of Machine/Answers touch. -/

namespace Sys2Proof.Laws

open Sys2Proof.Machine Sys2Proof.Safety

theorem touches_setVictim (s n v) : Touches { slices := true } s (setVictim s n v) :=
  (touches_setSlice _ _ _).mono rfl

theorem touches_freeVictim (s n slot) : Touches { slices := true } s (freeVictim s n slot) :=
  (touches_setSlice _ _ _).mono rfl

theorem touches_victimStep (s n v) : Touches (reaction.plus { dram := true }) s (victimStep s n v) := by
  unfold victimStep
  split
  next u ns heq =>
  have hu : Touches (reaction.plus { dram := true }) s u := .of_pair heq (touches_noticesQueue _ _ _)
  split
  next w c _ heq =>
  have hw : Touches (reaction.plus { dram := true }) s w := .of_pair heq ((touches_collQueue _ _ _ _ _).comp hu)
  extract_lets v x done
  have hx : Touches (reaction.plus { dram := true }) s x := (touches_setVictim _ _ _).after rfl <| hw
  refine .ite ?_ hx
  have hdone : ∀ y, done = some y → Touches (reaction.plus { dram := true }) s y := by
    intro y hy
    cases hl : c.lost.isSome with
    | false =>
      rw [show done = some x from if_neg (by rw [hl]; decide)] at hy
      cases hy
      exact hx
    | true =>
      rw [show done = (markLine x n v.line false).map (·.1) from if_pos hl] at hy
      obtain ⟨t, hm, rfl⟩ := Option.map_eq_some_iff.mp hy
      exact (touches_markLine hm).comp hx
  clear_value done
  cases done with
  | none => exact hx
  | some y =>
    dsimp only
    generalize heq : noticesAck (if c.lost.isSome then countLost y n else y) n _ = q
    obtain ⟨z, left⟩ := q
    have hz : Touches (reaction.plus { dram := true }) s z :=
      .of_pair heq ((touches_noticesAck _ _ _).after rfl <| .ite ((touches_countLost _ _).after rfl <| hdone y rfl) (hdone y rfl))
    exact .ite ((touches_freeVictim _ _ _).after rfl <| hz) ((touches_setVictim _ _ _).after rfl <| hz)

theorem touches_reclaimStep (s n r) : Touches (reaction.plus { dram := true }) s (reclaimStep s n r) := by
  unfold reclaimStep
  split
  · next u _ _ heq =>
    have hu : Touches (reaction.plus { dram := true }) s u := .of_pair heq ((touches_collQueue _ _ _ _ _).mono rfl)
    extract_lets _
    exact .ite ((touches_loseWay _ _ _ _ _).after rfl <| (touches_setSlice _ _ _).after rfl <|
        hu) ((touches_setSlice _ _ _).after rfl <| hu)

theorem touches_laneJoin (s n t id) : Touches (reaction.plus { dram := true }) s (laneJoin s n t id).1 := by
  unfold laneJoin
  split
  · next u _ heq =>
    have hu : Touches (reaction.plus { dram := true }) s u := .of_pair heq ((touches_noticeQueue _ _ _).mono rfl)
    refine .ite_fst hu ?_
    split
    · exact .fst <| (touches_setEntry _ _ _).after rfl <| hu
    · exact hu

theorem touches_laneStep (s n) : Touches (reaction.plus { dram := true }) s (laneStep s n) := by
  unfold laneStep
  split
  · next u _ heq =>
    have hu : Touches (reaction.plus { dram := true }) s u := .of_pair heq (.foldl_fst (fun acc _ => by
      split
      · split
        · next v _ heq =>
          have hv : Touches (reaction.plus { dram := true }) acc.1 v := .of_pair heq ((touches_laneJoin _ _ _ _).mono rfl)
          exact hv
      · split
        · next w _ heq =>
          have hw : Touches (reaction.plus { dram := true }) acc.1 w := .of_pair heq ((touches_noticeIdle _ _ _).mono rfl)
          exact hw) _ _ _)
    split
    · next x _ heq =>
      have hx : Touches (reaction.plus { dram := true }) s x := .of_pair heq ((touches_noticesAck _ _ _).after rfl <| hu)
      extract_lets _
      exact (touches_setSlice _ _ _).after rfl <| hx

theorem touches_readAgain (s n e) : Touches { regs := true, slices := true, chans := true, obs := true } s (readAgain s n e) := by
  unfold readAgain
  refine .ite ?_ (.refl _)
  split
  · next u _ heq =>
    have hu : Touches { regs := true, slices := true, chans := true, obs := true } s u :=
        .of_pair heq ((touches_tryMem _ _ _).mono rfl)
    exact (touches_setEntry _ _ _).after rfl <| hu

theorem touches_markTry (s n l) : Touches (reaction.plus { dram := true }) s (markTry s n l) := by
  unfold markTry
  split
  · exact touches_retryMark _ _ _ _
  · split
    · next u _ heq => exact (touches_markDone _ _ _).after rfl <| touches_markLine heq
    · exact .refl s

theorem touches_markAgain (s n) : Touches (reaction.plus { dram := true }) s (markAgain s n) :=
  (.foldl (fun _ _ => (touches_markTry _ _ _).mono rfl) _ _)

theorem touches_pumpSlice (s n) : Touches (reaction.plus { dram := true, free := true }) s (pumpSlice s n) := by
  unfold pumpSlice
  extract_lets u v w x
  have hu : Touches (reaction.plus { dram := true, free := true }) s u := (touches_laneStep _ _).mono rfl
  have hv : Touches (reaction.plus { dram := true, free := true }) s v := .comp (.foldl (fun s _ => by
      split
      · exact .ite ((touches_advance _ _ _).mono rfl) ((touches_readAgain _ _ _).mono rfl)
      · exact .refl _) _ _) <| hu
  have hw : Touches (reaction.plus { dram := true, free := true }) s w :=
      .comp (.foldl (fun _ _ => (touches_victimStep _ _ _).mono rfl) _ _) <| hv
  have hx : Touches (reaction.plus { dram := true, free := true }) s x :=
      .comp (.foldl (fun _ _ => (touches_reclaimStep _ _ _).mono rfl) _ _) <| hw
  exact (touches_allocAgain _ _).after rfl <| (touches_markAgain _ _).after rfl <| hx

theorem touches_pumpChan (s c) : Touches (reaction.plus { dram := true, free := true }) s (pumpChan s c) :=
  (touches_pumpSlice _ _).after rfl <| (touches_pumpSlice _ _).mono rfl

theorem touches_pumpAll (s) : Touches (reaction.plus { dram := true, free := true }) s (pumpAll s) :=
  (.forEach (fun _ _ => (touches_pumpSlice _ _).mono rfl) _ _)

theorem touches_takeMsg {s t : State} {n : Nat} {p : InMsg → Bool} {i : InMsg} (h : takeMsg s n p = some (i, t)) :
    Touches { slices := true } s t := by
  unfold takeMsg at h
  cases hf : (slice s n).inbox.find? p with
  | none => simp [hf] at h
  | some j =>
    simp only [hf, Option.map_some, Option.some.injEq, Prod.mk.injEq] at h
    exact h.2 ▸ touches_setSlice _ _ _

theorem touches_lateAnswer (s n a entry) : Touches (reaction.plus { free := true }) s (lateAnswer s n a entry) := by
  unfold lateAnswer
  extract_lets u v
  have hu : Touches (reaction.plus { free := true }) s u := (touches_satAdd _ _ _ _ _).mono rfl
  have hv : Touches (reaction.plus { free := true }) s v := by
    unfold v
    split
    · exact (touches_logRecord _ _ _ _ _ _).after rfl <| hu
    · split
      · next _ w heq =>
        have hw : Touches (reaction.plus { free := true }) s w := .of_snd heq ((touches_takeFree _).after rfl <| hu)
        exact (touches_logRecord _ _ _ _ _ _).after rfl <| hw
  exact (touches_report _ _ _).after rfl <| hv

theorem touches_noteLate (s n a entry op w3) : Touches { slices := true } s (noteLate s n a entry op w3) :=
  (touches_setSlice _ _ _).mono rfl

theorem touches_takeAnswer (s n c v a r mark) : Touches reaction s (takeAnswer s n c v a r mark).1 := by
  unfold takeAnswer
  extract_lets _ _ u _ _
  have hu : Touches reaction s u := .ite (.refl _) ((touches_report _ _ _).mono rfl)
  exact .ite_fst hu hu

theorem touches_forwarded (s n e fwd) : Touches { chans := true } s (forwarded s n e fwd).1 := by
  unfold forwarded
  refine .ite_fst ?_ (.refl _)
  extract_lets u v
  have hu : Touches { chans := true } s u := (touches_pendEnd _ _ _).mono rfl
  have hv : Touches { chans := true } s v := .ite ((touches_dropReads _ _ _ _).after rfl <| hu) (hu)
  exact hv

theorem touches_ackEntry (s n e a r mark) : Touches (reaction.plus { dram := true, free := true }) s (ackEntry s n e a r mark) := by
  unfold ackEntry
  split
  · next u _ _ _ heq =>
    have hu : Touches (reaction.plus { dram := true, free := true }) s u :=
        .of_pair heq ((touches_takeAnswer _ _ _ _ _ _ _).after rfl <| (touches_trackerCheck _ _).mono rfl)
    split
    · exact hu
    · split
      · next v _ heq =>
        have hv : Touches (reaction.plus { dram := true, free := true }) s v :=
            .of_pair heq ((touches_forwarded _ _ _ _).after rfl <| hu)
        exact (touches_advance _ _ _).after rfl <| (touches_setEntry _ _ _).after rfl <| hv

theorem touches_ackVictim (s n v a r mark) : Touches (reaction.plus { dram := true }) s (ackVictim s n v a r mark) := by
  unfold ackVictim
  split
  · next u _ _ _ heq =>
    have hu : Touches (reaction.plus { dram := true }) s u := .of_pair heq ((touches_takeAnswer _ _ _ _ _ _ _).mono rfl)
    split
    · exact hu
    · exact (touches_victimStep _ _ _).after rfl <| (touches_setVictim _ _ _).after rfl <| hu

theorem touches_ackReclaim (s n k a r mark) : Touches (reaction.plus { dram := true }) s (ackReclaim s n k a r mark) := by
  unfold ackReclaim
  split
  · next u _ _ _ heq =>
    have hu : Touches (reaction.plus { dram := true }) s u := .of_pair heq ((touches_takeAnswer _ _ _ _ _ _ _).mono rfl)
    extract_lets _ _ v
    have hv : Touches (reaction.plus { dram := true }) s v := (touches_setSlice _ _ _).after rfl <| hu
    exact (touches_reclaimStep _ _ _).after rfl <| hv

theorem touches_snpAckAt (s n a id r mark) :
    Touches (reaction.plus { dram := true, free := true }) s (snpAckAt s n a id r mark) := by
  unfold snpAckAt
  refine .ite ?_ ?_
  · split
    · exact (touches_ackEntry _ _ _ _ _ _).mono rfl
    · exact (touches_lateAnswer _ _ _ _).mono rfl
  · refine .ite ?_ ?_
    · split
      · exact (touches_ackVictim _ _ _ _ _ _).mono rfl
      · exact (touches_lateAnswer _ _ _ _).mono rfl
    · split
      · exact (touches_ackReclaim _ _ _ _ _ _).mono rfl
      · exact (touches_lateAnswer _ _ _ _).mono rfl

theorem touches_snpAckEffect (s n) : Touches (reaction.plus { dram := true, free := true }) s (snpAckEffect s n) := by
  unfold snpAckEffect
  split
  · next i u heq =>
    have hu : Touches (reaction.plus { dram := true, free := true }) s u := (touches_takeMsg heq).mono rfl
    split
    · exact .ite hu ((touches_allocAgain _ _).after rfl <| (touches_snpAckAt _ _ _ _ _ _).after rfl <| hu)
    · exact hu
  · exact .refl s

theorem touches_giveOwn (s n p d) : Touches reaction s (giveOwn s n p d) := by
  unfold giveOwn
  extract_lets u _
  have hu : Touches reaction s u := .ite ((touches_trackerCheck _ _).mono rfl) (.refl _)
  exact (touches_setSlice _ _ _).after rfl <| hu

theorem touches_giveWb (s n p d) : Touches (reaction.plus { free := true }) s (giveWb s n p d) := by
  unfold giveWb
  extract_lets _ _ _ u _
  have hu : Touches (reaction.plus { free := true }) s u := (touches_trackerCheck _ _).mono rfl
  exact .ite ((touches_setSlice _ _ _).after rfl <|
      hu) (.ite ((touches_setSlice _ _ _).mono rfl) (.ite ((touches_setSlice _ _ _).mono rfl)
          ((touches_lateAnswer _ _ _ _).mono rfl)))

theorem touches_dataWbEffect (s n) : Touches (reaction.plus { dram := true, free := true }) s (dataWbEffect s n) := by
  unfold dataWbEffect
  split
  · next i u heq =>
    have hu : Touches (reaction.plus { dram := true, free := true }) s u := (touches_takeMsg heq).mono rfl
    split
    · have own : ∀ k p d, Touches (reaction.plus { dram := true, free := true }) s (pumpSlice (giveOwn u k p d) k) :=
        fun k p d => (touches_pumpSlice _ _).after rfl <| (touches_giveOwn _ _ _ _).after rfl <| hu
      refine .ite hu (.ite ?_ (.ite (own _ _ _) (.ite (own _ _ _) hu)))
      exact (touches_pumpSlice _ _).after rfl <| (touches_giveWb _ _ _ _).after rfl <| hu
    · exact hu
  · exact .refl s

theorem touches_staleNotice (s n t) : Touches reaction s (staleNotice s n t) := by
  unfold staleNotice
  extract_lets u v
  have hu : Touches reaction s u := (touches_noticeAck _ _ _).mono rfl
  have hv : Touches reaction s v := (touches_satAdd _ _ _ _ _).after rfl <| hu
  exact .ite ((touches_report _ _ _).after rfl <| hv) hv

theorem touches_attachEntry (s n e t) : Touches (reaction.plus { dram := true, free := true }) s (attachEntry s n e t) :=
  (touches_advance _ _ _).after rfl <| (touches_setEntry _ _ _).after rfl <| (touches_trackerCheck _ _).mono rfl

theorem touches_attachVictim (s n v t) : Touches (reaction.plus { dram := true }) s (attachVictim s n v t) := by
  unfold attachVictim
  refine .ite ?_ ((touches_staleNotice _ _ _).mono rfl)
  extract_lets _
  exact (touches_victimStep _ _ _).after rfl <| (touches_setVictim _ _ _).mono rfl

theorem touches_noticeLane (s n t) : Touches (reaction.plus { dram := true }) s (noticeLane s n t) := by
  unfold noticeLane
  extract_lets u _
  have hu : Touches (reaction.plus { dram := true }) s u := (touches_endHold _ _ _).mono rfl
  split
  · exact (touches_staleNotice _ _ _).mono rfl
  · exact (touches_laneStep _ _).after rfl <| (touches_setSlice _ _ _).after rfl <| hu

theorem touches_noticeHere (s n t) : Touches (reaction.plus { dram := true, free := true }) s (noticeHere s n t) := by
  unfold noticeHere
  split
  · exact (touches_attachEntry _ _ _ _).mono rfl
  · split
    · exact (touches_attachVictim _ _ _ _).mono rfl
    · exact (touches_noticeLane _ _ _).mono rfl

theorem touches_noticeEffect (s n op) : Touches (reaction.plus { dram := true, free := true }) s (noticeEffect s n op) := by
  unfold noticeEffect
  split
  · next i u heq =>
    have hu : Touches (reaction.plus { dram := true, free := true }) s u := (touches_takeMsg heq).mono rfl
    split
    · refine .ite hu ?_
      split
      · exact (touches_allocAgain _ _).after rfl <| (touches_noticeHere _ _ _).after rfl <| hu
      · exact (touches_staleNotice _ _ _).after rfl <| hu
    · exact hu
  · exact .refl s

theorem touches_armHold (s n e noticed) : Touches { regs := true, slices := true, obs := true } s (armHold s n e noticed) := by
  unfold armHold
  extract_lets _ _ _ u
  have hu : Touches { regs := true, slices := true, obs := true } s u := (touches_setSlice _ _ _).mono rfl
  exact .ite ((touches_pmuEvents _ _ _ _).after rfl <|
      .comp (.foldl (fun _ _ => (touches_sampleFlag _ _ _ _ _).mono rfl) _ _) <| hu) (.refl _)

theorem touches_grantAckAt (s n e err) : Touches (reaction.plus { dram := true, free := true }) s (grantAckAt s n e err) := by
  unfold grantAckAt
  extract_lets u _
  have hu : Touches (reaction.plus { dram := true, free := true }) s u := (touches_trackerCheck _ _).mono rfl
  refine .ite hu ?_
  split
  · next v _ heq =>
    have hv : Touches (reaction.plus { dram := true, free := true }) s v := .of_pair heq (.comp (.foldl_fst (fun acc _ => by
      split
      · next w _ heq =>
        have hw : Touches (reaction.plus { dram := true, free := true }) acc.1 w :=
            .of_pair heq ((touches_noticeIdle _ _ _).mono rfl)
        exact hw) _ _ _) <| hu)
    split
    · next x _ heq =>
      have hx : Touches (reaction.plus { dram := true, free := true }) s x :=
          .of_pair heq ((touches_noticesAck _ _ _).after rfl <| hv)
      extract_lets y
      have hy : Touches (reaction.plus { dram := true, free := true }) s y := (touches_releaseEntry _ _ _).after rfl <| hx
      exact (touches_allocAgain _ _).after rfl <| (touches_activateNext _ _ _ _).after rfl <|
          (touches_armHold _ _ _ _).after rfl <| hy

theorem touches_grantAckEffect (s n err) : Touches (reaction.plus { dram := true, free := true }) s (grantAckEffect s n err) := by
  unfold grantAckEffect
  split
  · next i u heq =>
    have hu : Touches (reaction.plus { dram := true, free := true }) s u := (touches_takeMsg heq).mono rfl
    split
    · split
      · exact (touches_grantAckAt _ _ _ _).after rfl <| hu
      · exact hu
    · exact hu
  · exact .refl s

/-- The kernel would evaluate the address decode if it unfolded the applied function, so the function itself is replaced. -/
theorem holdExpireEffect_cases {P : State → Prop} (s : State) (n : Nat) (pa : Addr) (err : SetErr) (h₀ : P s)
    (h : ∀ l, P (allocAgain (activateNext (endHold s n l) n l err) n)) : P (holdExpireEffect s n pa err) := by
  suffices unfolded : ∀ f, f = @holdExpireEffect → P (f s n pa err) from unfolded _ rfl
  intro f hf
  delta holdExpireEffect at hf
  subst hf
  beta_reduce
  generalize homeOf s pa.toNat = o
  cases o with
  | none => exact h₀
  | some home =>
    refine iteInduction (fun _ => ?_) (fun _ => h₀)
    exact h home.line

theorem touches_holdExpireEffect (s n pa err) :
    Touches (reaction.plus { dram := true, free := true }) s (holdExpireEffect s n pa err) := by
  refine holdExpireEffect_cases s n pa err (.refl s) (fun l => ?_)
  exact (touches_allocAgain _ _).after rfl <| (touches_activateNext _ _ _ _).after rfl <| (touches_endHold _ _ _).mono rfl

end Sys2Proof.Laws
end

section
/-! SUPPORT. The parts of the state that the operations of Machine/Xlat touch. -/

namespace Sys2Proof.Laws

open Sys2Proof.Machine Sys2Proof.Safety

theorem touches_xlatAdvance (fuel s n src) : Touches { slices := true } s (xlatAdvance fuel s n src) := by
  induction fuel generalizing s with
  | zero => exact .refl s
  | succ fuel ih =>
    unfold xlatAdvance
    exact .ite ((ih _).comp (touches_setSlice _ _ _)) (.refl s)

theorem touches_xlatEndedAt (s n src k) : Touches { slices := true } s (xlatEndedAt s n src k) :=
  (touches_xlatAdvance _ _ _ _).after rfl <| (touches_setSlice _ _ _).mono rfl

theorem touches_xlatEnded (s n src k) : Touches { slices := true } s (xlatEnded s n src k) := by
  unfold xlatEnded
  extract_lets u _
  have hu : Touches { slices := true } s u := (touches_xlatEndedAt _ _ _ _).mono rfl
  exact .ite ((touches_xlatEndedAt _ _ _ _).after rfl <| hu) hu

theorem touches_xlatComp (s n t) : Touches { spine := true } s (xlatComp s n t) := by
  unfold xlatComp
  refine .ite (.refl _) ?_
  extract_lets _
  exact (touches_sliceSend _ _ _ _ _ _).mono rfl

theorem touches_xlatSyncEnd (s n t) : Touches { spine := true, slices := true } s (xlatSyncEnd s n t) := by
  unfold xlatSyncEnd
  extract_lets _ u v
  have hu : Touches { spine := true, slices := true } s u := (touches_setSlice _ _ _).mono rfl
  have hv : Touches { spine := true, slices := true } s v := (touches_xlatComp _ _ _).after rfl <| hu
  exact .comp (.forEach (fun _ _ => .ite ((touches_sliceToSlice _ _ _ _).mono rfl) (.refl _)) _ _) <| hv

theorem touches_xlatSyncs (s n src) : Touches { spine := true, slices := true } s (xlatSyncs s n src) :=
  (.foldl (fun _ _ => .ite ((touches_xlatSyncEnd _ _ _).mono rfl) (.refl _)) _ _)

theorem touches_xlatRelease (s n t) : Touches { spine := true, slices := true } s (xlatRelease s n t) := by
  unfold xlatRelease
  refine .ite ?_ ?_
  · extract_lets _ u
    have hu : Touches { spine := true, slices := true } s u := (touches_setSlice _ _ _).mono rfl
    exact (touches_xlatSyncs _ _ _).after rfl <| (touches_xlatEnded _ _ _ _).after rfl <| hu
  · extract_lets _
    exact (touches_setSlice _ _ _).mono rfl

theorem touches_xlatAnswered (s n t a) : Touches { spine := true, slices := true } s (xlatAnswered s n t a) :=
  (touches_xlatRelease _ _ _).mono rfl

theorem touches_takeXlat {s t : State} {n op k : Nat} {p : Packet} {r : Req} (h : takeXlat s n op = some (p, r, k, t)) :
    Touches { slices := true } s t := by
  unfold takeXlat at h
  split at h
  · cases h
  · split at h
    · next u heq =>
      split at h
      · cases h
        exact touches_takeMsg heq
      · cases h
    · cases h

theorem touches_xlatAbandon (s n p) : Touches { spine := true, slices := true } s (xlatAbandon s n p) :=
  (touches_xlatSyncs _ _ _).after rfl <| (touches_xlatEnded _ _ _ _).mono rfl

theorem touches_xlatInvEffect (s n) : Touches { regs := true, spine := true, slices := true, obs := true } s (xlatInvEffect s n) := by
  unfold xlatInvEffect
  split
  · exact .refl s
  · next p r k u heq =>
    have hu : Touches { regs := true, spine := true, slices := true, obs := true } s u := (touches_takeXlat heq).mono rfl
    refine .ite hu (.ite ((touches_xlatAbandon _ _ _).after rfl <| hu) ?_)
    extract_lets set t m _ v w
    have hw : Touches { regs := true, spine := true, slices := true, obs := true } s w := by
      refine .comp (.foldl (fun x a => ?_) _ _) <| (touches_setSlice _ _ _).after rfl <| hu
      exact (touches_sliceSend _ _ _ _ _ _).after rfl <| (touches_pmuEvent _ _ _).mono rfl
    exact (touches_xlatRelease _ _ _).after rfl <| (touches_xlatComp _ _ _).after rfl <| hw

theorem touches_xlatSyncEffect (s n) : Touches { spine := true, slices := true } s (xlatSyncEffect s n) := by
  unfold xlatSyncEffect
  split
  · exact .refl s
  · next p r k u heq =>
    have hu : Touches { spine := true, slices := true } s u := (touches_takeXlat heq).mono rfl
    refine .ite hu (.ite ((touches_xlatAbandon _ _ _).after rfl <| hu) ?_)
    exact (touches_xlatSyncs _ _ _).after rfl <| (touches_xlatEnded _ _ _ _).after rfl <| (touches_setSlice _ _ _).after rfl <| hu

theorem touches_xlatDoneEffect (s n) : Touches (reaction.plus { free := true }) s (xlatDoneEffect s n) := by
  unfold xlatDoneEffect
  split
  · next i u heq =>
    have hu : Touches (reaction.plus { free := true }) s u := (touches_takeMsg heq).mono rfl
    split
    · refine .ite hu ?_
      split
      · exact (touches_xlatAnswered _ _ _ _).after rfl <| hu
      · exact (touches_lateAnswer _ _ _ _).after rfl <| hu
    · exact hu
  · exact .refl s

theorem touches_xlatSignalEffect (s n) : Touches { slices := true } s (xlatSignalEffect s n) := by
  unfold xlatSignalEffect
  split
  · next i u heq =>
    have hu := touches_takeMsg heq
    split
    · exact (touches_setSlice _ _ _).comp hu
    · exact hu
  · exact .refl s

theorem touches_hazardExpireEffect (s n slot) :
    Touches { regs := true, slices := true, obs := true } s (hazardExpireEffect s n slot) := by
  unfold hazardExpireEffect
  extract_lets _ u v
  have hu : Touches { regs := true, slices := true, obs := true } s u := (touches_setSlice _ _ _).mono rfl
  have hv : Touches { regs := true, slices := true, obs := true } s v := (touches_satAdd _ _ _ _ _).after rfl <| hu
  split
  · exact .refl _
  · extract_lets w
    have hw : Touches { regs := true, slices := true, obs := true } s w := .ite (hv) ((touches_setReg _ _ _).after rfl <|
        (touches_setReg _ _ _).after rfl <| hv)
    exact (touches_logRecord _ _ _ _ _ _).after rfl <| hw

theorem touches_filterScrubEffect (s n e) : Touches (reaction.plus { free := true }) s (filterScrubEffect s n e) := by
  unfold filterScrubEffect
  extract_lets _ _ u
  have hu : Touches (reaction.plus { free := true }) s u := (touches_setSlice _ _ _).mono rfl
  exact .ite ((touches_setChecks _ _ _ _ _ _).after rfl <| hu) (.refl _)

end Sys2Proof.Laws
end

section
/-! SUPPORT. The parts of the state that the operations of Machine/Death touch. -/

namespace Sys2Proof.Laws

open Sys2Proof.Machine Sys2Proof.Safety

theorem touches_muteEntry (s n e) : Touches (reaction.plus { dram := true, free := true }) s (muteEntry s n e) := by
  unfold muteEntry
  split
  · exact (touches_endEntry _ _ _).mono rfl
  · exact (touches_endEntry _ _ _).mono rfl
  · exact (touches_returnReserved _ _ _).mono rfl
  · exact (touches_releaseEntry _ _ _).mono rfl
  · exact (touches_advance _ _ _).after rfl <| (touches_setEntry _ _ _).mono rfl
  · exact (touches_advance _ _ _).after rfl <| (touches_setEntry _ _ _).mono rfl
  · exact (touches_setEntry _ _ _).mono rfl

theorem touches_fenceSlice (a s n) : Touches (reaction.plus { dram := true, free := true }) s (fenceSlice a s n) := by
  unfold fenceSlice
  extract_lets _ u v
  have hu : Touches (reaction.plus { dram := true, free := true }) s u := (touches_setSlice _ _ _).mono rfl
  have hv : Touches (reaction.plus { dram := true, free := true }) s v := .comp (.foldl (fun s _ => by
      split
      · exact (touches_muteEntry _ _ _).mono rfl
      · exact .refl _) _ _) <| hu
  exact .comp (.foldl (fun s _ => by
      split
      · exact (touches_xlatAnswered _ _ _ _).after rfl <| (touches_noteLate _ _ _ _ _ _).mono rfl
      · exact .refl _) _ _) <| hv

theorem touches_fenceOnly (s a) : Touches (reaction.plus { dram := true, free := true }) s (fenceOnly s a) := by
  unfold fenceOnly
  refine .ite (.refl _) ?_
  extract_lets u _ v
  have hu : Touches (reaction.plus { dram := true, free := true }) s u := (touches_fenceBare _ _).mono rfl
  have hv : Touches (reaction.plus { dram := true, free := true }) s v := (touches_obs _ _).after rfl <| hu
  exact .comp (.forEach (fun _ _ => (touches_fenceSlice _ _ _).mono rfl) _ _) <| hv

theorem touches_resolveSlice (a s n) : Touches (reaction.plus { dram := true, free := true }) s (resolveSlice a s n) := by
  unfold resolveSlice
  extract_lets _ u w
  have hu : Touches (reaction.plus { dram := true, free := true }) s u := (.foldl (fun s _ => by
      split
      · extract_lets v
        have hv : Touches (reaction.plus { dram := true, free := true }) s v := (touches_noteLate _ _ _ _ _ _).mono rfl
        exact (touches_advance _ _ _).after rfl <| (touches_setEntry _ _ _).after rfl <| hv
      · exact .refl _) _ _)
  have hw : Touches (reaction.plus { dram := true, free := true }) s w := .comp (.foldl (fun s _ => by
      split
      · split
        · extract_lets x _
          have hx : Touches (reaction.plus { dram := true, free := true }) s x := (touches_noteLate _ _ _ _ _ _).mono rfl
          exact (touches_victimStep _ _ _).after rfl <| (touches_setVictim _ _ _).after rfl <| hx
      · exact .refl _) _ _) <| hu
  exact .comp (.foldl (fun s _ => by
      extract_lets y _ _
      have hy : Touches (reaction.plus { dram := true, free := true }) s y := (touches_noteLate _ _ _ _ _ _).mono rfl
      exact (touches_reclaimStep _ _ _).after rfl <| (touches_setSlice _ _ _).after rfl <| hy) _ _) <| hw

theorem touches_agentDeath (s a) : Touches (reaction.plus { dram := true, free := true }) s (agentDeath s a) := by
  unfold agentDeath
  refine .ite (.refl _) ?_
  extract_lets u v
  have hu : Touches (reaction.plus { dram := true, free := true }) s u := (touches_startReclaim _ _).after rfl <|
      (touches_fenceOnly _ _).mono rfl
  have hv : Touches (reaction.plus { dram := true, free := true }) s v :=
      .comp (.forEach (fun _ _ => (touches_resolveSlice _ _ _).mono rfl) _ _) <| hu
  exact (touches_report _ _ _).after rfl <| hv

theorem touches_fencePort (s a) : Touches (reaction.plus { dram := true, free := true }) s (fencePort s a) :=
  .ite (.refl _) (.ite ((touches_agentDeath _ _).mono rfl) ((touches_fenceOnly _ _).mono rfl))

theorem touches_expiryOf (n id op s a) : Touches reaction s (expiryOf n id op s a) := by
  unfold expiryOf
  extract_lets _ u
  have hu : Touches reaction s u := (touches_setReg _ _ _).mono rfl
  exact (touches_report _ _ _).after rfl <| hu

theorem touches_expire (s n id agents) : Touches (reaction.plus { dram := true, free := true }) s (expire s n id agents) := by
  unfold expire
  extract_lets u v
  have hu : Touches (reaction.plus { dram := true, free := true }) s u := (touches_satAdd _ _ _ _ _).mono rfl
  have hv : Touches (reaction.plus { dram := true, free := true }) s v :=
      .comp (.foldl (fun _ _ => (touches_expiryOf _ _ _ _ _).mono rfl) _ _) <| hu
  exact .ite hv (.comp (.foldl (fun _ _ => (touches_agentDeath _ _).mono rfl) _ _) <| hv)

theorem touches_snoopTimeoutEffect (s n id) :
    Touches (reaction.plus { dram := true, free := true }) s (snoopTimeoutEffect s n id) := by
  unfold snoopTimeoutEffect
  extract_lets _
  refine .ite ?_ ?_
  · split
    · exact (touches_expire _ _ _ _).after rfl <| (touches_setEntry _ _ _).mono rfl
    · exact .refl _
  · refine .ite ?_ ?_
    · split
      · exact (touches_expire _ _ _ _).after rfl <| (touches_setVictim _ _ _).mono rfl
      · exact .refl _
    · refine .ite ?_ ?_
      · split
        · extract_lets u
          have hu : Touches (reaction.plus { dram := true, free := true }) s u := (touches_setSlice _ _ _).mono rfl
          exact (touches_expire _ _ _ _).after rfl <| hu
        · exact .refl _
      · split
        · extract_lets v
          have hv : Touches (reaction.plus { dram := true, free := true }) s v := (touches_setSlice _ _ _).mono rfl
          exact (touches_expire _ _ _ _).after rfl <| hv
        · exact .refl _

theorem touches_deadLeftovers (s n a) : Touches (reaction.plus { dram := true, free := true }) s (deadLeftovers s n a) := by
  unfold deadLeftovers
  refine .ite ?_ (.refl _)
  extract_lets _ u
  have hu : Touches (reaction.plus { dram := true, free := true }) s u := (touches_setSlice _ _ _).mono rfl
  exact (touches_pumpSlice _ _).after rfl <| hu

theorem touches_scanSet (s n st) : Touches (reaction.plus { dram := true }) s (scanSet s n st) := by
  unfold scanSet
  exact (.foldl (fun s _ => by
      extract_lets u
      have hu : Touches (reaction.plus { dram := true }) s u := (touches_retryMark _ _ _ _).mono rfl
      exact .ite hu (.comp (.foldl (fun _ _ => (touches_reclaimWay _ _ _ _ _).mono rfl) _ _) <| hu)) _ _)

theorem touches_scanCount (s n) : Touches { slices := true } s (scanCount s n) :=
  (touches_setSlice _ _ _).mono rfl

theorem touches_reclaimScanEffect (s n) : Touches (reaction.plus { dram := true, free := true }) s (reclaimScanEffect s n) := by
  unfold reclaimScanEffect
  extract_lets _ _ u v w x y _ z
  have hu : Touches (reaction.plus { dram := true, free := true }) s u :=
      (.foldl (fun _ _ => (touches_deadLeftovers _ _ _).mono rfl) _ _)
  have hv : Touches (reaction.plus { dram := true, free := true }) s v :=
      .comp (.foldl (fun _ _ => (touches_victimStep _ _ _).mono rfl) _ _) <| hu
  have hw : Touches (reaction.plus { dram := true, free := true }) s w :=
      .comp (.foldl (fun _ _ => (touches_reclaimStep _ _ _).mono rfl) _ _) <| hv
  have hx : Touches (reaction.plus { dram := true, free := true }) s x := (touches_scanSet _ _ _).after rfl <| hw
  have hy : Touches (reaction.plus { dram := true, free := true }) s y := (touches_scanCount _ _).after rfl <| hx
  have hz : Touches (reaction.plus { dram := true, free := true }) s z := .ite (hx) ((touches_setSlice _ _ _).after rfl <| hy)
  exact .ite (.refl _) ((touches_allocAgain _ _).after rfl <| hz)

end Sys2Proof.Laws
end

section
/-! SUPPORT. The parts of the state that the operations of Machine/Bridge touch. -/

namespace Sys2Proof.Laws

open Sys2Proof.Machine Sys2Proof.Safety

theorem touches_portDetect (s n kinds ch op txn dl) : Touches { regs := true } s (portDetect s n kinds ch op txn dl) :=
  (.foldl (fun _ _ => (touches_raiseErr _ _ _ _ _).mono rfl) _ _)

theorem touches_portViolate (s n kinds ch op txn dl) : Touches reaction s (portViolate s n kinds ch op txn dl) :=
  .ite (.refl _) ((touches_report _ _ _).after rfl <| (touches_portDetect _ _ _ _ _ _ _).mono rfl)

theorem touches_parityInject (s n w) : Touches { regs := true } s (parityInject s n w).1 := by
  unfold parityInject
  refine .ite_fst ?_ (.refl _)
  extract_lets _
  exact .fst <| (touches_blotUse _ _ _).mono rfl

theorem touches_parityInjected (s n ch op txn dl) :
    Touches (reaction.plus { dram := true, free := true }) s (parityInjected s n ch op txn dl) :=
  .ite ((touches_injectedEvent _ _ _).mono rfl) ((touches_fencePort _ _).after rfl <|
      (touches_injectedEvent _ _ _).after rfl <| (touches_portDetect _ _ _ _ _ _ _).mono rfl)

theorem touches_takeCredit (s n ch dl) : Touches { ports := true } s (takeCredit s n ch dl).1 :=
  .ite_fst (.refl _) (.fst <| (touches_setPort _ _ _ (fun h => by exact h)).mono rfl)

theorem touches_returnCred (s n i) : Touches { ports := true } s (returnCred s n i) :=
  .ite (.refl _) ((touches_setPort _ _ _ (fun h => by exact h)).mono rfl)

theorem touches_owesCred (s n i) : Touches { spine := true } s (owesCred s n i) :=
  (touches_spine _ _).mono rfl

theorem touches_creditBack (s n i before) : Touches { ports := true, spine := true } s (creditBack s n i before) := by
  unfold creditBack
  split
  · exact .refl _
  · exact .ite ((touches_owesCred _ _ _).mono rfl) ((touches_returnCred _ _ _).mono rfl)

theorem touches_underCredit {K : Parts} (s : State) (n ch : Nat) (dl : Bool) {f : State → Bool → State}
    (hk : Parts.within { ports := true, spine := true } K = true) (h : ∀ t late, Touches K t (f t late)) :
    Touches K s (underCredit s n ch dl f) := by
  unfold underCredit
  split
  next t late heq =>
  have ht : Touches K s t := .of_pair heq (((touches_takeCredit _ _ _ _).mono rfl : Touches { ports := true, spine := true } _ _).mono hk)
  exact (touches_creditBack _ _ _ _).after hk <| (h t late).comp ht

theorem touches_setTxn (s n t) : Touches { ports := true } s (setTxn s n t) :=
  (touches_setPort _ _ _ (fun h => by exact h)).mono rfl

theorem touches_openTxn (s n r dl) : Touches { ports := true } s (openTxn s n r dl) :=
  (touches_setPort _ _ _ (fun h => by exact h)).mono rfl

theorem touches_owe (s n r dl drop home reqNo) : Touches { ports := true } s (owe s n r dl drop home reqNo) := by
  unfold owe
  refine .ite (.refl _) ?_
  extract_lets _ _
  exact (touches_setPort _ _ _ (fun h => by exact h)).mono rfl

theorem touches_bridgeRefuse (s n r dl err) : Touches { ports := true } s (bridgeRefuse s n r dl err) :=
  (touches_toEgress _ _ _ _ _ _).after rfl <| (touches_owe _ _ _ _ _ _ _).after rfl <| (touches_openTxn _ _ _ _).mono rfl

theorem touches_setGap (s n g) : Touches { obs := true } s (setGap s n g) :=
  (touches_obs _ _).mono rfl

theorem touches_drawGap (s n k) : Touches { obs := true, free := true } s (drawGap s n k) := by
  unfold drawGap
  split
  · next _ u heq =>
    have hu : Touches { obs := true, free := true } s u := .of_snd heq ((touches_takeFree _).mono rfl)
    exact (touches_setGap _ _ _).after rfl <| hu

theorem touches_selectorStep (s n) : Touches { obs := true, free := true } s (selectorStep s n).1 := by
  unfold selectorStep
  extract_lets _ u
  have hu : Touches { obs := true, free := true } s u := .ite ((touches_drawGap _ _ _).mono rfl) (.refl _)
  exact .ite_fst (.refl _) (.ite_fst (.fst <| (touches_drawGap _ _ _).after rfl <| hu) (.fst <|
      (touches_setGap _ _ _).after rfl <| hu))

theorem touches_markSample (s n r dl again) :
    Touches { regs := true, obs := true, free := true } s (markSample s n r dl again).1 := by
  unfold markSample
  refine .ite_fst (.refl _) ?_
  refine .ite_fst (.refl _) ?_
  extract_lets _
  split
  · next u _ heq =>
    have hu : Touches { regs := true, obs := true, free := true } s u := .of_pair heq ((touches_selectorStep _ _).mono rfl)
    refine .ite_fst ?_ hu
    refine .ite_fst ?_ (.fst <| (touches_satAdd _ _ _ _ _).after rfl <| hu)
    extract_lets v
    have hv : Touches { regs := true, obs := true, free := true } s v := (touches_satAdd _ _ _ _ _).after rfl <| hu
    exact .fst <| (touches_sampleOpen _ _ _ _ _ _ _ _).after rfl <| hv

theorem touches_reqTarget (s n r) : Touches { ports := true } s (reqTarget s n r).1 :=
  .ite_fst (.fst <| (touches_setPort _ _ _ (fun h => by exact h)).mono rfl) (.ite_fst (.fst <| (touches_setPort _ _ _ (fun h => by exact h)).mono rfl) (.refl _))

theorem touches_forwardReq (s n r dl) :
    Touches { regs := true, ports := true, spine := true, obs := true, free := true } s (forwardReq s n r dl) := by
  unfold forwardReq
  extract_lets _ u
  have hu : Touches { regs := true, ports := true, spine := true, obs := true, free := true } s u :=
      (touches_openTxn _ _ _ _).mono rfl
  split
  · next v _ _ _ heq =>
    have hv : Touches { regs := true, ports := true, spine := true, obs := true, free := true } s v :=
        .of_pair heq ((touches_reqTarget _ _ _).after rfl <| hu)
    extract_lets _ _ w _ _
    have hw : Touches { regs := true, ports := true, spine := true, obs := true, free := true } s w :=
        (touches_setPort _ _ _ (fun h => by exact h)).after rfl <| hv
    split
    · next x _ heq =>
      have hx : Touches { regs := true, ports := true, spine := true, obs := true, free := true } s x :=
          .of_pair heq (.ite_fst ((touches_markSample _ _ _ _ _).after rfl <| hw) (hw))
      extract_lets y _
      have hy : Touches { regs := true, ports := true, spine := true, obs := true, free := true } s y :=
          (touches_owe _ _ _ _ _ _ _).after rfl <| hx
      exact (touches_launch _ _ _ _).after rfl <| hy

theorem touches_admitReq (s n r dl) :
    Touches { regs := true, ports := true, spine := true, obs := true, free := true } s (admitReq s n r dl) :=
  .ite ((touches_bridgeRefuse _ _ _ _ _).after rfl <|
      (touches_portDetect _ _ _ _ _ _ _).mono rfl) (.ite ((touches_bridgeRefuse _ _ _ _ _).mono rfl)
          ((touches_forwardReq _ _ _ _).mono rfl))

theorem touches_fencedReq (s n r dl) : Touches { regs := true, ports := true } s (fencedReq s n r dl) := by
  unfold fencedReq
  extract_lets u
  have hu : Touches { regs := true, ports := true } s u := (touches_portDetect _ _ _ _ _ _ _).mono rfl
  exact (touches_bridgeRefuse _ _ _ _ _).after rfl <| hu

theorem touches_judgeReq (s n r dl kinds) : Touches (reaction.plus { dram := true, free := true }) s (judgeReq s n r dl kinds) := by
  unfold judgeReq
  extract_lets _ u _ _
  have hu : Touches (reaction.plus { dram := true, free := true }) s u := (touches_portViolate _ _ _ _ _ _ _).mono rfl
  exact .ite ((touches_fencePort _ _).after rfl <| hu) (.ite ((touches_fencedReq _ _ _ _).after rfl <|
      hu) (.ite ((touches_bridgeRefuse _ _ _ _ _).after rfl <| hu) ((touches_admitReq _ _ _ _).after rfl <| hu)))

theorem touches_reqFlitEffect (s n dl f) : Touches (reaction.plus { dram := true, free := true }) s (reqFlitEffect s n dl f) := by
  unfold reqFlitEffect
  refine .ite (.refl s) ?_
  extract_lets r bad
  split
  next u inj heq =>
  have hu : Touches (reaction.plus { dram := true, free := true }) s u := .of_pair heq ((touches_parityInject _ _ _).mono rfl)
  refine (touches_underCredit _ _ _ _ rfl (fun t late => ?_)).comp hu
  refine .ite ((touches_parityInjected _ _ _ _ _ _).mono rfl) ?_
  extract_lets v kinds w
  have hv : Touches (reaction.plus { dram := true, free := true }) t v := .ite ((touches_parityInjected _ _ _ _ _ _).mono rfl) (.refl t)
  have hw : Touches (reaction.plus { dram := true, free := true }) t w := (touches_portViolate _ _ _ _ _ _ _).after rfl <| hv
  exact .ite (.ite ((touches_fencedReq _ _ _ _).after rfl <| hw) hw) ((touches_judgeReq _ _ _ _ _).after rfl <| hv)

theorem touches_setSnpRec (s n r) : Touches { ports := true } s (setSnpRec s n r) :=
  (touches_setPort _ _ _ (fun h => by exact h)).mono rfl

theorem touches_toHome (s n home dl prio mark no m) : Touches { spine := true } s (toHome s n home dl prio mark no m) :=
  (touches_launch _ _ _ _).mono rfl

theorem touches_ackSample (s n a stamp) : Touches { regs := true, obs := true, free := true } s (ackSample s n a stamp) := by
  unfold ackSample
  extract_lets _
  split
  · split
    · next _ u heq =>
      have hu : Touches { regs := true, obs := true, free := true } s u :=
          .of_snd heq (.ite_snd ((touches_stampNow _ _).mono rfl) (.refl _))
      extract_lets _ _ _
      exact (touches_closeSlot _ _).after rfl <| (touches_obs _ _).after rfl <| hu
  · exact .ite ((touches_sampleClose _ _ _ _).after rfl <| .ite ((touches_sampleStamp _ _ _ _ _).mono rfl) (.refl _)) (.refl _)

theorem touches_takeRsp (s n dl r) :
    Touches { regs := true, ports := true, spine := true, obs := true, free := true } s (takeRsp s n dl r) := by
  unfold takeRsp
  split
  · split
    · extract_lets _
      exact (touches_toHome _ _ _ _ _ _ _ _).after rfl <| (touches_setSnpRec _ _ _).mono rfl
    · exact .refl _
  · split
    · exact (touches_toHome _ _ _ _ _ _ _ _).after rfl <| (touches_setSnpRec _ _ _).mono rfl
    · exact .refl _
  · split
    · extract_lets _ u
      have hu : Touches { regs := true, ports := true, spine := true, obs := true, free := true } s u :=
          (touches_ackSample _ _ _ _).after rfl <| (touches_setPort _ _ _ (fun h => by exact h)).mono rfl
      exact (touches_toHome _ _ _ _ _ _ _ _).after rfl <| hu
    · exact .refl _

theorem touches_rspFlitEffect (s n dl f) : Touches (reaction.plus { dram := true, free := true }) s (rspFlitEffect s n dl f) := by
  unfold rspFlitEffect
  refine .ite (.refl s) ?_
  extract_lets r bad
  split
  next u inj heq =>
  have hu : Touches (reaction.plus { dram := true, free := true }) s u := .of_pair heq ((touches_parityInject _ _ _).mono rfl)
  refine (touches_underCredit _ _ _ _ rfl (fun t late => ?_)).comp hu
  extract_lets fenced v kinds w
  have hv : Touches (reaction.plus { dram := true, free := true }) t v := .ite ((touches_parityInjected _ _ _ _ _ _).mono rfl) (.refl t)
  have hw : Touches (reaction.plus { dram := true, free := true }) t w := (touches_portViolate _ _ _ _ _ _ _).after rfl <| hv
  refine .ite hv (.ite ((touches_fencePort _ _).after rfl <| hw) (.ite hw ?_))
  exact (touches_takeRsp _ _ _ _).after rfl <| hw

theorem touches_txnSettle (s n x) : Touches { regs := true, ports := true, obs := true } s (txnSettle s n x) := by
  unfold txnSettle
  split
  · extract_lets _ _ u
    have hu : Touches { regs := true, ports := true, obs := true } s u := (touches_setPort _ _ _ (fun h => by exact h)).mono rfl
    refine .ite ?_ (.refl _)
    split
    · exact .ite ((touches_samplePark _ _ _ _ _).after rfl <| hu) ((touches_sampleClose _ _ _ _).after rfl <| hu)
    · exact (touches_sampleClose _ _ _ _).after rfl <| hu
  · exact .refl _

theorem touches_setOwed (s n o o') : Touches { regs := true, ports := true, obs := true } s (setOwed s n o o') :=
  (touches_txnSettle _ _ _).after rfl <| (touches_setPort _ _ _ (fun h => by exact h)).mono rfl

theorem touches_owedTake (s n o h) : Touches { regs := true, ports := true, obs := true } s (owedTake s n o h) :=
  (touches_setOwed _ _ _ _).mono rfl

theorem touches_sendOwed (s n o dl d) : Touches { spine := true } s (sendOwed s n o dl d) := by
  unfold sendOwed
  refine .ite (.refl _) ?_
  refine .ite ?_ ((touches_toHome _ _ _ _ _ _ _ _).mono rfl)
  extract_lets _
  exact (touches_launch _ _ _ _).mono rfl

theorem touches_badData (s n o d) : Touches { ports := true } s (badData s n o d).1 := by
  unfold badData
  refine .ite_fst (.refl _) ?_
  extract_lets u
  have hu : Touches { ports := true } s u := by
    unfold u
    split
    · exact (touches_setTxn _ _ _).mono rfl
    · exact .refl _
  exact hu

theorem touches_takeDat (s n dl d) : Touches { regs := true, ports := true, spine := true, obs := true } s (takeDat s n dl d) := by
  unfold takeDat
  refine .ite ?_ ?_
  · split
    · extract_lets u
      have hu : Touches { regs := true, ports := true, spine := true, obs := true } s u := (touches_setSnpRec _ _ _).mono rfl
      split
      · exact (touches_launch _ _ _ _).after rfl <| hu
    · exact .refl _
  · refine .ite ?_ ?_
    · split
      · extract_lets v
        have hv : Touches { regs := true, ports := true, spine := true, obs := true } s v := (touches_setSnpRec _ _ _).mono rfl
        exact (touches_toHome _ _ _ _ _ _ _ _).after rfl <| hv
      · exact .refl _
    · split
      · split
        · next w _ heq =>
          have hw : Touches { regs := true, ports := true, spine := true, obs := true } s w :=
              .of_pair heq ((touches_badData _ _ _ _).mono rfl)
          exact (touches_sendOwed _ _ _ _ _).after rfl <| (touches_owedTake _ _ _ _).after rfl <| hw
      · exact .refl _

theorem touches_datFlitEffect (s n dl f) : Touches (reaction.plus { dram := true, free := true }) s (datFlitEffect s n dl f) := by
  unfold datFlitEffect
  refine .ite (.refl s) ?_
  extract_lets d op bad
  split
  next u inj heq =>
  have hu : Touches (reaction.plus { dram := true, free := true }) s u := .of_pair heq ((touches_parityInject _ _ _).mono rfl)
  refine (touches_underCredit _ _ _ _ rfl (fun t late => ?_)).comp hu
  extract_lets v fenced kinds w
  have hv : Touches (reaction.plus { dram := true, free := true }) t v := .ite ((touches_parityInjected _ _ _ _ _ _).mono rfl) (.refl t)
  have hw : Touches (reaction.plus { dram := true, free := true }) t w := (touches_portViolate _ _ _ _ _ _ _).after rfl <| hv
  refine .ite hv (.ite ((touches_fencePort _ _).after rfl <| hw) (.ite ?_ (.ite hw ?_)))
  · split
    · exact (touches_owedTake _ _ _ _).after rfl <| hw
    · exact hw
  · exact (touches_takeDat _ _ _ _).after rfl <| hw

theorem touches_creditReturnEffect (s n ch dl) :
    Touches (reaction.plus { dram := true, free := true }) s (creditReturnEffect s n ch dl) := by
  unfold creditReturnEffect
  refine .ite (.refl _) ?_
  extract_lets _ _ u _
  have hu : Touches (reaction.plus { dram := true, free := true }) s u := (touches_setPort _ _ _ (fun h => by exact h)).mono rfl
  exact .ite ((touches_fencePort _ _).after rfl <| (touches_portViolate _ _ _ _ _ _ _).after rfl <|
      hu) ((touches_setPort _ _ _ (fun h => by exact h)).after rfl <| hu)

end Sys2Proof.Laws
end

section
/-! SUPPORT. The parts of the state that the operations of Machine/Egress touch. -/

namespace Sys2Proof.Laws

open Sys2Proof.Machine Sys2Proof.Safety

theorem touches_portDeliver (s n p) : Touches { ports := true } s (portDeliver s n p) :=
  .ite (.refl _) ((touches_toEgress _ _ _ _ _ _).mono rfl)

theorem touches_egDrop (s n id) : Touches { ports := true } s (egDrop s n id) :=
  (touches_setPort _ _ _ (fun h => by exact h)).mono rfl

theorem touches_setEgDue (s n ch dl) : Touches { ports := true } s (setEgDue s n ch dl) :=
  (touches_setPort _ _ _ (fun h => by exact h)).mono rfl

theorem touches_countOverrun (s n) : Touches reaction s (countOverrun s n) :=
  (touches_report _ _ _).after rfl <| (touches_satAdd _ _ _ _ _).mono rfl

theorem touches_checkOverrun (s n t limit) : Touches reaction s (checkOverrun s n t limit) :=
  .ite ((touches_setTxn _ _ _).after rfl <| (touches_countOverrun _ _).mono rfl) (.refl _)

theorem touches_presentSnp (s n m dl) : Touches { ports := true } s (presentSnp s n m dl) :=
  (touches_setPort _ _ _ (fun h => by exact h)).mono rfl

theorem touches_sampleTerm (s n r) : Touches { obs := true, free := true } s (sampleTerm s n r) := by
  unfold sampleTerm
  extract_lets _ u
  have hu : Touches { obs := true, free := true } s u := (touches_sampleStamp _ _ _ _ _).mono rfl
  exact (touches_sampleSet _ _ _ _ _).after rfl <| hu

theorem touches_presentTerm (s n t r) : Touches (reaction.plus { free := true }) s (presentTerm s n t r) := by
  unfold presentTerm
  extract_lets u v _ _ w _ _ x
  have hu : Touches (reaction.plus { free := true }) s u := (touches_sampleTerm _ _ _).mono rfl
  have hv : Touches (reaction.plus { free := true }) s v := .ite (hu) (.ite ((touches_checkOverrun _ _ _ _).after rfl <|
      hu) (.ite ((touches_checkOverrun _ _ _ _).after rfl <| hu) (hu)))
  have hw : Touches (reaction.plus { free := true }) s w := (touches_setTxn _ _ _).after rfl <| hv
  have hx : Touches (reaction.plus { free := true }) s x := .ite ((touches_setPort _ _ _ (fun h => by exact h)).after rfl <| hw) (hw)
  exact (touches_txnSettle _ _ _).after rfl <| hx

theorem touches_refuseData (s n t) : Touches { ports := true } s (refuseData s n t) := by
  unfold refuseData
  extract_lets _
  split
  · exact (touches_setPort _ _ _ (fun h => by exact h)).mono rfl
  · exact .refl _

theorem touches_presentRsp (s n r) : Touches (reaction.plus { free := true }) s (presentRsp s n r) := by
  unfold presentRsp
  split
  · exact .refl _
  · extract_lets u
    have hu : Touches (reaction.plus { free := true }) s u := .ite ((touches_refuseData _ _ _).mono rfl) (.refl _)
    exact .ite ((touches_sampleStamp _ _ _ _ _).after rfl <| (touches_setTxn _ _ _).after rfl <|
        hu) (.ite ((touches_setTxn _ _ _).after rfl <| hu) ((touches_presentTerm _ _ _ _).after rfl <| hu))

theorem touches_presentDat (s n d) : Touches (reaction.plus { free := true }) s (presentDat s n d) := by
  unfold presentDat
  split
  · exact .refl _
  · extract_lets u v _
    have hu : Touches (reaction.plus { free := true }) s u := (touches_sampleStamp _ _ _ _ _).mono rfl
    have hv : Touches (reaction.plus { free := true }) s v := .ite ((touches_checkOverrun _ _ _ _).after rfl <| hu) (hu)
    exact (touches_txnSettle _ _ _).after rfl <| (touches_setTxn _ _ _).after rfl <| hv

theorem touches_presentMsg (s n e) : Touches (reaction.plus { free := true }) s (presentMsg s n e) := by
  unfold presentMsg
  extract_lets _ _ _ _ _ u v _ w
  have hu : Touches (reaction.plus { free := true }) s u := (touches_setPort _ _ _ (fun h => by exact h)).mono rfl
  have hv : Touches (reaction.plus { free := true }) s v := (touches_setEgDue _ _ _ _).after rfl <| hu
  have hw : Touches (reaction.plus { free := true }) s w := .ite ((touches_setPort _ _ _ (fun h => by exact h)).after rfl <|
      hv) ((touches_egDrop _ _ _).after rfl <| hv)
  split
  · exact (touches_presentSnp _ _ _ _).after rfl <| hw
  · exact (touches_presentRsp _ _ _).after rfl <| hw
  · exact (touches_presentDat _ _ _).after rfl <| hw

theorem touches_egressEffect (s n ch dl) : Touches (reaction.plus { free := true }) s (egressEffect s n ch dl) := by
  unfold egressEffect
  refine .ite (.refl _) ?_
  split
  · exact (touches_egDrop _ _ _).mono rfl
  · split
    · exact .ite (.refl _) ((touches_presentMsg _ _ _).mono rfl)
    · exact .refl _

theorem touches_portArbiter (s n) : Touches { regs := true, ports := true } s (portArbiter s n) := by
  unfold portArbiter
  extract_lets p lines holder revoke back u
  have hu : Touches { regs := true, ports := true } s u := by
    unfold u
    cases holder with
    | none => exact .refl s
    | some e => exact (touches_setPort _ _ _ (fun h => by exact h)).mono rfl
  clear_value u
  refine .ite (.refl s) (.ite (.refl s) ?_)
  split
  · exact (touches_setPort _ _ _ (fun h => by exact h)).after rfl <| hu
  · exact (touches_setPort _ _ _ (fun h => by revert h; split <;> exact id)).after rfl <| .ite ((touches_satAdd _ _ _ _ _).after rfl <| hu) hu

theorem touches_chanArbiter (s c) : Touches { chans := true } s (chanArbiter s c) := by
  unfold chanArbiter
  extract_lets _ _ _ _ _
  refine .ite (.refl _) ?_
  refine .ite (.refl _) ?_
  split
  · exact (touches_setChan _ _ _).mono rfl
  · exact (touches_setChan _ _ _).mono rfl

theorem touches_arbiterEffect (s a) : Touches { regs := true, ports := true, chans := true } s (arbiterEffect s a) := by
  unfold arbiterEffect
  split
  · exact .ite ((touches_portArbiter _ _).mono rfl) (.refl _)
  · exact .ite ((touches_chanArbiter _ _).mono rfl) (.refl _)

theorem touches_wdogBite (s n bit info) : Touches (reaction.plus { dram := true, free := true }) s (wdogBite s n bit info) := by
  unfold wdogBite
  extract_lets u
  have hu : Touches (reaction.plus { dram := true, free := true }) s u := (touches_report _ _ _).after rfl <|
      (touches_raiseErr _ _ _ _ _).mono rfl
  exact .ite ((touches_fencePort _ _).after rfl <| hu) hu

theorem touches_biteInfo (s bit txn dl) : Touches { free := true } s (biteInfo s bit txn dl).2 := by
  unfold biteInfo
  split
  · next _ u heq =>
    have hu : Touches { free := true } s u := .of_snd heq ((touches_takeFree _).mono rfl)
    exact hu

theorem touches_wdogEgressEffect (s n ch dl) :
    Touches (reaction.plus { dram := true, free := true }) s (wdogEgressEffect s n ch dl) := by
  unfold wdogEgressEffect
  split
  · extract_lets _
    exact .ite ((touches_wdogBite _ _ _ _).after rfl <| (touches_setEgDue _ _ _ _).mono rfl) (.refl _)
  · exact .refl _

theorem touches_supplyHalf (o s n h) : Touches { spine := true, free := true } s (supplyHalf o s n h) := by
  unfold supplyHalf
  refine .ite (.refl _) ?_
  split
  · next _ u heq =>
    have hu : Touches { spine := true, free := true } s u := .of_snd heq ((touches_takeFree256 _).mono rfl)
    extract_lets _
    exact (touches_sendOwed _ _ _ _ _).after rfl <| hu

theorem touches_wdogDataEffect (s n txn) : Touches (reaction.plus { dram := true, free := true }) s (wdogDataEffect s n txn) := by
  unfold wdogDataEffect
  split
  · refine .ite ?_ (.refl _)
    split
    · next _ u heq =>
      have hu : Touches (reaction.plus { dram := true, free := true }) s u := .of_snd heq ((touches_biteInfo _ _ _ _).mono rfl)
      extract_lets _ v
      have hv : Touches (reaction.plus { dram := true, free := true }) s v := (touches_wdogBite _ _ _ _).after rfl <| hu
      exact .ite hv ((touches_supplyHalf _ _ _ _).after rfl <| (touches_supplyHalf _ _ _ _).after rfl <|
          (touches_setOwed _ _ _ _).after rfl <| hv)
  · exact .refl _

theorem touches_wdogAckEffect (s n home entry) :
    Touches (reaction.plus { dram := true, free := true }) s (wdogAckEffect s n home entry) := by
  unfold wdogAckEffect
  extract_lets _ _
  split
  · refine .ite ?_ (.refl _)
    split
    · next _ u heq =>
      have hu : Touches (reaction.plus { dram := true, free := true }) s u := .of_snd heq ((touches_biteInfo _ _ _ _).mono rfl)
      extract_lets _ v _ w
      have hv : Touches (reaction.plus { dram := true, free := true }) s v := (touches_wdogBite _ _ _ _).after rfl <| hu
      have hw : Touches (reaction.plus { dram := true, free := true }) s w := (touches_setPort _ _ _ (fun h => by exact h)).after rfl <| hv
      exact .ite hv ((touches_toHome _ _ _ _ _ _ _ _).after rfl <| (touches_ackSample _ _ _ _).after rfl <| hw)
  · exact .refl _

theorem touches_returnCredit (s n txn) :
    Touches { regs := true, slices := true, chans := true, obs := true } s (returnCredit s n txn) := by
  unfold returnCredit
  exact (.forEach (fun s _ => by
      split
      · exact (touches_returnReserved _ _ _).mono rfl
      · exact .refl _) _ _)

theorem touches_wdogCreditEffect (s n txn) :
    Touches (reaction.plus { dram := true, free := true }) s (wdogCreditEffect s n txn) := by
  unfold wdogCreditEffect
  split
  · refine .ite ?_ (.refl _)
    split
    · next _ u heq =>
      have hu : Touches (reaction.plus { dram := true, free := true }) s u := .of_snd heq ((touches_biteInfo _ _ _ _).mono rfl)
      extract_lets _ v
      have hv : Touches (reaction.plus { dram := true, free := true }) s v := (touches_wdogBite _ _ _ _).after rfl <| hu
      exact .ite hv ((touches_returnCredit _ _ _).after rfl <| (touches_setTxn _ _ _).after rfl <| hv)
  · exact .refl _

theorem touches_grantCredits (s n) : Touches { ports := true } s (grantCredits s n) := by
  unfold grantCredits
  refine .ite ?_ (.refl _)
  extract_lets _
  exact (touches_setPort _ _ _ (fun h => by exact h)).mono rfl

theorem touches_latchPort (s n) : Touches { ports := true, slices := true } s (latchPort s n) := by
  unfold latchPort
  extract_lets _ _ _ u _
  have hu : Touches { ports := true, slices := true } s u := (touches_setPort _ _ _ (fun h => by exact h)).mono rfl
  exact .ite hu ((touches_setSlice _ _ _).after rfl <| hu)

theorem touches_zeroCredits (s n) : Touches { ports := true, spine := true } s (zeroCredits s n) := by
  unfold zeroCredits
  extract_lets _ _ u _
  have hu : Touches { ports := true, spine := true } s u := (touches_spine _ _).mono rfl
  exact (touches_setPort _ _ _ (fun h => by exact h)).after rfl <| hu

theorem touches_agentResetEffect (s n) : Touches (reaction.plus { dram := true, free := true }) s (agentResetEffect s n) := by
  unfold agentResetEffect
  extract_lets _ u _ v _ w _ x
  have hu : Touches (reaction.plus { dram := true, free := true }) s u :=
      .ite ((touches_fencePort _ _).mono rfl) ((touches_setPort _ _ _ (fun _ => by rfl)).mono rfl)
  have hv : Touches (reaction.plus { dram := true, free := true }) s v := (touches_setPort _ _ _ (fun h => by exact h)).after rfl <| hu
  have hw : Touches (reaction.plus { dram := true, free := true }) s w := (touches_obs _ _).after rfl <| hv
  have hx : Touches (reaction.plus { dram := true, free := true }) s x := (touches_zeroCredits _ _).after rfl <|
      (touches_setPort _ _ _ (fun h => by exact h)).after rfl <| hw
  exact .ite ((touches_finishCmd _ _ _).after rfl <| hx) hx

theorem touches_agentReleaseEffect (s n) : Touches { ports := true, spine := true, slices := true } s (agentReleaseEffect s n) := by
  unfold agentReleaseEffect
  refine .ite (.refl _) ?_
  extract_lets _ u v
  have hu : Touches { ports := true, spine := true, slices := true } s u := (touches_zeroCredits _ _).after rfl <|
      (touches_setPort _ _ _ (fun h => by exact h)).mono rfl
  have hv : Touches { ports := true, spine := true, slices := true } s v := (touches_latchPort _ _).after rfl <| hu
  exact .ite (.ite ((touches_grantCredits _ _).after rfl <| hv) hv) hu

end Sys2Proof.Laws
end

section
/-! SUPPORT. The parts of the state that the operations of Machine/SpineHop touch. -/

namespace Sys2Proof.Laws

open Sys2Proof.Machine Sys2Proof.Safety

theorem touches_setProbe (s r v) : Touches { spine := true } s (setProbe s r v) :=
  (touches_spine _ _).mono rfl

theorem touches_probeLeave (s r o p) : Touches { regs := true, spine := true, obs := true } s (probeLeave s r o p) := by
  unfold probeLeave
  refine .ite ?_ (.refl _)
  extract_lets u
  have hu : Touches { regs := true, spine := true, obs := true } s u := .ite (.refl _) ((touches_setProbe _ _ _).mono rfl)
  exact .ite ((touches_hwPacket _ _ _ _ _ _ _).after rfl <| hu) hu

theorem touches_probeTick (s r) : Touches { spine := true } s (probeTick s r) :=
  .ite ((touches_setProbe _ _ _).mono rfl) (.refl _)

theorem touches_spineDetect (s k r i p src syn) : Touches { regs := true } s (spineDetect s k r i p src syn) :=
  (touches_raiseErr _ _ _ _ _).mono rfl

theorem touches_headerCorrected (s r i p syn) : Touches { regs := true } s (headerCorrected s r i p syn) :=
  (touches_spineDetect _ _ _ _ _ _ _).after rfl <| (touches_satAdd _ _ _ _ _).mono rfl

theorem touches_headerLost (s r i p syn) : Touches { regs := true, free := true } s (headerLost s r i p syn) := by
  unfold headerLost
  split
  · next _ u heq =>
    have hu : Touches { regs := true, free := true } s u := .of_snd heq ((touches_takeFree _).mono rfl)
    exact (touches_spineDetect _ _ _ _ _ _ _).after rfl <| hu

theorem touches_headerVerdict (s r i p v) : Touches (reaction.plus { free := true }) s (headerVerdict s r i p v) := by
  unfold headerVerdict
  extract_lets _
  split
  · next _ u heq =>
    have hu : Touches (reaction.plus { free := true }) s u := .of_snd heq ((touches_takeFree _).mono rfl)
    split
    · exact (touches_injectedEvent _ _ _).after rfl <| .ite (hu) ((touches_headerCorrected _ _ _ _ _).after rfl <| hu)
    · exact (touches_injectedEvent _ _ _).after rfl <| .ite (hu) ((touches_headerLost _ _ _ _ _).after rfl <| hu)
    · exact hu

theorem touches_sliceDeliver (s r n p) :
    Touches { regs := true, spine := true, slices := true, obs := true } s (sliceDeliver s r n p) := by
  unfold sliceDeliver
  refine .ite ((touches_logRecord _ _ _ _ _ _).after rfl <| (touches_satAdd _ _ _ _ _).mono rfl) ?_
  extract_lets _ _ u
  have hu : Touches { regs := true, spine := true, slices := true, obs := true } s u := (touches_setSlice _ _ _).mono rfl
  split
  · exact .ite ((touches_xlatSyncs _ _ _).after rfl <| hu) hu
  · exact hu

theorem touches_dropFenced (s r i p) : Touches reaction s (dropFenced s r i p) :=
  (touches_report _ _ _).after rfl <| (touches_spineDetect _ _ _ _ _ _ _).after rfl <| (touches_satAdd _ _ _ _ _).mono rfl

theorem touches_mirrorMissed (s m) : Touches { mirror := true } s (mirrorMissed s m) := by
  unfold mirrorMissed
  split
  · exact .ite ((touches_markGranule _ _ _).mono rfl) (.refl _)
  · exact .refl _

theorem touches_twinDeliver (s r i m) :
    Touches (reaction.plus { dram := true, mirror := true, free := true }) s (twinDeliver s r i m) := by
  unfold twinDeliver
  refine .ite ?_ ?_
  · extract_lets u
    have hu : Touches (reaction.plus { dram := true, mirror := true, free := true }) s u :=
        (touches_dropFenced _ _ _ _).after rfl <| (touches_mirrorMissed _ _).mono rfl
    exact .ite ((touches_pumpAll _).after rfl <| hu) hu
  · extract_lets _
    exact (touches_twin _ _).mono rfl

theorem touches_unitDeliver (s r i p) :
    Touches (reaction.plus { dram := true, mirror := true, free := true }) s (unitDeliver s r i p) := by
  unfold unitDeliver
  extract_lets _ _
  split
  · exact (touches_portDeliver _ _ _).mono rfl
  · split
    · exact (touches_sliceDeliver _ _ _ _).mono rfl
    · exact .refl _
  · exact (touches_twinDeliver _ _ _ _).mono rfl
  · exact (touches_obs _ _).mono rfl
  · exact (touches_obs _ _).mono rfl
  · exact .refl _

theorem touches_crcDetect (s f inst second) : Touches reaction s (crcDetect s f inst second) := by
  have detected : ∀ t, Touches reaction t (spineDetect t 2 f.router f.input f.pkt f.pkt.src.toNat 0) :=
    fun t => (touches_spineDetect _ _ _ _ _ _ _).mono rfl
  unfold crcDetect
  split
  · extract_lets _ m u
    have hu : Touches reaction s u := (touches_blotUse _ _ _).mono rfl
    refine .ite (.ite ((touches_report _ _ _).after rfl <| (detected u).comp hu) hu) (.ite hu ?_)
    exact (touches_injectedEvent _ _ _).after rfl <| .ite hu ((detected u).comp hu)
  · exact .ite ((touches_report _ _ _).after rfl <| detected s) (.refl s)

theorem touches_deliver (s f) : Touches (reaction.plus { dram := true, mirror := true, free := true }) s (deliver s f) := by
  unfold deliver
  extract_lets _ _ u _
  have hu : Touches (reaction.plus { dram := true, mirror := true, free := true }) s u :=
      (touches_crcDetect _ _ _ _).after rfl <| (touches_crcDetect _ _ _ _).mono rfl
  split
  · exact .ite hu ((touches_unitDeliver _ _ _ _).after rfl <| hu)
  · exact hu

theorem touches_leave (s f) : Touches (reaction.plus { dram := true, mirror := true, free := true }) s (leave s f) := by
  unfold leave
  split
  · exact (touches_onward _ _ _ _).after rfl <| (touches_probeLeave _ _ _ _).mono rfl
  · exact (touches_deliver _ _).after rfl <| (touches_probeLeave _ _ _ _).mono rfl

theorem touches_redirect (s f n) : Touches reaction s (redirect s f n).1 :=
  .ite_fst (.fst <| (touches_report _ _ _).after rfl <| (touches_spineDetect _ _ _ _ _ _ _).mono rfl) (.ite_fst (.fst <|
      (touches_dropFenced _ _ _ _).mono rfl) (.fst <| (touches_satAdd _ _ _ _ _).mono rfl))

theorem touches_redirectQueued (s n) : Touches reaction s (redirectQueued s n) := by
  unfold redirectQueued
  extract_lets _ _ _ _ u
  have hu : Touches reaction s u := (touches_spine _ _).mono rfl
  exact .comp (.foldl (fun s _ => by
      split
      · next v _ heq =>
        have hv : Touches reaction s v := .of_pair heq (.ite_fst ((touches_redirect _ _ _).mono rfl) (.refl _))
        extract_lets _
        exact (touches_spine _ _).after rfl <| hv) _ _) <| hu

theorem touches_served (s f) : Touches { spine := true } s (served s f) :=
  (touches_spine _ _).mono rfl

theorem touches_enterRouter (s f) : Touches (reaction.plus { dram := true, mirror := true, free := true }) s (enterRouter s f) := by
  unfold enterRouter
  refine .ite ((touches_leave _ _).after rfl <| (touches_served _ _).mono rfl) ?_
  extract_lets _
  exact (touches_spine _ _).mono rfl

theorem touches_headerCheck (s r i p hdr) : Touches (reaction.plus { free := true }) s (headerCheck s r i p hdr).1 := by
  unfold headerCheck
  extract_lets _ _ u
  have hu : Touches (reaction.plus { free := true }) s u := (touches_blotUse _ _ _).mono rfl
  refine .ite_fst (.fst <| (touches_headerVerdict _ _ _ _ _).after rfl <| hu) ?_
  split
  · exact hu
  · exact .fst <| (touches_report _ _ _).after rfl <| (touches_headerCorrected _ _ _ _ _).after rfl <| hu
  · exact .fst <| (touches_report _ _ _).after rfl <| (touches_headerLost _ _ _ _ _).after rfl <| hu

theorem touches_arrived (s f) : Touches (reaction.plus { dram := true, mirror := true, free := true }) s (arrived s f) := by
  unfold arrived
  refine .ite ((touches_report _ _ _).after rfl <| (touches_spineDetect _ _ _ _ _ _ _).mono rfl) ?_
  split
  · exact (touches_enterRouter _ _).mono rfl
  · split
    · next u _ heq =>
      have hu : Touches (reaction.plus { dram := true, mirror := true, free := true }) s u :=
          .of_pair heq ((touches_redirect _ _ _).mono rfl)
      exact (touches_enterRouter _ _).after rfl <| hu
    · next v heq =>
      have hv : Touches (reaction.plus { dram := true, mirror := true, free := true }) s v :=
          .of_pair heq ((touches_redirect _ _ _).mono rfl)
      exact hv

theorem touches_routerHopEffect (s r i hdr hdr2 crc crc2) :
    Touches (reaction.plus { dram := true, mirror := true, free := true }) s (routerHopEffect s r i hdr hdr2 crc crc2) := by
  unfold routerHopEffect
  refine .ite (.refl _) ?_
  split
  · exact .refl _
  · extract_lets _ u v _ _
    have hu : Touches (reaction.plus { dram := true, mirror := true, free := true }) s u := (touches_spine _ _).mono rfl
    have hv : Touches (reaction.plus { dram := true, mirror := true, free := true }) s v :=
        .elim (hu) (fun _ => (touches_returnCred _ _ _).after rfl <| hu)
    split
    · next w _ heq =>
      have hw : Touches (reaction.plus { dram := true, mirror := true, free := true }) s w :=
          .of_pair heq (.ite_fst (hv) ((touches_headerCheck _ _ _ _ _).after rfl <| hv))
      split
      · next x _ heq =>
        have hx : Touches (reaction.plus { dram := true, mirror := true, free := true }) s x :=
            .of_pair heq (.ite_fst ((touches_headerCheck _ _ _ _ _).after rfl <| hw) (hw))
        split
        · exact (touches_arrived _ _).after rfl <| hx
        · exact hx

theorem touches_dequeue (s f) : Touches { spine := true } s (dequeue s f) :=
  (touches_spine _ _).mono rfl

theorem touches_outputEffect (s r o) :
    Touches (reaction.plus { dram := true, mirror := true, free := true }) s (outputEffect s r o) := by
  unfold outputEffect
  refine .ite (.refl _) ?_
  split
  · exact .refl _
  · exact (touches_leave _ _).after rfl <| (touches_served _ _).after rfl <| (touches_dequeue _ _).mono rfl

end Sys2Proof.Laws
end

section
/-! SUPPORT. The parts of the state that the operations of Machine/Dram touch. -/

namespace Sys2Proof.Laws

open Sys2Proof.Machine Sys2Proof.Safety

theorem touches_imageOf (s r c dec badNode) : Touches (reaction.plus { dram := true }) s (imageOf s r c dec badNode).1 := by
  have of : ∀ mu d (k : Nat), Touches (reaction.plus { dram := true }) s
      (if (unsealLine s c r.m mu d badNode r.src.toNat).2.isSome ∧ 0 < k
        then wqCorrective (unsealLine s c r.m mu d badNode r.src.toNat).1 c r.m mu d r
        else (unsealLine s c r.m mu d badNode r.src.toNat).1) := by
    intro mu d k
    have h := touches_unsealLine s c r.m mu d badNode r.src.toNat
    exact .ite ((touches_wqCorrective _ _ _ _ _ _).after rfl <| h) h
  cases dec with
  | uncorrectable => exact .refl s
  | marked mu d k => exact of mu d k
  | data d k => exact of 0 d k

theorem touches_leavePending (s n id) : Touches { slices := true, chans := true } s (leavePending s n id) := by
  unfold leavePending
  split
  · exact .ite ((touches_setEntry _ _ _).after rfl <| (touches_pendEnd _ _ _).mono rfl) (.refl _)
  · exact .refl _

theorem touches_entryFlag (s n id b) : Touches { obs := true } s (entryFlag s n id b) := by
  unfold entryFlag
  split
  · exact (touches_sampleFlag _ _ _ _ _).mono rfl
  · exact .refl _

theorem touches_entryStamp (s n id i) : Touches { obs := true, free := true } s (entryStamp s n id i) := by
  unfold entryStamp
  split
  · exact (touches_sampleStamp _ _ _ _ _).mono rfl
  · exact .refl _

theorem touches_scrubRowEnd (s c m) : Touches { chans := true } s (scrubRowEnd s c m) :=
  .ite (.refl _) ((touches_setBank _ _ _ _ _).mono rfl)

theorem touches_serveRead (s c r) : Touches (reaction.plus { dram := true, free := true }) s (serveRead s c r) := by
  unfold serveRead
  extract_lets _ u v
  have hu : Touches (reaction.plus { dram := true, free := true }) s u := (touches_setChan _ _ _).mono rfl
  have hv : Touches (reaction.plus { dram := true, free := true }) s v := .ite ((touches_scrubRowEnd _ _ _).after rfl <| hu) (hu)
  split
  · exact .refl _
  · extract_lets w
    have hw : Touches (reaction.plus { dram := true, free := true }) s w := .ite ((touches_countZero _ _).after rfl <| hv) (hv)
    split
    · extract_lets x
      have hx : Touches (reaction.plus { dram := true, free := true }) s x :=
          .ite (hw) ((touches_entryFlag _ _ _ _).after rfl <| (touches_pmuEvent _ _ _).after rfl <| hw)
      exact (touches_memArrived _ _ _ _ _ _).after rfl <| (touches_leavePending _ _ _).after rfl <| hx
    · exact (touches_wqMerged _ _ _ _).after rfl <| hw
    · exact hw

theorem touches_serveReads (s c) : Touches (reaction.plus { dram := true, free := true }) s (serveReads s c) :=
  (.foldl (fun _ _ => (touches_serveRead _ _ _).mono rfl) _ _)

theorem touches_deliverRead (s c r img) : Touches (reaction.plus { dram := true, free := true }) s (deliverRead s c r img) := by
  unfold deliverRead
  split
  · extract_lets u v
    have hu : Touches (reaction.plus { dram := true, free := true }) s u := (touches_entryStamp _ _ _ _).mono rfl
    have hv : Touches (reaction.plus { dram := true, free := true }) s v := .ite ((touches_entryFlag _ _ _ _).after rfl <| hu) (hu)
    split
    · exact (touches_memArrived _ _ _ _ _ _).after rfl <| hv
    · exact (touches_memArrived _ _ _ _ _ _).after rfl <| hv
  · exact .ite ((touches_setWrq _ _ _).mono rfl) ((touches_wqMerged _ _ _ _).mono rfl)
  · exact .refl _

theorem touches_decodeRead (s c r errData errCheck badNode) :
    Touches (reaction.plus { dram := true, free := true }) s (decodeRead s c r errData errCheck badNode) := by
  unfold decodeRead
  extract_lets _ _ _ _
  split
  · next u _ _ heq =>
    have hu : Touches (reaction.plus { dram := true, free := true }) s u :=
        .of_pair heq ((touches_checkLine _ _ _ _ _ _ _).mono rfl)
    extract_lets v
    have hv : Touches (reaction.plus { dram := true, free := true }) s v := by
      unfold v
      split
      · exact .ite ((touches_entryFlag _ _ _ _).after rfl <| hu) hu
      · exact hu
    split
    · next w _ heq =>
      have hw : Touches (reaction.plus { dram := true, free := true }) s w :=
          .of_pair heq ((touches_dataDecode _ _ _ _ _ _ _).after rfl <| hv)
      refine .ite ?_ ?_
      · split
        · exact hw
        · exact .ite ((touches_wqCorrective _ _ _ _ _ _).after rfl <| hw) hw
        · exact .ite ((touches_wqCorrective _ _ _ _ _ _).after rfl <| hw) hw
      · split
        · next x _ heq =>
          have hx : Touches (reaction.plus { dram := true, free := true }) s x :=
              .of_pair heq ((touches_imageOf _ _ _ _ _).after rfl <| hw)
          exact (touches_deliverRead _ _ _ _).after rfl <| hx

theorem touches_scrubCheck (s c u k err) : Touches (reaction.plus { dram := true }) s (scrubCheck s c u k err) := by
  unfold scrubCheck
  split
  · split
    · next v _ _ heq =>
      have hv : Touches (reaction.plus { dram := true }) s v := .of_pair heq ((touches_checkDecode _ _ _ _ _ _ _).mono rfl)
      exact .ite hv ((touches_ccPut _ _).after rfl <| hv)
    · next w heq =>
      have hw : Touches (reaction.plus { dram := true }) s w := .of_pair heq ((touches_checkDecode _ _ _ _ _ _ _).mono rfl)
      exact (touches_loseSlot _ _ _ _).after rfl <| (touches_eccUncorrectable _ _ _ _ _ _ _).after rfl <| hw
  · split
    · next x _ _ heq =>
      have hx : Touches (reaction.plus { dram := true }) s x := .of_pair heq ((touches_checkLine _ _ _ _ _ _ _).mono rfl)
      exact .ite ((touches_eccUncorrectable _ _ _ _ _ _ _).after rfl <| hx) hx

theorem touches_lineReadEffect (s c errData errCheck badNode) :
    Touches (reaction.plus { dram := true, free := true }) s (lineReadEffect s c errData errCheck badNode) := by
  unfold lineReadEffect
  refine .ite (.refl _) ?_
  split
  · exact .refl _
  · extract_lets _ _ _ u v
    have hu : Touches (reaction.plus { dram := true, free := true }) s u := (touches_setChan _ _ _).mono rfl
    have hv : Touches (reaction.plus { dram := true, free := true }) s v := by
      unfold v
      split
      · exact (touches_scrubCheck _ _ _ _ _).after rfl <| hu
      · exact (touches_decodeRead _ _ _ _ _ _).after rfl <| hu
    exact (touches_pumpChan _ _).after rfl <| (touches_serveReads _ _).after rfl <| (touches_sealOwed _).after rfl <| hv

end Sys2Proof.Laws
end

section
/-! SUPPORT. The parts of the state that the operations of Machine/Sched touch. -/

namespace Sys2Proof.Laws

open Sys2Proof.Machine Sys2Proof.Safety

theorem touches_setRefresh (s c r f) : Touches { chans := true } s (setRefresh s c r f) := by
  unfold setRefresh
  split
  · extract_lets _
    exact (touches_setChan _ _ _).mono rfl
  · exact .refl _

theorem touches_prechargeAt (s c r b t) : Touches { chans := true } s (prechargeAt s c r b t) :=
  (touches_setBank _ _ _ _ _).mono rfl

theorem touches_doPrecharge (s c r b) : Touches { chans := true } s (doPrecharge s c r b) :=
  (touches_prechargeAt _ _ _ _ _).mono rfl

theorem touches_pushAct (s c r t) : Touches { regs := true, chans := true, obs := true } s (pushAct s c r t) :=
  (touches_pmuEvent _ _ _).after rfl <| (touches_setChan _ _ _).mono rfl

theorem touches_neighbourDraw (s c) : Touches { free := true } s (neighbourDraw s c).2 := by
  unfold neighbourDraw
  refine .ite_snd (.refl _) ?_
  extract_lets _
  split
  · next _ u heq =>
    have hu : Touches { free := true } s u := .of_snd heq ((touches_takeFree _).mono rfl)
    exact hu

theorem touches_doActivate (s c r b row) :
    Touches { regs := true, chans := true, obs := true, free := true } s (doActivate s c r b row) := by
  unfold doActivate
  extract_lets _
  split
  · next _ u heq =>
    have hu : Touches { regs := true, chans := true, obs := true, free := true } s u :=
        .of_snd heq ((touches_neighbourDraw _ _).mono rfl)
    extract_lets v _ _
    have hv : Touches { regs := true, chans := true, obs := true, free := true } s v := (touches_pushAct _ _ _ _).after rfl <| hu
    exact (touches_setBank _ _ _ _ _).after rfl <| hv

theorem touches_firstCommand (s c who hit conflict) :
    Touches { regs := true, slices := true, chans := true, obs := true, free := true } s (firstCommand s c who hit conflict) := by
  unfold firstCommand
  extract_lets _ _ _
  split
  · split
    · refine .ite ?_ (.refl _)
      extract_lets u
      have hu : Touches { regs := true, slices := true, chans := true, obs := true, free := true } s u :=
          (touches_pmuEvent _ _ _).after rfl <| (touches_setChan _ _ _).mono rfl
      split
      · exact (touches_entryFlag _ _ _ _).after rfl <| (touches_entryStamp _ _ _ _).after rfl <|
          (touches_leavePending _ _ _).after rfl <| hu
      · exact hu
    · exact .refl _
  · split
    · exact .ite ((touches_pmuEvent _ _ _).after rfl <| (touches_setChan _ _ _).mono rfl) (.refl _)
    · exact .refl _

theorem touches_useSlot (s c who) : Touches { chans := true } s (useSlot s c who) := by
  unfold useSlot
  extract_lets _
  split
  · split
    · exact .ite ((touches_setChan _ _ _).mono rfl) (.refl _)
    · exact .refl _
  · exact .refl _

theorem touches_touchRow (s c r b m write first) : Touches { chans := true } s (touchRow s c r b m write first) := by
  unfold touchRow
  extract_lets _ _ _ _ _ _ _ _ u
  have hu : Touches { chans := true } s u := (touches_setChan _ _ _).mono rfl
  exact (touches_setBank _ _ _ _ _).after rfl <| hu

theorem touches_doRead (s c id r b) :
    Touches { regs := true, slices := true, chans := true, obs := true, free := true } s (doRead s c id r b) := by
  unfold doRead
  split
  · exact .refl _
  · extract_lets u v _ w
    have hu : Touches { regs := true, slices := true, chans := true, obs := true, free := true } s u :=
        (touches_touchRow _ _ _ _ _ _ _).mono rfl
    have hv : Touches { regs := true, slices := true, chans := true, obs := true, free := true } s v :=
        (touches_firstCommand _ _ _ _ _).after rfl <| hu
    have hw : Touches { regs := true, slices := true, chans := true, obs := true, free := true } s w :=
        (touches_setChan _ _ _).after rfl <| hv
    split
    · exact (touches_scrubRowEnd _ _ _).after rfl <| (touches_pmuEvent _ _ _).after rfl <| (touches_pmuEvent _ _ _).after rfl <| hw
    · exact (touches_scrubRowEnd _ _ _).after rfl <| (touches_pmuEvent _ _ _).after rfl <| (touches_pmuEvent _ _ _).after rfl <| hw
    · exact (touches_pmuEvent _ _ _).after rfl <| hw

theorem touches_doWrite (s c m r b) : Touches (reaction.plus { dram := true, free := true }) s (doWrite s c m r b) := by
  unfold doWrite
  split
  · exact .refl _
  · extract_lets u v w x
    have hu : Touches (reaction.plus { dram := true, free := true }) s u := (touches_touchRow _ _ _ _ _ _ _).mono rfl
    have hv : Touches (reaction.plus { dram := true, free := true }) s v := (touches_firstCommand _ _ _ _ _).after rfl <| hu
    have hw : Touches (reaction.plus { dram := true, free := true }) s w := (touches_sealOwed _).after rfl <|
        (touches_writeBurst _ _ _ _ _ _).after rfl <| hv
    have hx : Touches (reaction.plus { dram := true, free := true }) s x := (touches_setWrq _ _ _).after rfl <| hw
    exact (touches_pumpChan _ _).after rfl <| hx

theorem touches_doRefresh (s c r) : Touches { regs := true, chans := true, obs := true } s (doRefresh s c r) := by
  unfold doRefresh
  extract_lets _ u _ _
  have hu : Touches { regs := true, chans := true, obs := true } s u :=
      (.foldl (fun _ _ => (touches_setBank _ _ _ _ _).mono rfl) _ _)
  exact (touches_pmuEvent _ _ _).after rfl <| (touches_setRefresh _ _ _ _).after rfl <| hu

theorem touches_countNeighbour (s c) : Touches { regs := true, obs := true, aon := true } s (countNeighbour s c) := by
  unfold countNeighbour
  extract_lets u _
  have hu : Touches { regs := true, obs := true, aon := true } s u := (touches_pmuEvent _ _ _).after rfl <|
      (touches_satAdd _ _ _ _ _).mono rfl
  exact (touches_aon _ _).after rfl <| hu

theorem touches_neighbourAt (s c r b start) :
    Touches { regs := true, chans := true, obs := true, aon := true } s (neighbourAt s c r b start) := by
  unfold neighbourAt
  extract_lets _ _ _ _ u v w _ _ x _ y
  have hu : Touches { regs := true, chans := true, obs := true, aon := true } s u := (touches_setBank _ _ _ _ _).mono rfl
  have hv : Touches { regs := true, chans := true, obs := true, aon := true } s v := (touches_setBank _ _ _ _ _).after rfl <| hu
  have hw : Touches { regs := true, chans := true, obs := true, aon := true } s w := (touches_countNeighbour _ _).after rfl <| hv
  have hx : Touches { regs := true, chans := true, obs := true, aon := true } s x :=
      (.forEach (fun _ _ => (touches_pushAct _ _ _ _).mono rfl) _ _)
  have hy : Touches { regs := true, chans := true, obs := true, aon := true } s y := (touches_setBank _ _ _ _ _).after rfl <| hx
  exact .ite (.ite ((touches_countNeighbour _ _).after rfl <| hw) hw) ((touches_countNeighbour _ _).after rfl <| hy)

theorem touches_doNeighbour (s c r b) : Touches { regs := true, chans := true, obs := true, aon := true } s (doNeighbour s c r b) :=
  (touches_neighbourAt _ _ _ _ _).mono rfl

theorem touches_closeBank (s c r b) : Touches { chans := true } s (closeBank s c r b) :=
  .ite ((touches_prechargeAt _ _ _ _ _).mono rfl) (.refl _)

theorem touches_issuePending (s c) : Touches { regs := true, chans := true, obs := true, aon := true } s (issuePending s c) :=
  (.foldl (fun _ _ => (.forEach (fun _ _ => .ite (.refl _) ((touches_neighbourAt _ _ _ _ _).after rfl <|
      .comp (.ite ((touches_closeBank _ _ _ _).mono rfl) (.refl _)) <| (touches_closeBank _ _ _ _).mono rfl)) _ _)) _ _)

theorem touches_sleepChan (s c) : Touches { regs := true, chans := true, obs := true, aon := true } s (sleepChan s c) := by
  unfold sleepChan
  extract_lets u _
  have hu : Touches { regs := true, chans := true, obs := true, aon := true } s u := (touches_issuePending _ _).mono rfl
  exact (touches_setChan _ _ _).after rfl <| hu

theorem touches_checkReadyFull (s) : Touches { regs := true } s (checkReadyFull s) :=
  .ite ((touches_setBit _ _ _ _).mono rfl) (.refl _)

theorem touches_doInit (s c u) : Touches { regs := true, chans := true, obs := true, aon := true } s (doInit s c u) := by
  unfold doInit
  extract_lets _ _ _ _ v _ w _ x _ y z u'
  have hv : Touches { regs := true, chans := true, obs := true, aon := true } s v := (touches_unitBursts _ _).after rfl <|
      (touches_pushAct _ _ _ _).mono rfl
  have hw : Touches { regs := true, chans := true, obs := true, aon := true } s w := (touches_setChan _ _ _).after rfl <| hv
  have hx : Touches { regs := true, chans := true, obs := true, aon := true } s x :=
      .ite (.refl _) ((touches_setBank _ _ _ _ _).after rfl <| hw)
  have hy : Touches { regs := true, chans := true, obs := true, aon := true } s y := (touches_setChan _ _ _).after rfl <| hx
  have hz : Touches { regs := true, chans := true, obs := true, aon := true } s z := (touches_setFld _ _ _ _ _).after rfl <| hy
  have hu' : Touches { regs := true, chans := true, obs := true, aon := true } s u' := (touches_checkReadyFull _).after rfl <|
      (touches_setBit _ _ _ _).after rfl <| hz
  exact .ite (.ite ((touches_sleepChan _ _).after rfl <| hu') hu') hz

theorem touches_countReserved (s c) : Touches { regs := true, obs := true } s (countReserved s c) :=
  .ite ((touches_pmuEvent _ _ _).mono rfl) (.refl _)

theorem touches_issue (s c k) : Touches (reaction.plus { dram := true, free := true }) s (issue s c k) := by
  unfold issue
  extract_lets u v w
  have hu : Touches (reaction.plus { dram := true, free := true }) s u := (touches_countReserved _ _).mono rfl
  have hv : Touches (reaction.plus { dram := true, free := true }) s v := .ite ((touches_pmuEvent _ _ _).after rfl <| hu) (hu)
  have hw : Touches (reaction.plus { dram := true, free := true }) s w := (touches_useSlot _ _ _).after rfl <| hv
  split
  · extract_lets x
    have hx : Touches (reaction.plus { dram := true, free := true }) s x := by
      unfold x
      split
      · exact (touches_firstCommand _ _ _ _ _).after rfl <| hw
      · exact hw
    exact (touches_doPrecharge _ _ _ _).after rfl <| hx
  · exact (touches_doActivate _ _ _ _ _).after rfl <| (touches_firstCommand _ _ _ _ _).after rfl <| hw
  · exact (touches_doRead _ _ _ _ _).after rfl <| hw
  · exact (touches_doWrite _ _ _ _ _).after rfl <| hw
  · exact (touches_doRefresh _ _ _).after rfl <| hw
  · exact (touches_doNeighbour _ _ _ _).after rfl <| hw
  · exact (touches_doInit _ _ _).after rfl <| hw

theorem touches_drainUpdate (s c) : Touches { regs := true, chans := true, obs := true } s (drainUpdate s c) :=
  .ite (.ite ((touches_setChan _ _ _).mono rfl) (.refl _)) (.ite ((touches_pmuEvent _ _ _).after rfl <|
      (touches_setChan _ _ _).mono rfl) (.refl _))

theorem touches_serveQueued (s c) : Touches (reaction.plus { dram := true, free := true }) s (serveQueued s c) := by
  unfold serveQueued
  extract_lets u
  have hu : Touches (reaction.plus { dram := true, free := true }) s u := (touches_serveReads _ _).mono rfl
  exact .ite ((touches_pumpChan _ _).after rfl <| hu) hu

theorem touches_safeFlush (s c) : Touches (reaction.plus { dram := true }) s (safeFlush s c) :=
  .ite ((touches_flushCaches _ _).mono rfl) (.refl _)

theorem touches_schedulerEffect (s c) : Touches (reaction.plus { dram := true, free := true }) s (schedulerEffect s c) := by
  unfold schedulerEffect
  refine .ite (.refl _) ?_
  extract_lets u
  have hu : Touches (reaction.plus { dram := true, free := true }) s u := (touches_safeFlush _ _).after rfl <|
      (touches_drainUpdate _ _).after rfl <| (touches_serveQueued _ _).mono rfl
  split
  · exact (touches_issue _ _ _).after rfl <| hu
  · exact hu

theorem touches_commandSlotEffect (s c) : Touches { chans := true } s (commandSlotEffect s c) := by
  unfold commandSlotEffect
  refine .ite ?_ (.refl _)
  extract_lets _
  exact (touches_setChan _ _ _).mono rfl

theorem touches_refreshIntervalEffect (s c r) : Touches { chans := true } s (refreshIntervalEffect s c r) :=
  .ite ((touches_setRefresh _ _ _ _).mono rfl) (.refl _)

theorem touches_rowIdleEffect (s c r b) : Touches { regs := true, chans := true, obs := true } s (rowIdleEffect s c r b) :=
  .ite ((touches_doPrecharge _ _ _ _).after rfl <| (touches_countReserved _ _).mono rfl) (.refl _)

theorem touches_mr4Effect (s c r mult out) : Touches reaction s (mr4Effect s c r mult out) := by
  unfold mr4Effect
  extract_lets _ _ u _ v
  have hu : Touches reaction s u := (touches_setRefresh _ _ _ _).mono rfl
  have hv : Touches reaction s v := (touches_setFld _ _ _ _ _).after rfl <| hu
  exact .ite (.ite ((touches_report _ _ _).after rfl <| hv) hv) (.refl _)

theorem touches_zqEffect (s c r) : Touches { chans := true } s (zqEffect s c r) :=
  .ite ((touches_setRefresh _ _ _ _).mono rfl) (.refl _)

theorem touches_dqsEffect (s c r count) : Touches { chans := true } s (dqsEffect s c r count) :=
  .ite ((touches_setRefresh _ _ _ _).mono rfl) (.refl _)

theorem touches_pushScrub (s c u) : Touches { chans := true } s (pushScrub s c u) := by
  unfold pushScrub
  extract_lets v
  have hv : Touches { chans := true } s v := (.forEach (fun _ _ => (touches_pushRead _ _ _).mono rfl) _ _)
  exact .comp (.forEach (fun _ _ => (touches_pushRead _ _ _).mono rfl) _ _) <| hv

theorem touches_scrubEffect (s c) : Touches { regs := true, chans := true } s (scrubEffect s c) := by
  unfold scrubEffect
  extract_lets _ _ u _ _ v
  have hu : Touches { regs := true, chans := true } s u := (touches_setChan _ _ _).mono rfl
  have hv : Touches { regs := true, chans := true } s v := (touches_pushScrub _ _ _).after rfl <|
      (touches_setChan _ _ _).after rfl <| hu
  exact .ite (.refl _) (.ite ((touches_setChan _ _ _).after rfl <| hu) (.ite ((touches_setFld _ _ _ _ _).after rfl <|
      hv) ((touches_setFld _ _ _ _ _).after rfl <| (touches_setFld _ _ _ _ _).after rfl <| hv)))

end Sys2Proof.Laws
end

section
/-! SUPPORT. The parts of the state that the operations of Machine/Deadline touch. -/

namespace Sys2Proof.Laws

open Sys2Proof.Machine Sys2Proof.Safety

theorem touches_installMode (s m) : Touches { chans := true, seq := true } s (installMode s m) := by
  unfold installMode
  extract_lets u _ _
  have hu : Touches { chans := true, seq := true } s u :=
      (.forEach (fun _ _ => .ite ((touches_setChan _ _ _).mono rfl) (.refl _)) _ _)
  exact (touches_seq _ _).after rfl <| hu

theorem touches_writeTable (s c t w) : Touches { regs := true, chans := true } s (writeTable s c t w) := by
  unfold writeTable
  extract_lets _ u _ v
  have hu : Touches { regs := true, chans := true } s u := (.forEach (fun _ _ => (touches_setReg _ _ _).mono rfl) _ _)
  have hv : Touches { regs := true, chans := true } s v := (touches_setChan _ _ _).after rfl <| hu
  exact (touches_setReg _ _ _).after rfl <| hv

theorem touches_writeBudget (s k src w) : Touches { regs := true } s (writeBudget s k src w) :=
  (touches_setReg _ _ _).mono rfl

theorem touches_budgetCredits (before s n) : Touches { ports := true } s (budgetCredits before s n) := by
  unfold budgetCredits
  refine .ite ?_ (.refl _)
  extract_lets _
  exact (touches_setPort _ _ _ (fun h => by exact h)).mono rfl

theorem touches_swapTables (s) : Touches { regs := true, ports := true, chans := true, seq := true } s (swapTables s) := by
  unfold swapTables
  extract_lets _ u v _ w
  have hu : Touches { regs := true, ports := true, chans := true, seq := true } s u := (.forEach (fun s _ => by
      split
      · exact (touches_writeTable _ _ _ _).mono rfl
      · exact .refl _) _ _)
  have hv : Touches { regs := true, ports := true, chans := true, seq := true } s v :=
      .comp (.foldl (fun _ _ => (touches_writeBudget _ _ _ _).mono rfl) _ _) <| hu
  have hw : Touches { regs := true, ports := true, chans := true, seq := true } s w := (touches_seq _ _).after rfl <| hv
  exact .comp (.forEach (fun _ _ => (touches_budgetCredits _ _ _).mono rfl) _ _) <| hw

theorem touches_refillBuckets (s) : Touches { regs := true } s (refillBuckets s) := by
  unfold refillBuckets
  exact (.forEach (fun _ _ => .ite ((.forEach (fun s _ => by
      extract_lets _ _
      exact .ite (.refl _) ((touches_setFld _ _ _ _ _).mono rfl)) _ _)) (.refl _)) _ _)

theorem touches_epochEffect (s) : Touches { regs := true, ports := true, chans := true, seq := true } s (epochEffect s) := by
  unfold epochEffect
  extract_lets _ _ u v
  have hu : Touches { regs := true, ports := true, chans := true, seq := true } s u := (touches_seq _ _).mono rfl
  have hv : Touches { regs := true, ports := true, chans := true, seq := true } s v := by
    unfold v
    split
    · exact .ite ((touches_swapTables _).after rfl <| hu) hu
    · exact hu
  exact .ite ((touches_refillBuckets _).after rfl <| hv) (.refl _)

theorem touches_recheckTable (s c m) : Touches { regs := true, chans := true } s (recheckTable s c m) := by
  unfold recheckTable
  extract_lets u _
  have hu : Touches { regs := true, chans := true } s u := .ite ((touches_setReg _ _ _).mono rfl) (.refl _)
  split
  · exact (touches_setChan _ _ _).after rfl <| hu
  · exact hu

end Sys2Proof.Laws
end

section
/-! SUPPORT. The parts of the state that the operations of Machine/Modes touch. -/

namespace Sys2Proof.Laws

open Sys2Proof.Machine Sys2Proof.Safety

theorem touches_mapRun (s f) : Touches { seq := true } s (mapRun s f) :=
  (touches_seq _ _).mono rfl

theorem touches_waitCmd (s) : Touches { seq := true } s (waitCmd s) :=
  (touches_mapRun _ _).mono rfl

theorem touches_pauseCmd (s) : Touches { seq := true } s (pauseCmd s) :=
  (touches_mapRun _ _).mono rfl

theorem touches_setPhase (s k) : Touches { seq := true } s (setPhase s k) :=
  (touches_mapRun _ _).mono rfl

theorem touches_setTrans (s t) : Touches { seq := true } s (setTrans s t) :=
  (touches_seq _ _).mono rfl

theorem touches_loadSettings (s m) : Touches { regs := true } s (loadSettings s m) := by
  unfold loadSettings
  split
  · exact (.forEach (fun _ _ => .ite ((touches_setFld _ _ _ _ _).after rfl <| (touches_setFld _ _ _ _ _).after rfl <|
      (touches_setFld _ _ _ _ _).after rfl <| (touches_setFld _ _ _ _ _).after rfl <| (touches_setFld _ _ _ _ _).after rfl <|
          (touches_setFld _ _ _ _ _).mono rfl) (.refl _)) _ _)

theorem touches_wakeAll (s) : Touches { chans := true } s (wakeAll s) :=
  (.forEach (fun _ _ => .ite ((touches_wakeChan _ _).mono rfl) (.refl _)) _ _)

theorem touches_sleepAll (s) : Touches { regs := true, chans := true, obs := true, aon := true } s (sleepAll s) :=
  (.forEach (fun _ _ => .ite ((touches_sleepChan _ _).mono rfl) (.refl _)) _ _)

theorem touches_loadMode (s m) : Touches { regs := true, chans := true, seq := true } s (loadMode s m) :=
  (touches_installMode _ _).after rfl <| (touches_loadSettings _ _).after rfl <| (touches_wakeAll _).mono rfl

theorem touches_reachMode (s m) :
    Touches { regs := true, chans := true, seq := true, obs := true, aon := true } s (reachMode s m) := by
  unfold reachMode
  extract_lets u
  have hu : Touches { regs := true, chans := true, seq := true, obs := true, aon := true } s u :=
      (touches_setTrans _ _).after rfl <| (touches_enterMode _ _).mono rfl
  exact .ite ((touches_sleepAll _).after rfl <| hu) hu

theorem touches_arriveMode (s m) :
    Touches { regs := true, chans := true, seq := true, obs := true, aon := true } s (arriveMode s m) :=
  (touches_reachMode _ _).after rfl <| .ite ((touches_loadMode _ _).mono rfl) (.refl _)

theorem touches_loadDecode (s) : Touches { regs := true } s (loadDecode s) := by
  unfold loadDecode
  extract_lets _ _ u _ _
  have hu : Touches { regs := true } s u := (touches_setReg _ _ _).mono rfl
  exact (touches_setReg _ _ _).after rfl <| hu

theorem touches_clearChan (s c) : Touches { slices := true, chans := true, dram := true } s (clearChan s c) := by
  unfold clearChan
  extract_lets lo hi u _ v
  have hv : Touches { slices := true, chans := true, dram := true } s v :=
    (touches_setChan _ _ _).after rfl <| (touches_dramDrop _ _).mono rfl
  exact .comp (.forEach (fun _ _ => (touches_setSlice _ _ _).mono rfl) _ _) hv

theorem touches_startInit (s c) : Touches { regs := true, slices := true, chans := true, dram := true } s (startInit s c) := by
  unfold startInit
  extract_lets u v _
  have hu : Touches { regs := true, slices := true, chans := true, dram := true } s u := (touches_clearChan _ _).mono rfl
  have hv : Touches { regs := true, slices := true, chans := true, dram := true } s v := (touches_setReg _ _ _).after rfl <| hu
  exact (touches_wakeChan _ _).after rfl <| (touches_setChan _ _ _).after rfl <| hv

theorem touches_startInitAll (s) : Touches { regs := true, slices := true, chans := true, dram := true } s (startInitAll s) := by
  unfold startInitAll
  extract_lets u
  have hu : Touches { regs := true, slices := true, chans := true, dram := true } s u := (touches_setBit _ _ _ _).mono rfl
  exact (touches_checkReadyFull _).after rfl <|
      .comp (.forEach (fun _ _ => .ite ((touches_startInit _ _).mono rfl) (.refl _)) _ _) <| hu

theorem touches_endWay (s n k) : Touches (reaction.plus { dram := true }) s (endWay s n k) := by
  unfold endWay
  extract_lets _ _ _
  refine .ite (.refl _) ?_
  refine .ite ((touches_retryMark _ _ _ _).mono rfl) ?_
  refine .ite (.refl _) ?_
  refine .ite ((touches_wayWrite _ _ _ _ _).mono rfl) ?_
  split
  · exact (touches_moveVictim _ _ _ _ _ _).mono rfl
  · exact .refl _

theorem touches_endWays (s n sel) : Touches (reaction.plus { dram := true }) s (endWays s n sel) :=
  (.foldl (fun _ _ => .ite ((touches_endWay _ _ _).mono rfl) (.refl _)) _ _)

theorem touches_drainWork (s target) :
    Touches (reaction.plus { dram := true, mirror := true, free := true }) s (drainWork s target) := by
  unfold drainWork
  extract_lets u
  have hu : Touches (reaction.plus { dram := true, mirror := true, free := true }) s u :=
      .ite (.refl _) ((.forEach (fun _ _ => .ite ((touches_endWays _ _ _).mono rfl) (.refl _)) _ _))
  exact .ite ((touches_pumpAll _).after rfl <| (touches_mirrorDiscard _ _).after rfl <| hu) hu

theorem touches_flushAll (s) : Touches (reaction.plus { dram := true }) s (flushAll s) :=
  (.forEach (fun _ _ => (touches_flushCaches _ _).mono rfl) _ _)

theorem touches_startDrain (s target) : Touches { regs := true, chans := true, seq := true } s (startDrain s target) :=
  (touches_waitCmd _).after rfl <| (touches_setTrans _ _).after rfl <| (touches_startTransit _ _).after rfl <|
      (touches_wakeAll _).after rfl <| (touches_enterMode _ _).mono rfl

theorem touches_abandonDrain (s) :
    Touches { regs := true, chans := true, seq := true, obs := true, aon := true } s (abandonDrain s) := by
  unfold abandonDrain
  split
  · exact (touches_arriveMode _ _).mono rfl
  · exact .refl _

theorem touches_startWipe (s) : Touches { regs := true, chans := true, seq := true } s (startWipe s) := by
  unfold startWipe
  extract_lets _ u
  have hu : Touches { regs := true, chans := true, seq := true } s u := (touches_seq _ _).mono rfl
  exact (touches_pauseCmd _).after rfl <| (touches_setTrans _ _).after rfl <| (touches_startTransit _ _).after rfl <|
      (touches_wakeAll _).after rfl <| (touches_enterMode _ _).after rfl <| hu

theorem touches_secondPhase (s) : Touches { free := true } s (secondPhase s).2 := by
  unfold secondPhase
  split
  · exact .refl _
  · split
    · next _ u heq =>
      have hu : Touches { free := true } s u := .of_snd heq ((touches_takeFree _).mono rfl)
      exact hu

/-- What stays of the register file in Retention is in canonical form. -/
theorem cellsWf_retainRegs {l : Cells Word} (h : cellsWf regReset l = true) : cellsWf regReset (retainRegs l) = true :=
  cellsWf_remap (fun a v => (v &&& retainedMask a) ||| (regReset a &&& ~~~retainedMask a)) h

theorem touches_retained (s : State) (a : Vector Port 24) (ha : ∀ (n : Nat) (hn : n < 24), s.ports[n].fenced = true → a[n].fenced = true) (b : Spine) (c : Vector Slice 8) (d : Vector Chan 16) (e : Faults)
    (f : Mirror) (g : Twin) (h : Machine.Seq) (i : Obs) (j : Aon) (k : Pins) :
    Touches (reaction.plus { mirror := true, pins := true, free := true }) s
      { s with regs := retainRegs s.regs, ports := a, spine := b, slices := c, chans := d, faults := e, mirror := f, twin := g, seq := h,
               obs := i, aon := j, pins := k } :=
  ⟨rfl, fun h => ⟨cellsWf_retainRegs h.1, h.2⟩, fun _ => (touches_ports s a ha).fences rfl⟩

theorem fences_retainPort (v : Vector Port 24) (n : Nat) (hn : n < 24) (h : v[n].fenced = true) : (v.map retainPort)[n].fenced = true := by
  rw [Vector.getElem_map]
  exact h

theorem touches_enterRetention (s) : Touches (reaction.plus { mirror := true, pins := true, free := true }) s (enterRetention s) := by
  unfold enterRetention
  extract_lets fault
  split
  next phase u heq =>
  extract_lets v w x
  have hu : Touches (reaction.plus { mirror := true, pins := true, free := true }) s u :=
    .of_snd heq ((touches_secondPhase _).mono rfl)
  have hv : Touches (reaction.plus { mirror := true, pins := true, free := true }) s v :=
    .comp (.forEach (fun _ _ => .ite ((touches_mwMove _ _ _).mono rfl) (.refl _)) _ _) hu
  have hw : Touches (reaction.plus { mirror := true, pins := true, free := true }) s w :=
    .comp (.forEach (fun _ _ => .ite (.refl _) ((touches_issuePending _ _).mono rfl)) _ _) hv
  have hx : Touches (reaction.plus { mirror := true, pins := true, free := true }) s x :=
    (touches_setTrans _ _).after rfl <| (touches_enterMode _ _).after rfl <| hw
  exact (touches_retained x _ (fences_retainPort x.ports) _ _ _ _ _ _ _ _ _ _).comp hx

theorem touches_resetWindows (s) : Touches { regs := true } s (resetWindows s) :=
  (touches_setReg _ _ _).after rfl <| (touches_resetRegs _ _ _).mono rfl

theorem touches_twinOn (s) : Touches { regs := true, twin := true } s (twinOn s) := by
  unfold twinOn
  extract_lets _ _ u
  have hu : Touches { regs := true, twin := true } s u := (touches_setBit _ _ _ _).after rfl <|
      (touches_setBit _ _ _ _).after rfl <| (touches_twin _ _).mono rfl
  exact .ite ((touches_resetWindows _).after rfl <| hu) hu

theorem touches_bumpGeneration (s r) : Touches { regs := true } s (bumpGeneration s r) :=
  (touches_satAdd _ _ _ _ _).mono rfl

theorem touches_resetRegions (s) : Touches { regs := true } s (resetRegions s) :=
  (touches_resetRegs _ _ _).mono rfl

theorem touches_resetTables (s) : Touches { regs := true, chans := true, seq := true } s (resetTables s) := by
  unfold resetTables
  extract_lets u v _
  have hu : Touches { regs := true, chans := true, seq := true } s u :=
      (.forEach (fun _ _ => (touches_resetRegs _ _ _).mono rfl) _ _)
  have hv : Touches { regs := true, chans := true, seq := true } s v :=
      .comp (.forEach (fun _ _ => (touches_setChan _ _ _).after rfl <| (touches_resetRegs _ _ _).mono rfl) _ _) <| hu
  exact (touches_seq _ _).after rfl <| hv

theorem cellsWf_clearCountRegs {l : Cells Word} (h : cellsWf regReset l = true) : cellsWf regReset (clearCountRegs l) = true :=
  cellsWf_remap (fun a v =>
    let m := if isExtreme a then 0
      else if 0x330000 ≤ a ∧ a < 0x331800 ∧ a % 256 = 0x80 then BitVec.allOnes 32
      else ((regDesc a).map (·.rc)).getD 0
    (v &&& ~~~m) ||| (regReset a &&& m)) h

theorem touches_clearCounts (s : State) (x : Spine) :
    Touches { regs := true, spine := true } s { s with regs := clearCountRegs s.regs, spine := x } :=
  ⟨rfl, fun h => ⟨cellsWf_clearCountRegs h.1, h.2⟩, fun _ _ h => h⟩

theorem touches_emptied (s : State) (a : Vector Slice 8) (b : Mirror) (c : Aon) (d : Obs) :
    Touches { slices := true, dram := true, mirror := true, obs := true, aon := true } s
      { s with dram := [], slices := a, mirror := b, aon := c, obs := d } :=
  ⟨rfl, fun h => ⟨h.1, rfl⟩, fun _ _ h => h⟩

/-- What a Wipe touches. -/
def wipeParts : Parts :=
  { regs := true, spine := true, slices := true, chans := true, dram := true, mirror := true, seq := true, obs := true, aon := true }

theorem touches_wipeState (s) : Touches wipeParts s (wipeState s) := by
  unfold wipeState
  extract_lets u _ v w x
  have hu : Touches wipeParts s u :=
    (touches_resetTables _).after rfl <| .comp (.forEach (fun _ _ => (touches_bumpGeneration _ _).mono rfl) _ _) <|
      (touches_resetRegions _).mono rfl
  have hv := (touches_clearCounts u { u.spine with probe := [] }).after rfl hu
  have hw := (touches_resetRegs (resetRegs (resetWindows v) 0x310300 0x310400) 0x310060 0x310064).after rfl <|
    (touches_resetRegs (resetWindows v) 0x310300 0x310400).after rfl <| (touches_resetWindows v).after rfl hv
  have hx : Touches wipeParts s x := by
    refine .comp (.forEach (fun y c => ?_) _ _) hw
    exact (touches_setChan _ _ _).after rfl <|
      .ite ((touches_setFld _ _ _ _ _).after rfl <| (touches_setBit _ _ _ _).after rfl <| (touches_setReg _ _ _).mono rfl)
        ((touches_setReg _ _ _).mono rfl)
  exact (touches_emptied x _ _ _ _).after rfl hx

theorem touches_endWipe (s) : Touches { regs := true, chans := true, seq := true, obs := true, aon := true } s (endWipe s) :=
  (touches_reachMode _ _).after rfl <| (touches_setBit _ _ _ _).after rfl <| (touches_setBit _ _ _ _).mono rfl

theorem touches_wipeCompleteEffect (s) :
    Touches { regs := true, spine := true, slices := true, chans := true, dram := true, mirror := true, twin := true, seq := true, obs := true, aon := true, pins := true } s (wipeCompleteEffect s) := by
  unfold wipeCompleteEffect
  refine .ite ?_ (.refl _)
  extract_lets u _ _ v
  have hu : Touches { regs := true, spine := true, slices := true, chans := true, dram := true, mirror := true, twin := true, seq := true, obs := true, aon := true, pins := true } s u := (touches_wipeState _).mono rfl
  have hv : Touches { regs := true, spine := true, slices := true, chans := true, dram := true, mirror := true, twin := true, seq := true, obs := true, aon := true, pins := true } s v := (touches_endWipe _).after rfl <| hu
  split
  · exact (touches_seq_pins _ _ _).after rfl <| hu
  · exact .ite ((touches_finishCmd _ _ _).after rfl <| hv) ((touches_finishCmd _ _ _).after rfl <| hv)

theorem touches_drainEnd (s target) :
    Touches (reaction.plus { mirror := true, pins := true, free := true }) s (drainEnd s target) := by
  unfold drainEnd
  refine .ite ?_ (.ite ((touches_enterRetention _).mono rfl) ((touches_startWipe _).mono rfl))
  extract_lets u
  have hu : Touches (reaction.plus { mirror := true, pins := true, free := true }) s u := (touches_reachMode _ _).mono rfl
  exact (touches_finishCmd _ _ _).after rfl <| hu

theorem touches_drainCompleteEffect (s) :
    Touches (reaction.plus { dram := true, mirror := true, pins := true, free := true }) s (drainCompleteEffect s) := by
  unfold drainCompleteEffect
  refine .ite ?_ (.refl _)
  split
  · extract_lets u v
    have hu : Touches (reaction.plus { dram := true, mirror := true, pins := true, free := true }) s u :=
        (touches_drainWork _ _).mono rfl
    have hv : Touches (reaction.plus { dram := true, mirror := true, pins := true, free := true }) s v :=
        (touches_flushAll _).after rfl <| hu
    exact .ite (.ite hv ((touches_drainEnd _ _).after rfl <| hv)) hu
  · exact .refl _

end Sys2Proof.Laws
end

section
/-! SUPPORT. The parts of the state that the operations of Machine/Boundary touch. -/

namespace Sys2Proof.Laws

open Sys2Proof.Machine Sys2Proof.Safety

theorem touches_coreReset (s) : Touches (reaction.plus { tick := true, dram := true, mirror := true, pins := true }) s (coreReset s) := by
  have hports : ∀ (n : Nat) (hn : n < 24), s.ports[n].fenced = true → (coreReset s).ports[n].fenced = true := fun n hn _ => by
    rw [coreReset, Vector.getElem_map]
    rfl
  refine ⟨rfl, fun h => ⟨?_, rfl⟩, fun _ => (touches_ports s (coreReset s).ports hports).fences rfl⟩
  have hl := cellsWf_drop (fun a => !regAon a) h.1
  simp only [cellsDrop, Bool.not_not] at hl
  exact hl

theorem touches_toOff (s) : Touches { regs := true } s (toOff s) :=
  .ite (.refl _) ((touches_enterMode _ _).mono rfl)

theorem touches_resetAssertEffect (s brst) :
    Touches (reaction.plus { tick := true, dram := true, mirror := true, pins := true }) s (resetAssertEffect s brst) := by
  unfold resetAssertEffect
  extract_lets _ u v _
  have hu : Touches (reaction.plus { tick := true, dram := true, mirror := true, pins := true }) s u :=
      .ite ((touches_setBit _ _ _ _).after rfl <| (touches_aon _ _).mono rfl) (.refl _)
  have hv : Touches (reaction.plus { tick := true, dram := true, mirror := true, pins := true }) s v :=
      (touches_toOff _).after rfl <| (touches_coreReset _).after rfl <| hu
  exact (touches_pins _ _).after rfl <| hv

theorem touches_setLcValid (s f) : Touches { regs := true } s (setLcValid s f) :=
  (touches_setBit _ _ _ _).mono rfl

theorem touches_applyFuse (s f) : Touches (reaction.plus { pins := true }) s (applyFuse s f) := by
  unfold applyFuse
  extract_lets _ u v
  have hu : Touches (reaction.plus { pins := true }) s u := (touches_pins _ _).mono rfl
  have hv : Touches (reaction.plus { pins := true }) s v := (touches_setFld _ _ _ _ _).after rfl <|
      (touches_setLcValid _ _).after rfl <| hu
  exact .ite hv ((touches_report _ _ _).after rfl <| hv)

theorem touches_powerUp (s) : Touches { regs := true } s (powerUp s) := by
  unfold powerUp
  extract_lets u v w
  have hu : Touches { regs := true } s u := (touches_setFld _ _ _ _ _).mono rfl
  have hv : Touches { regs := true } s v := (touches_setBit _ _ _ _).after rfl <| hu
  have hw : Touches { regs := true } s w := (touches_setBit _ _ _ _).after rfl <| hv
  exact .comp (.forEach (fun _ _ => .ite (.refl _) ((touches_setBit _ _ _ _).after rfl <|
      (touches_setFld _ _ _ _ _).mono rfl)) _ _) <| hw

theorem touches_startCold (s straps fuse) : Touches (reaction.plus { pins := true }) s (startCold s straps fuse) := by
  unfold startCold
  extract_lets _ u v w _ x
  have hu : Touches (reaction.plus { pins := true }) s u := (touches_pins _ _).mono rfl
  have hv : Touches (reaction.plus { pins := true }) s v := (touches_setReg _ _ _).after rfl <| hu
  have hw : Touches (reaction.plus { pins := true }) s w := (touches_powerUp _).after rfl <| (touches_enterMode _ _).after rfl <| hv
  have hx : Touches (reaction.plus { pins := true }) s x := (touches_seq _ _).after rfl <| hw
  exact (touches_applyFuse _ _).after rfl <| hx

theorem touches_resetReleaseEffect (s brst straps fuse heldLong refclkOk) :
    Touches (reaction.plus { pins := true, undef := true }) s (resetReleaseEffect s brst straps fuse heldLong refclkOk) := by
  unfold resetReleaseEffect
  refine .ite ?_ (.refl _)
  extract_lets _ _ u v w _ x _ y
  have hu : Touches (reaction.plus { pins := true, undef := true }) s u := (touches_pins _ _).mono rfl
  have hv : Touches (reaction.plus { pins := true, undef := true }) s v := (touches_setBit _ _ _ _).after rfl <| hu
  have hw : Touches (reaction.plus { pins := true, undef := true }) s w := .ite ((touches_undef _ _).after rfl <| hv) (hv)
  have hx : Touches (reaction.plus { pins := true, undef := true }) s x := .ite ((touches_pins _ _).after rfl <| hw) (hw)
  have hy : Touches (reaction.plus { pins := true, undef := true }) s y := (touches_pins_undef _ _ _).after rfl <| hx
  exact .ite hx ((touches_startCold _ _ _).after rfl <| hy)

theorem touches_aonPowerOnEffect (s) :
    Touches (reaction.plus { tick := true, dram := true, mirror := true, pins := true, undef := true }) s (aonPowerOnEffect s) := by
  have hu := touches_coreReset s
  have emptied : ∀ (t : State) (a : Aon), Touches { regs := true, aon := true } t { t with regs := [], aon := a } :=
    fun t a => ⟨rfl, fun h => ⟨rfl, h.2⟩, fun _ _ h => h⟩
  unfold aonPowerOnEffect
  extract_lets ran u v
  have hv : Touches (reaction.plus { tick := true, dram := true, mirror := true, pins := true, undef := true }) s v :=
    (emptied u _).after rfl <| hu.mono rfl
  exact (touches_pins_undef v _ _).after rfl hv

theorem touches_supplyEffect (s k) : Touches { dram := true, pins := true, undef := true } s (supplyEffect s k) := by
  have voided : ∀ c : Prop, [Decidable c] → Touches { dram := true, pins := true, undef := true } s
      (if c then s else { s with pins := { s.pins with boundsVoid := true } }) :=
    fun _ _ => .ite (.refl s) ((touches_pins _ _).mono rfl)
  cases k with
  | dramSupplyLost => exact .ite ((⟨rfl, fun h => ⟨h.1, rfl⟩, fun _ _ h => h⟩ : Touches { dram := true } s { s with dram := [] }).mono rfl) (voided _)
  | coreRiseReleased =>
    exact .ite (.refl s) (.ite ((touches_pins _ _).mono rfl) ((touches_pins_undef _ _ _).mono rfl))
  | _ => exact voided _

theorem touches_coreRemoveEffect (s) :
    Touches (reaction.plus { tick := true, dram := true, mirror := true, pins := true }) s (coreRemoveEffect s) := by
  unfold coreRemoveEffect
  refine .ite (.refl _) ?_
  extract_lets _ _ u _
  have hu : Touches (reaction.plus { tick := true, dram := true, mirror := true, pins := true }) s u :=
      .ite (.refl _) ((touches_toOff _).after rfl <| (touches_coreReset _).mono rfl)
  exact (touches_pins _ _).after rfl <| hu

theorem touches_retainedPeriods (s secs) : Touches { free := true } s (retainedPeriods s secs).1 := by
  unfold retainedPeriods
  split
  · next _ u heq =>
    have hu : Touches { free := true } s u := .of_snd heq ((touches_takeFree _).mono rfl)
    extract_lets _
    exact hu

theorem touches_lockTick (s) : Touches { free := true } s (lockTick s).1 := by
  unfold lockTick
  refine .ite_fst ?_ (.refl _)
  split
  · next u _ heq =>
    have hu : Touches { free := true } s u := .of_pair heq ((touches_retainedPeriods _ _).mono rfl)
    exact hu

theorem touches_timebaseLockEffect (s) :
    Touches { tick := true, seq := true, obs := true, aon := true, pins := true, free := true } s (timebaseLockEffect s) := by
  unfold timebaseLockEffect
  refine .ite ?_ (.refl _)
  split
  · next u _ heq =>
    have hu : Touches { tick := true, seq := true, obs := true, aon := true, pins := true, free := true } s u :=
        .of_pair heq ((touches_lockTick _).mono rfl)
    extract_lets _ _ _ _
    exact (touches_tick_seq_obs_aon_pins _ _ _ _ _ _).after rfl <| hu

theorem touches_timebaseLossEffect (s) : Touches (reaction.plus { pins := true }) s (timebaseLossEffect s) := by
  unfold timebaseLossEffect
  refine .ite ?_ (.refl _)
  extract_lets _ _
  exact (touches_report _ _ _).after rfl <| (touches_aon_pins _ _ _).mono rfl

theorem touches_refclkReturnEffect (s) : Touches { pins := true } s (refclkReturnEffect s) := by
  unfold refclkReturnEffect
  refine .ite ?_ (.refl _)
  extract_lets _
  exact (touches_pins _ _).mono rfl

theorem touches_calendarLossEffect (s) : Touches (reaction.plus { pins := true }) s (calendarLossEffect s) := by
  unfold calendarLossEffect
  extract_lets _ _ _ _ u
  have hu : Touches (reaction.plus { pins := true }) s u := (touches_aon_pins _ _ _).mono rfl
  exact .ite ((touches_report _ _ _).after rfl <| hu) hu

theorem touches_aonReturnEffect (s) : Touches { pins := true } s (aonReturnEffect s) :=
  (touches_pins _ _).mono rfl

theorem touches_calendarSecondEffect (s) : Touches { aon := true } s (calendarSecondEffect s) := by
  unfold calendarSecondEffect
  refine .ite ?_ (.refl _)
  extract_lets _ _ _ _ _
  exact (touches_aon _ _).mono rfl

theorem touches_tempUpdEffect (s t) : Touches { regs := true, pins := true } s (tempUpdEffect s t) := by
  unfold tempUpdEffect
  refine .ite ?_ (.refl _)
  extract_lets u _ _ _
  have hu : Touches { regs := true, pins := true } s u := (touches_setFld _ _ _ _ _).after rfl <| (touches_setBit _ _ _ _).mono rfl
  exact (touches_pins _ _).after rfl <| hu

theorem touches_tempStaleEffect (s) : Touches (reaction.plus { pins := true }) s (tempStaleEffect s) := by
  unfold tempStaleEffect
  extract_lets _
  split
  · exact .ite ((touches_report _ _ _).after rfl <| (touches_setBit _ _ _ _).after rfl <| (touches_pins _ _).mono rfl) (.refl _)
  · exact .refl _

theorem touches_overTempEffect (s) : Touches (reaction.plus { pins := true }) s (overTempEffect s) := by
  unfold overTempEffect
  extract_lets _
  split
  · exact .ite ((touches_report _ _ _).after rfl <| (touches_pins _ _).mono rfl) (.refl _)
  · exact .refl _

theorem touches_advanceEnds (s status) :
    Touches { regs := true, chans := true, twin := true, seq := true, obs := true, aon := true, pins := true } s
        (advanceEnds s status) := by
  unfold advanceEnds
  extract_lets _ _ u
  have hu : Touches { regs := true, chans := true, twin := true, seq := true, obs := true, aon := true, pins := true } s u :=
      (touches_seq_pins _ _ _).mono rfl
  exact .ite ((touches_finishCmd _ _ _).after rfl <| (touches_endWipe _).after rfl <| hu) hu

theorem touches_addHistory (s before after) : Touches { aon := true } s (addHistory s before after) :=
  (touches_aon _ _).mono rfl

theorem touches_advanceCheck (s f) : Touches (reaction.plus { pins := true }) s (advanceCheck s f) := by
  unfold advanceCheck
  extract_lets _ _ _ _ u v
  have hu : Touches (reaction.plus { pins := true }) s u := .ite ((touches_pins _ _).mono rfl) ((touches_applyFuse _ _).mono rfl)
  have hv : Touches (reaction.plus { pins := true }) s v := .ite ((touches_addHistory _ _ _).after rfl <| hu) (hu)
  exact (touches_advanceEnds _ _).after rfl <| hv

theorem touches_judgeSample (s f changed) : Touches reaction s (judgeSample s f changed) := by
  unfold judgeSample
  refine .ite ?_ (.refl _)
  extract_lets u
  have hu : Touches reaction s u := .ite (.refl _) ((touches_report _ _ _).mono rfl)
  exact (touches_report _ _ _).after rfl <| hu

theorem touches_fuseSampleEffect (s f) : Touches (reaction.plus { pins := true }) s (fuseSampleEffect s f) := by
  unfold fuseSampleEffect
  refine .ite ?_ (.refl _)
  extract_lets _ _ _ u v
  have hu : Touches (reaction.plus { pins := true }) s u := (touches_pins _ _).mono rfl
  have hv : Touches (reaction.plus { pins := true }) s v := (touches_judgeSample _ _ _).after rfl <|
      (touches_setLcValid _ _).after rfl <| hu
  exact .ite ((touches_advanceCheck _ _).after rfl <| hv) hv

theorem touches_advDoneEffect (s) : Touches { seq := true } s (advDoneEffect s) := by
  unfold advDoneEffect
  refine .ite ?_ (.refl _)
  extract_lets _
  exact (touches_seq _ _).mono rfl

theorem touches_advTimeoutEffect (s) : Touches (reaction.plus { pins := true }) s (advTimeoutEffect s) := by
  unfold advTimeoutEffect
  refine .ite ?_ (.refl _)
  extract_lets _
  exact (touches_advanceEnds _ _).after rfl <| .ite ((touches_applyFuse _ _).mono rfl) (.refl _)

theorem touches_pinLine (s c m) : Touches { slices := true } s (pinLine s c m) :=
  .ite (.refl _) ((touches_setSlice _ _ _).mono rfl)

theorem touches_pinNode (i c l s j) : Touches (reaction.plus { dram := true }) s (pinNode i c l s j) := by
  unfold pinNode
  extract_lets _
  refine .ite ((touches_pinLine _ _ _).mono rfl) ?_
  refine .ite (.refl _) ?_
  split
  · next u _ heq =>
    have hu : Touches (reaction.plus { dram := true }) s u := .of_pair heq ((touches_nodeEnter _ _ _ _ _ _ _).mono rfl)
    exact .ite ((touches_pinLine _ _ _).after rfl <| hu) ((touches_failNode _ _ _ _ _).after rfl <| hu)

theorem touches_pinRegion (s i) : Touches (reaction.plus { dram := true }) s (pinRegion s i) :=
  .ite ((.foldl (fun _ _ => (.foldl (fun _ _ => .ite ((.forEach (fun _ _ => (touches_pinNode _ _ _ _ _).mono rfl) _ _))
      (.refl _)) _ _)) _ _)) (.refl _)

theorem touches_pinAll (s) : Touches (reaction.plus { dram := true }) s (pinAll s) :=
  (.forEach (fun _ _ => (touches_pinRegion _ _).mono rfl) _ _)

theorem touches_keyRefuse (s) : Touches (reaction.plus { pins := true }) s (keyRefuse s) :=
  (touches_report _ _ _).after rfl <| (touches_pins _ _).mono rfl

theorem touches_keyTake (s slot beat data) :
    Touches (reaction.plus { dram := true, pins := true }) s (keyTake s slot beat data) := by
  unfold keyTake
  extract_lets _ _ _ u
  have hu : Touches (reaction.plus { dram := true, pins := true }) s u := (touches_pins _ _).mono rfl
  exact .ite ((touches_keyRefuse _).mono rfl) (.ite ((touches_pins _ _).mono rfl) (.ite ((touches_pinAll _).after rfl <| hu) hu))

theorem touches_keyBeatEffect (s slot beat data) :
    Touches (reaction.plus { dram := true, pins := true }) s (keyBeatEffect s slot beat data) := by
  unfold keyBeatEffect
  refine .ite (.refl _) ?_
  extract_lets _ u _
  have hu : Touches (reaction.plus { dram := true, pins := true }) s u := (touches_pins _ _).mono rfl
  exact .ite ((touches_keyTake _ _ _ _).after rfl <| (touches_pins _ _).after rfl <| hu) hu

theorem touches_keyReleaseEffect (s) : Touches { pins := true } s (keyReleaseEffect s) :=
  (touches_pins _ _).mono rfl

end Sys2Proof.Laws
end

section
/-! SUPPORT. The parts of the state that the operations of Machine/Boot touch. -/

namespace Sys2Proof.Laws

open Sys2Proof.Machine Sys2Proof.Safety

theorem touches_outputsLive (s) : Touches { pins := true } s (outputsLive s) :=
  (touches_pins _ _).mono rfl

theorem touches_setBoot (s b) : Touches { seq := true } s (setBoot s b) :=
  (touches_seq _ _).mono rfl

theorem touches_calibrationEffect (s done margin u) :
    Touches (reaction.plus { pins := true }) s (calibrationEffect s done margin u) := by
  unfold calibrationEffect
  refine .ite ?_ (.refl _)
  extract_lets _ v
  have hv : Touches (reaction.plus { pins := true }) s v := (touches_setReg _ _ _).mono rfl
  exact .ite ((touches_setBoot _ _).after rfl <| hv) ((touches_report _ _ _).after rfl <| (touches_outputsLive _).after rfl <|
      (touches_setBoot _ _).after rfl <| hv)

theorem touches_linkReady (s) : Touches { regs := true, ports := true, slices := true, pins := true } s (linkReady s) := by
  unfold linkReady
  extract_lets u
  have hu : Touches { regs := true, ports := true, slices := true, pins := true } s u := (touches_setBit _ _ _ _).after rfl <|
      (touches_outputsLive _).mono rfl
  exact .comp (.forEach (fun _ _ => .ite ((touches_grantCredits _ _).after rfl <|
      (touches_latchPort _ _).mono rfl) (.refl _)) _ _) <| hu

theorem touches_retentionEnds (s) :
    Touches { regs := true, chans := true, seq := true, obs := true, aon := true } s (retentionEnds s) := by
  unfold retentionEnds
  extract_lets u v _ _
  have hu : Touches { regs := true, chans := true, seq := true, obs := true, aon := true } s u :=
      (touches_setBit _ _ _ _).after rfl <| (touches_setBit _ _ _ _).mono rfl
  have hv : Touches { regs := true, chans := true, seq := true, obs := true, aon := true } s v :=
      (touches_setBit _ _ _ _).after rfl <| hu
  exact (touches_arriveMode _ _).after rfl <| (touches_seq _ _).after rfl <| hv

theorem touches_selfTestEffect (s) :
    Touches { regs := true, ports := true, slices := true, chans := true, seq := true, obs := true, aon := true, pins := true } s (selfTestEffect s) := by
  unfold selfTestEffect
  refine .ite ?_ (.refl _)
  extract_lets u
  have hu : Touches { regs := true, ports := true, slices := true, chans := true, seq := true, obs := true, aon := true, pins := true } s u := (touches_linkReady _).mono rfl
  exact .ite (.ite ((touches_setBoot _ _).after rfl <| hu) ((touches_retentionEnds _).after rfl <|
      hu)) ((touches_setBoot _ _).after rfl <| hu)

theorem touches_startTimers (s c) : Touches { chans := true } s (startTimers s c) :=
  (touches_setChan _ _ _).mono rfl

theorem touches_applyTraining (s c r) : Touches reaction s (applyTraining s c r) := by
  unfold applyTraining
  extract_lets b pass ok u cfg v w
  have hu : Touches reaction s u := (touches_setReg _ _ _).mono rfl
  split
  · have hw : Touches reaction s w := (touches_setReg _ _ _).after rfl <| (touches_setReg _ _ _).after rfl <| hu
    refine (touches_startTimers _ _).after rfl <| .comp (.forEach (fun x i => ?_) _ _) hw
    split
    · exact (touches_setReg _ _ _).mono rfl
    · exact .refl x
  · exact (touches_report _ _ _).after rfl <| (touches_setBit _ _ _ _).after rfl <| hu

theorem touches_noteAttempt (s c ok) : Touches { chans := true } s (noteAttempt s c ok) :=
  (touches_setChan _ _ _).mono rfl

theorem touches_bootFinish (s) :
    Touches { regs := true, slices := true, chans := true, dram := true, seq := true, obs := true, aon := true } s
        (bootFinish s) := by
  unfold bootFinish
  refine .ite ((touches_setBoot _ _).mono rfl) ?_
  extract_lets u _
  have hu : Touches { regs := true, slices := true, chans := true, dram := true, seq := true, obs := true, aon := true } s u :=
      (touches_loadDecode _).after rfl <| (touches_setBoot _ _).mono rfl
  exact .ite ((touches_startWipe _).after rfl <| hu) ((touches_arriveMode _ _).after rfl <|
      (touches_setBit _ _ _ _).after rfl <| (touches_startInitAll _).after rfl <| hu)

theorem touches_retrainFinish (s) : Touches { seq := true } s (retrainFinish s) :=
  (touches_setBoot _ _).mono rfl

theorem touches_retrain (s c r) : Touches reaction s (retrain s c r) := by
  unfold retrain
  refine .ite ?_ ?_
  · extract_lets _ _ u
    have hu : Touches reaction s u := (touches_noteAttempt _ _ _).after rfl <| (touches_setReg _ _ _).mono rfl
    exact .ite ((touches_wakeChan _ _).after rfl <| (touches_setBit _ _ _ _).after rfl <|
        hu) ((touches_report _ _ _).after rfl <| hu)
  · extract_lets v
    have hv : Touches reaction s v := (touches_noteAttempt _ _ _).after rfl <| (touches_applyTraining _ _ _).mono rfl
    exact .ite ((touches_wakeChan _ _).after rfl <| hv) hv

theorem touches_m1Training (s c r) : Touches (reaction.plus { dram := true }) s (m1Training s c r) := by
  unfold m1Training
  refine .ite ?_ ?_
  · extract_lets u
    have hu : Touches (reaction.plus { dram := true }) s u := (touches_retrain _ _ _).mono rfl
    exact .ite ((touches_retrainFinish _).after rfl <| hu) hu
  · extract_lets v
    have hv : Touches (reaction.plus { dram := true }) s v := (touches_noteAttempt _ _ _).after rfl <|
        (touches_applyTraining _ _ _).mono rfl
    exact .ite ((touches_bootFinish _).after rfl <| hv) hv

theorem touches_commandTraining (s c r) : Touches (reaction.plus { dram := true }) s (commandTraining s c r) := by
  unfold commandTraining
  extract_lets u _ v w
  have hu : Touches (reaction.plus { dram := true }) s u := (touches_applyTraining _ _ _).mono rfl
  have hv : Touches (reaction.plus { dram := true }) s v := (touches_setChan _ _ _).after rfl <| hu
  have hw : Touches (reaction.plus { dram := true }) s w := (touches_recheckTable _ _ _).after rfl <|
      (touches_startInit _ _).after rfl <| hv
  exact .ite ((touches_finishCmd _ _ _).after rfl <| hw) ((touches_finishCmd _ _ _).after rfl <| hu)

theorem touches_trainingEffect (s c r) : Touches (reaction.plus { dram := true }) s (trainingEffect s c r) := by
  unfold trainingEffect
  refine .ite (.refl _) ?_
  refine .ite ((touches_m1Training _ _ _).mono rfl) ?_
  split
  · exact .ite ((touches_commandTraining _ _ _).mono rfl) (.refl _)
  · exact .refl _

theorem touches_retentionWakeEffect (s) :
    Touches { regs := true, twin := true, seq := true, pins := true } s (retentionWakeEffect s) := by
  unfold retentionWakeEffect
  refine .ite ?_ (.refl _)
  extract_lets u v _ _
  have hu : Touches { regs := true, twin := true, seq := true, pins := true } s u := (touches_enterMode _ _).mono rfl
  have hv : Touches { regs := true, twin := true, seq := true, pins := true } s v := .ite ((touches_twinOn _).after rfl <|
      hu) (.ite ((touches_resetWindows _).after rfl <| hu) (hu))
  exact (touches_seq_pins _ _ _).after rfl <| hv

end Sys2Proof.Laws
end

section
/-! SUPPORT. The parts of the state that the operations of Machine/Health touch. -/

namespace Sys2Proof.Laws

open Sys2Proof.Machine Sys2Proof.Safety

theorem touches_paceShown (s count) : Touches { free := true } s (paceShown s count).1 := by
  unfold paceShown
  refine .ite_fst (.refl _) ?_
  split
  · next _ u heq =>
    have hu : Touches { free := true } s u := .of_snd heq ((touches_takeFree _).mono rfl)
    exact hu

theorem touches_noteAging (s p u x) : Touches { aon := true } s (noteAging s p u x) := by
  unfold noteAging
  refine .ite ?_ (.refl _)
  extract_lets _
  exact (touches_aon _ _).mono rfl

theorem touches_noteExtremes (s e p u x) : Touches { regs := true } s (noteExtremes s e p u x) := by
  unfold noteExtremes
  extract_lets v w
  have hv : Touches { regs := true } s v := (touches_setFld _ _ _ _ _).mono rfl
  have hw : Touches { regs := true } s w := (touches_setFld _ _ _ _ _).after rfl <| hv
  exact .ite ((touches_setReg _ _ _).after rfl <| hw) hw

theorem touches_paceEffect (s m count flight) : Touches (reaction.plus { free := true }) s (paceEffect s m count flight) := by
  unfold paceEffect
  refine .ite ?_ (.refl _)
  split
  · extract_lets _
    split
    · next u _ heq =>
      have hu : Touches (reaction.plus { free := true }) s u := .of_pair heq ((touches_paceShown _ _).mono rfl)
      extract_lets _ _ _ _ v w x y
      have hv : Touches (reaction.plus { free := true }) s v := (touches_setReg _ _ _).after rfl <| hu
      have hw : Touches (reaction.plus { free := true }) s w := .ite ((touches_setReg _ _ _).after rfl <| hv) (hv)
      have hx : Touches (reaction.plus { free := true }) s x := (touches_noteAging _ _ _ _).after rfl <|
          (touches_noteExtremes _ _ _ _ _).after rfl <| hw
      have hy : Touches (reaction.plus { free := true }) s y := .ite ((touches_report _ _ _).after rfl <| hx) (hx)
      exact .ite ((touches_report _ _ _).after rfl <| hy) hy

theorem touches_canaryEffect (s u) : Touches reaction s (canaryEffect s u) := by
  unfold canaryEffect
  split
  · exact .ite ((touches_report _ _ _).after rfl <| (touches_satAdd _ _ _ _ _).mono rfl) (.refl _)
  · exact .refl _

theorem touches_regParity (s u inj) : Touches reaction s (regParity s u inj) :=
  (touches_safeEntry _ _ _ _ _).after rfl <| (touches_restartQuiet _).after rfl <| (touches_enterFault _ _ _ _).after rfl <|
      (touches_countEvent _ _ _).mono rfl

theorem touches_faultEventEffect (s u src) : Touches reaction s (faultEventEffect s u src) :=
  .ite (.ite ((touches_regParity _ _ _).mono rfl) ((touches_report _ _ _).mono rfl)) (.refl _)

theorem touches_windowExpireEffect (s u src) : Touches { faults := true } s (windowExpireEffect s u src) :=
  .ite ((touches_setCount _ _ _ _).mono rfl) (.refl _)

theorem touches_parityCheck (s u items bad) : Touches reaction s (parityCheck s u items bad) := by
  unfold parityCheck
  extract_lets _ v _
  have hv : Touches reaction s v := .ite (.refl _) ((touches_blotUse _ _ _).mono rfl)
  exact .ite hv (.ite (.ite ((touches_injectedEvent _ _ _).after rfl <| hv) ((touches_regParity _ _ _).after rfl <|
      hv)) ((touches_regParity _ _ _).after rfl <| hv))

theorem touches_sweepEffect (s u parity) : Touches reaction s (sweepEffect s u parity) :=
  .ite ((touches_parityCheck _ _ _ _).mono rfl) (.refl _)

theorem touches_leaveSafe (s) : Touches { regs := true } s (leaveSafe s) :=
  .ite ((touches_setFld _ _ _ _ _).mono rfl) (.refl _)

theorem touches_clearFaults (s u mask) : Touches { regs := true, faults := true } s (clearFaults s u mask) := by
  unfold clearFaults
  extract_lets _ v w
  have hv : Touches { regs := true, faults := true } s v := (touches_setReg _ _ _).mono rfl
  have hw : Touches { regs := true, faults := true } s w :=
      .comp (.forEach (fun _ _ => .ite ((touches_setCount _ _ _ _).mono rfl) (.refl _)) _ _) <| hv
  exact .ite ((touches_setBit _ _ _ _).after rfl <| hw) hw

theorem touches_drydownEffect (s) :
    Touches { regs := true, chans := true, faults := true, seq := true, obs := true, aon := true } s (drydownEffect s) := by
  unfold drydownEffect
  refine .ite ?_ (.refl _)
  extract_lets _ u v w _ x
  have hu : Touches { regs := true, chans := true, faults := true, seq := true, obs := true, aon := true } s u :=
      (touches_leaveSafe _).mono rfl
  have hv : Touches { regs := true, chans := true, faults := true, seq := true, obs := true, aon := true } s v :=
      .comp (.forEach (fun _ _ => (touches_clearFaults _ _ _).mono rfl) _ _) <| hu
  have hw : Touches { regs := true, chans := true, faults := true, seq := true, obs := true, aon := true } s w :=
      (touches_satAdd _ _ _ _ _).after rfl <| hv
  have hx : Touches { regs := true, chans := true, faults := true, seq := true, obs := true, aon := true } s x :=
      (touches_aon _ _).after rfl <| hw
  exact (touches_arriveMode _ _).after rfl <| hx

end Sys2Proof.Laws
end

section
/-! SUPPORT. The parts of the state that the operations of Machine/Moves touch. -/

namespace Sys2Proof.Laws

open Sys2Proof.Machine Sys2Proof.Safety

theorem touches_mapMover (s f) : Touches { seq := true } s (mapMover s f) := by
  unfold mapMover
  refine .ite ?_ ((touches_mapRun _ _).mono rfl)
  extract_lets _
  exact (touches_seq _ _).mono rfl

theorem touches_movePhase (s k) : Touches { seq := true } s (movePhase s k) :=
  (touches_mapMover _ _).mono rfl

theorem touches_onSlices (s l f) : Touches { slices := true } s (onSlices s l f) :=
  (.foldl (fun _ _ => (touches_setSlice _ _ _).mono rfl) _ _)

theorem touches_releaseSlices (s) : Touches { slices := true } s (releaseSlices s) :=
  (touches_onSlices _ _ _).mono rfl

theorem touches_endMove (s data) : Touches { regs := true, slices := true, twin := true, seq := true } s (endMove s data) := by
  unfold endMove
  extract_lets u _
  have hu : Touches { regs := true, slices := true, twin := true, seq := true } s u := (touches_releaseSlices _).mono rfl
  exact .ite ((touches_seq _ _).after rfl <| hu) ((touches_finishCmd _ _ _).after rfl <| hu)

theorem touches_engineBack (s n) : Touches { slices := true } s (engineBack s n) :=
  (touches_setSlice _ _ _).mono rfl

theorem touches_copySeries (s a b sources) : Touches { slices := true } s (copySeries s a b sources) := by
  unfold copySeries
  exact (.foldl (fun s _ => by
      extract_lets _ _
      exact (touches_setSlice _ _ _).mono rfl) _ _)

theorem touches_unfence (s n) : Touches { regs := true, slices := true } s (unfence s n) := by
  unfold unfence
  extract_lets u
  have hu : Touches { regs := true, slices := true } s u := (touches_copySeries _ _ _ _).mono rfl
  exact (touches_setBit _ _ _ _).after rfl <| (touches_setBit _ _ _ _).after rfl <| (touches_setFld _ _ _ _ _).after rfl <| hu

theorem touches_leaveService (s n) : Touches { slices := true } s (leaveService s n) :=
  (touches_setSlice _ _ _).mono rfl

theorem touches_resetSliceRegs (s n) : Touches { regs := true, faults := true } s (resetSliceRegs s n) := by
  unfold resetSliceRegs
  extract_lets _ _ _ u _ v
  have hu : Touches { regs := true, faults := true } s u := (touches_resetRegs _ _ _).mono rfl
  have hv : Touches { regs := true, faults := true } s v := (touches_faults _ _).after rfl <| hu
  exact .ite ((touches_setReg _ _ _).after rfl <| (touches_setReg _ _ _).after rfl <| hv) hv

theorem touches_switchOn (s n) : Touches { regs := true, slices := true, faults := true } s (switchOn s n) :=
  (touches_setBit _ _ _ _).after rfl <| (touches_setSlice _ _ _).after rfl <| (touches_resetSliceRegs _ _).mono rfl

theorem touches_serviceOn (s n) : Touches (reaction.plus { dram := true }) s (serviceOn s n) := by
  unfold serviceOn
  extract_lets u _ v
  have hu : Touches (reaction.plus { dram := true }) s u := (touches_unfence _ _).after rfl <| (touches_switchOn _ _).mono rfl
  have hv : Touches (reaction.plus { dram := true }) s v := (touches_setSlice _ _ _).after rfl <| hu
  exact (touches_pinAll _).after rfl <| .comp (.foldl (fun _ _ => (touches_recheckTable _ _ _).after rfl <|
      (touches_wakeChan _ _).after rfl <| (touches_setBit _ _ _ _).mono rfl) _ _) <| hv

theorem touches_afterWait (s r) : Touches (reaction.plus { dram := true }) s (afterWait s r) := by
  unfold afterWait
  extract_lets u
  have hu : Touches (reaction.plus { dram := true }) s u := (touches_pauseCmd _).mono rfl
  exact .ite ((touches_movePhase _ _).after rfl <| hu) (.ite ((touches_movePhase _ _).after rfl <|
      .ite ((touches_switchOn _ _).after rfl <| hu) (hu)) (.ite ((touches_endMove _ _).after rfl <|
          (touches_serviceOn _ _).after rfl <| hu) ((touches_movePhase _ _).after rfl <|
              (touches_leaveService _ _).after rfl <| hu)))

theorem touches_moveTimed (s r) : Touches { seq := true } s (moveTimed s r) :=
  .ite (.refl _) ((touches_waitCmd _).mono rfl)

theorem touches_moveWait (s r) : Touches (reaction.plus { dram := true }) s (moveWait s r) := by
  unfold moveWait
  extract_lets _ u
  have hu : Touches (reaction.plus { dram := true }) s u :=
      .ite (.ite ((touches_moveTimed _ _).mono rfl) ((touches_movePhase _ _).after rfl <|
          (touches_onSlices _ _ _).mono rfl)) (.refl _)
  split
  · exact .ite (.ite ((touches_moveTimed _ _).after rfl <| hu) ((touches_afterWait _ _).after rfl <| hu)) hu
  · exact hu

theorem touches_switchPair (s r) : Touches { regs := true, slices := true } s (switchPair s r) :=
  .ite ((touches_setBit _ _ _ _).mono rfl) ((touches_setSlice _ _ _).mono rfl)

theorem touches_accordTransit (s r) : Touches { regs := true } s (accordTransit s r) :=
  .ite ((touches_startTransit _ _).mono rfl) (.refl _)

theorem touches_moveStart (s r) : Touches (reaction.plus { dram := true }) s (moveStart s r) :=
  (touches_moveWait _ _).after rfl <| (touches_movePhase _ _).after rfl <| (touches_onSlices _ _ _).after rfl <|
      (touches_accordTransit _ _).mono rfl

theorem touches_dropWalks (s p) : Touches { slices := true } s (dropWalks s p) :=
  (.foldl (fun _ _ => (touches_setSlice _ _ _).mono rfl) _ _)

theorem touches_thinCrowds (s t p) : Touches (reaction.plus { dram := true }) s (thinCrowds s t p) := by
  unfold thinCrowds
  extract_lets _ _
  refine .foldl (fun s a => ?_) _ _
  extract_lets own best u
  have hu : Touches (reaction.plus { dram := true }) s u := .foldl (fun _ _ => (touches_retryMark _ _ _ _).mono rfl) _ _
  clear_value best
  split
  · split
    · exact (touches_moveVictim _ _ _ _ _ _).after rfl <| hu
    · exact hu
  · exact hu

theorem touches_placeEntry (s x) : Touches { regs := true, slices := true } s (placeEntry s x) := by
  unfold placeEntry
  extract_lets _ _
  split
  · exact (touches_wayWrite _ _ _ _ _).mono rfl
  · exact .refl _

/-- The address decode is hidden behind a name, or the kernel would evaluate it. -/
theorem touches_placeTracker (a x) : Touches { regs := true, spine := true, slices := true, obs := true } a.1 (placeTracker a x).1 := by
  obtain ⟨place, hp⟩ : ∃ f, f = @placeTracker := ⟨_, rfl⟩
  obtain ⟨home, hh⟩ : ∃ f, f = homeOf := ⟨_, rfl⟩
  rw [← hp]
  delta placeTracker at hp
  rw [← hh] at hp
  subst hp
  obtain ⟨s, l⟩ := a
  obtain ⟨n, e⟩ := x
  dsimp only
  split
  · exact .fst <| (touches_obs _ _).after rfl <| (touches_setSlice _ _ _).mono rfl
  · have hu : Touches { regs := true, spine := true, slices := true, obs := true } s (sampleClose s (32 + n) e.src e.req.txn) :=
      (touches_sampleClose _ _ _ _).mono rfl
    split
    · exact .fst <| (touches_sendRetry _ _ _ _ _ _).after rfl hu
    · exact .fst <| (touches_refuseAdmission _ _ _ _ _ _ _).after rfl hu
    · exact hu

theorem touches_placeRecord (ids s x) : Touches { slices := true } s (placeRecord ids s x) := by
  unfold placeRecord
  split
  · extract_lets _ _
    exact (touches_addRecord _ _ _).mono rfl

theorem touches_placeHold (s x) : Touches { slices := true } s (placeHold s x) :=
  (touches_setSlice _ _ _).mono rfl

theorem touches_restartScans (s p) : Touches { slices := true } s (restartScans s p) := by
  unfold restartScans
  exact touches_onSlices _ _ _

theorem touches_relocate (s r) : Touches { regs := true, spine := true, slices := true, obs := true } s (relocate s r) := by
  have hp := touches_placeTracker
  obtain ⟨place, h⟩ : ∃ f, f = placeTracker := ⟨_, rfl⟩
  unfold relocate
  rw [← h] at hp ⊢
  extract_lets p l es ts rs hs top u v
  have hu : Touches { regs := true, spine := true, slices := true, obs := true } s u := (touches_onSlices _ _ _).mono rfl
  have hv : Touches { regs := true, spine := true, slices := true, obs := true } s v :=
    .comp (.foldl (fun _ _ => (touches_placeEntry _ _).mono rfl) _ _) <| (touches_switchPair _ _).after rfl <| hu
  have hw : Touches { regs := true, spine := true, slices := true, obs := true } s (ts.foldl place (v, [])).1 :=
    .comp (.foldl_fst (fun _ _ => hp _ _) _ _ _) hv
  split
  next w ids heq =>
  exact (touches_restartScans _ _).after rfl <| .comp (.foldl (fun _ _ => (touches_placeHold _ _).mono rfl) _ _) <|
    .comp (.foldl (fun _ _ => (touches_placeRecord _ _ _).mono rfl) _ _) (.of_pair heq hw)

theorem touches_accordNext (s r) : Touches (reaction.plus { dram := true }) s (accordNext s r) := by
  unfold accordNext
  split
  · extract_lets u
    have hu : Touches (reaction.plus { dram := true }) s u := (touches_mapMover _ _).mono rfl
    exact (touches_moveStart _ _).after rfl <| hu
  · exact (touches_endMove _ _).mono rfl

theorem touches_accordMoved (s r) : Touches (reaction.plus { dram := true }) s (accordMoved s r) := by
  unfold accordMoved
  extract_lets u _
  have hu : Touches (reaction.plus { dram := true }) s u := (touches_onSlices _ _ _).mono rfl
  exact .ite ((touches_endMove _ _).after rfl <| hu) (.ite ((touches_accordNext _ _).after rfl <|
      hu) ((touches_movePhase _ _).after rfl <| (touches_loadMode _ _).after rfl <| hu))

theorem touches_powerMoved (s r) : Touches (reaction.plus { dram := true }) s (powerMoved s r) :=
  .ite ((touches_endMove _ _).after rfl <| (touches_pinAll _).after rfl <| (touches_unfence _ _).after rfl <|
      (touches_engineBack _ _).mono rfl) ((touches_movePhase _ _).after rfl <| (touches_onSlices _ _ _).mono rfl)

theorem touches_entryMoveEffect (s) : Touches (reaction.plus { dram := true }) s (entryMoveEffect s) := by
  unfold entryMoveEffect
  refine .ite (.refl _) ?_
  extract_lets u
  have hu : Touches (reaction.plus { dram := true }) s u := by
    unfold u
    split
    · exact (touches_moveWait _ _).mono rfl
    · exact .refl _
  split
  · refine .ite ?_ hu
    extract_lets _ v w x y z
    have hv : Touches (reaction.plus { dram := true }) s v := (touches_dropWalks _ _).after rfl <| hu
    have hw : Touches (reaction.plus { dram := true }) s w := (touches_switchPair _ _).after rfl <| hv
    have hx : Touches (reaction.plus { dram := true }) s x := (touches_thinCrowds _ _ _).after rfl <| hv
    have hy : Touches (reaction.plus { dram := true }) s y := .ite ((touches_flushCaches _ _).after rfl <| hx) (hx)
    have hz : Touches (reaction.plus { dram := true }) s z := (touches_relocate _ _).after rfl <| hy
    exact .ite (.ite ((touches_accordMoved _ _).after rfl <| hz) ((touches_powerMoved _ _).after rfl <| hz)) hy
  · exact hu

theorem touches_emptyArray (s n) : Touches (reaction.plus { dram := true }) s (emptyArray s n) :=
  (touches_endWays _ _ _).mono rfl

theorem touches_stopChan (s c) : Touches { regs := true, chans := true, obs := true, aon := true } s (stopChan s c) :=
  (touches_setFld _ _ _ _ _).after rfl <| (touches_setBit _ _ _ _).after rfl <| (touches_issuePending _ _).mono rfl

theorem touches_passRecords (s n k) : Touches { slices := true } s (passRecords s n k) := by
  unfold passRecords
  extract_lets _ _ u
  have hu : Touches { slices := true } s u := (touches_setSlice _ _ _).mono rfl
  exact .comp (.foldl (fun _ _ => (touches_addRecord _ _ _).mono rfl) _ _) <| hu

theorem touches_fenceOff (s r) : Touches reaction s (fenceOff s r) := by
  unfold fenceOff
  extract_lets _ u v w
  have hu : Touches reaction s u := .ite (.refl _) ((touches_checkReadyFull _).after rfl <|
      (touches_sleepChan _ _).after rfl <| (touches_sleepChan _ _).after rfl <| (touches_stopChan _ _).after rfl <|
          (touches_stopChan _ _).mono rfl)
  have hv : Touches reaction s v := (touches_setBit _ _ _ _).after rfl <| (touches_setBit _ _ _ _).after rfl <| hu
  have hw : Touches reaction s w := (touches_passRecords _ _ _).after rfl <| (touches_redirectQueued _ _).after rfl <| hv
  exact (touches_movePhase _ _).after rfl <| (touches_copySeries _ _ _ _).after rfl <| hw

theorem touches_sliceDrainedEffect (s n) : Touches (reaction.plus { dram := true }) s (sliceDrainedEffect s n) := by
  unfold sliceDrainedEffect
  refine .ite (.refl _) ?_
  split
  · refine .ite ?_ (.refl _)
    extract_lets _ u v
    have hu : Touches (reaction.plus { dram := true }) s u := .ite (.refl _) ((touches_emptyArray _ _).mono rfl)
    have hv : Touches (reaction.plus { dram := true }) s v := (touches_flushCaches _ _).after rfl <| hu
    exact .ite (.ite hv ((touches_fenceOff _ _).after rfl <| hv)) hu
  · exact .refl _

theorem touches_sliceOffEffect (s n) : Touches (reaction.plus { dram := true }) s (sliceOffEffect s n) := by
  unfold sliceOffEffect
  refine .ite (.refl _) ?_
  extract_lets _ _ u v
  have hu : Touches (reaction.plus { dram := true }) s u := (touches_setSlice _ _ _).mono rfl
  have hv : Touches (reaction.plus { dram := true }) s v := (touches_dropCounts _ _).after rfl <|
      (touches_setBit _ _ _ _).after rfl <| hu
  split
  · exact .ite ((touches_endMove _ _).after rfl <| .ite ((touches_pinAll _).after rfl <|
      hv) ((touches_grantLeft _ _ _).after rfl <| hv)) (.refl _)
  · exact .refl _

theorem touches_degradeStep (s) : Touches (reaction.plus { dram := true }) s (degradeStep s) := by
  unfold degradeStep
  extract_lets _ u v
  have hu : Touches (reaction.plus { dram := true }) s u :=
      (.forEach (fun _ _ => .ite ((touches_endWays _ _ _).mono rfl) (.refl _)) _ _)
  have hv : Touches (reaction.plus { dram := true }) s v := .comp (.foldl (fun _ _ => (touches_flushCaches _ _).mono rfl) _ _) <| hu
  exact .ite (.ite hv ((touches_setPhase _ _).after rfl <| (touches_loadMode _ _).after rfl <|
      (touches_checkReadyFull _).after rfl <| .comp (.foldl (fun _ _ => (touches_stopChan _ _).mono rfl) _ _) <| hv)) hu

theorem touches_setModeEnd (s) :
    Touches { regs := true, chans := true, twin := true, seq := true, obs := true, aon := true } s (setModeEnd s) :=
  .ite ((touches_finishCmd _ _ _).after rfl <| (touches_setFld _ _ _ _ _).after rfl <|
      (touches_setBit _ _ _ _).mono rfl) (.ite (.refl _) ((touches_finishCmd _ _ _).after rfl <|
          (touches_reachMode _ _).after rfl <| (touches_leaveSafe _).mono rfl))

theorem touches_accordModeEnd (s r) : Touches (reaction.plus { dram := true }) s (accordModeEnd s r) := by
  unfold accordModeEnd
  refine .ite (.refl _) ?_
  extract_lets u
  have hu : Touches (reaction.plus { dram := true }) s u := (touches_reachMode _ _).mono rfl
  exact (touches_accordNext _ _).after rfl <| hu

theorem touches_modeTransitionEffect (s) : Touches (reaction.plus { dram := true }) s (modeTransitionEffect s) := by
  unfold modeTransitionEffect
  refine .ite ?_ (.refl _)
  split
  · refine .ite ((touches_accordModeEnd _ _).mono rfl) ?_
    refine .ite ?_ (.refl _)
    extract_lets u
    have hu : Touches (reaction.plus { dram := true }) s u := .ite ((touches_degradeStep _).mono rfl) (.refl _)
    split
    · exact .ite ((touches_setModeEnd _).after rfl <| hu) hu
    · exact hu
  · exact .refl _

end Sys2Proof.Laws
end

section
/-! SUPPORT. The parts of the state that the operations of Machine/TwinLink touch. -/

namespace Sys2Proof.Laws

open Sys2Proof.Machine Sys2Proof.Safety

theorem touches_cfgStore (s a v) : Touches { twin := true } s (cfgStore s a v) :=
  (.forEach (fun _ _ => (touches_setCfgByte _ _ _).mono rfl) _ _)

theorem touches_cfgPut (s a v) : Touches { twin := true } s (cfgPut s a v) :=
  (touches_cfgStore _ _ _).mono rfl

theorem touches_cfgSet (s a i) : Touches { twin := true } s (cfgSet s a i) :=
  (touches_cfgPut _ _ _).mono rfl

theorem touches_cfgWrite (s a be v) : Touches { twin := true } s (cfgWrite s a be v) :=
  (touches_cfgPut _ _ _).mono rfl

theorem touches_aerCorr (s i ur) : Touches { twin := true } s (aerCorr s i ur) := by
  unfold aerCorr
  extract_lets u
  have hu : Touches { twin := true } s u := (touches_cfgSet _ _ _).after rfl <| (touches_cfgSet _ _ _).mono rfl
  exact .ite ((touches_twinOut _ _).after rfl <| hu) hu

theorem touches_aerLog (s i h) : Touches { twin := true, free := true } s (aerLog s i h) := by
  unfold aerLog
  refine .ite ?_ (.refl _)
  extract_lets u
  have hu : Touches { twin := true, free := true } s u := (touches_cfgPut _ _ _).mono rfl
  exact .comp (.forEach (fun s _ => by
      split
      · next _ v heq =>
        have hv : Touches { twin := true, free := true } s v := .of_snd heq ((touches_takeFree _).mono rfl)
        split
        · exact (touches_cfgPut _ _ _).after rfl <| hv) _ _) <| hu

theorem touches_errMessage (s fatal ur) : Touches { twin := true } s (errMessage s fatal ur) :=
  .ite ((touches_twinOut _ _).after rfl <| .ite ((touches_cfgSet _ _ _).mono rfl) (.refl _)) (.refl _)

theorem touches_aerUncorr (s i h) : Touches { twin := true, free := true } s (aerUncorr s i h) := by
  unfold aerUncorr
  extract_lets u _ v w
  have hu : Touches { twin := true, free := true } s u := (touches_cfgSet _ _ _).after rfl <| (touches_aerLog _ _ _).mono rfl
  have hv : Touches { twin := true, free := true } s v := (touches_cfgSet _ _ _).after rfl <| hu
  have hw : Touches { twin := true, free := true } s w := .ite ((touches_cfgSet _ _ _).after rfl <| hv) (hv)
  exact .ite hw ((touches_errMessage _ _ _).after rfl <| hw)

theorem touches_aerAdvisory (s i h) : Touches { twin := true, free := true } s (aerAdvisory s i h) := by
  unfold aerAdvisory
  refine .ite ((touches_aerUncorr _ _ _).mono rfl) ?_
  extract_lets u v
  have hu : Touches { twin := true, free := true } s u := .ite ((touches_cfgSet _ _ _).mono rfl) (.refl _)
  have hv : Touches { twin := true, free := true } s v := .ite (hu) ((touches_cfgSet _ _ _).after rfl <|
      (touches_aerLog _ _ _).after rfl <| hu)
  exact (touches_aerCorr _ _ _).after rfl <| hv

theorem touches_twinErr (s k tag rid) : Touches { regs := true } s (twinErr s k tag rid) :=
  (touches_raiseErr _ _ _ _ _).mono rfl

theorem touches_mirrorBreak (s) : Touches (reaction.plus { dram := true, mirror := true, free := true }) s (mirrorBreak s) :=
  (touches_pumpAll _).after rfl <| (touches_mwBreakAll _ _).after rfl <| (touches_mirrorDiscard _ _).mono rfl

theorem touches_mirrorRecover (s) : Touches { regs := true } s (mirrorRecover s) :=
  .ite ((.forEach (fun _ _ => .ite ((touches_mwMove _ _ _).mono rfl) (.refl _)) _ _)) (.refl _)

theorem touches_busMasterLost (s) : Touches { regs := true } s (busMasterLost s) :=
  (.forEach (fun _ _ => .ite ((touches_mwMove _ _ _).mono rfl) (.refl _)) _ _)

theorem touches_abandonReads (s) : Touches { mirror := true, twin := true } s (abandonReads s) :=
  (touches_mirror_twin _ _ _).mono rfl

theorem touches_muteJobs (s) : Touches { twin := true } s (muteJobs s) :=
  (touches_twin _ _).mono rfl

theorem touches_clearJobs (s) : Touches { twin := true } s (clearJobs s) :=
  (touches_twin _ _).mono rfl

theorem touches_linkReset (s) : Touches (reaction.plus { dram := true, mirror := true, free := true }) s (linkReset s) := by
  unfold linkReset
  extract_lets u v _
  have hu : Touches (reaction.plus { dram := true, mirror := true, free := true }) s u := (touches_mirrorBreak _).after rfl <|
      (touches_abandonReads _).mono rfl
  have hv : Touches (reaction.plus { dram := true, mirror := true, free := true }) s v := (touches_clearJobs _).after rfl <|
      (touches_muteJobs _).after rfl <| (touches_resetWindows _).after rfl <| hu
  exact (touches_twin _ _).after rfl <| hv

theorem touches_flrEffect (s) : Touches (reaction.plus { dram := true, mirror := true, free := true }) s (flrEffect s) := by
  unfold flrEffect
  refine .ite ?_ (.refl _)
  extract_lets _ u v _ w
  have hu : Touches (reaction.plus { dram := true, mirror := true, free := true }) s u := (touches_mirrorBreak _).after rfl <|
      (touches_abandonReads _).mono rfl
  have hv : Touches (reaction.plus { dram := true, mirror := true, free := true }) s v := (touches_clearJobs _).after rfl <|
      (touches_muteJobs _).after rfl <| (touches_resetWindows _).after rfl <| hu
  have hw : Touches (reaction.plus { dram := true, mirror := true, free := true }) s w := (touches_twin _ _).after rfl <| hv
  exact (touches_setCfgByte _ _ _).after rfl <| hw

theorem touches_flrDoneEffect (s) : Touches { twin := true } s (flrDoneEffect s) :=
  (touches_twin _ _).mono rfl

theorem touches_perstAssertEffect (s) :
    Touches (reaction.plus { dram := true, mirror := true, free := true }) s (perstAssertEffect s) := by
  unfold perstAssertEffect
  refine .ite (.refl _) ?_
  extract_lets _ u
  have hu : Touches (reaction.plus { dram := true, mirror := true, free := true }) s u := (touches_twin _ _).mono rfl
  exact .ite hu (.ite ((touches_linkReset _).after rfl <| hu) ((touches_resetWindows _).after rfl <| hu))

theorem touches_trainStartEffect (s) : Touches { twin := true } s (trainStartEffect s) := by
  unfold trainStartEffect
  refine .ite ?_ (.refl _)
  extract_lets _
  exact (touches_twin _ _).mono rfl

theorem touches_linkUpEffect (s speed width) : Touches { regs := true, twin := true } s (linkUpEffect s speed width) := by
  unfold linkUpEffect
  refine .ite ?_ (.refl _)
  extract_lets _ u
  have hu : Touches { regs := true, twin := true } s u := (touches_twin _ _).mono rfl
  exact (touches_mirrorRecover _).after rfl <| hu

theorem touches_linkDownEffect (s) : Touches (reaction.plus { dram := true, mirror := true, free := true }) s (linkDownEffect s) :=
  .ite ((touches_linkReset _).mono rfl) (.refl _)

theorem touches_enterD3 (s) : Touches (reaction.plus { dram := true, mirror := true, free := true }) s (enterD3 s) := by
  unfold enterD3
  refine .ite (.refl _) ?_
  extract_lets u _
  have hu : Touches (reaction.plus { dram := true, mirror := true, free := true }) s u := (touches_mirrorBreak _).mono rfl
  exact (touches_twin _ _).after rfl <| hu

theorem touches_leaveD3 (s) : Touches { regs := true, twin := true } s (leaveD3 s) :=
  (touches_mirrorRecover _).after rfl <| (touches_twin _ _).mono rfl

theorem touches_d3Effect (s) : Touches (reaction.plus { dram := true, mirror := true, free := true }) s (d3Effect s) :=
  .ite ((touches_enterD3 _).after rfl <| (touches_setCfgByte _ _ _).mono rfl) (.refl _)

theorem touches_bmeClearEffect (s) : Touches { regs := true, twin := true } s (bmeClearEffect s) :=
  .ite ((touches_busMasterLost _).after rfl <| (touches_setCfgByte _ _ _).mono rfl) (.refl _)

theorem touches_l1Effect (s) : Touches { twin := true } s (l1Effect s) :=
  .ite ((touches_twin _ _).mono rfl) (.refl _)

theorem touches_marginAnswer (s a) : Touches { twin := true, free := true } s (marginAnswer s a) := by
  unfold marginAnswer
  extract_lets _ _
  split
  · next _ u heq =>
    have hu : Touches { twin := true, free := true } s u := .of_snd heq ((touches_takeFree _).mono rfl)
    extract_lets _
    exact (touches_cfgPut _ _ _).after rfl <| hu

theorem touches_cfgActs (s a be v bme) :
    Touches (reaction.plus { dram := true, mirror := true, free := true }) s (cfgActs s a be v bme) :=
  .ite (.ite ((touches_busMasterLost _).mono rfl) (.ite ((touches_mirrorRecover _).mono rfl) (.refl _))) (.ite (.ite
      ((touches_enterD3 _).mono rfl) (.ite ((touches_leaveD3 _).mono rfl) (.refl _))) (.ite ((touches_flrEffect _).mono rfl)
          (.ite ((touches_marginAnswer _ _).mono rfl) (.refl _))))

theorem touches_configEffect (s write addr be data) :
    Touches (reaction.plus { dram := true, mirror := true, free := true }) s (configEffect s write addr be data) := by
  unfold configEffect
  refine .ite (.refl _) ?_
  refine .ite ((touches_twinOut _ _).mono rfl) ?_
  extract_lets _ _ _ _
  exact .ite ((touches_twinOut _ _).after rfl <| (touches_cfgActs _ _ _ _ _).after rfl <|
      (touches_cfgWrite _ _ _ _).mono rfl) ((touches_twinOut _ _).mono rfl)

theorem touches_linkEnEffect (s en) :
    Touches (reaction.plus { dram := true, mirror := true, free := true }) s (linkEnEffect s en) := by
  unfold linkEnEffect
  extract_lets _ u
  have hu : Touches (reaction.plus { dram := true, mirror := true, free := true }) s u := (touches_setBit _ _ _ _).mono rfl
  exact .ite (.ite ((touches_twinOn _).after rfl <| hu) hu) (.ite ((touches_linkReset _).after rfl <| hu) hu)

theorem touches_twinOffEffect (s) : Touches { regs := true, mirror := true, twin := true } s (twinOffEffect s) := by
  unfold twinOffEffect
  refine .ite ?_ (.refl _)
  extract_lets u v _
  have hu : Touches { regs := true, mirror := true, twin := true } s u :=
      (.foldl (fun _ _ => (touches_mirrorTake _ _).mono rfl) _ _)
  have hv : Touches { regs := true, mirror := true, twin := true } s v := (touches_setBit _ _ _ _).after rfl <|
      (touches_setBit _ _ _ _).after rfl <| hu
  exact (touches_twin _ _).after rfl <| hv

theorem touches_drivePower (s) : Touches { regs := true, twin := true, pins := true } s (drivePower s) :=
  (touches_setBit _ _ _ _).after rfl <| (touches_twin_pins _ _ _).mono rfl

theorem touches_surpriseRemoval (s) :
    Touches (reaction.plus { dram := true, mirror := true, free := true }) s (surpriseRemoval s) := by
  unfold surpriseRemoval
  extract_lets u _ v
  have hu : Touches (reaction.plus { dram := true, mirror := true, free := true }) s u :=
      (touches_setFld _ _ _ _ _).after rfl <| (touches_setBit _ _ _ _).mono rfl
  have hv : Touches (reaction.plus { dram := true, mirror := true, free := true }) s v := (touches_mirrorBreak _).after rfl <|
      (touches_twin _ _).after rfl <| hu
  exact .ite ((touches_pumpAll _).after rfl <| (touches_partnerLost _).after rfl <| hv) hv

theorem touches_presenceEffect (s now) :
    Touches (reaction.plus { dram := true, mirror := true, pins := true, free := true }) s (presenceEffect s now) := by
  unfold presenceEffect
  refine .ite ?_ (.refl _)
  extract_lets _ u
  have hu : Touches (reaction.plus { dram := true, mirror := true, pins := true, free := true }) s u :=
      (touches_setBit _ _ _ _).after rfl <| (touches_setBit _ _ _ _).mono rfl
  exact (touches_drivePower _).after rfl <| .ite ((touches_surpriseRemoval _).after rfl <| hu) (hu)

theorem touches_attentionEffect (s) : Touches { regs := true, twin := true } s (attentionEffect s) :=
  .ite ((touches_wakePme _).after rfl <| (touches_setBit _ _ _ _).mono rfl) (.refl _)

theorem touches_blinkEffect (s) : Touches { twin := true } s (blinkEffect s) := by
  unfold blinkEffect
  refine .ite ?_ (.refl _)
  extract_lets _
  exact (touches_twin _ _).mono rfl

theorem touches_faultBlinkEffect (s) : Touches { twin := true } s (faultBlinkEffect s) := by
  unfold faultBlinkEffect
  refine .ite ?_ (.refl _)
  extract_lets _
  exact (touches_twin _ _).mono rfl

end Sys2Proof.Laws
end

section
/-! SUPPORT. The parts of the state that the operations of Machine/Twin touch. -/

namespace Sys2Proof.Laws

open Sys2Proof.Machine Sys2Proof.Safety

theorem touches_activeEnables (s) : Touches { regs := true } s (activeEnables s) :=
  (touches_setFld _ _ _ _ _).mono rfl

theorem touches_commitEffect (s mask) : Touches { regs := true } s (commitEffect s mask) := by
  unfold commitEffect
  refine .ite (.refl _) ?_
  refine .ite ((touches_setBit _ _ _ _).mono rfl) ?_
  extract_lets u
  have hu : Touches { regs := true } s u :=
      (.forEach (fun _ _ => .ite ((.forEach (fun _ _ => (touches_setReg _ _ _).mono rfl) _ _)) (.refl _)) _ _)
  exact (touches_activeEnables _).after rfl <| hu

theorem touches_answerUr (s write rid tag h) :
    Touches { regs := true, twin := true, free := true } s (answerUr s write rid tag h) := by
  unfold answerUr
  extract_lets u
  have hu : Touches { regs := true, twin := true, free := true } s u := (touches_twinErr _ _ _ _).mono rfl
  exact .ite ((touches_aerUncorr _ _ _).after rfl <| hu) ((touches_aerAdvisory _ _ _).after rfl <|
      (touches_twinOut _ _).after rfl <| hu)

theorem touches_targetAbort (s) : Touches { twin := true } s (targetAbort s) :=
  (touches_cfgSet _ _ _).mono rfl

theorem touches_answerCa (s write rid tag h) : Touches { twin := true, free := true } s (answerCa s write rid tag h) := by
  unfold answerCa
  extract_lets u
  have hu : Touches { twin := true, free := true } s u := (touches_targetAbort _).mono rfl
  exact .ite ((touches_aerUncorr _ _ _).after rfl <| hu) ((touches_aerAdvisory _ _ _).after rfl <|
      (touches_twinOut _ _).after rfl <| hu)

theorem touches_lineRefused (s tag rid h) : Touches { regs := true, twin := true, free := true } s (lineRefused s tag rid h) :=
  (touches_aerUncorr _ _ _).after rfl <| (touches_targetAbort _).after rfl <| (touches_twinErr _ _ _ _).mono rfl

theorem touches_acceptTlp (s write t w) : Touches { twin := true } s (acceptTlp s write t w) :=
  .ite (.refl _) ((touches_twin _ _).mono rfl)

theorem touches_inboundTlp (s write t) : Touches { regs := true, twin := true, free := true } s (inboundTlp s write t) := by
  unfold inboundTlp
  extract_lets _
  refine .ite ((touches_answerUr _ _ _ _ _).mono rfl) ?_
  split
  · exact (touches_answerUr _ _ _ _ _).mono rfl
  · exact .ite ((touches_answerCa _ _ _ _ _).after rfl <|
      (touches_twinErr _ _ _ _).mono rfl) (.ite (.ite ((touches_lineRefused _ _ _ _).mono rfl)
          ((touches_answerCa _ _ _ _ _).mono rfl)) ((touches_acceptTlp _ _ _ _).mono rfl))

theorem touches_notePoison (s t) : Touches { regs := true, twin := true, free := true } s (notePoison s t) :=
  (touches_aerAdvisory _ _ _).after rfl <| (touches_twinErr _ _ _ _).after rfl <| (touches_cfgSet _ _ _).mono rfl

theorem touches_memWriteEffect (s t) : Touches { regs := true, twin := true, free := true } s (memWriteEffect s t) :=
  .ite (.refl _) ((touches_inboundTlp _ _ _).after rfl <| .ite ((touches_notePoison _ _).mono rfl) (.refl _))

theorem touches_memReadEffect (s t) : Touches { regs := true, twin := true, free := true } s (memReadEffect s t) :=
  .ite (.refl _) ((touches_inboundTlp _ _ _).mono rfl)

theorem touches_tlpErrorEffect (s e) : Touches (reaction.plus { free := true }) s (tlpErrorEffect s e) := by
  unfold tlpErrorEffect
  refine .ite (.refl _) ?_
  split
  · exact (touches_memWriteEffect _ _).mono rfl
  · exact (touches_answerUr _ _ _ _ _).mono rfl
  · exact (touches_report _ _ _).after rfl <| (touches_aerUncorr _ _ _).after rfl <| (touches_twinErr _ _ _ _).mono rfl
  · exact .ite ((touches_report _ _ _).after rfl <| (touches_aerUncorr _ _ _).after rfl <|
      (touches_twinErr _ _ _ _).mono rfl) (.refl _)

theorem touches_bar0Effect (s write off v) : Touches { regs := true, twin := true, free := true } s (bar0Effect s write off v) := by
  unfold bar0Effect
  refine .ite (.refl _) ?_
  refine .ite ((touches_answerUr _ _ _ _ _).mono rfl) ?_
  split
  · extract_lets _
    exact (touches_twin _ _).mono rfl
  · exact (touches_twinOut _ _).mono rfl
  · exact .refl _
  · exact (touches_twinOut _ _).mono rfl
  · exact (touches_twinOut _ _).mono rfl
  · exact (touches_answerUr _ _ _ _ _).mono rfl

theorem touches_lineSend (s t) : Touches { spine := true, twin := true } s (lineSend s t) := by
  obtain ⟨home, hh⟩ : ∃ f, f = homeOf := ⟨_, rfl⟩
  obtain ⟨send, hs⟩ : ∃ f, f = @lineSend := ⟨_, rfl⟩
  rw [← hs]
  delta lineSend at hs
  rw [← hh] at hs
  subst hs
  beta_reduce
  extract_lets _ _ _ u
  have hu : Touches { spine := true, twin := true } s u := (touches_twin _ _).mono rfl
  split
  · exact (touches_twin _ _).mono rfl
  · extract_lets _ _ v
    have hv : Touches { spine := true, twin := true } s v := (touches_launch _ _ _ _).after rfl <| hu
    exact .ite ((touches_launch _ _ _ _).after rfl <| hv) hv

theorem touches_addTwinTxn (s t) : Touches { twin := true } s (addTwinTxn s t) :=
  (touches_twin _ _).mono rfl

theorem touches_setJob (s j) : Touches { twin := true } s (setJob s j) :=
  (touches_twin _ _).mono rfl

theorem touches_copierIssue (s txn) : Touches { spine := true, mirror := true, twin := true } s (copierIssue s txn) := by
  unfold copierIssue
  split
  · extract_lets _ _ u
    have hu : Touches { spine := true, mirror := true, twin := true } s u := (touches_mirror _ _).mono rfl
    split
    · extract_lets _ _
      exact (touches_addTwinTxn _ _).after rfl <| (touches_lineSend _ _).after rfl <| hu
  · exact .refl _

theorem touches_reissue (s t) : Touches { spine := true, twin := true } s (reissue s t) :=
  (touches_lineSend _ _).after rfl <| (touches_twin _ _).mono rfl

theorem touches_jobEnd (s j) : Touches { twin := true, free := true } s (jobEnd s j) := by
  unfold jobEnd
  extract_lets _ _ u _ v
  have hu : Touches { twin := true, free := true } s u := (touches_twin _ _).mono rfl
  have hv : Touches { twin := true, free := true } s v := .comp (.foldl (fun _ _ => (touches_twinOut _ _).mono rfl) _ _) <|
      .ite ((touches_targetAbort _).after rfl <| hu) (hu)
  exact .ite ((touches_aerAdvisory _ _ _).after rfl <| hv) hv

theorem touches_jobPart (s id p) : Touches { regs := true, twin := true, free := true } s (jobPart s id p) := by
  unfold jobPart
  split
  · exact .refl _
  · extract_lets u _ v
    have hu : Touches { regs := true, twin := true, free := true } s u := .ite ((touches_lineRefused _ _ _ _).mono rfl) (.refl _)
    have hv : Touches { regs := true, twin := true, free := true } s v := (touches_setJob _ _).after rfl <| hu
    exact .ite ((touches_jobEnd _ _).after rfl <| hv) hv

theorem touches_lineSafe (s) : Touches { regs := true, twin := true, free := true } s (lineSafe s) := by
  unfold lineSafe
  split
  · exact (touches_jobPart _ _ _).after rfl <| (touches_setJob _ _).mono rfl
  · exact .refl _

theorem touches_lineIssueEffect (s) :
    Touches { regs := true, spine := true, mirror := true, twin := true, free := true } s (lineIssueEffect s) := by
  unfold lineIssueEffect
  refine .ite (.refl _) ?_
  refine .ite ((touches_lineSafe _).mono rfl) ?_
  split
  · exact (touches_reissue _ _).mono rfl
  · split
    · exact .refl _
    · extract_lets _
      split
      · split
        · extract_lets _
          exact (touches_addTwinTxn _ _).after rfl <| (touches_lineSend _ _).after rfl <| (touches_setJob _ _).mono rfl
        · exact .refl _
      · exact .ite ((touches_copierIssue _ _).mono rfl) (.refl _)

theorem touches_copierLine (s w run pa d poison ok) : Touches { mirror := true } s (copierLine s w run pa d poison ok) := by
  unfold copierLine
  refine .ite ((touches_refillQueue _).mono rfl) ?_
  refine .ite ((touches_refillQueue _).after rfl <| (touches_copyStop _).mono rfl) ?_
  extract_lets _ _ u _ _
  have hu : Touches { mirror := true } s u := (touches_mirror _ _).mono rfl
  exact .ite hu ((touches_mirror _ _).after rfl <| hu)

theorem touches_lineEnds (s t err) : Touches { regs := true, mirror := true, twin := true, free := true } s (lineEnds s t err) := by
  unfold lineEnds
  extract_lets _ u _ _ _ v
  have hu : Touches { regs := true, mirror := true, twin := true, free := true } s u := (touches_twin _ _).mono rfl
  have hv : Touches { regs := true, mirror := true, twin := true, free := true } s v := by
    unfold v
    split
    · exact (touches_jobPart _ _ _).after rfl <| hu
    · exact hu
  split
  · exact (touches_copierLine _ _ _ _ _ _ _).after rfl <| hv
  · exact hv

theorem touches_lineSettle (s t) : Touches { regs := true, mirror := true, twin := true, free := true } s (lineSettle s t) := by
  unfold lineSettle
  split
  · extract_lets _
    exact .ite (.refl _) ((touches_lineEnds _ _ _).mono rfl)
  · exact .refl _

theorem touches_setTwinTxn (s t) : Touches { twin := true } s (setTwinTxn s t) :=
  (touches_twin _ _).mono rfl

theorem touches_takeWatched (s d) : Touches (reaction.plus { dram := true, mirror := true, free := true }) s (takeWatched s d) :=
  .ite ((touches_pumpAll _).after rfl <| (touches_heartbeatReceive _ _).mono rfl) (.refl _)

theorem touches_lineResponseEffect (s) :
    Touches (reaction.plus { dram := true, mirror := true, free := true }) s (lineResponseEffect s) := by
  unfold lineResponseEffect
  split
  · exact .refl _
  · extract_lets _ u
    have hu : Touches (reaction.plus { dram := true, mirror := true, free := true }) s u := (touches_twin _ _).mono rfl
    split
    · exact (touches_pumpAll _).after rfl <| (touches_mirrorTake _ _).after rfl <| hu
    · exact (touches_takeWatched _ _).after rfl <| hu
    · split
      · extract_lets _
        exact (touches_lineSettle _ _).after rfl <| (touches_setTwinTxn _ _).after rfl <| hu
      · exact hu

theorem touches_syncGiveUp (s) : Touches { mirror := true } s (syncGiveUp s) := by
  unfold syncGiveUp
  extract_lets u _ _
  have hu : Touches { mirror := true } s u := (touches_markLines _ _).mono rfl
  exact (touches_mirror _ _).after rfl <| hu

theorem touches_flushFailed (s tag) :
    Touches (reaction.plus { dram := true, mirror := true, free := true }) s (flushFailed s tag) := by
  unfold flushFailed
  refine .ite ?_ (.refl _)
  extract_lets u _ v
  have hu : Touches (reaction.plus { dram := true, mirror := true, free := true }) s u := (touches_syncGiveUp _).after rfl <|
      (touches_markLines _ _).mono rfl
  have hv : Touches (reaction.plus { dram := true, mirror := true, free := true }) s v := (touches_mirror _ _).after rfl <| hu
  exact (touches_pumpAll _).after rfl <| (touches_mwBreakAll _ _).after rfl <| hv

theorem touches_readFails (s tag) : Touches (reaction.plus { dram := true, mirror := true, free := true }) s (readFails s tag) := by
  unfold readFails
  extract_lets u
  have hu : Touches (reaction.plus { dram := true, mirror := true, free := true }) s u :=
      (touches_satAdd _ _ _ _ _).after rfl <| (touches_aerUncorr _ _ _).after rfl <| (touches_twinErr _ _ _ _).mono rfl
  exact (touches_report _ _ _).after rfl <| (touches_flushFailed _ _).after rfl <| hu

theorem touches_dropTag (s tag) : Touches { twin := true } s (dropTag s tag) :=
  (touches_twin _ _).mono rfl

theorem touches_absorbLate (s tag) : Touches { regs := true, obs := true } s (absorbLate s tag) :=
  (touches_logRecord _ _ _ _ _ _).after rfl <| (touches_satAdd _ _ _ _ _).after rfl <| (touches_twinErr _ _ _ _).mono rfl

theorem touches_parityNoted (s) : Touches { twin := true } s (parityNoted s) := by
  unfold parityNoted
  extract_lets u
  have hu : Touches { twin := true } s u := (touches_cfgSet _ _ _).mono rfl
  exact .ite ((touches_cfgSet _ _ _).after rfl <| hu) hu

theorem touches_completionEffect (s tag st) :
    Touches (reaction.plus { dram := true, mirror := true, free := true }) s (completionEffect s tag st) := by
  unfold completionEffect
  refine .ite (.refl _) ?_
  refine .ite ?_ ?_
  · extract_lets u
    have hu : Touches (reaction.plus { dram := true, mirror := true, free := true }) s u := (touches_dropTag _ _).mono rfl
    split
    · extract_lets v _
      have hv : Touches (reaction.plus { dram := true, mirror := true, free := true }) s v :=
          .ite ((touches_aerAdvisory _ _ _).after rfl <| (touches_twinErr _ _ _ _).after rfl <|
              (touches_parityNoted _).after rfl <| hu) (hu)
      exact .ite ((touches_pumpAll _).after rfl <| (touches_mirror _ _).after rfl <| hv) hv
    · exact (touches_readFails _ _).after rfl <| (touches_twinErr _ _ _ _).after rfl <| (touches_cfgSet _ _ _).after rfl <| hu
  · extract_lets _
    split
    · exact .ite ((touches_twin _ _).mono rfl) ((touches_absorbLate _ _).mono rfl)
    · exact .ite (.refl _) ((touches_aerAdvisory _ _ _).mono rfl)

theorem touches_cplTimeoutEffect (s tag) :
    Touches (reaction.plus { dram := true, mirror := true, free := true }) s (cplTimeoutEffect s tag) := by
  unfold cplTimeoutEffect
  extract_lets u _
  have hu : Touches (reaction.plus { dram := true, mirror := true, free := true }) s u := (touches_dropTag _ _).mono rfl
  split
  · exact .ite ((touches_readFails _ _).after rfl <| (touches_twin _ _).after rfl <| hu) (.refl _)
  · exact .refl _

theorem touches_quarantineEffect (s tag) : Touches { twin := true } s (quarantineEffect s tag) := by
  unfold quarantineEffect
  refine .ite ?_ (.refl _)
  extract_lets _
  exact (touches_twin _ _).mono rfl

theorem touches_beatLeft (s d) : Touches { regs := true, mirror := true } s (beatLeft s d) := by
  unfold beatLeft
  extract_lets _ u _
  have hu : Touches { regs := true, mirror := true } s u := (touches_mirror _ _).mono rfl
  exact .ite (.comp (.forEach (fun _ _ => .ite ((touches_mwMove _ _ _).mono rfl) (.refl _)) _ _) <| hu) hu

theorem touches_mirrorSendEffect (s) :
    Touches (reaction.plus { dram := true, mirror := true, free := true }) s (mirrorSendEffect s) := by
  unfold mirrorSendEffect
  refine .ite (.refl _) ?_
  split
  · exact .refl _
  · extract_lets _ _ u
    have hu : Touches (reaction.plus { dram := true, mirror := true, free := true }) s u := (touches_twinOut _ _).after rfl <|
        (touches_mirror _ _).mono rfl
    exact (touches_beatLeft _ _).after rfl <| hu
  · extract_lets _ _ _ v w _ x
    have hv : Touches (reaction.plus { dram := true, mirror := true, free := true }) s v :=
        .ite ((touches_cfgSet _ _ _).mono rfl) (.refl _)
    have hw : Touches (reaction.plus { dram := true, mirror := true, free := true }) s w := (touches_twinOut _ _).after rfl <| hv
    have hx : Touches (reaction.plus { dram := true, mirror := true, free := true }) s x := (touches_mirror _ _).after rfl <| hw
    exact (touches_pumpAll _).after rfl <| (touches_refillQueue _).after rfl <| hx

theorem touches_flushIssueEffect (s) : Touches { mirror := true, twin := true } s (flushIssueEffect s) := by
  unfold flushIssueEffect
  refine .ite ?_ (.refl _)
  split
  · extract_lets _ _ u _ _
    have hu : Touches { mirror := true, twin := true } s u := (touches_twinOut _ _).mono rfl
    exact (touches_mirror_twin _ _ _).after rfl <| hu
  · exact .refl _

theorem touches_syncTimeoutEffect (s) :
    Touches (reaction.plus { dram := true, mirror := true, free := true }) s (syncTimeoutEffect s) :=
  .ite ((touches_pumpAll _).after rfl <| .comp (.forEach (fun _ _ => .ite ((touches_mwBreak _ _ _).mono rfl) (.refl _)) _ _) <|
      (touches_syncGiveUp _).mono rfl) (.refl _)

theorem touches_copierEffect (s) : Touches { regs := true, mirror := true } s (copierEffect s) := by
  unfold copierEffect
  extract_lets u
  have hu : Touches { regs := true, mirror := true } s u := .ite ((touches_mirrorRecover _).mono rfl) (.refl _)
  refine .ite ?_ hu
  split
  · extract_lets _ v _
    have hv : Touches { regs := true, mirror := true } s v := (touches_setDirtyMap _ _).after rfl <| hu
    exact (touches_mirror _ _).after rfl <| hv
  · exact hu

theorem touches_beatEffect (s) : Touches { regs := true, mirror := true } s (beatEffect s) := by
  unfold beatEffect
  refine .ite ?_ (.refl _)
  extract_lets _ u _ v _
  have hu : Touches { regs := true, mirror := true } s u := (touches_mirror _ _).mono rfl
  have hv : Touches { regs := true, mirror := true } s v := (touches_setReg _ _ _).after rfl <| hu
  exact .ite ((touches_mirror _ _).after rfl <| hv) hu

theorem touches_missEffect (s) : Touches (reaction.plus { dram := true, mirror := true, free := true }) s (missEffect s) := by
  unfold missEffect
  refine .ite ?_ (.refl _)
  extract_lets u
  have hu : Touches (reaction.plus { dram := true, mirror := true, free := true }) s u := (touches_armHbRx _).after rfl <|
      (touches_setFld _ _ _ _ _).mono rfl
  exact .ite ((touches_pumpAll _).after rfl <| (touches_partnerLost _).after rfl <| hu) hu

end Sys2Proof.Laws
end

section
/-! SUPPORT. The parts of the state that the operations of Machine/Packets touch. -/

namespace Sys2Proof.Laws

open Sys2Proof.Machine Sys2Proof.Safety

theorem touches_refuseLong (s m w) : Touches { regs := true, twin := true, seq := true } s (refuseLong s m w) := by
  unfold refuseLong
  extract_lets u
  have hu : Touches { regs := true, twin := true, seq := true } s u := (touches_setMail _ _ _).mono rfl
  exact (touches_sendReply _ _ _ _ _).after rfl <| hu

theorem touches_pushWord (s mb w) : Touches { regs := true, twin := true, seq := true } s (pushWord s mb w) := by
  unfold pushWord
  extract_lets _
  split
  · split
    · extract_lets u
      have hu : Touches { regs := true, twin := true, seq := true } s u := (touches_setMail _ _ _).mono rfl
      exact .ite ((touches_setBit _ _ _ _).after rfl <| hu) hu
  · refine .ite ((touches_refuseLong _ _ _).mono rfl) ?_
    split
    · extract_lets v
      have hv : Touches { regs := true, twin := true, seq := true } s v := (touches_setMail _ _ _).mono rfl
      exact .ite ((touches_setBit _ _ _ _).after rfl <| hv) hv

theorem touches_popPkt (s mb) : Touches { seq := true } s (popPkt s mb) :=
  (touches_setMail _ _ _).mono rfl

theorem touches_answerReserved (fuel s) : Touches { regs := true, twin := true, seq := true } s (answerReserved fuel s) := by
  induction fuel generalizing s with
  | zero => exact .refl s
  | succ fuel ih =>
    unfold answerReserved
    extract_lets mb
    split
    · exact .ite (.refl s) ((ih _).comp ((touches_sendReply _ _ _ _ _).after rfl <| (touches_popPkt _ _).mono rfl))
    · exact .refl s

theorem touches_settleMail (s) : Touches { regs := true, twin := true, seq := true } s (settleMail s) :=
  (touches_answerReserved _ _).mono rfl

theorem touches_mailWrite (s mb w) : Touches { regs := true, twin := true, seq := true } s (mailWrite s mb w) :=
  .ite ((touches_settleMail _).after rfl <| (touches_pushWord _ _ _).mono rfl) (.ite ((touches_setBit _ _ _ _).mono rfl) (.refl _))

theorem touches_mailRead (s mb) : Touches { regs := true, seq := true } s (mailRead s mb).1 := by
  unfold mailRead
  extract_lets _
  split
  · exact .fst <| (touches_setMail _ _ _).mono rfl
  · exact .fst <| (touches_setBit _ _ _ _).mono rfl

theorem touches_replyMoveEffect (s mb) : Touches { regs := true, twin := true, seq := true } s (replyMoveEffect s mb) := by
  unfold replyMoveEffect
  extract_lets _
  split
  · refine .ite ?_ (.refl _)
    extract_lets u
    have hu : Touches { regs := true, twin := true, seq := true } s u := (touches_setBit _ _ _ _).after rfl <|
        (touches_setMail _ _ _).mono rfl
    exact (touches_settleMail _).after rfl <| .ite ((touches_wakePme _).after rfl <| hu) (hu)
  · exact .refl _

theorem touches_flushMail (s) : Touches { seq := true } s (flushMail s) := by
  unfold flushMail
  extract_lets _ u _
  have hu : Touches { seq := true } s u := (touches_seq _ _).mono rfl
  exact (touches_seq _ _).after rfl <| hu

theorem touches_partnerWriteEffect (s w) :
    Touches { regs := true, twin := true, seq := true, free := true } s (partnerWriteEffect s w) :=
  .ite (.refl _) (.ite ((touches_answerUr _ _ _ _ _).mono rfl) ((touches_mailWrite _ _ _).mono rfl))

theorem touches_partnerReadEffect (s off) :
    Touches { regs := true, twin := true, seq := true, free := true } s (partnerReadEffect s off) := by
  unfold partnerReadEffect
  refine .ite (.refl _) ?_
  refine .ite ((touches_answerUr _ _ _ _ _).mono rfl) ?_
  refine .ite ?_ (.ite ((touches_twinOut _ _).mono rfl) ((touches_answerUr _ _ _ _ _).mono rfl))
  split
  · next u _ heq =>
    have hu : Touches { regs := true, twin := true, seq := true, free := true } s u :=
        .of_pair heq ((touches_mailRead _ _).mono rfl)
    exact (touches_twinOut _ _).after rfl <| hu

theorem touches_stagePush (s o w) : Touches { regs := true, obs := true } s (stagePush s o w) := by
  unfold stagePush
  refine .ite (.refl _) ?_
  split
  · extract_lets u
    have hu : Touches { regs := true, obs := true } s u := (touches_setStager _ _ _).mono rfl
    split
    · exact .ite ((touches_sillageMove _ _).after rfl <| hu) ((touches_sillageDrop _ _ _).after rfl <| hu)
    · exact hu

theorem touches_stageDrop (s o) : Touches { obs := true } s (stageDrop s o) :=
  .ite (.refl _) ((touches_setStager _ _ _).mono rfl)

theorem touches_apServed (s n p) : Touches { obs := true } s (apServed s n p) :=
  (touches_obs _ _).mono rfl

theorem touches_apSend (s n p m) : Touches { spine := true } s (apSend s n p m) :=
  (touches_launch _ _ _ _).mono rfl

theorem touches_waitRoom (s n) : Touches { obs := true } s (waitRoom s n) := by
  unfold waitRoom
  refine .ite (.refl _) ?_
  extract_lets _
  exact (touches_obs _ _).mono rfl

theorem touches_apWriteEffect (s n) : Touches { regs := true, spine := true, obs := true } s (apWriteEffect s n) := by
  unfold apWriteEffect
  split
  · split
    · extract_lets _
      exact .ite (.refl _) (.ite ((touches_apServed _ _ _).mono rfl) (.ite ((touches_apSend _ _ _ _).after rfl <|
          (touches_apServed _ _ _).mono rfl) (.ite ((touches_waitRoom _ _).mono rfl) ((touches_apSend _ _ _ _).after rfl <|
              (touches_stagePush _ _ _).after rfl <| (touches_apServed _ _ _).mono rfl))))
    · exact .ite ((touches_apServed _ _ _).mono rfl) (.refl _)
  · exact .refl _

theorem touches_wakeWriters (s) : Touches { regs := true, spine := true, obs := true } s (wakeWriters s) :=
  .comp (.foldl (fun _ _ => (touches_apWriteEffect _ _).mono rfl) _ _) <| (touches_obs _ _).mono rfl

end Sys2Proof.Laws
end

section
/-! SUPPORT. The parts of the state that the operations of Machine/CtlPort touch. -/

namespace Sys2Proof.Laws

open Sys2Proof.Machine Sys2Proof.Safety

theorem touches_inspectRead (s n i) : Touches { free := true } s (inspectRead s n i).1 := by
  unfold inspectRead
  refine .ite_fst ?_ (.refl _)
  split
  · exact .refl _
  · split
    · next _ u heq =>
      have hu : Touches { free := true } s u := .of_snd heq ((touches_takeFree _).mono rfl)
      exact hu

theorem touches_copyHi (s p k i) : Touches { obs := true } s (copyHi s p k i) :=
  (touches_obs _ _).mono rfl

theorem touches_clearRc (s a) : Touches { regs := true } s (clearRc s a) := by
  unfold clearRc
  split
  · exact .ite (.refl _) ((touches_setReg _ _ _).mono rfl)
  · exact .refl _

theorem touches_readEffects (s p a) : Touches { regs := true, obs := true, pins := true } s (readEffects s p a) := by
  unfold readEffects
  refine .ite ?_ ?_
  · extract_lets _
    exact (touches_pins _ _).mono rfl
  · refine .ite ((touches_setReg _ _ _).mono rfl) ?_
    refine .ite ((touches_setReg _ _ _).mono rfl) ?_
    refine .ite ?_ (.ite ((touches_setBit _ _ _ _).mono rfl) (.refl _))
    split
    · exact (touches_copyHi _ _ _ _).mono rfl
    · exact .refl _

theorem touches_accessParity (s a) : Touches reaction s (accessParity s a) := by
  unfold accessParity
  split
  · exact (touches_parityCheck _ _ _ _).mono rfl
  · exact .refl _

theorem touches_regRead (s p a) : Touches (reaction.plus { pins := true, free := true }) s (regRead s p a).1 := by
  unfold regRead
  refine .ite_fst ((touches_mailRead _ _).mono rfl) ?_
  refine .ite_fst ((touches_inspectRead _ _ _).mono rfl) ?_
  extract_lets _
  exact .fst <| (touches_accessParity _ _).after rfl <| (touches_readEffects _ _ _).after rfl <| (touches_clearRc _ _).mono rfl

theorem touches_releaseCapture (s a) : Touches { regs := true } s (releaseCapture s a) := by
  unfold releaseCapture
  split
  · exact .ite ((touches_setBit _ _ _ _).mono rfl) (.refl _)
  · exact .refl _

theorem touches_storeReg (s a v) : Touches { regs := true } s (storeReg s a v) := by
  unfold storeReg
  split
  · exact (touches_releaseCapture _ _).after rfl <| (touches_setReg _ _ _).mono rfl
  · exact .refl _

theorem touches_clearAllCounts (s) : Touches { obs := true } s (clearAllCounts s) :=
  (touches_obs _ _).mono rfl

theorem touches_dumpStart (s) : Touches { obs := true } s (dumpStart s) :=
  (touches_obs _ _).mono rfl

theorem touches_trcSwitch (s was) : Touches { regs := true, spine := true, obs := true } s (trcSwitch s was) :=
  .ite ((touches_obs _ _).mono rfl) (.ite (.refl _) ((touches_wakeWriters _).after rfl <| (touches_obs _ _).mono rfl))

theorem touches_logPop (s) : Touches { regs := true, obs := true } s (logPop s) := by
  unfold logPop
  split
  · exact .refl _
  · extract_lets _ _ u
    have hu : Touches { regs := true, obs := true } s u := (touches_obs _ _).mono rfl
    exact .ite hu ((touches_setBit _ _ _ _).after rfl <| (touches_logRecord _ _ _ _ _ _).after rfl <| hu)

theorem touches_patchApplyEffect (s) : Touches reaction s (patchApplyEffect s) := by
  unfold patchApplyEffect
  refine .ite ?_ ((touches_report _ _ _).after rfl <| (touches_setBit _ _ _ _).after rfl <| (touches_setFld _ _ _ _ _).mono rfl)
  extract_lets _
  exact (touches_seq _ _).mono rfl

theorem touches_observeWrite (s old a v) : Touches { regs := true, spine := true, obs := true } s (observeWrite s old a v) := by
  unfold observeWrite
  refine .ite (.ite ((touches_clearAllCounts _).mono rfl) (.refl _)) ?_
  refine .ite (.ite ((touches_dumpStart _).mono rfl) (.refl _)) ?_
  refine .ite ?_ ?_
  · extract_lets _
    exact .ite ((touches_setPmuCount _ _ _ _).mono rfl) (.refl _)
  · refine .ite (.ite ((touches_setProbe _ _ _).mono rfl) (.refl _)) ?_
    extract_lets _
    split
    · exact (touches_trcSwitch _ _).mono rfl
    · exact (touches_obs _ _).mono rfl
    · exact (touches_stagePush _ _ _).mono rfl
    · exact .ite ((touches_stageDrop _ _).mono rfl) (.refl _)
    · exact (touches_wakeWriters _).after rfl <| (.forEach (fun _ _ => .ite ((touches_stageDrop _ _).mono rfl) (.refl _)) _ _)
    · exact .ite ((touches_logPop _).mono rfl) (.refl _)
    · exact .refl _

theorem touches_deviceWrite (s old a v) :
    Touches (reaction.plus { dram := true, mirror := true, pins := true, free := true }) s (deviceWrite s old a v) := by
  unfold deviceWrite
  refine .ite ?_ ?_
  · extract_lets _
    exact (touches_seq _ _).mono rfl
  · split
    · exact (touches_mailWrite _ _ _).mono rfl
    · exact .ite ((touches_settleMail _).after rfl <| (touches_flushMail _).mono rfl) (.refl _)
    · exact .ite ((touches_patchApplyEffect _).mono rfl) (.refl _)
    · exact (touches_linkEnEffect _ _).after rfl <| (touches_setBit _ _ _ _).mono rfl
    · exact (touches_commitEffect _ _).mono rfl
    · exact (touches_drivePower _).mono rfl
    · exact .refl _

theorem touches_regWrite (s a v) :
    Touches (reaction.plus { dram := true, mirror := true, pins := true, free := true }) s (regWrite s a v) := by
  unfold regWrite
  extract_lets u
  have hu : Touches (reaction.plus { dram := true, mirror := true, pins := true, free := true }) s u :=
      (touches_storeReg _ _ _).mono rfl
  exact (touches_accessParity _ _).after rfl <| .ite ((touches_deviceWrite _ _ _ _).after rfl <|
      hu) ((touches_observeWrite _ _ _ _).after rfl <| hu)

theorem touches_cpFail (s a write off) : Touches { regs := true, pins := true } s (cpFail s a write off) := by
  unfold cpFail
  extract_lets _ u
  have hu : Touches { regs := true, pins := true } s u := (touches_pins _ _).mono rfl
  exact .ite hu ((touches_setReg _ _ _).after rfl <| hu)

theorem touches_cpGive (r) : Touches { pins := true } r.1 (cpGive r) := touches_pins _ _

theorem touches_cpServe (s write a v) :
    Touches (reaction.plus { dram := true, mirror := true, pins := true, free := true }) s (cpServe s write a v) := by
  unfold cpServe
  refine .ite ((touches_cpFail _ _ _ _).mono rfl) (.ite ((touches_cpFail _ _ _ _).mono rfl) (.ite ((touches_regWrite _ _ _).mono rfl) ?_))
  exact (touches_cpGive _).after rfl <| (touches_regRead _ _ _).mono rfl

theorem touches_cpAccess (s write a v) :
    Touches (reaction.plus { dram := true, mirror := true, pins := true, free := true }) s (cpAccess s write a v) := by
  unfold cpAccess
  refine .ite (.refl _) ?_
  extract_lets _ u _
  have hu : Touches (reaction.plus { dram := true, mirror := true, pins := true, free := true }) s u := (touches_pins _ _).mono rfl
  exact .ite ((touches_cpServe _ _ _ _).after rfl <| (touches_pins _ _).after rfl <| hu) hu

theorem touches_cpRead (s a) :
    Touches (reaction.plus { dram := true, mirror := true, pins := true, free := true }) s (cpRead s a) :=
  (touches_cpAccess _ _ _ _).mono rfl

theorem touches_cpWrite (s a v) :
    Touches (reaction.plus { dram := true, mirror := true, pins := true, free := true }) s (cpWrite s a v) :=
  (touches_cpAccess _ _ _ _).mono rfl

theorem touches_cpWriteField (s a lo n v) :
    Touches (reaction.plus { dram := true, mirror := true, pins := true, free := true }) s (cpWriteField s a lo n v) :=
  (touches_cpWrite _ _ _).mono rfl

theorem touches_cpReleaseEffect (s) : Touches { pins := true } s (cpReleaseEffect s) :=
  (touches_pins _ _).mono rfl

theorem touches_counterLoEffect (s path k sel) :
    Touches (reaction.plus { dram := true, mirror := true, pins := true, free := true }) s (counterLoEffect s path k sel) := by
  unfold counterLoEffect
  split
  · exact (touches_cpRead _ _).mono rfl
  · exact .ite ((touches_copyHi _ _ _ _).mono rfl) (.refl _)

theorem touches_inspectEffect (s n word flip) :
    Touches (reaction.plus { dram := true, mirror := true, pins := true, free := true }) s (inspectEffect s n word flip) := by
  unfold inspectEffect
  extract_lets u _
  have hu : Touches (reaction.plus { dram := true, mirror := true, pins := true, free := true }) s u :=
      (touches_cpRead _ _).mono rfl
  exact .ite ((touches_pins _ _).after rfl <| hu) hu

theorem touches_pmuClearEffect (s sel) :
    Touches (reaction.plus { dram := true, mirror := true, pins := true, free := true }) s (pmuClearEffect s sel) := by
  unfold pmuClearEffect
  split
  · exact (touches_cpWriteField _ _ _ _ _).mono rfl
  · exact (touches_cpWriteField _ _ _ _ _).mono rfl

theorem touches_dropRestEffect (s sel) :
    Touches (reaction.plus { dram := true, mirror := true, pins := true, free := true }) s (dropRestEffect s sel) := by
  unfold dropRestEffect
  split
  · exact (touches_cpWrite _ _ _).mono rfl
  · exact (touches_cpWrite _ _ _).mono rfl

theorem touches_patchVerifyEffect (s sigOk) : Touches reaction s (patchVerifyEffect s sigOk) := by
  unfold patchVerifyEffect
  refine .ite ?_ (.refl _)
  extract_lets _ _ u v
  have hu : Touches reaction s u := (touches_seq _ _).mono rfl
  have hv : Touches reaction s v := (touches_setBit _ _ _ _).after rfl <| (touches_setFld _ _ _ _ _).after rfl <| hu
  exact .ite ((touches_setFld _ _ _ _ _).after rfl <| (touches_setBit _ _ _ _).after rfl <|
      hv) ((touches_report _ _ _).after rfl <| hv)

end Sys2Proof.Laws
end

section
/-! SUPPORT. The parts of the state that the operations of Machine/Commands touch. -/

namespace Sys2Proof.Laws

open Sys2Proof.Machine Sys2Proof.Safety

theorem touches_takePacket {K : Parts} (s : State) (mb : Mailbox) (op : Nat) (r : CmdRule)
    (hk : Parts.within { regs := true, twin := true, seq := true } K = true) (h : ∀ t c, Touches K t (r.act t c)) :
    Touches K s (takePacket s mb op r) := by
  unfold takePacket
  split
  · extract_lets u
    have hu : Touches K s u := ((touches_popPkt _ _).mono rfl : Touches { regs := true, twin := true, seq := true } s u).mono hk
    refine (touches_settleMail _).after hk ?_
    split
    · exact (touches_sendReply _ _ _ _ _).after hk hu
    · exact (h _ _).comp hu
  · exact .refl s

theorem touches_answer (s c status data) : Touches { regs := true, twin := true, seq := true } s (answer s c status data) :=
  (touches_sendReply _ _ _ _ _).mono rfl

theorem touches_startRun (s c phase arg) : Touches { seq := true } s (startRun s c phase arg) :=
  (touches_seq _ _).mono rfl

theorem touches_setScrub (s c en interval) : Touches { regs := true, chans := true } s (setScrub s c en interval) := by
  unfold setScrub
  extract_lets u _
  have hu : Touches { regs := true, chans := true } s u := (touches_setReg _ _ _).mono rfl
  exact (touches_setChan _ _ _).after rfl <| hu

theorem touches_scrubAct (s c) : Touches { regs := true, chans := true, twin := true, seq := true } s (scrubAct s c) := by
  unfold scrubAct
  extract_lets u
  have hu : Touches { regs := true, chans := true, twin := true, seq := true } s u :=
      (.forEach (fun _ _ => .ite ((touches_setScrub _ _ _ _).mono rfl) (.refl _)) _ _)
  exact (touches_answer _ _ _ _).after rfl <| hu

theorem touches_calendarAct (s c) : Touches { regs := true, twin := true, seq := true, aon := true } s (calendarAct s c) :=
  (touches_answer _ _ _ _).after rfl <| (touches_aon _ _).mono rfl

theorem touches_exportNumber (s) : Touches { regs := true } s (exportNumber s) :=
  .ite ((touches_setReg _ _ _).mono rfl) ((touches_setReg _ _ _).after rfl <| (touches_setBit _ _ _ _).after rfl <|
      (touches_setBit _ _ _ _).mono rfl)

theorem touches_exportAct (s c) : Touches { regs := true, twin := true, seq := true } s (exportAct s c) := by
  unfold exportAct
  extract_lets u _
  have hu : Touches { regs := true, twin := true, seq := true } s u := (touches_exportNumber _).mono rfl
  exact (touches_answer _ _ _ _).after rfl <| hu

theorem touches_importRecord (s l) : Touches { regs := true, aon := true } s (importRecord s l) := by
  unfold importRecord
  extract_lets _ _ _ _ _ u v w
  have hu : Touches { regs := true, aon := true } s u := (touches_aon _ _).mono rfl
  have hv : Touches { regs := true, aon := true } s v := .ite (hu) ((touches_setFld _ _ _ _ _).after rfl <| hu)
  have hw : Touches { regs := true, aon := true } s w := .ite ((touches_setBit _ _ _ _).after rfl <| hv) (hv)
  exact (touches_setReg _ _ _).after rfl <| hw

theorem touches_importAct (s c) : Touches { regs := true, twin := true, seq := true, aon := true } s (importAct s c) :=
  .ite ((touches_answer _ _ _ _).mono rfl) ((touches_answer _ _ _ _).after rfl <| (touches_importRecord _ _).mono rfl)

theorem touches_blotterAct (s c) : Touches { regs := true, faults := true, twin := true, seq := true } s (blotterAct s c) := by
  unfold blotterAct
  extract_lets _ u _
  have hu : Touches { regs := true, faults := true, twin := true, seq := true } s u := (touches_setFld _ _ _ _ _).mono rfl
  exact .ite ((touches_answer _ _ _ _).mono rfl) (.ite ((touches_answer _ _ _ _).mono rfl)
      ((touches_answer _ _ _ _).after rfl <| (touches_faults _ _).after rfl <| hu))

theorem touches_faultClearAct (s c) :
    Touches { regs := true, faults := true, twin := true, seq := true } s (faultClearAct s c) := by
  unfold faultClearAct
  extract_lets _ _ u
  have hu : Touches { regs := true, faults := true, twin := true, seq := true } s u := (touches_clearFaults _ _ _).mono rfl
  exact (touches_answer _ _ _ _).after rfl <| hu

theorem touches_agentFenceAct (s c) : Touches (reaction.plus { dram := true, free := true }) s (agentFenceAct s c) :=
  .ite ((touches_answer _ _ _ _).after rfl <| (touches_fencePort _ _).mono rfl) ((touches_answer _ _ _ _).mono rfl)

theorem touches_storeTable (s m p) : Touches { chans := true } s (storeTable s m p) :=
  (touches_setChan _ _ _).mono rfl

theorem touches_storeBudgets (s m k l) : Touches { seq := true } s (storeBudgets s m k l) :=
  (touches_seq _ _).mono rfl

theorem touches_shadowTable (s m c) : Touches { chans := true } s (shadowTable s m c) := by
  unfold shadowTable
  refine .ite ?_ (.refl _)
  extract_lets _ _
  exact (touches_setChan _ _ _).mono rfl

theorem touches_swapSoon (s) : Touches { seq := true } s (swapSoon s) :=
  (touches_seq _ _).mono rfl

theorem touches_installTables (s m l) : Touches { chans := true, seq := true } s (installTables s m l) :=
  .ite ((touches_swapSoon _).after rfl <| (.foldl (fun _ _ => (touches_shadowTable _ _ _).mono rfl) _ _)) (.refl _)

theorem touches_installBudgets (s m k) : Touches { seq := true } s (installBudgets s m k) := by
  unfold installBudgets
  refine .ite ?_ (.refl _)
  extract_lets _ _
  exact (touches_swapSoon _).after rfl <| (touches_seq _ _).mono rfl

theorem touches_loadTablesAct (s c) : Touches { regs := true, chans := true, twin := true, seq := true } s (loadTablesAct s c) := by
  unfold loadTablesAct
  extract_lets _ _ u
  have hu : Touches { regs := true, chans := true, twin := true, seq := true } s u :=
      (.foldl (fun _ _ => (touches_storeTable _ _ _).mono rfl) _ _)
  exact .ite ((touches_answer _ _ _ _).mono rfl) (.ite ((touches_answer _ _ _ _).mono rfl)
      ((touches_answer _ _ _ _).after rfl <| (touches_installTables _ _ _).after rfl <| hu))

theorem touches_loadBudgetsAct (s c) : Touches { regs := true, twin := true, seq := true } s (loadBudgetsAct s c) := by
  unfold loadBudgetsAct
  extract_lets _ _ u
  have hu : Touches { regs := true, twin := true, seq := true } s u := (touches_storeBudgets _ _ _ _).mono rfl
  exact .ite ((touches_answer _ _ _ _).mono rfl) (.ite ((touches_answer _ _ _ _).mono rfl)
      ((touches_answer _ _ _ _).after rfl <| (touches_installBudgets _ _ _).after rfl <| hu))

theorem touches_slotTableAct (s c) : Touches { regs := true, chans := true, twin := true, seq := true } s (slotTableAct s c) :=
  .ite ((touches_loadBudgetsAct _ _).mono rfl) ((touches_loadTablesAct _ _).mono rfl)

end Sys2Proof.Laws
end

section
/-! SUPPORT. The parts of the state that the operations of Machine/Regions touch. -/

namespace Sys2Proof.Laws

open Sys2Proof.Machine Sys2Proof.Safety

theorem touches_putRegion (s i base limit attr meta') : Touches { regs := true } s (putRegion s i base limit attr meta') := by
  unfold putRegion
  extract_lets _ u
  have hu : Touches { regs := true } s u := (touches_setReg _ _ _).after rfl <| (touches_setReg _ _ _).mono rfl
  exact (touches_setReg _ _ _).after rfl <| (touches_setReg _ _ _).after rfl <| hu

theorem touches_putMetaRegion (s l) : Touches { regs := true } s (putMetaRegion s l) :=
  (touches_putRegion _ _ _ _ _ _).mono rfl

theorem touches_tableAfter (s l) : Touches { regs := true } s (tableAfter s l) := by
  unfold tableAfter
  extract_lets u
  have hu : Touches { regs := true } s u := .ite ((touches_putMetaRegion _ _).mono rfl) (.refl _)
  exact (touches_putRegion _ _ _ _ _ _).after rfl <| hu

theorem touches_zeroLine (s c m) : Touches (reaction.plus { dram := true }) s (zeroLine s c m) :=
  (touches_writeBurst _ _ _ _ _ _).mono rfl

theorem touches_zeroPart (z s p) : Touches (reaction.plus { dram := true }) s (zeroPart z s p) := by
  unfold zeroPart
  exact (.foldl (fun s _ => by
      extract_lets _
      exact .ite ((touches_zeroLine _ _ _).mono rfl) (.refl _)) _ _)

theorem touches_zeroFill (s z) : Touches (reaction.plus { dram := true }) s (zeroFill s z) := by
  unfold zeroFill
  extract_lets edges u v w x
  have hu : Touches (reaction.plus { dram := true }) s u := (touches_dramDrop _ _).mono rfl
  have hv : Touches (reaction.plus { dram := true }) s v := .comp (.forEach (fun _ _ => (touches_setChan _ _ _).mono rfl) _ _) hu
  have hw : Touches (reaction.plus { dram := true }) s w := .comp (.forEach (fun _ _ => (touches_setSlice _ _ _).mono rfl) _ _) hv
  have hx : Touches (reaction.plus { dram := true }) s x := .comp (.forEach (fun _ _ => (touches_setWrq _ _ _).mono rfl) _ _) hw
  exact .comp (.foldl (fun _ _ => (touches_zeroPart _ _ _).mono rfl) _ _) hx

theorem touches_zeroMirror (z s w) : Touches { regs := true, mirror := true } s (zeroMirror z s w) := by
  unfold zeroMirror
  extract_lets _ _ u
  have hu : Touches { regs := true, mirror := true } s u :=
      (.foldl (fun _ _ => (.forEach (fun _ _ => (touches_markGranule _ _ _).mono rfl) _ _)) _ _)
  exact .ite (.refl _) (.ite ((touches_mwMove _ _ _).after rfl <| hu) hu)

theorem touches_noteFresh (s) : Touches { regs := true } s (noteFresh s) :=
  (touches_setReg _ _ _).mono rfl

theorem touches_clearRoots (s t) : Touches { aon := true } s (clearRoots s t) :=
  (.forEach (fun _ _ => (touches_rootSet _ _ _ _).mono rfl) _ _)

theorem touches_unpin (s k) : Touches { slices := true } s (unpin s k) :=
  .ite (.refl _) ((touches_onSlices _ _ _).mono rfl)

theorem touches_forgetNodes (s t l u) : Touches { slices := true } u (forgetNodes s t l u) := by
  unfold forgetNodes
  exact touches_onSlices _ _ _

theorem touches_regionDone (s l) : Touches (reaction.plus { dram := true, mirror := true, free := true }) s (regionDone s l) := by
  unfold regionDone
  extract_lets t z v w x y
  have hv : Touches (reaction.plus { dram := true, mirror := true, free := true }) s v :=
    .comp (.forEach (fun _ _ => (touches_zeroMirror _ _ _).mono rfl) _ _) <| (touches_zeroFill _ _).mono rfl
  have hw : Touches (reaction.plus { dram := true, mirror := true, free := true }) s w :=
    (touches_forgetNodes _ _ _ _).after rfl <| .comp (.foldl (fun _ _ => (touches_clearRoots _ _).mono rfl) _ _) hv
  have hx : Touches (reaction.plus { dram := true, mirror := true, free := true }) s x :=
    (touches_noteFresh _).after rfl <| (touches_tableAfter _ _).after rfl <| hw
  have hy : Touches (reaction.plus { dram := true, mirror := true, free := true }) s y := .ite ((touches_free _ _).after rfl <| hx) hx
  exact .comp (.foldl (fun _ _ => (touches_pinRegion _ _).after rfl <| (touches_unpin _ _).mono rfl) _ _) hy

theorem touches_regionStep (s) : Touches (reaction.plus { dram := true, mirror := true, free := true }) s (regionStep s) := by
  unfold regionStep
  split
  · refine .ite ?_ (.refl _)
    extract_lets _ u v
    have hu : Touches (reaction.plus { dram := true, mirror := true, free := true }) s u := (touches_tableAfter _ _).mono rfl
    have hv : Touches (reaction.plus { dram := true, mirror := true, free := true }) s v :=
        (.forEach (fun _ _ => .ite ((touches_endWays _ _ _).mono rfl) (.refl _)) _ _)
    exact .ite ((touches_finishCmd _ _ _).after rfl <| (touches_regionDone _ _).after rfl <| hv) hv
  · exact .refl _

theorem touches_regionSetAct (s c) : Touches (reaction.plus { dram := true, mirror := true, free := true }) s (regionSetAct s c) :=
  .ite ((touches_answer _ _ _ _).mono rfl) ((touches_regionStep _).after rfl <| (touches_startRun _ _ _ _).mono rfl)

theorem touches_regionSetEffect (s mb) :
    Touches (reaction.plus { dram := true, mirror := true, free := true }) s (regionSetEffect s mb) := by
  unfold regionSetEffect
  refine .ite (touches_takePacket _ _ _ _ rfl (fun t c => (touches_regionSetAct _ _).mono rfl)) (.ite ?_ (.refl s))
  exact (touches_settleMail _).after rfl <| touches_regionStep _

theorem touches_regionGetAct (s c) : Touches { regs := true, twin := true, seq := true } s (regionGetAct s c) :=
  (touches_answer _ _ _ _).mono rfl

theorem touches_markRealm (s r b) : Touches { regs := true } s (markRealm s r b) :=
  .ite ((touches_setBit _ _ _ _).mono rfl) ((touches_setBit _ _ _ _).mono rfl)

theorem touches_realmOpenAct (s c) : Touches { regs := true, twin := true, seq := true } s (realmOpenAct s c) :=
  (touches_answer _ _ _ _).after rfl <| (touches_markRealm _ _ _).mono rfl

theorem touches_realmRetireAct (s c) : Touches { regs := true, twin := true, seq := true } s (realmRetireAct s c) := by
  unfold realmRetireAct
  extract_lets _ u
  have hu : Touches { regs := true, twin := true, seq := true } s u := (touches_bumpGeneration _ _).after rfl <|
      (touches_markRealm _ _ _).mono rfl
  exact .ite ((touches_answer _ _ _ _).mono rfl) ((touches_answer _ _ _ _).after rfl <| hu)

end Sys2Proof.Laws
end

section
/-! SUPPORT. The parts of the state that the operations of Machine/Roles touch. -/

namespace Sys2Proof.Laws

open Sys2Proof.Machine Sys2Proof.Safety

theorem touches_takeRole (s r) : Touches (reaction.plus { dram := true, mirror := true, free := true }) s (takeRole s r) := by
  unfold takeRole
  extract_lets u v _
  have hu : Touches (reaction.plus { dram := true, mirror := true, free := true }) s u :=
      .ite ((touches_pumpAll _).after rfl <| (touches_mwBreakAll _ _).after rfl <| (touches_mirrorDiscard _ _).mono rfl) (.refl _)
  have hv : Touches (reaction.plus { dram := true, mirror := true, free := true }) s v :=
      (touches_setFld _ _ _ _ _).after rfl <| (touches_setReg _ _ _).after rfl <| hu
  exact (touches_mirror _ _).after rfl <| hv

theorem touches_markWindow (s w) : Touches { mirror := true } s (markWindow s w) :=
  (touches_setDirtyMap _ _).mono rfl

theorem touches_enableWindows (s) : Touches { regs := true, mirror := true } s (enableWindows s) :=
  (.forEach (fun _ _ => .ite ((touches_mwMove _ _ _).after rfl <| (touches_markWindow _ _).mono rfl) (.refl _)) _ _)

theorem touches_putWindow (lead a p) : Touches { regs := true, mirror := true } a.1 (putWindow lead a p).1 := by
  obtain ⟨s, at'⟩ := a
  have hv : ∀ a b c d e f g h, Touches { regs := true, mirror := true } s
      (setReg (setReg (setReg (setReg s a b) c d) e f) g h) := fun _ _ _ _ _ _ _ _ =>
    (touches_setReg _ _ _).after rfl <| (touches_setReg _ _ _).after rfl <| (touches_setReg _ _ _).after rfl <|
      (touches_setReg _ _ _).mono rfl
  exact .fst <| .ite ((touches_markWindow _ _).after rfl <| hv _ _ _ _ _ _ _ _) (hv _ _ _ _ _ _ _ _)

theorem touches_loadWindows (s l) : Touches (reaction.plus { dram := true, mirror := true, free := true }) s (loadWindows s l) := by
  unfold loadWindows
  extract_lets u v _ m w x
  have hu : Touches (reaction.plus { dram := true, mirror := true, free := true }) s u :=
    (touches_pumpAll _).after rfl <| (touches_mirrorDiscard _ _).mono rfl
  have hv : Touches (reaction.plus { dram := true, mirror := true, free := true }) s v :=
    (touches_setDirtyMap _ _).after rfl <| (touches_resetRegs _ _ _).after rfl hu
  have hm : Touches (reaction.plus { dram := true, mirror := true, free := true }) s m := (touches_mirror _ _).after rfl hv
  have hx : Touches (reaction.plus { dram := true, mirror := true, free := true }) s x :=
    (touches_setReg _ _ _).after rfl <| (touches_setReg _ _ _).after rfl <| (touches_setReg _ _ _).after rfl <|
      (touches_setReg _ _ _).after rfl hm
  exact .comp (.foldl_fst (fun _ _ => (touches_putWindow _ _ _).mono rfl) _ _ _) hx

theorem touches_resyncWindow (markAll s w) : Touches { regs := true, mirror := true } s (resyncWindow markAll s w) := by
  unfold resyncWindow
  refine .ite ?_ (.refl _)
  extract_lets u v _
  have hu : Touches { regs := true, mirror := true } s u := .ite ((touches_markWindow _ _).mono rfl) (.refl _)
  have hv : Touches { regs := true, mirror := true } s v := (touches_mwMove _ _ _).after rfl <| hu
  exact .ite (.ite ((touches_mirror _ _).after rfl <| hv) hu) (.ite ((touches_mwMove _ _ _).after rfl <| hu) hu)

theorem touches_mirrorCfgAct (s c) :
    Touches (reaction.plus { dram := true, mirror := true, free := true }) s (mirrorCfgAct s c) := by
  unfold mirrorCfgAct
  extract_lets _ _ _ u v w x
  have hu : Touches (reaction.plus { dram := true, mirror := true, free := true }) s u := (touches_takeRole _ _).mono rfl
  have hv : Touches (reaction.plus { dram := true, mirror := true, free := true }) s v :=
      .ite ((touches_enableWindows _).after rfl <| hu) (hu)
  have hw : Touches (reaction.plus { dram := true, mirror := true, free := true }) s w :=
      .ite ((touches_loadWindows _ _).after rfl <| hv) (hv)
  have hx : Touches (reaction.plus { dram := true, mirror := true, free := true }) s x :=
      .ite (.comp (.foldl (fun _ _ => (touches_resyncWindow _ _ _).mono rfl) _ _) <| hw) (hw)
  exact .ite ((touches_answer _ _ _ _).mono rfl) ((touches_answer _ _ _ _).after rfl <| hx)

theorem touches_failoverLead (s) : Touches (reaction.plus { dram := true, mirror := true, free := true }) s (failoverLead s) := by
  unfold failoverLead
  extract_lets _ _ u _
  have hu : Touches (reaction.plus { dram := true, mirror := true, free := true }) s u := (touches_takeRole _ _).after rfl <|
      (touches_promote _).mono rfl
  exact .ite hu ((touches_mirrorRecover _).after rfl <| (touches_mirror _ _).after rfl <| hu)

theorem touches_failoverAct (s c) : Touches (reaction.plus { dram := true, mirror := true, free := true }) s (failoverAct s c) := by
  unfold failoverAct
  extract_lets _ u
  have hu : Touches (reaction.plus { dram := true, mirror := true, free := true }) s u :=
      .ite ((touches_failoverLead _).mono rfl) ((touches_takeRole _ _).mono rfl)
  exact (touches_answer _ _ _ _).after rfl <| hu

end Sys2Proof.Laws
end

section
/-! SUPPORT. The parts of the state that the operations of Machine/Sequencer touch. -/

namespace Sys2Proof.Laws

open Sys2Proof.Machine Sys2Proof.Safety

theorem touches_initMemoryAct (s c) :
    Touches { regs := true, slices := true, chans := true, dram := true, twin := true, seq := true } s (initMemoryAct s c) :=
  (touches_answer _ _ _ _).after rfl <| (touches_startInitAll _).after rfl <| (touches_loadDecode _).mono rfl

theorem touches_beginMode (s t) : Touches { regs := true, chans := true, seq := true } s (beginMode s t) := by
  unfold beginMode
  extract_lets u
  have hu : Touches { regs := true, chans := true, seq := true } s u := (touches_startTransit _ _).mono rfl
  exact (touches_setPhase _ _).after rfl <| .ite ((touches_loadMode _ _).after rfl <| hu) (hu)

theorem touches_beginDegrade (s l) : Touches { regs := true, seq := true } s (beginDegrade s l) :=
  (touches_setTrans _ _).after rfl <| (touches_startTransit _ _).mono rfl

theorem touches_setModeBegin (s l) : Touches { regs := true, chans := true, seq := true } s (setModeBegin s l) :=
  .ite ((touches_startWipe _).mono rfl) (.ite ((touches_startDrain _ _).mono rfl) (.ite ((touches_beginDegrade _ _).mono rfl)
      ((touches_beginMode _ _).mono rfl)))

theorem touches_setModeAct (s c) : Touches { regs := true, chans := true, twin := true, seq := true } s (setModeAct s c) := by
  unfold setModeAct
  refine .ite ((touches_answer _ _ _ _).mono rfl) ?_
  refine .ite ((touches_answer _ _ _ _).mono rfl) ?_
  extract_lets u _
  have hu : Touches { regs := true, chans := true, twin := true, seq := true } s u := (touches_startRun _ _ _ _).mono rfl
  exact (touches_setModeBegin _ _).after rfl <| (touches_seq _ _).after rfl <| hu

theorem touches_wipeAct (s c) : Touches { regs := true, chans := true, seq := true } s (wipeAct s c) := by
  unfold wipeAct
  extract_lets u _ v
  have hu : Touches { regs := true, chans := true, seq := true } s u := (touches_startRun _ _ _ _).mono rfl
  have hv : Touches { regs := true, chans := true, seq := true } s v := (touches_seq _ _).after rfl <| hu
  exact .ite ((touches_startWipe _).after rfl <| hv) ((touches_startDrain _ _).after rfl <| hv)

theorem touches_advanceAct (s c) : Touches { regs := true, chans := true, twin := true, seq := true } s (advanceAct s c) := by
  unfold advanceAct
  extract_lets _ u _
  have hu : Touches { regs := true, chans := true, twin := true, seq := true } s u := (touches_startRun _ _ _ _).mono rfl
  exact .ite ((touches_answer _ _ _ _).mono rfl) ((touches_startDrain _ _).after rfl <| (touches_seq _ _).after rfl <| hu)

theorem touches_slicePowerAct (s c) : Touches (reaction.plus { dram := true }) s (slicePowerAct s c) := by
  unfold slicePowerAct
  extract_lets _ u v
  have hu : Touches (reaction.plus { dram := true }) s u := (touches_startRun _ _ _ _).mono rfl
  have hv : Touches (reaction.plus { dram := true }) s v := (touches_startRun _ _ _ _).after rfl <|
      (touches_setFld _ _ _ _ _).mono rfl
  refine .ite ?_ ?_
  · refine .ite ((touches_answer _ _ _ _).mono rfl) ?_
    split
    · exact (touches_moveStart _ _).after rfl <| hu
    · exact hu
  · refine .ite ((touches_answer _ _ _ _).mono rfl) ?_
    split
    · exact (touches_moveStart _ _).after rfl <| hv
    · exact hv

theorem touches_accordAct (s c) : Touches (reaction.plus { dram := true }) s (accordAct s c) := by
  unfold accordAct
  refine .ite ((touches_answer _ _ _ _).mono rfl) ?_
  extract_lets u
  have hu : Touches (reaction.plus { dram := true }) s u := (touches_startRun _ _ _ _).mono rfl
  split
  · exact (touches_moveStart _ _).after rfl <| hu
  · exact hu

theorem touches_reviveAct (s c) : Touches { regs := true, twin := true, seq := true } s (reviveAct s c) :=
  .ite ((touches_waitCmd _).after rfl <| (touches_startRun _ _ _ _).mono rfl) ((touches_answer _ _ _ _).mono rfl)

theorem touches_revivePort (s n) : Touches { regs := true, ports := true, slices := true, obs := true, unfence := true } s (revivePort s n) := by
  unfold revivePort
  extract_lets u _ v w _ _ x
  have hu : Touches { regs := true, ports := true, slices := true, obs := true, unfence := true } s u := (touches_setBit _ _ _ _).after rfl <|
      (touches_setBit _ _ _ _).mono rfl
  have hv : Touches { regs := true, ports := true, slices := true, obs := true, unfence := true } s v := (touches_setPort_unfence _ _ _).after rfl <| hu
  have hw : Touches { regs := true, ports := true, slices := true, obs := true, unfence := true } s w := .comp (.forEach (fun s _ => by
      extract_lets _
      exact (touches_setSlice _ _ _).mono rfl) _ _) <| hv
  have hx : Touches { regs := true, ports := true, slices := true, obs := true, unfence := true } s x := (touches_obs _ _).after rfl <| hw
  exact (touches_latchPort _ _).after rfl <| hx

theorem touches_reviveDoneEffect (s) :
    Touches { regs := true, ports := true, slices := true, twin := true, seq := true, obs := true, unfence := true } s (reviveDoneEffect s) := by
  unfold reviveDoneEffect
  split
  · exact .ite ((touches_settleMail _).after rfl <| (touches_finishCmd _ _ _).after rfl <|
      (touches_revivePort _ _).mono rfl) (.refl _)
  · exact .refl _

theorem touches_undoCommand (s r) :
    Touches { regs := true, slices := true, chans := true, seq := true, obs := true, aon := true } s (undoCommand s r) :=
  .ite ((touches_abandonDrain _).after rfl <| (touches_seq _ _).mono rfl) (.ite ((touches_endTransit _).after rfl <|
      (touches_undoPower _).mono rfl) (.refl _))

theorem touches_timeoutEffect (s) : Touches reaction s (timeoutEffect s) := by
  unfold timeoutEffect
  split
  · refine .ite ?_ (.refl _)
    extract_lets u
    have hu : Touches reaction s u := (touches_settleMail _).after rfl <| (touches_finishCmd _ _ _).after rfl <|
        (touches_undoCommand _ _).mono rfl
    exact (touches_report _ _ _).after rfl <| (touches_setBit _ _ _ _).after rfl <| hu
  · exact .refl _

end Sys2Proof.Laws
end

section
/-! SUPPORT. The parts of the state that the operations of Machine/Observe touch. -/

namespace Sys2Proof.Laws

open Sys2Proof.Machine Sys2Proof.Safety

theorem touches_tickCounter (k s i) : Touches { regs := true, obs := true } s (tickCounter k s i) :=
  .ite ((touches_pmuAdd _ _ _ _ _).mono rfl) (.refl _)

theorem touches_tickSet (s k) : Touches { regs := true, obs := true } s (tickSet s k) :=
  .ite (.comp (.forEach (fun _ _ => (touches_tickCounter _ _ _).mono rfl) _ _) <| (touches_setPmuCount _ _ _ _).mono rfl) (.refl _)

theorem touches_tickEffect (s) : Touches { regs := true, tick := true, spine := true, obs := true } s (tickEffect s) :=
  .ite (.comp (.forEach (fun _ _ => (touches_probeTick _ _).mono rfl) _ _) <|
      .comp (.forEach (fun _ _ => (touches_tickSet _ _).mono rfl) _ _) <| (touches_tick _ _).mono rfl) (.refl _)

theorem touches_snapLine (s k) : Touches { free := true } s (snapLine s k).1 := by
  unfold snapLine
  refine .ite_fst (.refl s) ?_
  split
  next a u heq =>
  split
  next b v heq' =>
  exact .snd (a := a) <| .of_snd heq' ((touches_takeFree256 _).comp (.of_snd heq (touches_takeFree256 _)))

theorem touches_snapLines (n s) : Touches { free := true } s (snapLines n s).1 := by
  induction n generalizing s with
  | zero => exact .refl s
  | succ n ih =>
    unfold snapLines
    split
    next u l heq =>
    split
    next v d heq' =>
    exact .of_pair heq' ((touches_snapLine _ _).comp (.of_pair heq (ih s)))

theorem touches_takeSnapshot (s) : Touches { regs := true, obs := true, free := true } s (takeSnapshot s) := by
  have hl := touches_snapLines
  obtain ⟨lines, h⟩ : ∃ f, f = snapLines := ⟨_, rfl⟩
  obtain ⟨take, ht⟩ : ∃ f, f = @takeSnapshot := ⟨_, rfl⟩
  rw [← ht]
  delta takeSnapshot at ht
  rw [← h] at ht hl
  subst ht
  beta_reduce
  extract_lets n o u
  have hu : Touches { regs := true, obs := true, free := true } s u :=
    (touches_setFld _ _ _ _ _).after rfl <| (touches_obs _ _).mono rfl
  have hv : Touches { regs := true, obs := true, free := true } s (lines 24 u).1 := (hl _ _).after rfl hu
  split
  next v l heq =>
  exact (touches_obs _ _).after rfl (.of_pair heq hv)

theorem touches_dumpTickEffect (s) : Touches { regs := true, obs := true, free := true } s (dumpTickEffect s) := by
  unfold dumpTickEffect
  refine .ite ?_ (.refl _)
  extract_lets _ u
  have hu : Touches { regs := true, obs := true, free := true } s u := (touches_obs _ _).mono rfl
  exact .ite ((touches_takeSnapshot _).after rfl <| hu) ((touches_satAdd _ _ _ _ _).after rfl <| hu)

theorem touches_apValue (s n r) : Touches (reaction.plus { pins := true, free := true }) s (apValue s n r).1 := by
  unfold apValue
  split
  · split
    · next u _ heq =>
      have hu : Touches (reaction.plus { pins := true, free := true }) s u := .of_pair heq ((touches_regRead _ _ _).mono rfl)
      exact hu
  · exact .refl _

theorem touches_apData (s r v) : Touches { free := true } s (apData s r v).1 := by
  unfold apData
  extract_lets _ _ _
  split
  · next _ u heq =>
    have hu : Touches { free := true } s u := .of_snd heq ((touches_takeFree256 _).mono rfl)
    extract_lets _
    exact hu

theorem touches_apReadEffect (s n) : Touches (reaction.plus { pins := true, free := true }) s (apReadEffect s n) := by
  unfold apReadEffect
  split
  · refine .ite (.refl _) ?_
    extract_lets u _
    have hu : Touches (reaction.plus { pins := true, free := true }) s u := (touches_apServed _ _ _).mono rfl
    refine .ite hu ?_
    refine .ite ((touches_apSend _ _ _ _).after rfl <| hu) ?_
    split
    · next v _ heq =>
      have hv : Touches (reaction.plus { pins := true, free := true }) s v := .of_pair heq ((touches_apValue _ _ _).after rfl <| hu)
      split
      · next w _ heq =>
        have hw : Touches (reaction.plus { pins := true, free := true }) s w :=
            .of_pair heq ((touches_apData _ _ _).after rfl <| hv)
        exact (touches_apSend _ _ _ _).after rfl <| (touches_apSend _ _ _ _).after rfl <| hw
  · exact .refl _

theorem touches_dumpSend (s t) : Touches { spine := true, obs := true } s (dumpSend s t) := by
  obtain ⟨home, hh⟩ : ∃ f, f = homeOf := ⟨_, rfl⟩
  obtain ⟨send, hs⟩ : ∃ f, f = @dumpSend := ⟨_, rfl⟩
  rw [← hs]
  delta dumpSend at hs
  rw [← hh] at hs
  subst hs
  beta_reduce
  extract_lets _ _ _ u
  have hu : Touches { spine := true, obs := true } s u := (touches_obs _ _).mono rfl
  split
  · exact (touches_obs _ _).mono rfl
  · extract_lets _ _
    exact (touches_launch _ _ _ _).after rfl <| (touches_launch _ _ _ _).after rfl <| hu

theorem touches_dumpLaunch (s t) : Touches { spine := true, obs := true } s (dumpLaunch s t) := by
  unfold dumpLaunch
  extract_lets u _
  have hu : Touches { spine := true, obs := true } s u := (touches_dumpSend _ _).mono rfl
  exact (touches_obs _ _).after rfl <| hu

theorem touches_dumpReissue (s t) : Touches { spine := true, obs := true } s (dumpReissue s t) := by
  unfold dumpReissue
  extract_lets _ _ _ u
  have hu : Touches { spine := true, obs := true } s u := (touches_obs _ _).mono rfl
  exact (touches_dumpSend _ _).after rfl <| hu

theorem touches_dumpNext (s k) : Touches { regs := true, spine := true, obs := true } s (dumpNext s k) := by
  unfold dumpNext
  refine .ite ?_ ?_
  · split
    · exact .refl _
    · extract_lets _ _
      exact (touches_wakeWriters _).after rfl <| (touches_dumpLaunch _ _).after rfl <| (touches_obs _ _).mono rfl
  · refine .ite ?_ (.refl _)
    split
    · exact .refl _
    · extract_lets _
      exact (touches_dumpLaunch _ _).after rfl <| (touches_obs _ _).mono rfl

theorem touches_dumpIssueEffect (s) : Touches { regs := true, spine := true, obs := true } s (dumpIssueEffect s) := by
  unfold dumpIssueEffect
  refine .ite (.refl _) ?_
  split
  · exact (touches_dumpReissue _ _).mono rfl
  · split
    · exact (touches_dumpNext _ _).mono rfl
    · exact .refl _

theorem touches_ringAdvance (s) : Touches { regs := true } s (ringAdvance s) :=
  .ite ((touches_setFld _ _ _ _ _).mono rfl) ((touches_setFld _ _ _ _ _).after rfl <| (touches_setFld _ _ _ _ _).mono rfl)

theorem touches_dumpEnds (s t ok) : Touches { regs := true, obs := true } s (dumpEnds s t ok) := by
  unfold dumpEnds
  extract_lets _ u _
  have hu : Touches { regs := true, obs := true } s u := (touches_obs _ _).mono rfl
  exact .ite (.ite ((touches_ringAdvance _).after rfl <| hu) ((touches_obs _ _).after rfl <|
      hu)) (.ite hu (.ite ((touches_setBit _ _ _ _).after rfl <| (touches_obs _ _).after rfl <|
          hu) (.ite hu ((touches_setBit _ _ _ _).after rfl <| hu))))

theorem touches_dumpMessage (s t r) : Touches { regs := true, obs := true } s (dumpMessage s t r) := by
  unfold dumpMessage
  have set : ∀ x : DumpTxn, Touches { regs := true, obs := true } s
      { s with obs := { s.obs with dumpTxns := mapIf (fun y => y.txn == t.txn) (fun _ => x) s.obs.dumpTxns } } :=
    fun _ => (touches_obs _ _).mono rfl
  refine .ite ((touches_dumpEnds _ _ _).mono rfl) (.ite ((touches_dumpEnds _ _ _).mono rfl) ?_)
  exact .ite (set _) (.ite (set _) (.refl s))

theorem touches_dumpResponseEffect (s) : Touches { regs := true, obs := true } s (dumpResponseEffect s) := by
  unfold dumpResponseEffect
  split
  · exact .refl _
  · extract_lets _ u
    have hu : Touches { regs := true, obs := true } s u := (touches_obs _ _).mono rfl
    split
    · split
      · exact (touches_dumpMessage _ _ _).after rfl <| hu
      · exact hu
    · exact hu

theorem touches_flushEffect (s) : Touches { obs := true } s (flushEffect s) := by
  unfold flushEffect
  refine .ite ?_ (.refl _)
  extract_lets _ _
  exact (touches_obs _ _).mono rfl

end Sys2Proof.Laws
end

section
/-! PROOF. Every step keeps the register file and DRAM in canonical form (O22). -/

namespace Sys2Proof.Proofs

open Sys2Proof.Machine Sys2Proof.Safety Sys2Proof.Laws

/-- Every part of the state. -/
def anyPart : Parts := reaction.plus { tick := true, dram := true, mirror := true, pins := true, undef := true, free := true }

/-- What a command keeps in canonical form. -/
def KeepsForm (s : State) (o : Host.Outcome State Fault Refusal) : Prop := Canonical s → ∀ t, o = .next t → Canonical t

theorem KeepsForm.resume {K : Parts} {s u : State} (h : Touches K s u) : KeepsForm s (resume s u) := by
  intro hs t ht
  cases ht
  exact h.canonical hs

theorem KeepsForm.guarded {K : Parts} {s u : State} (h : Touches K s u) : KeepsForm s (guarded s u) := by
  cases hundef : s.undef with
  | true =>
    intro _ t ht
    rw [guarded_undefined u hundef] at ht
    cases ht
  | false =>
    rw [guarded_defined u hundef]
    exact .resume h

theorem keepsForm_exec (s : State) : ∀ c : Instr, KeepsForm s (exec c s)
  | .resetAssert _ => .resume (touches_resetAssertEffect _ _)
  | .resetRelease _ _ _ _ _ => .resume (touches_resetReleaseEffect _ _ _ _ _ _)
  | .alwaysOnPowerOn => .resume (touches_aonPowerOnEffect _)
  | .supplyExcursion _ => .resume (touches_supplyEffect _ _)
  | .vddCoreRemove => .resume (touches_coreRemoveEffect _)
  | .perstAssert => .guarded (touches_perstAssertEffect _)
  | .perstRelease => .guarded (touches_twin _ _)
  | .agentResetAssert _ => .guarded (touches_agentResetEffect _ _)
  | .agentResetRelease _ => .guarded (touches_agentReleaseEffect _ _)
  | .timebaseLock => .guarded (touches_timebaseLockEffect _)
  | .timebaseLoss => .guarded (touches_timebaseLossEffect _)
  | .refclkReturn => .guarded (touches_refclkReturnEffect _)
  | .calendarLoss => .resume (touches_calendarLossEffect _)
  | .calendarSecond => .resume (touches_calendarSecondEffect _)
  | .tempUpd _ => .guarded (touches_tempUpdEffect _ _)
  | .tempStale => .guarded (touches_tempStaleEffect _)
  | .overTemperature => .guarded (touches_overTempEffect _)
  | .fuseSample _ => .guarded (touches_fuseSampleEffect _ _)
  | .lcAdvDone => .guarded (touches_advDoneEffect _)
  | .lifecycleAdvanceTimeout => .guarded (touches_advTimeoutEffect _)
  | .keyBeat _ _ _ => .guarded (touches_keyBeatEffect _ _ _ _)
  | .registerWrite _ _ => .guarded (touches_cpWrite _ _ _)
  | .cpReqRelease => .guarded (touches_cpReleaseEffect _)
  | .tbLoRead => .guarded (touches_cpRead _ _)
  | .probeCntLoRead _ => .guarded (touches_cpRead _ _)
  | .counterLoRead _ _ _ => .guarded (touches_counterLoEffect _ _ _ _)
  | .hazCntRead _ => .guarded (touches_cpRead _ _)
  | .filterInspectRead _ _ => .guarded (touches_inspectEffect _ _ _ _)
  | .twnWCommit _ => .guarded (touches_cpWrite _ _ _)
  | .linkEn _ => .guarded (touches_cpWriteField _ _ _ _ _)
  | .pwrReq _ => .guarded (touches_cpWriteField _ _ _ _ _)
  | .pmuClear _ => .guarded (touches_pmuClearEffect _ _)
  | .probeClear _ => .guarded (touches_cpWriteField _ _ _ _ _)
  | .dumpEnable => .guarded (touches_cpWriteField _ _ _ _ _)
  | .trcEnable _ => .guarded (touches_cpWriteField _ _ _ _ _)
  | .trcWrHi _ => .guarded (touches_cpWrite _ _ _)
  | .dropRest _ => .guarded (touches_dropRestEffect _ _)
  | .trcLogPop => .guarded (touches_cpWrite _ _ _)
  | .cmdWr _ => .guarded (touches_cpWrite _ _ _)
  | .cmdRd => .guarded (touches_cpRead _ _)
  | .flush => .guarded (touches_cpWriteField _ _ _ _ _)
  | .partnerMailboxWrite _ => .guarded (touches_partnerWriteEffect _ _)
  | .partnerMailboxRead _ => .guarded (touches_partnerReadEffect _ _)
  | .replyMove _ => .guarded (.ite (touches_replyMoveEffect _ _) (.refl _))
  | .getInfo _ => .guarded (touches_takePacket (K := anyPart) _ _ _ _ rfl fun _ _ => (touches_answer _ _ _ _).mono rfl)
  | .setMode _ => .guarded (touches_takePacket (K := anyPart) _ _ _ _ rfl fun _ _ => (touches_setModeAct _ _).mono rfl)
  | .getMode _ => .guarded (touches_takePacket (K := anyPart) _ _ _ _ rfl fun _ _ => (touches_answer _ _ _ _).mono rfl)
  | .trainChannel _ => .guarded (touches_takePacket (K := anyPart) _ _ _ _ rfl fun _ _ => (touches_startRun _ _ _ _).mono rfl)
  | .initMemory _ => .guarded (touches_takePacket (K := anyPart) _ _ _ _ rfl fun _ _ => (touches_initMemoryAct _ _).mono rfl)
  | .scrubCtl _ => .guarded (touches_takePacket (K := anyPart) _ _ _ _ rfl fun _ _ => (touches_scrubAct _ _).mono rfl)
  | .regionSet _ => .guarded (touches_regionSetEffect _ _)
  | .regionGet _ => .guarded (touches_takePacket (K := anyPart) _ _ _ _ rfl fun _ _ => (touches_regionGetAct _ _).mono rfl)
  | .realmOpen _ => .guarded (touches_takePacket (K := anyPart) _ _ _ _ rfl fun _ _ => (touches_realmOpenAct _ _).mono rfl)
  | .realmRetire _ => .guarded (touches_takePacket (K := anyPart) _ _ _ _ rfl fun _ _ => (touches_realmRetireAct _ _).mono rfl)
  | .mirrorCfg _ => .guarded (touches_takePacket (K := anyPart) _ _ _ _ rfl fun _ _ => (touches_mirrorCfgAct _ _).mono rfl)
  | .failover _ => .guarded (touches_takePacket (K := anyPart) _ _ _ _ rfl fun _ _ => (touches_failoverAct _ _).mono rfl)
  | .slicePower _ => .guarded (touches_takePacket (K := anyPart) _ _ _ _ rfl fun _ _ => (touches_slicePowerAct _ _).mono rfl)
  | .accordCfg _ => .guarded (touches_takePacket (K := anyPart) _ _ _ _ rfl fun _ _ => (touches_accordAct _ _).mono rfl)
  | .ledgerExport _ => .guarded (touches_takePacket (K := anyPart) _ _ _ _ rfl fun _ _ => (touches_exportAct _ _).mono rfl)
  | .ledgerImport _ => .guarded (touches_takePacket (K := anyPart) _ _ _ _ rfl fun _ _ => (touches_importAct _ _).mono rfl)
  | .calendarSet _ => .guarded (touches_takePacket (K := anyPart) _ _ _ _ rfl fun _ _ => (touches_calendarAct _ _).mono rfl)
  | .lifecycleAdvance _ => .guarded (touches_takePacket (K := anyPart) _ _ _ _ rfl fun _ _ => (touches_advanceAct _ _).mono rfl)
  | .wipe _ => .guarded (touches_takePacket (K := anyPart) _ _ _ _ rfl fun _ _ => (touches_wipeAct _ _).mono rfl)
  | .blotterArm _ => .guarded (touches_takePacket (K := anyPart) _ _ _ _ rfl fun _ _ => (touches_blotterAct _ _).mono rfl)
  | .faultClear _ => .guarded (touches_takePacket (K := anyPart) _ _ _ _ rfl fun _ _ => (touches_faultClearAct _ _).mono rfl)
  | .slotTableLoad _ => .guarded (touches_takePacket (K := anyPart) _ _ _ _ rfl fun _ _ => (touches_slotTableAct _ _).mono rfl)
  | .agentFence _ => .guarded (touches_takePacket (K := anyPart) _ _ _ _ rfl fun _ _ => (touches_agentFenceAct _ _).mono rfl)
  | .agentRevive _ => .guarded (touches_takePacket (K := anyPart) _ _ _ _ rfl fun _ _ => (touches_reviveAct _ _).mono rfl)
  | .agentReviveComplete => .guarded (touches_reviveDoneEffect _)
  | .commandTimeout => .guarded (touches_timeoutEffect _)
  | .patchApply => .guarded (touches_cpWrite _ _ _)
  | .patchVerifyComplete _ => .guarded (touches_patchVerifyEffect _ _)
  | .reqFlit _ _ _ => .guarded (touches_reqFlitEffect _ _ _ _)
  | .rspInboundFlit _ _ _ => .guarded (touches_rspFlitEffect _ _ _ _)
  | .datInboundFlit _ _ _ => .guarded (touches_datFlitEffect _ _ _ _)
  | .creditReturn _ _ _ => .guarded (touches_creditReturnEffect _ _ _ _)
  | .egressPresent _ _ _ => .guarded (touches_egressEffect _ _ _ _)
  | .wdogEgress _ _ _ => .guarded (touches_wdogEgressEffect _ _ _ _)
  | .wdogData _ _ => .guarded (touches_wdogDataEffect _ _ _)
  | .wdogGrantack _ _ _ => .guarded (touches_wdogAckEffect _ _ _ _)
  | .wdogCredit _ _ => .guarded (touches_wdogCreditEffect _ _ _)
  | .routerHop _ _ _ _ => .guarded (touches_routerHopEffect _ _ _ _ _ _ _)
  | .outputArbitration _ _ => .guarded (touches_outputEffect _ _ _)
  | .requestIngress _ => .guarded (touches_requestIngressEffect _ _)
  | .rdShared _ _ => .guarded (touches_activation _ _ _ _ _)
  | .rdUnique _ _ => .guarded (touches_activation _ _ _ _ _)
  | .rdOnce _ _ => .guarded (touches_activation _ _ _ _ _)
  | .upgrade _ _ => .guarded (touches_activation _ _ _ _ _)
  | .rdWalk _ _ => .guarded (touches_activation _ _ _ _ _)
  | .wbDirty _ => .guarded (touches_noticeEffect _ _ _)
  | .evClean _ => .guarded (touches_noticeEffect _ _ _)
  | .wrInvFull _ _ => .guarded (touches_activation _ _ _ _ _)
  | .wrInvPartial _ _ => .guarded (touches_activation _ _ _ _ _)
  | .atomic _ _ => .guarded (touches_activation _ _ _ _ _)
  | .wbKeep _ _ => .guarded (touches_activation _ _ _ _ _)
  | .wbDrop _ _ => .guarded (touches_activation _ _ _ _ _)
  | .discard _ _ => .guarded (touches_activation _ _ _ _ _)
  | .xlatInv _ => .guarded (touches_xlatInvEffect _ _)
  | .xlatSync _ => .guarded (touches_xlatSyncEffect _ _)
  | .apRead _ => .guarded (.ite (touches_apReadEffect _ _) (.refl _))
  | .apWrite _ => .guarded (.ite (touches_apWriteEffect _ _) (.refl _))
  | .snpAck _ => .guarded (touches_snpAckEffect _ _)
  | .xlatDone _ => .guarded (touches_xlatDoneEffect _ _)
  | .grantAck _ => .guarded (touches_grantAckEffect _ _ _)
  | .dataWb _ => .guarded (touches_dataWbEffect _ _)
  | .lineReadComplete _ _ _ _ => .guarded (touches_lineReadEffect _ _ _ _ _)
  | .holdWindowExpire _ _ => .guarded (touches_holdExpireEffect _ _ _ _)
  | .snoopTimeout _ _ => .guarded (touches_snoopTimeoutEffect _ _ _)
  | .reclaimScan _ => .guarded (touches_reclaimScanEffect _ _)
  | .creditGrant _ => .guarded (touches_creditGrantEffect _ _)
  | .hazardWatchExpire _ _ => .guarded (touches_hazardExpireEffect _ _ _)
  | .xlatSyncSignal _ => .guarded (touches_xlatSignalEffect _ _)
  | .filterScrub _ _ => .guarded (touches_filterScrubEffect _ _ _)
  | .epochBoundary => .guarded (touches_epochEffect _)
  | .commandSlot _ => .guarded (touches_commandSlotEffect _ _)
  | .schedulerDecision _ => .guarded (touches_schedulerEffect _ _)
  | .refreshInterval _ _ => .guarded (touches_refreshIntervalEffect _ _ _)
  | .rowIdleTimeout _ _ _ => .guarded (touches_rowIdleEffect _ _ _ _)
  | .mr4Read _ _ _ _ => .guarded (touches_mr4Effect _ _ _ _ _)
  | .zqLatch _ _ => .guarded (touches_zqEffect _ _ _)
  | .dqsOscillatorRead _ _ _ => .guarded (touches_dqsEffect _ _ _ _)
  | .scrubInterval _ => .guarded (touches_scrubEffect _ _)
  | .returnArbiterDecision _ => .guarded (touches_arbiterEffect _ _)
  | .paceWindowEnd _ _ _ => .guarded (touches_paceEffect _ _ _ _)
  | .canaryEvent _ => .guarded (touches_canaryEffect _ _)
  | .faultEvent _ _ => .guarded (touches_faultEventEffect _ _ _)
  | .classificationWindowExpire _ _ => .guarded (touches_windowExpireEffect _ _ _)
  | .faultUnitSweep _ _ => .guarded (touches_sweepEffect _ _ _)
  | .drydownExpire => .guarded (touches_drydownEffect _)
  | .calibrationComplete _ _ _ => .guarded (touches_calibrationEffect _ _ _ _)
  | .sramSelfTestComplete => .guarded (touches_selfTestEffect _)
  | .trainingComplete _ _ => .guarded (touches_trainingEffect _ _ _)
  | .modeTransitionComplete => .guarded (touches_modeTransitionEffect _)
  | .drainComplete => .guarded (touches_drainCompleteEffect _)
  | .wipeComplete => .guarded (touches_wipeCompleteEffect _)
  | .retentionWake => .guarded (touches_retentionWakeEffect _)
  | .entryMoveComplete => .guarded (touches_entryMoveEffect _)
  | .sliceDrained _ => .guarded (touches_sliceDrainedEffect _ _)
  | .sliceDomainOff _ => .guarded (touches_sliceOffEffect _ _)
  | .twinDomainOff => .guarded (touches_twinOffEffect _)
  | .linkTrainingStart => .guarded (touches_trainStartEffect _)
  | .linkUp _ _ => .guarded (touches_linkUpEffect _ _ _)
  | .linkDown => .guarded (touches_linkDownEffect _)
  | .hotReset => .guarded (.ite (touches_linkReset _) (.refl _))
  | .configRequest _ _ _ _ => .guarded (touches_configEffect _ _ _ _ _)
  | .flr => .guarded (.ite (touches_flrEffect _) (.refl _))
  | .busMasterEnableClear => .guarded (touches_bmeClearEffect _)
  | .d3hotEntry => .guarded (touches_d3Effect _)
  | .inboundMemWrite _ => .guarded (touches_memWriteEffect _ _)
  | .inboundMemRead _ => .guarded (touches_memReadEffect _ _)
  | .bar0Access _ _ _ => .guarded (touches_bar0Effect _ _ _ _)
  | .twinLineIssue => .guarded (touches_lineIssueEffect _)
  | .twinLineResponse => .guarded (.ite (touches_lineResponseEffect _) (.refl _))
  | .inboundTlpError _ => .guarded (touches_tlpErrorEffect _ _)
  | .completionReceive _ _ => .guarded (touches_completionEffect _ _ _)
  | .completionTimeout _ => .guarded (touches_cplTimeoutEffect _ _)
  | .quarantineExpire _ => .guarded (touches_quarantineEffect _ _)
  | .aspmL1Request => .guarded (touches_l1Effect _)
  | .mirrorWriteSend => .guarded (touches_mirrorSendEffect _)
  | .flushReadIssue => .guarded (touches_flushIssueEffect _)
  | .syncTimeout => .guarded (touches_syncTimeoutEffect _)
  | .copierGranule => .guarded (touches_copierEffect _)
  | .heartbeatTransmit => .guarded (touches_beatEffect _)
  | .heartbeatMiss => .guarded (touches_missEffect _)
  | .presenceChange _ => .guarded (touches_presenceEffect _ _)
  | .attentionPress => .guarded (touches_attentionEffect _)
  | .blinkPhase => .guarded (touches_blinkEffect _)
  | .faultBlinkPhase => .guarded (touches_faultBlinkEffect _)
  | .dumpTick => .guarded (touches_dumpTickEffect _)
  | .dumpWriterIssue => .guarded (touches_dumpIssueEffect _)
  | .dumpWriterResponse => .guarded (.ite (touches_dumpResponseEffect _) (.refl _))
  | .sillageFlush => .guarded (touches_flushEffect _)
  | .tick => .guarded (touches_tickEffect _)
  | .rcRegisterRead _ => .guarded (touches_cpRead _ _)
  | .calLoRead => .guarded (touches_cpRead _ _)
  | .aonClkReturn => .resume (touches_aonReturnEffect _)
  | .keyReqRelease => .guarded (touches_keyReleaseEffect _)
  | .flrComplete => .guarded (touches_flrDoneEffect _)

/-- Settles O22: each command's operations only set, reset or drop cells of the register file and of DRAM, and each of these keeps
the canonical form. -/
theorem everyStepKeepsCanonicalForm : Obligations.EveryStepKeepsCanonicalForm := by
  unfold Obligations.EveryStepKeepsCanonicalForm
  intro s t hs ht
  cases hp : s.pending with
  | nil =>
    rw [step_nil hp] at ht
    cases ht
    exact hs
  | cons c rest =>
    rw [step_cons hp] at ht
    exact keepsForm_exec { s with pending := rest } c hs t ht

end Sys2Proof.Proofs
end

section
/-! SUPPORT. What a command completes with, when the parts of the state that it touches are known. -/

namespace Sys2Proof.Proofs

open Sys2Proof.Machine Sys2Proof.Safety Sys2Proof.Laws

variable {K : Parts} {c : Instr} {s u : State} {P : State → Prop}

theorem resume_touched (h : Touches K s u) (hk : K.pending = false) : resume s u = .next u := by
  rw [resume_eq, ← h.pending hk]

theorem guarded_touched (h : Touches K s u) (hk : K.pending = false) (hdef : s.undef = false) : guarded s u = .next u :=
  (guarded_defined u hdef).trans (resume_touched h hk)

theorem completes_touched (hc : exec c s = guarded s u) (hdef : s.undef = false) (h : Touches K s u) (hk : K.pending = false)
    (hP : P u) : Completes c s P :=
  ⟨u, hc.trans (guarded_touched h hk hdef), hP⟩

theorem getReg_congr (h : u.regs = s.regs) (a : Nat) : getReg u a = getReg s a := by rw [getReg, getReg, h]

theorem getFld_congr (h : u.regs = s.regs) (a lo n : Nat) : getFld u a lo n = getFld s a lo n := by
  rw [getFld, getFld, getReg_congr h]

theorem getBit_congr (h : u.regs = s.regs) (a i : Nat) : getBit u a i = getBit s a i := by
  rw [getBit, getBit, getReg_congr h]

theorem not_not_true {b : Bool} (h : b = true) : ¬ (!b) = true := by
  rw [h]
  decide

theorem onlyRegs_of_touches (h : Touches { regs := true } s u) : OnlyRegs s u := by
  have hf := h.frame
  unfold OnlyRegs
  rw [hf]
  rfl

end Sys2Proof.Proofs
end

section
/-! PROOF. Resets, training and the state of the twin link (O24). -/

namespace Sys2Proof.Proofs

open Sys2Proof.Machine Sys2Proof.Safety Sys2Proof.Laws

/-- The reset state of the endpoint. -/
def LinkAtReset (t : State) : Prop :=
  t.twin.up = false ∧ t.twin.training = false ∧ t.twin.cfg = [] ∧ t.twin.msix = [] ∧ t.twin.d3 = false ∧ t.twin.l1 = false ∧
  t.twin.flrDue = none ∧ t.twin.latched = getReg t 0x310000

theorem linkAtReset_twin (v : State) : LinkAtReset { v with twin := { v.twin with
    up := false, training := false, speed := 0, width := 0, latched := getReg v 0x310000, cfg := [], msix := [], flrDue := none,
    d3 := false, l1 := false } } := by
  unfold LinkAtReset
  generalize 0x310000 = a
  exact ⟨rfl, rfl, rfl, rfl, rfl, rfl, rfl, rfl⟩

theorem linkReset_atReset (s : State) : LinkAtReset (linkReset s) :=
  linkAtReset_twin (clearJobs (muteJobs (resetWindows (mirrorBreak (abandonReads s)))))

theorem completes_linkReset {c : Instr} {s u : State} (hdef : s.undef = false) (hc : exec c s = guarded s (linkReset u))
    (hu : u.pending = s.pending) : Completes c s LinkAtReset := by
  refine ⟨linkReset u, ?_, linkReset_atReset u⟩
  rw [hc, guarded_defined _ hdef, resume_eq, ← hu, ← (touches_linkReset u).pending rfl]

/-- Settles O24: the three resets of the link run `linkReset`, and the other clauses are the branches of their effects. -/
theorem twinLinkResetsAndTraining : Obligations.TwinLinkResetsAndTraining := by
  unfold Obligations.TwinLinkResetsAndTraining
  refine ⟨?resets, ?domainOff, ?levelOnly, ?release, ?training, ?up⟩
  case resets =>
    rintro s c ⟨hdef, hrun⟩ (⟨rfl, hlow, hpwr⟩ | ⟨rfl, hup⟩ | ⟨rfl, hup⟩)
    · refine completes_linkReset (u := { s with twin := { s.twin with perstLow := true } }) hdef (congrArg (guarded s) ?_) rfl
      unfold perstAssertEffect
      rw [if_neg (by simp [hlow])]
      exact (if_neg (not_not_true hrun)).trans (if_pos hpwr)
    · exact completes_linkReset hdef (congrArg (guarded s) (if_pos (by simp [hrun, hup]))) rfl
    · exact completes_linkReset hdef (congrArg (guarded s) (if_pos (by simp [hrun, hup]))) rfl
  case domainOff =>
    rintro s ⟨hdef, hrun⟩ hlow hpwr
    refine completes_touched (congrArg (guarded s) ?_) hdef
      ((touches_resetWindows { s with twin := { s.twin with perstLow := true } }).after rfl <| (touches_twin s _).mono rfl :
        Touches { regs := true, twin := true } _ _) rfl rfl
    unfold perstAssertEffect
    rw [if_neg (by simp [hlow])]
    exact (if_neg (not_not_true hrun)).trans (if_neg (ne_true_of_eq_false hpwr))
  case levelOnly =>
    intro s hdef hcase
    refine completes_touched (congrArg (guarded s) ?_) hdef (touches_twin s { s.twin with perstLow := true }) rfl rfl
    unfold perstAssertEffect
    by_cases hlow : s.twin.perstLow = true
    · rw [if_pos hlow, ← hlow]
    · rw [if_neg hlow]
      exact if_pos (congrArg (!·) (hcase.resolve_right hlow))
  case release =>
    intro s hdef
    exact completes_touched rfl hdef (touches_twin s _) rfl rfl
  case training =>
    intro s hdef hper hup
    refine completes_touched (congrArg (guarded s) ?_) hdef (touches_twin s { s.twin with training := true }) rfl rfl
    unfold trainStartEffect
    exact if_pos (by simp [hper, hup])
  case up =>
    intro s speed width hdef hper htrain
    have hrec := touches_mirrorRecover { s with twin := { s.twin with
      training := false, up := true, speed := BitVec.ofNat 3 (min speed.toNat (maxSpeed s)),
      width := BitVec.ofNat 3 (min width.toNat (maxWidth s)) } }
    refine completes_touched (congrArg (guarded s) (if_pos (by simp [hper, htrain]))) hdef
      (hrec.after rfl <| (touches_twin s _).mono rfl : Touches { regs := true, twin := true } _ _) rfl ⟨hrec.twin rfl, ?_⟩
    rw [hrec.twin rfl]
    exact onlyRegs_of_touches hrec

end Sys2Proof.Proofs
end

section
/-! PROOF. Function Level Reset and configuration requests (O25). -/

namespace Sys2Proof.Proofs

open Sys2Proof.Machine Sys2Proof.Safety Sys2Proof.Laws

theorem cfgByte_setCfgByte_ne (s : State) {a b : Nat} (v : BitVec 8) (h : b ≠ a) : cfgByte (setCfgByte s a v) b = cfgByte s b :=
  cellsGet_set_ne s.twin.cfg v h

/-- The end of a Function Level Reset, on the state that the mirror and the jobs have left. -/
theorem flr_reset (v : State) (x : BitVec 8) (due : Nat) {t : State} (ht : t = setCfgByte { v with twin := { v.twin with
      cfg := cellsDrop (fun a => !flrKeeps a) v.twin.cfg, msix := [], d3 := false, flrDue := some due } } 0x78 x) :
    t.twin.d3 = false ∧ t.twin.msix = [] ∧ t.twin.flrDue = some due ∧ ∀ a, flrKeeps a = false → a ≠ 0x78 → cfgByte t a = 0 := by
  subst ht
  refine ⟨rfl, rfl, rfl, fun a hkeep hne => ?_⟩
  rw [cfgByte_setCfgByte_ne _ _ hne]
  exact cellsGet_drop_same (fun a => !flrKeeps a) (congrArg (!·) hkeep) v.twin.cfg

theorem flrEffect_up {s : State} (hup : s.twin.up = true) (hdue : s.twin.flrDue = none) :
    (flrEffect s).twin.d3 = false ∧ (flrEffect s).twin.msix = [] ∧ (flrEffect s).twin.flrDue = some (s.tick + 1000000) ∧
      ∀ a, flrKeeps a = false → a ≠ 0x78 → cfgByte (flrEffect s) a = 0 := by
  have hv : Touches (reaction.plus { dram := true, mirror := true, free := true }) s
      (clearJobs (muteJobs (resetWindows (mirrorBreak (abandonReads s))))) :=
    (touches_clearJobs _).after rfl <| (touches_muteJobs _).after rfl <| (touches_resetWindows _).after rfl <|
      (touches_mirrorBreak _).after rfl <| (touches_abandonReads s).mono rfl
  have htick := hv.tick rfl
  rw [← htick]
  refine flr_reset (clearJobs (muteJobs (resetWindows (mirrorBreak (abandonReads s))))) (cfgByte s 0x78 &&& 0xE0) _ ?_
  exact if_pos (by rw [hup, hdue]; rfl)

theorem powerWord_of_ne {s : State} {a : Nat} {v : Word} (h : a ≠ 0x44) : powerWord s a v = v := if_neg fun hc => h hc.1

theorem cfgActs_elsewhere {s : State} {a : Nat} {be : BitVec 4} {v : Word} {b : Bool} (h4 : a ≠ 4) (h44 : a ≠ 0x44) (h78 : a ≠ 0x78)
    (hm : ¬ (0x1A8 ≤ a ∧ a ≤ 0x1B4)) : cfgActs s a be v b = s := by
  rw [cfgActs, if_neg h4, if_neg fun hc => h44 hc.1, if_neg fun hc => h78 hc.1, if_neg hm]

theorem configEffect_trained {s : State} (hrun : running s = true) (hlink : (s.twin.up || s.twin.training) = true) (write : Bool)
    (a : BitVec 12) (be : BitVec 4) (d : Word) : configEffect s write a be d =
      if s.twin.flrDue.isSome then twinOut s (.cpl 0 0 2 [] false)
      else if write then twinOut (cfgActs (cfgWrite s (a.toNat / 4 * 4) be (powerWord s (a.toNat / 4 * 4) d)) (a.toNat / 4 * 4) be
        (powerWord s (a.toNat / 4 * 4) d) (busMaster s)) (.cpl 0 0 0 [] false)
      else twinOut s (.cpl 0 0 0 ((List.range 4).map (fun i => (cfgRead s (a.toNat / 4 * 4)).extractLsb' (8 * i) 8)) false) := by
  rw [configEffect, if_neg (by rw [hrun, hlink]; decide)]

/-- Settles O25: the reset drops the bytes that it does not keep, and a request is answered by the branch its link and dword
choose. -/
theorem functionResetAndConfiguration : Obligations.FunctionResetAndConfiguration := by
  unfold Obligations.FunctionResetAndConfiguration
  refine ⟨?reset, ?complete, ?retry, ?read, ?write⟩
  case reset =>
    rintro s ⟨hdef, hrun⟩ hup hdue
    exact completes_touched (congrArg (guarded s) (if_pos hrun)) hdef (touches_flrEffect s) rfl (flrEffect_up hup hdue)
  case complete =>
    intro s hdef
    exact completes_touched rfl hdef (touches_flrDoneEffect s) rfl rfl
  case retry =>
    rintro s write a be d ⟨hdef, hrun⟩ hlink hflr
    refine completes_touched rfl hdef (touches_configEffect s write a be d) rfl ?_
    rw [configEffect_trained hrun hlink, if_pos hflr]
  case read =>
    rintro s a be d ⟨hdef, hrun⟩ hlink hflr
    refine completes_touched rfl hdef (touches_configEffect s false a be d) rfl ?_
    rw [configEffect_trained hrun hlink, if_neg (by rw [hflr]; decide), if_neg (by decide)]
  case write =>
    rintro s a be d ⟨hdef, hrun⟩ hlink hflr h4 h44 h78 hm
    refine completes_touched rfl hdef (touches_configEffect s true a be d) rfl ?_
    rw [configEffect_trained hrun hlink, if_neg (by rw [hflr]; decide), if_pos rfl, powerWord_of_ne h44,
      cfgActs_elsewhere h4 h44 h78 hm]

end Sys2Proof.Proofs
end

section
/-! SUPPORT. A sweep that touches one register of each unit, and the windows of the mirror. -/

namespace Sys2Proof.Proofs

open Sys2Proof.Machine Sys2Proof.Safety Sys2Proof.Laws

theorem keepsMemory_of_touches {K : Parts} {s t : State} (h : Touches K s t) (hd : K.dram = false) (hs : K.slices = false)
    (hc : K.chans = false) : KeepsMemory s t := ⟨h.dram hd, h.slices hs, h.chans hc⟩

/-- Step `n` of `f` touches register `A n` alone, and does to it what it finds in it. -/
structure OwnRegister (A : Nat → Nat) (f : State → Nat → State) : Prop where
  inj : ∀ i j, A i = A j → i = j
  others : ∀ s n a, a ≠ A n → getReg (f s n) a = getReg s a
  own : ∀ s t n, getReg s (A n) = getReg t (A n) → getReg (f s n) (A n) = getReg (f t n) (A n)

variable {A : Nat → Nat} {f : State → Nat → State}

theorem forEach_others (h : ∀ s n a, a ≠ A n → getReg (f s n) a = getReg s a) (s : State) {a : Nat} : ∀ n, (∀ i, i < n → a ≠ A i) →
    getReg (forEach n s f) a = getReg s a
  | 0, _ => rfl
  | n + 1, ha => by
    rw [forEach_succ, h _ _ _ (ha n (by omega))]
    exact forEach_others h s n fun i hi => ha i (by omega)

theorem OwnRegister.own_forEach (h : OwnRegister A f) (s : State) {w : Nat} : ∀ n, w < n →
    getReg (forEach n s f) (A w) = getReg (f s w) (A w)
  | n + 1, hw => by
    rw [forEach_succ]
    by_cases hn : w = n
    · subst hn
      exact h.own _ _ _ (forEach_others h.others s w fun i hi he => by have := h.inj _ _ he; omega)
    · rw [h.others _ _ _ fun he => hn (h.inj _ _ he)]
      exact h.own_forEach s n (by omega)

/-- The register that holds the state of window `w`. -/
def mwReg (w : Nat) : Nat := mwBase w + 0xC

theorem mwReg_inj (i j : Nat) (h : mwReg i = mwReg j) : i = j := by
  unfold mwReg mwBase at h
  omega

/-- A sweep that moves to state `st` the windows that `c` picks by their register. -/
theorem ownRegister_mwMove {c : State → Nat → Bool} (st : Nat) (hc : ∀ s t w, getReg s (mwReg w) = getReg t (mwReg w) → c s w = c t w) :
    OwnRegister mwReg (fun s w => if c s w then mwMove s w st else s) where
  inj := mwReg_inj
  others s w a ha := by
    split
    · exact getReg_setFld_ne s 2 2 st ha
    · rfl
  own s t w h := by
    have moved : ∀ u, getReg (mwMove u w st) (mwReg w) = bitsTo (getReg u (mwReg w)) 2 2 st := fun u =>
      getReg_setReg_same u (mwReg w) _
    rw [hc s t w h]
    split
    · rw [moved, moved, h]
    · exact h

theorem mwState_mwMove (s : State) (w : Nat) {st : Nat} (h : st < 4) : mwState (mwMove s w st) w = st := by
  rw [mwState, mwMove, getFld_setFld_same _ _ _ (by omega)]
  omega

theorem mwState_congr {s t : State} {w : Nat} (h : getReg s (mwReg w) = getReg t (mwReg w)) : mwState s w = mwState t w :=
  congrArg (fun v => bitsOf v 2 2) h

theorem mwEn_congr {s t : State} {w : Nat} (h : getReg s (mwReg w) = getReg t (mwReg w)) : mwEn s w = mwEn t w :=
  congrArg (fun v => bitOf v 0) h

/-- The loss of bus mastering moves a window in step behind. -/
theorem mwState_busMasterLost (s : State) {w : Nat} (hw : w < 16) (hen : mwEn s w = true) (hst : mwState s w = 1) :
    mwState (busMasterLost s) w = 2 := by
  have hown := (ownRegister_mwMove (c := fun s w => mwEn s w && mwState s w == 1) 2
    fun s t w h => by rw [mwEn_congr h, mwState_congr h]).own_forEach s 16 hw
  rw [show mwState (busMasterLost s) w = mwState (mwMove s w 2) w from ?_, mwState_mwMove s w (by decide)]
  refine mwState_congr (hown.trans ?_)
  rw [if_pos (by rw [hen, hst]; rfl)]

end Sys2Proof.Proofs
end

section
/-! PROOF. Power states of the endpoint, its domain, and the bay (O26). -/

namespace Sys2Proof.Proofs

open Sys2Proof.Machine Sys2Proof.Safety Sys2Proof.Laws

theorem busMaster_cleared (s : State) : busMaster (setCfgByte s 4 (cfgByte s 4 &&& 0xFB)) = false := by
  rw [busMaster, show cfgByte (setCfgByte s 4 (cfgByte s 4 &&& 0xFB)) 4 = cfgByte s 4 &&& 0xFB from
    cellsGet_set_same s.twin.cfg 4 (cfgByte s 4 &&& 0xFB), BitVec.getLsbD_and]
  exact Bool.and_eq_false_imp.mpr fun _ => by decide

theorem cfgByte_congr {s t : State} (h : t.twin = s.twin) (a : Nat) : cfgByte t a = cfgByte s a := by rw [cfgByte, cfgByte, h]

/-- What the clear of Bus Master Enable does. -/
theorem busMasterLost_cleared (s : State) : busMaster (busMasterLost (setCfgByte s 4 (cfgByte s 4 &&& 0xFB))) = false ∧
    (∀ a, a ≠ 4 → cfgByte (busMasterLost (setCfgByte s 4 (cfgByte s 4 &&& 0xFB))) a = cfgByte s a) ∧
    (∀ w, w < 16 → mwEn s w = true → mwState s w = 1 →
      mwState (busMasterLost (setCfgByte s 4 (cfgByte s 4 &&& 0xFB))) w = 2) := by
  have htwin := (touches_busMasterLost (setCfgByte s 4 (cfgByte s 4 &&& 0xFB))).twin rfl
  refine ⟨?_, fun a ha => ?_, fun w hw hen hst => ?_⟩
  · exact (congrArg (fun b : BitVec 8 => b.getLsbD 2) (cfgByte_congr htwin 4)).trans (busMaster_cleared s)
  · rw [cfgByte_congr htwin, cfgByte_setCfgByte_ne s _ ha]
  · exact mwState_busMasterLost (setCfgByte s 4 (cfgByte s 4 &&& 0xFB)) hw hen hst

theorem twinOffEffect_off {s : State} (hrun : running s = true) (hpwr : twinPwr s = true) (hen : getBit s 0x310000 9 = false)
    (hq : twinQuiet s = true) : twinPwr (twinOffEffect s) = false ∧ getBit (twinOffEffect s) 0x300008 8 = true ∧
      (twinOffEffect s).twin.cfg = [] ∧ (twinOffEffect s).twin.msix = [] ∧ (twinOffEffect s).twin.jobs = [] ∧
      (twinOffEffect s).twin.training = false ∧ (s.twin.inbox = [] → (twinOffEffect s).mirror = s.mirror) := by
  unfold twinOffEffect
  rw [if_pos (by rw [hrun, hpwr, hen, hq]; rfl)]
  extract_lets u v
  have hv : getBit v 0x300004 12 = false ∧ getBit v 0x300008 8 = true ∧ v.mirror = u.mirror :=
    ⟨(getBit_setBit_reg_ne _ 8 12 true (by decide)).trans (getBit_setBit_same u 0x300004 false (show 12 < 32 by decide)),
      getBit_setBit_same (setBit u 0x300004 12 false) 0x300008 true (show 8 < 32 by decide), rfl⟩
  clear_value v
  obtain ⟨hoff, hfence, hmirror⟩ := hv
  refine ⟨hoff, hfence, rfl, rfl, rfl, rfl, fun hin => hmirror.trans ?_⟩
  unfold u
  rw [hin]
  rfl

/-- The bay without power: a change of presence is shown and noted. -/
theorem presence_unpowered (s : State) (now : Bool) : present (drivePower (setBit (setBit s 0x310044 0 now) 0x310044 2 true)) = now ∧
    getBit (drivePower (setBit (setBit s 0x310044 0 now) 0x310044 2 true)) 0x310044 2 = true ∧
    RegsBut 0x310044 s (drivePower (setBit (setBit s 0x310044 0 now) 0x310044 2 true)) := by
  have h0 := (getBit_setBit_ne (setBit s 0x310044 0 now) 0x310044 (i := 2) (j := 0) true (by decide) (by decide)).trans
    (getBit_setBit_same s 0x310044 now (show 0 < 32 by decide))
  have h2 := getBit_setBit_same (setBit s 0x310044 0 now) 0x310044 true (show 2 < 32 by decide)
  have hbut : RegsBut 0x310044 s (setBit (setBit s 0x310044 0 now) 0x310044 2 true) := fun b hb =>
    (getReg_setBit_ne _ 2 true hb).trans (getReg_setBit_ne s 0 now hb)
  obtain ⟨u, hu⟩ : ∃ u, u = setBit (setBit s 0x310044 0 now) 0x310044 2 true := ⟨_, rfl⟩
  rw [← hu] at h0 h2 hbut ⊢
  unfold drivePower
  extract_lets keep on _ _
  generalize hx : ({ u with pins := _, twin := _ } : State) = x
  have hregs : x.regs = u.regs := by rw [← hx]
  have h0' := (getBit_setBit_ne x 0x310044 (i := 1) (j := 0) on (by decide) (by decide)).trans ((getBit_congr hregs _ _).trans h0)
  have h2' := (getBit_setBit_ne x 0x310044 (i := 1) (j := 2) on (by decide) (by decide)).trans ((getBit_congr hregs _ _).trans h2)
  exact ⟨h0', h2', fun b hb => (getReg_setBit_ne x 1 on hb).trans ((getReg_congr hregs b).trans (hbut b hb))⟩

theorem wakePme_awake {s : State} (h : s.twin.d3 = false) : wakePme s = s := by
  unfold wakePme
  extract_lets c
  rw [if_neg (by rw [h]; simp)]

/-- The attention LED once its turn of the phase is over. -/
theorem attnTurn_blinks (s : State) (fault : Bool) (w : Twin) : (attnTurn s fault w).blinkOn = w.blinkOn ∧
    (attnTurn s fault w).blinkDue = w.blinkDue ∧ (attnTurn s fault w).fltBlinkOn = w.fltBlinkOn ∧
    (attnTurn s fault w).fltBlinkDue = w.fltBlinkDue ∧
    (ledsOut s = true → faultBlinks s = fault → (attnTurn s fault w).attnCase = fault ∧ (attnTurn s fault w).attnOn = true) := by
  unfold attnTurn
  split
  · exact ⟨rfl, rfl, rfl, rfl, fun _ _ => ⟨rfl, rfl⟩⟩
  · next h =>
    refine ⟨rfl, rfl, rfl, rfl, fun hout hblink => absurd ?_ h⟩
    rw [hout, hblink, Bool.true_and]
    exact beq_self_eq_true fault

theorem attnLed_of_turn {s : State} {w : Twin} {fault : Bool} (hout : ledsOut s = true) (hcase : w.attnCase = fault)
    (hon : w.attnOn = true) : attnLed { s with twin := w } =
      (if fault then w.fltBlinkOn else indicator (getFld s 0x310040 1 2) w.blinkOn) := by
  have hleds : ledsOut { s with twin := w } = true := hout
  show (ledsOut { s with twin := w } && w.attnOn && if w.attnCase then _ else _) = _
  rw [hleds, hon, hcase]
  rfl

/-- Settles O26: each effect under its condition, with the sweep over the windows and the bits of the bay's registers. -/
theorem twinPowerAndBay : Obligations.TwinPowerAndBay := by
  unfold Obligations.TwinPowerAndBay
  refine ⟨?bme, ?d3, ?l1, ?off, ?presence, ?surprise, ?press, ?wake, ?blink, ?fault, ?dark⟩
  case bme =>
    rintro s ⟨hdef, hrun⟩ hup hdue hbm
    exact completes_touched (congrArg (guarded s) (if_pos (by rw [hrun, hup, hdue, hbm]; rfl))) hdef
      ((touches_busMasterLost _).after rfl <| (touches_setCfgByte s 4 _).mono rfl : Touches { regs := true, twin := true } _ _) rfl
      (busMasterLost_cleared s)
  case d3 =>
    rintro s ⟨hdef, hrun⟩ hup hdue hd3
    refine (guarded_defined _ hdef).trans (congrArg (resume s) ?_)
    exact (if_pos (by rw [hrun, hup, hdue]; rfl)).trans (if_neg (by rw [show (setCfgByte s 0x44 _).twin.d3 = s.twin.d3 from rfl, hd3]; decide))
  case l1 =>
    rintro s ⟨hdef, hrun⟩ hup hidle
    refine completes_touched rfl hdef (touches_l1Effect s) rfl (if_pos ?_)
    rw [hrun, hup, Bool.true_and, Bool.true_and, Bool.or_eq_true]
    refine hidle.imp_right fun ⟨haspm, hqueue, hjobs⟩ => ?_
    rw [haspm, hqueue, Bool.true_and]
    exact Bool.and_eq_true_iff.mpr ⟨rfl, List.all_eq_true.mpr hjobs⟩
  case off =>
    rintro s ⟨hdef, hrun⟩ hpwr hen hq
    obtain ⟨h1, h2, h3, h4, h5, h6, h7⟩ := twinOffEffect_off hrun hpwr hen hq
    exact completes_touched rfl hdef (touches_twinOffEffect s) rfl
      ⟨h1, h2, h3, h4, h5, h6, keepsMemory_of_touches (touches_twinOffEffect s) rfl rfl rfl, h7⟩
  case presence =>
    rintro s now ⟨⟨hdef, hrun⟩, htb⟩ hpres hpwr
    obtain ⟨h1, h2, h3⟩ := presence_unpowered s now
    have ht := (touches_drivePower (setBit (setBit s 0x310044 0 now) 0x310044 2 true)).after (K := { regs := true, twin := true, pins := true })
      rfl <| (touches_setBit _ _ _ _).after rfl <| (touches_setBit s 0x310044 0 now).mono rfl
    refine completes_touched (congrArg (guarded s) ?_) hdef ht rfl ⟨h1, h2, h3, keepsMemory_of_touches ht rfl rfl rfl⟩
    refine (if_pos (by rw [hrun, htb, hpres]; cases now <;> rfl)).trans (congrArg drivePower (if_neg ?_))
    rw [hpwr]
    simp
  case surprise =>
    rintro s ⟨⟨hdef, hrun⟩, htb⟩ hpres hpwr
    refine (guarded_defined _ hdef).trans (congrArg (resume s) ?_)
    refine (if_pos (by rw [hrun, htb, hpres]; rfl)).trans (congrArg drivePower (if_pos ?_))
    rw [hpwr]
    rfl
  case press =>
    rintro s ⟨⟨hdef, hrun⟩, htb⟩ hd3
    refine completes_touched (congrArg (guarded s) ?_) hdef (touches_setBit s 0x310044 3 true) rfl rfl
    exact (if_pos (by rw [hrun, htb]; rfl)).trans (wakePme_awake hd3)
  case wake =>
    rintro s ⟨⟨hdef, hrun⟩, htb⟩
    exact (guarded_defined _ hdef).trans (congrArg (resume s) (if_pos (by rw [hrun, htb]; rfl)))
  case blink =>
    rintro s ⟨⟨hdef, hrun⟩, htb⟩ hturn hdue
    obtain ⟨h1, h2, -, -, h5⟩ := attnTurn_blinks s false { s.twin with blinkOn := !s.twin.blinkOn, blinkDue := s.tick + 320000000 }
    refine completes_touched (congrArg (guarded s) (if_pos (by rw [hrun, htb, hturn, decide_eq_true hdue]; rfl))) hdef
      (touches_twin s _) rfl ⟨h1, h2, fun hout hblink => ?_, rfl⟩
    obtain ⟨hcase, hon⟩ := h5 hout hblink
    rw [attnLed_of_turn hout hcase hon, h1]
    rfl
  case fault =>
    rintro s ⟨⟨hdef, hrun⟩, htb⟩ hturn hdue
    obtain ⟨-, -, h3, h4, h5⟩ := attnTurn_blinks s true { s.twin with fltBlinkOn := !s.twin.fltBlinkOn, fltBlinkDue := s.tick + 80000000 }
    refine completes_touched (congrArg (guarded s) (if_pos (by rw [hrun, htb, hturn, decide_eq_true hdue]; rfl))) hdef
      (touches_twin s _) rfl ⟨h3, h4, fun hout hblink => ?_, rfl⟩
    obtain ⟨hcase, hon⟩ := h5 hout hblink
    rw [attnLed_of_turn hout hcase hon, h3]
    rfl
  case dark =>
    intro s hout
    exact ⟨by rw [attnLed, hout]; rfl, by rw [pwrLed, hout]; rfl⟩

end Sys2Proof.Proofs
end

section
/-! PROOF. Inbound memory TLPs, their errors, and BAR0 (O27). -/

namespace Sys2Proof.Proofs

open Sys2Proof.Machine Sys2Proof.Safety Sys2Proof.Laws

/-- The command of a memory TLP that no poison marks, when credits allow it. -/
theorem exec_inboundMem {s : State} {write : Bool} {m : MemTlp} (hlink : linkDead s = false) (hcred : tlpCredit s write m = true)
    (hep : m.ep = false) : exec (if write then .inboundMemWrite m else .inboundMemRead m) s = guarded s (inboundTlp s write m) := by
  have hgo : ¬ (linkDead s || !tlpCredit s write m) = true := by rw [hlink, hcred]; decide
  cases write with
  | true => exact congrArg (guarded s) ((if_neg hgo).trans (congrArg (inboundTlp · true m) (if_neg (by rw [hep]; decide))))
  | false => exact congrArg (guarded s) (if_neg hgo)

theorem inboundTlp_unclaimed {s : State} {write : Bool} {m : MemTlp}
    (h : claimsMemory s = false ∨ bar4Size s < m.off.toNat + m.len ∨ windowOf s m.off.toNat m.len = none) :
    inboundTlp s write m = answerUr s write m.rid m.tag (memHdr s write m) := by
  unfold inboundTlp
  extract_lets hdr
  by_cases hout : (!claimsMemory s || decide (bar4Size s < m.off.toNat + m.len)) = true
  · exact if_pos hout
  · rw [if_neg hout]
    simp only [Bool.or_eq_true, Bool.not_eq_true', decide_eq_true_eq, not_or] at hout
    rw [(h.resolve_left hout.1).resolve_left hout.2]

/-- A TLP that a window claims is decided by the window's permission. -/
theorem inboundTlp_claimed {s : State} {write : Bool} {m : MemTlp} {w : Nat} (hc : claimsMemory s = true)
    (hfit : m.off.toNat + m.len ≤ bar4Size s) (hw : windowOf s m.off.toNat m.len = some w) (hsafe : inSafe s = false ∨
      getBit s (winActive w + 0xC) (if write then 2 else 1) = false) :
    inboundTlp s write m = if getBit s (winActive w + 0xC) (if write then 2 else 1) then acceptTlp s write m w
      else answerCa (twinErr s 7 m.tag.toNat m.rid.toNat) write m.rid m.tag (memHdr s write m) := by
  unfold inboundTlp
  extract_lets hdr
  rw [if_neg (by simp only [hc, Bool.not_true, Bool.false_or, decide_eq_true_eq]; omega), hw]
  dsimp only
  cases hperm : getBit s (winActive w + 0xC) (if write then 2 else 1) with
  | false => rfl
  | true =>
    rw [hperm] at hsafe
    rw [hsafe.resolve_right (by decide)]
    rfl

/-- The job that a TLP becomes in window `w`. -/
theorem acceptTlp_job {s : State} {write : Bool} {m : MemTlp} {w : Nat}
    (hl : tlpLines write (getFld s (winActive w + 8) 0 27 * 2 ^ 21 + m.off.toNat - getFld s (winActive w) 0 17 * 2 ^ 21) m ≠ []) :
    (∃ j : TlpJob, (acceptTlp s write m w).twin.jobs = s.twin.jobs ++ [j] ∧ j.write = write ∧ j.rid = m.rid ∧ j.tag = m.tag ∧
      j.relaxed = m.relaxed ∧ j.len = m.len ∧ j.next = 0 ∧ j.parts = [] ∧ j.mute = false ∧
      j.lines = tlpLines write (getFld s (winActive w + 8) 0 27 * 2 ^ 21 + m.off.toNat - getFld s (winActive w) 0 17 * 2 ^ 21) m ∧
      j.attr = getReg s (winActive w + 0xC)) ∧ OnlyTwin s (acceptTlp s write m w) := by
  unfold acceptTlp
  dsimp only
  generalize getFld s (winActive w + 8) 0 27 * 2 ^ 21 + m.off.toNat - getFld s (winActive w) 0 17 * 2 ^ 21 = start at hl ⊢
  generalize tlpLines write start m = lines at hl ⊢
  rw [if_neg (by rw [List.isEmpty_iff]; exact hl)]
  exact ⟨⟨_, rfl, rfl, rfl, rfl, rfl, rfl, rfl, rfl, rfl, rfl, rfl⟩, rfl⟩

theorem bar0Of_table {i : Nat} (h : i < 16) : bar0Of (BitVec.ofNat 16 (4 * i)).toNat = .table i := by
  rw [BitVec.toNat_ofNat, show 4 * i % 2 ^ 16 = 4 * i from Nat.mod_eq_of_lt (by omega), bar0Of]
  rw [if_neg (by omega), show 4 * i / 4 = i by omega, if_pos h]

theorem bar0Of_page {i : Nat} (h : i < 6) : bar0Of (BitVec.ofNat 16 (0x1000 + 4 * i)).toNat = .page i := by
  rw [BitVec.toNat_ofNat, show (0x1000 + 4 * i) % 2 ^ 16 = 0x1000 + 4 * i from Nat.mod_eq_of_lt (by omega), bar0Of]
  rw [if_neg (by omega), if_neg (by omega), if_neg (by omega), if_pos (by omega), show (0x1000 + 4 * i) / 4 - 0x400 = i by omega]

theorem bar0Effect_tableWrite {s : State} {off i : Nat} (hlink : linkDead s = false) (hc : claimsMemory s = true)
    (hb : bar0Of off = .table i) (v : Word) : bar0Effect s true off v =
      { s with twin := { s.twin with msix := cellsSet msixReset s.twin.msix i (v &&& msixMask i) } } := by
  unfold bar0Effect
  rw [if_neg (by rw [hlink]; decide), if_neg (not_not_true hc), hb]

theorem bar0Effect_pageRead {s : State} {off i : Nat} (hlink : linkDead s = false) (hc : claimsMemory s = true)
    (hb : bar0Of off = .page i) (v : Word) : bar0Effect s false off v = twinOut s (.cpl 0 0 0 (wordBytes (statusPage s i)) false) := by
  unfold bar0Effect
  rw [if_neg (by rw [hlink]; decide), if_neg (not_not_true hc), hb]

/-- Settles O27: the decode of R328 in its order, the errors of R338, and BAR0. -/
theorem inboundTlps : Obligations.InboundTlps := by
  unfold Obligations.InboundTlps
  refine ⟨?accepted, ?unclaimed, ?denied, ?malformed, ?ecrc, ?unsupported, ?poisoned, ?status, ?msix⟩
  case accepted =>
    rintro s write m w hawake hc hcred hep hfit hw hperm hsafe hl
    have hin : inboundTlp s write m = acceptTlp s write m w := by
      rw [inboundTlp_claimed hc hfit hw (.inl hsafe), if_pos hperm]
    have hacc := acceptTlp_job hl
    exact completes_touched ((exec_inboundMem (linkDead_of_claims hawake hc) hcred hep).trans (congrArg (guarded s) hin)) hawake.1
      (touches_acceptTlp s write m w) rfl hacc
  case unclaimed =>
    rintro s write m ⟨hdef, hrun⟩ hlink hcred hep hout
    rw [exec_inboundMem hlink hcred hep, guarded_defined _ hdef, inboundTlp_unclaimed hout]
  case denied =>
    rintro s write m w hawake hc hcred hep hfit hw hperm
    rw [exec_inboundMem (linkDead_of_claims hawake hc) hcred hep, guarded_defined _ hawake.1, inboundTlp_claimed hc hfit hw (.inr hperm),
      if_neg (by rw [hperm]; decide)]
  case malformed =>
    rintro s tag rid ⟨hdef, hrun⟩ hlink
    exact (guarded_defined _ hdef).trans (congrArg (resume s) (if_neg (by rw [hlink]; decide)))
  case ecrc =>
    rintro s tag rid ⟨hdef, hrun⟩ hlink hon
    exact (guarded_defined _ hdef).trans (congrArg (resume s) ((if_neg (by rw [hlink]; decide)).trans (if_pos hon)))
  case unsupported =>
    rintro s posted tag rid ⟨hdef, hrun⟩ hlink
    exact (guarded_defined _ hdef).trans (congrArg (resume s) (if_neg (by rw [hlink]; decide)))
  case poisoned =>
    intro s m
    refine congrArg (guarded s) ?_
    show (if linkDead s then s else memWriteEffect s { m with ep := true }) = memWriteEffect s { m with ep := true }
    by_cases hlink : linkDead s = true
    · rw [if_pos hlink, memWriteEffect, if_pos (by rw [hlink]; rfl)]
    · rw [if_neg hlink]
  case status =>
    rintro s i d hawake hc hi
    exact completes_touched rfl hawake.1 (touches_bar0Effect s false _ d) rfl (bar0Effect_pageRead (linkDead_of_claims hawake hc) hc (bar0Of_page hi) d)
  case msix =>
    rintro s i d hawake hc hi
    refine completes_touched (congrArg (guarded s) (bar0Effect_tableWrite (linkDead_of_claims hawake hc) hc (bar0Of_table hi) d)) hawake.1 (touches_twin s _) rfl ?_
    exact ⟨cellsGet_set_same _ _ _, fun k hk => cellsGet_set_ne _ _ hk, rfl⟩

end Sys2Proof.Proofs
end

section
/-! PROOF. Lines of the twin port at the homes, and the reads it masters (O28). -/

namespace Sys2Proof.Proofs

open Sys2Proof.Machine Sys2Proof.Safety Sys2Proof.Laws

theorem homeOf_twin (s : State) (w : Twin) (pa : Nat) : homeOf { s with twin := w } pa = homeOf s pa := rfl

theorem homeOf_setJob (s : State) (j : TlpJob) (pa : Nat) : homeOf (setJob s j) pa = homeOf s pa := homeOf_twin s _ pa

theorem addTwinTxn_txns (s : State) (t : TwinTxn) : (addTwinTxn s t).twin.txns = s.twin.txns ++ [t] := rfl

theorem addTwinTxn_spine (s : State) (t : TwinTxn) : (addTwinTxn s t).spine = s.spine := rfl

theorem setJob_txns (s : State) (j : TlpJob) : (setJob s j).twin.txns = s.twin.txns := rfl

theorem setJob_spine (s : State) (j : TlpJob) : (setJob s j).spine = s.spine := rfl

theorem mirror_of_msgIsMirror {m : Msg} (h : msgIsMirror m = true) : ∃ w a img y o, m = .mirror w a img y o := by
  cases m with
  | mirror w a img y o => exact ⟨w, a, img, y, o, rfl⟩
  | _ => cases h

theorem launch_arrive (s : State) (r i : Nat) (p : Packet) : (launch s r i p).spine.arrive.length = s.spine.arrive.length + 1 := by
  unfold launch onward
  exact List.length_append

/-- A line whose home a slice serves leaves for it, with the data of a write behind it. -/
theorem lineSend_homed {s : State} {t : TwinTxn} (h : (homeOf s t.req.addr.toNat).isSome = true) :
    (lineSend s t).twin.txns = s.twin.txns ∧
    (lineSend s t).spine.arrive.length = s.spine.arrive.length + (if isWriteReq t.req then 2 else 1) := by
  obtain ⟨home, hh⟩ : ∃ f, f = homeOf := ⟨_, rfl⟩
  obtain ⟨send, hs⟩ : ∃ f, f = @lineSend := ⟨_, rfl⟩
  rw [← hs]
  delta lineSend at hs
  rw [← hh] at hs h
  subst hs
  beta_reduce
  obtain ⟨x, hx⟩ := Option.isSome_iff_exists.mp h
  rw [hx]
  dsimp only
  split
  · rw [launch_arrive, launch_arrive, (touches_launch _ _ _ _).twin rfl, (touches_launch _ _ _ _).twin rfl]
    exact ⟨rfl, rfl⟩
  · rw [launch_arrive, (touches_launch _ _ _ _).twin rfl]
    exact ⟨rfl, rfl⟩

theorem isWriteReq_jobTxn (j : TlpJob) (txn : BitVec 8) (l : TlpLine) : isWriteReq (jobTxn j txn l).req = j.write := by
  unfold jobTxn
  extract_lets op
  show (op.toNat == 0x10 || op.toNat == 0x11) = j.write
  cases hw : j.write with
  | false =>
    rw [show op = 3 from if_pos (by rw [hw]; rfl)]
    rfl
  | true =>
    rw [show op = if l.be = BitVec.allOnes 64 then 0x10 else 0x11 from if_neg (by rw [hw]; decide)]
    split <;> rfl

theorem lineIssueEffect_job {s : State} {j : TlpJob} {l : TlpLine} {k : Nat} (hrun : running s = true) (hpwr : twinPwr s = true)
    (hsafe : inSafe s = false) (hheld : ∀ x ∈ s.twin.txns, (x.held && x.grant) = false)
    (hk : firstFree 128 (s.twin.txns.map (fun t => t.txn.toNat)) = some k) (hj : nextJob [] s.twin.jobs = some j)
    (hl : j.lines[j.next]? = some l) : lineIssueEffect s =
      addTwinTxn (lineSend (setJob s { j with next := j.next + 1 }) (jobTxn j (BitVec.ofNat 8 k) l)) (jobTxn j (BitVec.ofNat 8 k) l) := by
  unfold lineIssueEffect
  rw [if_neg (by rw [hrun, hpwr]; decide), if_neg (by rw [hsafe]; decide),
    List.find?_eq_none.mpr (fun x hx => by rw [hheld x hx]; decide)]
  dsimp only
  rw [hk]
  dsimp only
  rw [hj]
  dsimp only
  rw [hl]

/-- What one line issue leaves. -/
theorem lineIssue_sends {s : State} {j : TlpJob} {l : TlpLine} {k : Nat} (hhome : (homeOf s l.addr.toNat).isSome = true) {t : State}
    (ht : t = addTwinTxn (lineSend (setJob s { j with next := j.next + 1 }) (jobTxn j (BitVec.ofNat 8 k) l)) (jobTxn j (BitVec.ofNat 8 k) l)) :
    t.twin.txns = s.twin.txns ++ [jobTxn j (BitVec.ofNat 8 k) l] ∧
    t.spine.arrive.length = s.spine.arrive.length + (if j.write then 2 else 1) ∧ t.regs = s.regs ∧ KeepsMemory s t := by
  subst ht
  have hsent := lineSend_homed (s := setJob s { j with next := j.next + 1 }) (t := jobTxn j (BitVec.ofNat 8 k) l)
    (by rw [homeOf_setJob, show (jobTxn j (BitVec.ofNat 8 k) l).req.addr = l.addr from rfl]; exact hhome)
  have htouch : Touches { spine := true, twin := true } s (addTwinTxn (lineSend (setJob s { j with next := j.next + 1 })
      (jobTxn j (BitVec.ofNat 8 k) l)) (jobTxn j (BitVec.ofNat 8 k) l)) :=
    (touches_addTwinTxn _ _).after rfl <| (touches_lineSend _ _).after rfl <| (touches_setJob _ _).mono rfl
  obtain ⟨htxns, harrive⟩ := hsent
  rw [isWriteReq_jobTxn] at harrive
  refine ⟨?_, ?_, htouch.regs rfl, keepsMemory_of_touches htouch rfl rfl rfl⟩
  · rw [addTwinTxn_txns, htxns, setJob_txns]
  · rw [addTwinTxn_spine, harrive, setJob_spine]

/-- A refusal leaves the request held. -/
theorem twinMessage_retry {x : TwinTxn} {r : Rsp} (h : r.opcode = 5) : twinMessage x (.rsp r) = { x with held := true } := by
  have h2 : ¬ r.opcode = 2 := by rw [h]; decide
  have h7 : ¬ r.opcode = 7 := by rw [h]; decide
  exact (if_neg h2).trans ((if_neg h7).trans (if_pos h))

theorem lineSettle_open {s : State} {t : TwinTxn} (h : t.done = none) : lineSettle s t = s := by
  unfold lineSettle
  rw [h]

theorem setTwinTxn_single {s : State} {x t : TwinTxn} (h : s.twin.txns = [x]) (hxt : x.txn = t.txn) :
    setTwinTxn s t = { s with twin := { s.twin with txns := [t] } } := by
  unfold setTwinTxn mapIf
  rw [h, List.map_singleton, if_pos (beq_iff_eq.mpr hxt)]

theorem lineResponse_front {s : State} (hrun : running s = true) : (if running s then lineResponseEffect s else s) = lineResponseEffect s :=
  if_pos hrun

/-- Settles O28: the branches of the issue and of the answers, with `lineSend` for a line that a slice homes. -/
theorem twinLinesAndReads : Obligations.TwinLinesAndReads := by
  unfold Obligations.TwinLinesAndReads
  refine ⟨?issue, ?refused, ?mirror, ?watched, ?safe, ?completion, ?timeout, ?quarantine⟩
  case issue =>
    rintro s j l k ⟨hdef, hrun⟩ hpwr hsafe hheld hk hj hl hhome
    exact completes_touched rfl hdef (touches_lineIssueEffect s) rfl
      (lineIssue_sends hhome (lineIssueEffect_job hrun hpwr hsafe hheld hk hj hl))
  case refused =>
    rintro s i rest r x ⟨hdef, hrun⟩ hin hmsg hop htxns htxn hdone
    refine completes_touched (congrArg (guarded s) ((lineResponse_front hrun).trans ?_)) hdef
      (touches_twin s { s.twin with inbox := rest, txns := [{ x with held := true }] }) rfl rfl
    unfold lineResponseEffect
    rw [hin]
    dsimp only
    rw [hmsg]
    dsimp only
    have hfind : s.twin.txns.find? (fun t => t.txn == msgTxn (.rsp r)) = some x := by
      rw [htxns]
      exact List.find?_cons_of_pos (by rw [htxn]; exact beq_self_eq_true _)
    rw [hfind]
    dsimp only
    rw [twinMessage_retry hop, lineSettle_open (t := { x with held := true }) hdone,
      setTwinTxn_single (s := { s with twin := { s.twin with inbox := rest } }) (x := x) (t := { x with held := true }) htxns rfl]
  case mirror =>
    rintro s i rest ⟨hdef, hrun⟩ hin hmsg
    refine (guarded_defined _ hdef).trans (congrArg (resume s) ((lineResponse_front hrun).trans ?_))
    unfold lineResponseEffect
    rw [hin]
    dsimp only
    obtain ⟨w, a, img, y, o, hm⟩ := mirror_of_msgIsMirror hmsg
    rw [hm]
  case watched =>
    rintro s i rest d ⟨hdef, hrun⟩ hin hmsg
    refine (guarded_defined _ hdef).trans (congrArg (resume s) ((lineResponse_front hrun).trans ?_))
    unfold lineResponseEffect
    rw [hin]
    dsimp only
    rw [hmsg]
  case safe =>
    rintro s ⟨hdef, hrun⟩ hpwr hsafe
    exact (guarded_defined _ hdef).trans (congrArg (resume s) ((if_neg (by rw [hrun, hpwr]; decide)).trans (if_pos hsafe)))
  case completion =>
    rintro s tag d ⟨hdef, hrun⟩ hlink htag hflush
    refine completes_touched (congrArg (guarded s) ?_) hdef (touches_twin s _ : Touches _ s (dropTag s tag)) rfl rfl
    have hup : s.twin.up = true := by
      simp only [linkDead, Bool.or_eq_false_iff, Bool.not_eq_false'] at hlink
      exact hlink.1.2
    show completionEffect s tag (.ok d false) = _
    unfold completionEffect
    rw [if_neg (by rw [hrun, hup]; decide), if_pos htag]
    exact if_neg hflush
  case timeout =>
    rintro s tag since ⟨hdef, hrun⟩ hfind hdis hdue
    refine (guarded_defined _ hdef).trans (congrArg (resume s) ?_)
    unfold cplTimeoutEffect
    rw [hfind]
    exact if_pos (by rw [hrun, hdis, decide_eq_true hdue]; rfl)
  case quarantine =>
    rintro s tag ⟨hdef, hrun⟩
    refine completes_touched (congrArg (guarded s) (if_pos hrun)) hdef (touches_twin s _) rfl ⟨rfl, rfl⟩

end Sys2Proof.Proofs
end

section
/-! PROOF. Mirror writes and the resync copier (O29). -/

namespace Sys2Proof.Proofs

open Sys2Proof.Machine Sys2Proof.Safety Sys2Proof.Laws

-- windows that may recover

/-- A sweep of window moves leaves the fields above the state of a window. -/
theorem getFld_mirrorRecover (s : State) (a : Nat) : getFld (mirrorRecover s) a 4 17 = getFld s a 4 17 := by
  have moved : ∀ u w st, getFld (mwMove u w st) a 4 17 = getFld u a 4 17 := by
    intro u w st
    by_cases h : a = mwBase w + 0xC
    · subst h
      exact getFld_setFld_ne u _ st (by decide) (.inr (by decide))
    · exact getFld_setFld_reg_ne u 2 2 st 4 17 h
  unfold mirrorRecover
  split
  · refine forEach_keeps (P := fun u => getFld u a 4 17 = getFld s a 4 17) (fun u w hu => ?_) 16 rfl
    split
    · exact (moved u w 2).trans hu
    · exact hu
  · rfl

theorem getReg_mirrorRecover (s : State) {a : Nat} (h : ∀ w, w < 16 → a ≠ mwReg w) : getReg (mirrorRecover s) a = getReg s a := by
  unfold mirrorRecover
  split
  · refine forEach_others (A := mwReg) (fun u w b hb => ?_) s 16 h
    split
    · exact getReg_setFld_ne u 2 2 2 hb
    · rfl
  · rfl

theorem ne_mwReg_of_outside {a : Nat} (h : a < 0x31030C ∨ 0x310400 ≤ a) (w : Nat) (hw : w < 16) : a ≠ mwReg w := by
  unfold mwReg mwBase
  omega

theorem mwLo_mirrorRecover (s : State) (w : Nat) : mwLo (mirrorRecover s) w = mwLo s w := by
  have h : getReg (mirrorRecover s) (mwBase w) = getReg s (mwBase w) :=
    getReg_mirrorRecover s fun i _ => by unfold mwReg mwBase; omega
  rw [mwLo, mwLo, getFld, getFld, h]

theorem twinRole_mirrorRecover (s : State) : twinRole (mirrorRecover s) = twinRole s :=
  congrArg (fun v => bitsOf v 0 2) (getReg_mirrorRecover s (ne_mwReg_of_outside (.inl (by decide))))

theorem twinPwr_mirrorRecover (s : State) : twinPwr (mirrorRecover s) = twinPwr s :=
  congrArg (fun v => bitOf v 12) (getReg_mirrorRecover s (ne_mwReg_of_outside (.inl (by decide))))

theorem curMode_mirrorRecover (s : State) : curMode (mirrorRecover s) = curMode s :=
  congrArg (fun v => bitsOf v 0 4) (getReg_mirrorRecover s (ne_mwReg_of_outside (.inl (by decide))))

theorem running_mirrorRecover (s : State) : running (mirrorRecover s) = running s :=
  running_of_onlyRegs (onlyRegs_of_touches (touches_mirrorRecover s)) (getReg_mirrorRecover s (ne_mwReg_of_outside (.inl (by decide))))

-- the copier

/-- What the copier takes of granule `i` of window `w`. -/
def granuleTaken (s : State) (w i : Nat) : State :=
  let g := getFld s (mwBase w + 0xC) 4 17 + i
  let s := setDirtyMap s (s.mirror.dirty &&& ~~~(BitVec.ofNat 131072 (2 ^ g)))
  { s with mirror := { s.mirror with copyWin := w, copyGran := some g, copyNext := i + 1, copyRun := s.mirror.copyRun + 1,
                                     copyLines := [(BitVec.ofNat 48 (mwLo s w + i * 2 ^ 18), 4096)] } }

theorem copierEffect_next {s : State} {w i : Nat} (hrun : running s = true) (hpwr : twinPwr s = true) (hrole : twinRole s = 1)
    (hgran : s.mirror.copyGran = none) (hsafe : inSafe s = false) (hnext : nextGranule (mirrorRecover s) = some (w, i)) :
    copierEffect s = granuleTaken (mirrorRecover s) w i := by
  unfold copierEffect
  extract_lets u
  have hu : u = mirrorRecover s := if_pos (by rw [hrun, hpwr]; rfl)
  have hgran' : u.mirror.copyGran = none := by rw [hu, (touches_mirrorRecover s).mirror rfl, hgran]
  have hsafe' : inSafe u = false := by rw [hu, inSafe, curMode_mirrorRecover]; exact hsafe
  rw [if_pos (by rw [hgran', hsafe', hu, running_mirrorRecover, twinPwr_mirrorRecover, twinRole_mirrorRecover, hrun, hpwr, hrole]; rfl),
    hu, hnext]
  rfl

theorem granuleTaken_mirror (u : State) (w i : Nat) :
    (granuleTaken u w i).mirror.copyGran = some (getFld u (mwBase w + 0xC) 4 17 + i) ∧ (granuleTaken u w i).mirror.copyWin = w ∧
    (granuleTaken u w i).mirror.copyNext = i + 1 ∧
    (granuleTaken u w i).mirror.copyLines = [(BitVec.ofNat 48 (mwLo u w + i * 2 ^ 18), 4096)] ∧
    (granuleTaken u w i).mirror.dirty = u.mirror.dirty &&& ~~~(BitVec.ofNat 131072 (2 ^ (getFld u (mwBase w + 0xC) 4 17 + i))) ∧
    granuleTaken u w i = { u with mirror := (granuleTaken u w i).mirror } := ⟨rfl, rfl, rfl, rfl, rfl, rfl⟩

-- the writes

theorem beatLeft_stale {s : State} {d : LineData} (h : lineNat d 10 1 % 2 = 0) :
    beatLeft s d = { s with mirror := { s.mirror with beatAfter := true } } := if_neg (by rw [h]; decide)

/-- Settles O29: the head of the queue leaves by its form, and the copier goes on from the windows that have recovered. -/
theorem mirrorWritesAndCopier : Obligations.MirrorWritesAndCopier := by
  unfold Obligations.MirrorWritesAndCopier
  refine ⟨?beat, ?alone, ?copier⟩
  case beat =>
    rintro s d rest ⟨hdef, hrun⟩ huse hq hstale
    have heff : mirrorSendEffect s = beatLeft (twinOut { s with mirror := { s.mirror with queue := rest } }
        (.memWrite (BitVec.ofNat 64 ((getReg s 0x310074).toNat + (getReg s 0x310078).toNat * 2 ^ 32)) [d] false (ecrcOn s))) d := by
      unfold mirrorSendEffect
      rw [if_neg (by rw [hrun, huse]; decide), hq]
    rw [beatLeft_stale hstale] at heff
    exact completes_touched (congrArg (guarded s) heff) hdef
      ((touches_mirror _ _).after rfl <| (touches_twinOut _ _).after rfl <| (touches_mirror s _).mono rfl :
        Touches { mirror := true, twin := true } _ _) rfl ⟨rfl, rfl, rfl, rfl, rfl, rfl⟩
  case alone =>
    rintro s l rest ⟨hdef, hrun⟩ huse hq halone
    refine (guarded_defined _ hdef).trans (congrArg (resume s) ?_)
    unfold mirrorSendEffect
    rw [if_neg (by rw [hrun, huse]; decide), hq]
    dsimp only
    rw [if_pos halone, halone, Bool.true_and]
    rfl
  case copier =>
    rintro s w i ⟨hdef, hrun⟩ hpwr hrole hgran hsafe hnext
    obtain ⟨h1, h2, h3, h4, h5, h6⟩ := granuleTaken_mirror (mirrorRecover s) w i
    rw [getFld_mirrorRecover] at h1 h5
    rw [mwLo_mirrorRecover] at h4
    rw [(touches_mirrorRecover s).mirror rfl] at h5
    have heff := copierEffect_next hrun hpwr hrole hgran hsafe hnext
    rw [← heff] at h1 h2 h3 h4 h5 h6
    exact completes_touched rfl hdef (touches_copierEffect s) rfl ⟨h1, h2, h3, h4, h5, h6⟩

end Sys2Proof.Proofs
end

section
/-! PROOF. Confirmation of synchronous lines, and heartbeats (O30). -/

namespace Sys2Proof.Proofs

open Sys2Proof.Machine Sys2Proof.Safety Sys2Proof.Laws

/-- A victim slot whose answers are all in. -/
def readyVictim : Victim := ⟨0, 0, 0, freeEntry, 0, false, emptyColl, []⟩

/-- A Lead in M3 that has lost its partner already, with three misses counted and a victim slot that the next sweep of the
slices frees. -/
def lostPartner : State :=
  { State.reset with
    regs := [(0x10, 3), (0x310060, 1), (0x310084, 7)]
    slices := Vector.replicate 8 { freshSlice with victims := [readyVictim] }
    pins := { State.reset.pins with porstLow := false, live := true, tbRun := true } }

theorem slice_of_resume_eq {s t u : State} (h : resume s t = resume s u) (n : Nat) : slice t n = slice u n := by
  have hsame := congrArg (fun v => slice v n) (Host.Outcome.next.inj h)
  exact hsame

/-- Refutes O30: a further miss lets the messages that wait go on (`pumpAll`) although the partner is lost already, so that more
changes than the last clause says: a victim slot that is ready is freed. -/
theorem not_flushesAndHeartbeats : ¬ Obligations.FlushesAndHeartbeats := by
  unfold Obligations.FlushesAndHeartbeats
  rintro ⟨-, -, -, -, -, -, hmiss⟩
  have hstep := hmiss lostPartner (by unfold Ticking Awake; decide +kernel) (by decide +kernel) (by decide +kernel) (by decide +kernel)
    (by decide +kernel)
  have hleft : (slice (missEffect lostPartner) 0).victims.isEmpty = true := by decide +kernel
  have hright : (slice (partnerLost (armHbRx (setFld lostPartner 0x310084 0 2 3))) 0).victims.isEmpty = false := by decide +kernel
  have hown : exec .heartbeatMiss lostPartner = guarded lostPartner (missEffect lostPartner) := rfl
  rw [guarded_defined _ rfl] at hown
  have hslices := slice_of_resume_eq (hown.symm.trans hstep) 0
  rw [hslices, hright] at hleft
  exact Bool.noConfusion hleft

end Sys2Proof.Proofs
end

section
/-! SUPPORT. What an event report leaves of the protection engines: the check lines in their caches and the registers that say
which engine serves a channel (R243, R270). -/

namespace Sys2Proof.Proofs

open Sys2Proof.Machine Sys2Proof.Safety Sys2Proof.Laws

/-- `t` has the check caches of `s` and the registers of slice power. -/
structure SameEngines (s t : State) : Prop where
  cc : ∀ n, (slice t n).cc = (slice s n).cc
  joined : getReg t 0x300004 = getReg s 0x300004
  fenced : getReg t 0x300008 = getReg s 0x300008

theorem SameEngines.refl (s : State) : SameEngines s s := ⟨fun _ => rfl, rfl, rfl⟩

theorem SameEngines.trans {s t u : State} (a : SameEngines s t) (b : SameEngines t u) : SameEngines s u :=
  ⟨fun n => (b.cc n).trans (a.cc n), b.joined.trans a.joined, b.fenced.trans a.fenced⟩

theorem SameEngines.foldl {α : Type} {f : State → α → State} (h : ∀ s a, SameEngines s (f s a)) :
    ∀ (l : List α) (s : State), SameEngines s (l.foldl f s)
  | [], s => SameEngines.refl s
  | a :: l, s => (h s a).trans (SameEngines.foldl h l (f s a))

theorem SameEngines.forEach {f : State → Nat → State} (h : ∀ s n, SameEngines s (f s n)) (n : Nat) (s : State) :
    SameEngines s (forEach n s f) := SameEngines.foldl h _ s

theorem SameEngines.engineOf {s t : State} (h : SameEngines s t) (c : Nat) : engineOf t c = engineOf s c := by
  unfold Machine.engineOf pairJoined slicePwr sliceFenced getBit
  rw [h.joined, h.fenced]

theorem slice_congr {s t : State} (h : t.slices = s.slices) (n : Nat) : slice t n = slice s n := by
  unfold slice
  rw [h]

theorem sameEngines_of_slices {s t : State} (hslices : t.slices = s.slices) (hjoined : getReg t 0x300004 = getReg s 0x300004)
    (hfenced : getReg t 0x300008 = getReg s 0x300008) : SameEngines s t :=
  ⟨fun n => congrArg Slice.cc (slice_congr hslices n), hjoined, hfenced⟩

theorem sameEngines_of_touches {K : Parts} {s t : State} (h : Touches K s t) (hregs : K.regs = false) (hslices : K.slices = false) :
    SameEngines s t :=
  sameEngines_of_slices (h.slices hslices) (getReg_congr (h.regs hregs) _) (getReg_congr (h.regs hregs) _)

theorem sameEngines_setReg (s : State) {a : Nat} (v : Word) (h4 : a ≠ 0x300004) (h8 : a ≠ 0x300008) : SameEngines s (setReg s a v) :=
  sameEngines_of_slices rfl (getReg_setReg_ne s v h4.symm) (getReg_setReg_ne s v h8.symm)

theorem sameEngines_setSlice (s : State) (n : Nat) (x : Slice) (h : n < 8 → x.cc = (slice s n).cc) : SameEngines s (setSlice s n x) := by
  refine ⟨fun k => ?_, getReg_congr ((touches_setSlice s n x).regs rfl) _, getReg_congr ((touches_setSlice s n x).regs rfl) _⟩
  by_cases hk : k = n
  · subst hk
    by_cases hlt : k < 8
    · rw [slice_setSlice_same s k x hlt, h hlt]
    · rw [setSlice, dif_neg hlt]
  · rw [slice_setSlice_ne s x hk]

theorem sameEngines_of_safety {s t : State} (hslices : t.slices = s.slices) (h : Undisturbed s t) : SameEngines s t :=
  sameEngines_of_slices hslices (h.regs _ (by simp [QuietReg])) (h.regs _ (by simp [QuietReg]))

-- the Safe reaction

theorem sameEngines_startReclaim (s : State) (a : Nat) : SameEngines s (startReclaim s a) := by
  refine SameEngines.trans (sameEngines_of_safety (by simp) ((setPort_undisturbed s a _).trans (setBit_undisturbed _ a true (by simp [QuietReg]))))
    (SameEngines.forEach (fun s k => ?_) 8 _)
  extract_lets x
  split
  · exact sameEngines_setSlice s k _ fun _ => rfl
  · exact SameEngines.refl s

theorem sameEngines_undoPower (s : State) : SameEngines s (undoPower s) := by
  refine SameEngines.forEach (fun s n => ?_) 8 s
  extract_lets x u
  have hu : SameEngines s u := sameEngines_setSlice s n _ fun _ => rfl
  split
  · exact hu.trans (sameEngines_setReg u _ (by decide) (by decide))
  · exact hu

theorem closeWatches_cc (src : BitVec 5) (tick : Nat) (x : Slice) : (closeWatches src tick x).cc = x.cc := rfl

theorem sameEngines_closeWatches (s : State) (k : Nat) (src : BitVec 5) (tick : Nat) :
    SameEngines s (setSlice s k (closeWatches src tick (slice s k))) :=
  sameEngines_setSlice s k _ fun _ => closeWatches_cc src tick (slice s k)

/-- What the synchronisations of a slice close, in every slice. -/
theorem sameEngines_closeSyncs (l : List XSlot) (s : State) : SameEngines s (l.foldl (fun s t =>
    forEach 8 s (fun s k => setSlice s k (closeWatches t.src t.taken (slice s k)))) s) := by
  refine SameEngines.foldl (fun s t => ?_) l s
  exact SameEngines.forEach (fun s k => sameEngines_closeWatches s k t.src t.taken) 8 s

theorem sameEngines_safeSlice (s : State) (n : Nat) : SameEngines s (safeSlice s n) := by
  unfold safeSlice
  extract_lets x twin dump msg syncs u v tw ob w
  have hu : SameEngines s u := sameEngines_of_safety
    (Touches.slices (K := { regs := true, obs := true }) (.foldl (fun s x => (touches_closeSlot s x).mono rfl) _ s) rfl)
    (Undisturbed.foldl closeSlot_undisturbed (s.obs.samples.filter (fun t => t.unit == 32 + n)) s)
  have hv : SameEngines u v := sameEngines_setSlice u n _ fun _ => (hu.cc n).symm
  have hw : SameEngines v w := sameEngines_of_slices rfl rfl rfl
  exact ((hu.trans hv).trans hw).trans (sameEngines_closeSyncs syncs w)

theorem safeCapture_slices (s : State) (u src kind : Nat) (inj : Bool) : (safeCapture s u src kind inj).slices = s.slices := rfl

theorem slices_of_enterMode (s : State) (q : Seq) (x : Faults) (m : Nat) : ({ enterMode s m with seq := q, faults := x } : State).slices = s.slices := rfl

theorem sameEngines_safeHead (s : State) (u src kind : Nat) (inj : Bool) : SameEngines s (safeHead s u src kind inj) := by
  obtain ⟨hregs, -⟩ := safeHead_effect s u src kind inj
  refine ⟨fun n => ?_, hregs _ (by simp [SparedReg, QuietReg]), hregs _ (by simp [SparedReg, QuietReg])⟩
  obtain ⟨q, x, heq⟩ := safeHead_eq s u src kind inj
  obtain ⟨v, hv⟩ : ∃ v, v = safeCapture s u src kind inj := ⟨_, rfl⟩
  have hcap : v.slices = s.slices := hv ▸ safeCapture_slices s u src kind inj
  have hmove : (keepMove v).slices = v.slices := (touches_keepMove v).slices rfl
  have hcut : (slice (safeCut v) n).cc = (slice s n).cc := by
    unfold safeCut
    rw [slice_congr ((touches_finishCmd _ _ _).slices rfl)]
    split
    · rw [slice_congr (hmove.trans hcap)]
    · rw [(sameEngines_undoPower _).cc, slice_congr (hmove.trans hcap)]
  rw [heq, ← hv, slice_congr (slices_of_enterMode _ _ _ 10), hcut]

theorem sameEngines_safeTail (s : State) : SameEngines s (safeTail s) := by
  unfold safeTail
  refine SameEngines.trans ?_ (SameEngines.forEach (fun s c => sameEngines_of_safety ((touches_safeChan s c).slices rfl) (safeChan_undisturbed s c)) 16 _)
  refine SameEngines.trans ?_ (SameEngines.forEach sameEngines_safeSlice 8 _)
  refine SameEngines.trans ?_ (sameEngines_of_safety
    (Touches.slices (K := { regs := true, ports := true, spine := true, obs := true }) (.forEach (fun s n => ?touch) 24 _) rfl)
    (Undisturbed.forEach_lt (fun s n hn => ?spare) _))
  · refine (sameEngines_of_safety ((touches_wakePme s).slices rfl) (wakePme_undisturbed s)).trans (SameEngines.foldl (fun s a => ?_) _ _)
    split
    · exact SameEngines.refl s
    · exact sameEngines_startReclaim s a
  · exact .ite ((touches_safePort s n).mono rfl) (.refl s)
  · split
    · exact safePort_undisturbed s hn
    · exact Undisturbed.refl s

theorem sameEngines_safeEntry (s : State) (u src kind : Nat) (inj : Bool) : SameEngines s (safeEntry s u src kind inj) := by
  rw [safeEntry_eq]
  split
  · exact SameEngines.refl s
  · exact (sameEngines_safeHead s u src kind inj).trans (sameEngines_safeTail _)

-- the report of an event

theorem sameEngines_of_spares {s t : State} (hslices : t.slices = s.slices) (h : Spares s t) : SameEngines s t :=
  sameEngines_of_slices hslices (h.regs _ (by simp [SparedReg, QuietReg]) (by simp [FaultReg]))
    (h.regs _ (by simp [SparedReg, QuietReg]) (by simp [FaultReg]))

theorem sameEngines_restartQuiet (s : State) : SameEngines s (restartQuiet s) :=
  sameEngines_of_touches (touches_restartQuiet s) rfl rfl

theorem sameEngines_enterFault (s : State) {u : Nat} (src : Nat) (inj : Bool) (hu : u < 32) : SameEngines s (enterFault s u src inj) :=
  sameEngines_of_spares ((touches_enterFault s u src inj).slices rfl) (enterFault_spares s src inj hu)

theorem sameEngines_countEvent (s : State) {u : Nat} (src : Nat) (hu : u < 32) : SameEngines s (countEvent s u src) :=
  sameEngines_of_spares ((touches_countEvent s u src).slices rfl) (countEvent_spares s src hu)

theorem sameEngines_countedEvent (s : State) {u : Nat} (src : Nat) (inj : Bool) (hu : u < 32) :
    SameEngines s (countedEvent s u src inj) := by
  unfold countedEvent
  split
  · exact sameEngines_restartQuiet s
  · extract_lets c d v w
    have hv : SameEngines s v := sameEngines_of_slices rfl rfl rfl
    have hw : SameEngines s w := (hv.trans (sameEngines_enterFault v src inj hu)).trans (sameEngines_restartQuiet _)
    split
    · split
      · exact hw.trans (sameEngines_safeEntry w u src 0 inj)
      · exact hw
    · exact hv

theorem sameEngines_eventAt (s : State) {u : Nat} (src : Nat) (inj : Bool) (hu : u < 32) : SameEngines s (eventAt s u src inj) := by
  have hcount := sameEngines_countEvent s src hu
  have hnow : ∀ kind, SameEngines s (safeEntry (restartQuiet (enterFault (countEvent s u src) u src inj)) u src kind inj) := fun kind =>
    ((hcount.trans (sameEngines_enterFault _ src inj hu)).trans (sameEngines_restartQuiet _)).trans (sameEngines_safeEntry _ u src kind inj)
  unfold eventAt
  split
  · exact SameEngines.refl s
  · exact hcount.trans (sameEngines_countedEvent _ src inj hu)
  · exact hnow _
  · exact hnow _

/-- Registers but those that say which engine serves a channel. -/
theorem sameEngines_of_regs {K : Parts} {s t : State} (h : Touches K s t) (hslices : K.slices = false)
    (hregs : ∀ a, a = 0x300004 ∨ a = 0x300008 → getReg t a = getReg s a) : SameEngines s t :=
  sameEngines_of_slices (h.slices hslices) (hregs _ (Or.inl rfl)) (hregs _ (Or.inr rfl))

theorem sameEngines_setBit (s : State) {a : Nat} (i : Nat) (b : Bool) (h4 : a ≠ 0x300004) (h8 : a ≠ 0x300008) :
    SameEngines s (setBit s a i b) := sameEngines_setReg s _ h4 h8

theorem sameEngines_satAdd (s : State) {a : Nat} (lo n k : Nat) (h4 : a ≠ 0x300004) (h8 : a ≠ 0x300008) :
    SameEngines s (satAdd s a lo n k) := sameEngines_setReg s _ h4 h8

theorem fltBase_ne (u : Nat) (o : Nat) (hu : u < 32) (ho : o < 64) : fltBase u + o ≠ 0x300004 ∧ fltBase u + o ≠ 0x300008 := by
  have h := faultReg_fltBase o hu ho
  unfold FaultReg at h
  omega

theorem sameEngines_injectedEvent (s : State) {u : Nat} (src : Nat) (hu : u < 32) : SameEngines s (injectedEvent s u src) := by
  unfold injectedEvent
  split
  · extract_lets would safe v w
    obtain ⟨h4, h8⟩ := fltBase_ne u 0 hu (by decide)
    have hv : SameEngines s v := sameEngines_setBit s src true h4 h8
    have hw : SameEngines s w := by
      unfold w
      split
      · exact hv.trans (sameEngines_setBit v _ _ (by decide) (by decide))
      · exact hv
    split
    · exact hw.trans (sameEngines_setBit w _ _ (by decide) (by decide))
    · exact hw
  · exact sameEngines_eventAt s src true hu

theorem sameEngines_pmuAdd {k : Nat} : ∀ (fuel : Nat) (s : State) (i n : Nat), SameEngines s (pmuAdd fuel s k i n)
  | 0, s, _, _ => SameEngines.refl s
  | fuel + 1, s, i, n => by
    unfold pmuAdd
    extract_lets v u
    have hu : SameEngines s u := sameEngines_of_slices rfl rfl rfl
    split
    · exact hu
    · split
      · exact hu.trans (sameEngines_pmuAdd fuel u (i + 1) 1)
      · exact hu.trans (sameEngines_setBit u i true (by unfold pmuBase; omega) (by unfold pmuBase; omega))

theorem sameEngines_pmuEvents (s : State) (k e n : Nat) : SameEngines s (pmuEvents s k e n) := by
  unfold pmuEvents
  split
  · refine SameEngines.forEach (fun s i => ?_) 8 s
    extract_lets c
    split
    · exact sameEngines_pmuAdd 8 s i n
    · exact SameEngines.refl s
  · exact SameEngines.refl s

theorem sameEngines_blotUse (s : State) (k i : Nat) : SameEngines s (blotUse s k i) := by
  unfold blotUse
  split
  · extract_lets r v w
    have hw : SameEngines s w := (sameEngines_setBit s 20 true (by decide) (by decide)).trans (sameEngines_setReg v _ (by decide) (by decide))
    split
    · exact hw.trans (sameEngines_setBit w _ _ (by decide) (by decide))
    · exact hw
  · exact SameEngines.refl s

theorem mcBase_ne {c o : Nat} (hc : c < 16) (ho : o < 0x1000) : mcBase c + o ≠ 0x300004 ∧ mcBase c + o ≠ 0x300008 := by
  unfold mcBase
  omega

theorem sameEngines_raiseErr (s : State) {err cap : Nat} (i : Nat) (info : Word) (he : err ≠ 0x300004 ∧ err ≠ 0x300008)
    (hc : cap ≠ 0x300004 ∧ cap ≠ 0x300008) : SameEngines s (raiseErr s err i cap info) := by
  unfold raiseErr
  extract_lets first v
  have hv : SameEngines s v := sameEngines_setBit s i true he.1 he.2
  split
  · exact hv.trans (sameEngines_setReg v info hc.1 hc.2)
  · exact hv

theorem sameEngines_eccDetect (s : State) {c : Nat} (k u slot symbols : Nat) (scrub : Bool) (src : Nat) (hc : c < 16) :
    SameEngines s (eccDetect s c k u slot symbols scrub src) := by
  unfold eccDetect
  extract_lets b p first v
  have hv : SameEngines s v := sameEngines_raiseErr s k _ (mcBase_ne hc (by decide)) (mcBase_ne hc (by decide))
  split
  · obtain ⟨h4, h8⟩ := mcBase_ne hc (show 0x5C < 0x1000 by decide)
    exact hv.trans (sameEngines_setReg v _ h4 h8)
  · exact hv

theorem sameEngines_chanEvent (s : State) {c : Nat} (src : Nat) (inj : Bool) (hc : c < 16) : SameEngines s (chanEvent s c src inj) := by
  unfold chanEvent
  split
  · exact sameEngines_injectedEvent s src (by omega)
  · exact sameEngines_eventAt s src false (by omega)

theorem sameEngines_eccCorrected (s : State) {c : Nat} (u slot n : Nat) (scrub : Bool) (src : Nat) (inj : Bool) (hc : c < 16) :
    SameEngines s (eccCorrected s c u slot n scrub src inj) := by
  unfold eccCorrected
  split
  · exact SameEngines.refl s
  · split
    · exact sameEngines_injectedEvent s 3 (by omega)
    · extract_lets v _ w
      have hv : SameEngines s v := (sameEngines_satAdd s 0 32 1 (mcBase_ne hc (by decide)).1 (mcBase_ne hc (by decide)).2).trans
        (sameEngines_pmuEvents _ _ _ _)
      have hw : SameEngines s w := hv.trans (sameEngines_of_slices rfl rfl rfl)
      exact (hw.trans (sameEngines_eccDetect w _ _ _ _ _ _ hc)).trans (sameEngines_chanEvent _ 3 inj hc)

theorem sameEngines_logRecord (s : State) (kind unit src detail w3 : Nat) : SameEngines s (logRecord s kind unit src detail w3) := by
  unfold logRecord
  split
  · exact (sameEngines_of_touches (touches_obs s _) rfl rfl).trans (sameEngines_setBit _ 2 true (by decide) (by decide))
  · exact sameEngines_of_touches (touches_obs s _) rfl rfl

theorem sameEngines_eccUncorrectable (s : State) {c : Nat} (u slot : Nat) (scrub : Bool) (src : Nat) (inj : Bool) (hc : c < 16) :
    SameEngines s (eccUncorrectable s c u slot scrub src inj) := by
  unfold eccUncorrectable
  split
  · exact sameEngines_injectedEvent s 4 (by omega)
  · extract_lets v _ w x
    have hv : SameEngines s v := (sameEngines_satAdd s 0 16 1 (mcBase_ne hc (by decide)).1 (mcBase_ne hc (by decide)).2).trans
      (sameEngines_pmuEvents _ _ _ _)
    have hw : SameEngines s w := hv.trans (sameEngines_of_slices rfl rfl rfl)
    have hx : SameEngines s x := (hw.trans (sameEngines_eccDetect w _ _ _ _ _ _ hc)).trans (sameEngines_logRecord _ _ _ _ _ _)
    exact hx.trans (sameEngines_chanEvent x 4 inj hc)

theorem sameEngines_checkDecode (s : State) {c : Nat} (u k : Nat) (word : LineData) (scrub : Bool) (src : Nat) (hc : c < 16) :
    SameEngines s (checkDecode s c u k word scrub src).1 := by
  unfold checkDecode
  extract_lets lost read real armed seen v
  have hv : SameEngines s v := sameEngines_blotUse s 9 c
  clear_value seen real
  cases seen with
  | some r => exact hv.trans (sameEngines_eccCorrected v u _ _ scrub src armed hc)
  | none =>
    dsimp only
    split
    · exact hv
    · exact hv.trans (sameEngines_eccUncorrectable v u _ scrub src armed hc)

theorem sameEngines_initEarly (s : State) {c : Nat} (u : Nat) (hc : c < 16) : SameEngines s (initEarly s c u) := by
  unfold initEarly
  split
  · exact SameEngines.refl s
  · extract_lets v
    have hv : SameEngines s v := ((sameEngines_satAdd s 16 16 1 (mcBase_ne hc (by decide)).1 (mcBase_ne hc (by decide)).2).trans
      (sameEngines_pmuEvents _ _ _ 28)).trans (sameEngines_pmuEvents _ _ _ 4)
    exact hv.trans (sameEngines_of_touches (touches_setChan v c _) rfl rfl)

end Sys2Proof.Proofs
end

section
/-! PROOF. The write queue: forwarding, merging, and the burst to DRAM (O9). -/

namespace Sys2Proof.Proofs

open Sys2Proof.Machine Sys2Proof.Safety Sys2Proof.Laws

-- what is queued

theorem chan_congr {s t : State} (h : t.chans = s.chans) (c : Nat) : chan t c = chan s c := by
  unfold chan
  rw [h]

theorem wrqFind_congr {s t : State} (h : t.chans = s.chans) (c m : Nat) : wrqFind t c m = wrqFind s c m := by
  unfold wrqFind
  rw [chan_congr h]

/-- The queue of a channel after a store: the line replaces its own entry or joins the end. -/
def wrqStored (q : List WrReq) (w : WrReq) : List WrReq :=
  if q.any (fun e => e.m == w.m) then q.map (fun e => if e.m == w.m then w else e) else q ++ [w]

theorem wrq_wrqStore (s : State) (c : Nat) (w : WrReq) (hc : c < 16) : (chan (wrqStore s c w) c).wrq = wrqStored (chan s c).wrq w := by
  have hold : ∀ m, chan (memOld s c m) c = chan s c := fun m => chan_congr ((touches_memOld s c m).chans rfl) c
  unfold wrqStore wrqStored
  extract_lets u x v q
  have hq : q = (chan s c).wrq := by rw [show q = _ from congrArg Chan.wrq (chan_setChan_same u c _ hc), show x = _ from hold w.m]
  rw [hq]
  split
  · exact congrArg Chan.wrq (chan_setChan_same v c _ hc)
  · exact congrArg Chan.wrq (chan_setChan_same v c _ hc)

theorem find_replaced (q : List WrReq) (w : WrReq) (m : Nat) : (q.map (fun e => if e.m == w.m then w else e)).find? (fun e => e.m == m) =
    (q.find? (fun e => e.m == m)).map (fun e => if e.m == w.m then w else e) := by
  rw [List.find?_map]
  congr 2
  funext e
  by_cases he : e.m = w.m <;> simp [he]

theorem find_wrqStored_same (q : List WrReq) (w : WrReq) : (wrqStored q w).find? (fun e => e.m == w.m) = some w := by
  unfold wrqStored
  split
  · next h =>
    obtain ⟨e, he⟩ := Option.isSome_iff_exists.mp ((List.find?_isSome (p := fun e : WrReq => e.m == w.m)).mpr (List.any_eq_true.mp h))
    rw [find_replaced, he, Option.map_some, if_pos (List.find?_some he)]
  · next h =>
    have hnone : q.find? (fun e => e.m == w.m) = none := by simpa using h
    simp [List.find?_append, hnone]

theorem find_wrqStored_ne (q : List WrReq) (w : WrReq) {m : Nat} (h : m ≠ w.m) :
    (wrqStored q w).find? (fun e => e.m == m) = q.find? (fun e => e.m == m) := by
  unfold wrqStored
  split
  · rw [find_replaced]
    cases hq : q.find? (fun e => e.m == m) with
    | none => rfl
    | some e =>
      have he : e.m = m := by simpa using List.find?_some hq
      rw [Option.map_some, if_neg (by simp [he, h])]
  · simp [List.find?_append, h.symm]

theorem wrqFind_wrqStore_same (s : State) (c : Nat) (w : WrReq) (hc : c < 16) : wrqFind (wrqStore s c w) c w.m = some w := by
  rw [wrqFind, wrq_wrqStore s c w hc, find_wrqStored_same]

theorem wrqFind_wrqStore_ne (s : State) (c : Nat) (w : WrReq) {m : Nat} (hc : c < 16) (h : m ≠ w.m) :
    wrqFind (wrqStore s c w) c m = wrqFind s c m := by
  rw [wrqFind, wrq_wrqStore s c w hc, find_wrqStored_ne _ _ h, wrqFind]

theorem wrqFind_takeOrder (s : State) (c m : Nat) (hc : c < 16) : wrqFind (takeOrder s c).2 c m = wrqFind s c m := by
  unfold wrqFind takeOrder
  rw [chan_setChan_same _ _ _ hc]

theorem wrqFind_pushRead (s : State) (c m : Nat) (r : RdReq) (hc : c < 16) : wrqFind (pushRead s c r) c m = wrqFind s c m := by
  unfold wrqFind pushRead
  rw [chan_setChan_same _ _ _ hc]

theorem forwardRead_full {s : State} {c m : Nat} {e : WrReq} (h : wrqFind s c m = some e) (hfull : e.full = true) (hraw : e.raw = false) :
    forwardRead s c m = some e.img := by
  unfold forwardRead
  rw [h]
  simp only [hfull, if_true, entryImg, hraw]
  rfl

theorem forwardRead_partial {s : State} {c m : Nat} {e : WrReq} (h : wrqFind s c m = some e) (hfull : e.full = false) :
    forwardRead s c m = none := by
  unfold forwardRead
  rw [h]
  simp only [hfull]
  rfl

theorem forwardRead_mirrored (s : State) (n : Nat) (prio : BitVec 2) (pa : Nat) (img : LineImg) (o c : Nat) (e : WrReq) (hc : c < 16)
    (hfull : e.full = true) (hraw : e.raw = false) :
    forwardRead (mirrorLine (wrqStore s c e) n prio pa img o) c e.m = some e.img :=
  forwardRead_full ((wrqFind_congr ((touches_mirrorLine _ _ _ _ _ _).chans rfl) c e.m).trans (wrqFind_wrqStore_same s c e hc)) hfull hraw

/-- A line written in full is what a read of it gets (R243). -/
theorem forwardRead_wqFull (s : State) (c m : Nat) (img : LineImg) (w : Writer) (hc : c < 16) :
    forwardRead (wqFull s c m img w).1 c m = some img := by
  unfold wqFull
  split
  extract_lets old
  split
  extract_lets e
  exact forwardRead_mirrored _ _ _ _ _ _ c e hc rfl rfl

/-- A partial write of a line that is not queued waits for a merge read. -/
theorem wqPartial_none {s : State} {c m : Nat} (d : LineData) (p : BitVec 2) (be : BitVec 64) (w : Writer)
    (h : wrqFind s c m = none) : ∃ (e : WrReq) (r : RdReq), e.m = m ∧ e.full = false ∧ r.m = m ∧ r.use = .merge ∧ r.issued = false ∧
      (wqPartial s c m d p be w).1 = pushRead (wrqStore (takeOrder s c).2 c e) c r := by
  unfold wqPartial
  rw [h]
  exact ⟨_, _, rfl, rfl, rfl, rfl, rfl, rfl⟩

theorem rdq_pushRead (s : State) (c : Nat) (r : RdReq) (hc : c < 16) :
    (chan (pushRead s c r) c).rdq = (chan s c).rdq ++ [{ r with id := (chan s c).rdNext }] := by
  unfold pushRead
  rw [chan_setChan_same _ _ _ hc]

-- the bytes of a merge

theorem testBit_byteMask (be : BitVec 64) (n : Nat) :
    ((List.range n).foldl (fun a i => if be.getLsbD i then a + 255 * 2 ^ (8 * i) else a) 0) < 2 ^ (8 * n) ∧
    ∀ j, ((List.range n).foldl (fun a i => if be.getLsbD i then a + 255 * 2 ^ (8 * i) else a) 0).testBit j =
      (decide (j < 8 * n) && be.getLsbD (j / 8)) := by
  induction n with
  | zero => simp
  | succ n ih =>
    rw [List.range_succ, List.foldl_append, List.foldl_cons, List.foldl_nil]
    obtain ⟨hlt, hbits⟩ := ih
    generalize (List.range n).foldl (fun a i => if be.getLsbD i then a + 255 * 2 ^ (8 * i) else a) 0 = v at hlt hbits ⊢
    have hpow : 2 ^ (8 * (n + 1)) = 256 * 2 ^ (8 * n) := by rw [Nat.mul_succ, Nat.pow_add]; omega
    split
    · next hbe =>
      refine ⟨by omega, fun j => ?_⟩
      rw [show v + 255 * 2 ^ (8 * n) = 2 ^ (8 * n) * (2 ^ 8 - 1) + v by ring, Nat.testBit_two_pow_mul_add _ hlt]
      split
      · next hj => rw [hbits, decide_eq_true hj, decide_eq_true (by omega : j < 8 * (n + 1))]
      · next hj =>
        rw [Nat.testBit_two_pow_sub_one]
        by_cases hj' : j < 8 * (n + 1)
        · rw [show j / 8 = n by omega, hbe, decide_eq_true (by omega : j - 8 * n < 8), decide_eq_true hj']
          rfl
        · rw [decide_eq_false (by omega : ¬ j - 8 * n < 8), decide_eq_false hj', Bool.false_and]
    · next hbe =>
      refine ⟨by omega, fun j => ?_⟩
      rw [hbits]
      by_cases hj : j < 8 * n
      · rw [decide_eq_true hj, decide_eq_true (by omega : j < 8 * (n + 1))]
      · rw [decide_eq_false hj, Bool.false_and]
        by_cases hj' : j < 8 * (n + 1)
        · rw [show j / 8 = n by omega, Bool.eq_false_iff.mpr hbe, Bool.and_false]
        · rw [decide_eq_false hj', Bool.false_and]

theorem getLsbD_beMask (be : BitVec 64) {j : Nat} (hj : j < 512) : (beMask be).getLsbD j = be.getLsbD (j / 8) := by
  rw [beMask, BitVec.getLsbD_ofNat, decide_eq_true hj, Bool.true_and, (testBit_byteMask be 64).2, decide_eq_true (by omega : j < 8 * 64), Bool.true_and]

theorem getLsbD_mergeBytes (old new : LineData) (be : BitVec 64) {j : Nat} (hj : j < 512) :
    (mergeBytes old new be).getLsbD j = if be.getLsbD (j / 8) then new.getLsbD j else old.getLsbD j := by
  rw [mergeBytes, BitVec.getLsbD_or, BitVec.getLsbD_and, BitVec.getLsbD_and, BitVec.getLsbD_not, getLsbD_beMask be hj, decide_eq_true hj]
  cases be.getLsbD (j / 8) <;> simp

/-- A half that is merged without poison: each byte from the new half where its enable is set. -/
theorem mergeHalf_clean (old new : HalfData) (be : BitVec 32) : (mergeHalf old false new false be).2 = false ∧
    ∀ j, j < 256 → (mergeHalf old false new false be).1.getLsbD j = if be.getLsbD (j / 8) then new.getLsbD j else old.getLsbD j := by
  unfold mergeHalf
  split
  · next h => exact ⟨rfl, fun j hj => by rw [h]; simp⟩
  · rw [if_neg (by decide)]
    split
    · next h => exact ⟨rfl, fun j hj => by rw [h, BitVec.getLsbD_allOnes, decide_eq_true (by omega : j / 8 < 32), if_pos rfl]⟩
    · rw [if_neg (by decide)]
      refine ⟨rfl, fun j hj => ?_⟩
      rw [lineHalf, BitVec.getLsbD_extractLsb', decide_eq_true hj, Bool.true_and, if_neg (by decide), Nat.zero_add,
        getLsbD_mergeBytes _ _ _ (by omega)]
      simp [show j < 512 by omega, show j / 8 < 64 by omega]

theorem mergeImg_clean (src : LineImg) (d : LineData) (be : BitVec 64) (hlost : src.lost = false) (hpoison : src.poison = 0) :
    (mergeImg src d 0 be).poison = 0 ∧ (mergeImg src d 0 be).lost = false ∧ ∀ j, j < 512 →
      (mergeImg src d 0 be).data.getLsbD j = if be.getLsbD (j / 8) then d.getLsbD j else src.data.getLsbD j := by
  obtain ⟨hp0, hd0⟩ := mergeHalf_clean (lineHalf src.data false) (lineHalf d false) (beHalf be false)
  obtain ⟨hp1, hd1⟩ := mergeHalf_clean (lineHalf src.data true) (lineHalf d true) (beHalf be true)
  have hmerge : mergeImg src d 0 be = ⟨(mergeHalf (lineHalf src.data true) false (lineHalf d true) false (beHalf be true)).1 ++
      (mergeHalf (lineHalf src.data false) false (lineHalf d false) false (beHalf be false)).1, 0, false⟩ := by
    unfold mergeImg
    rw [if_neg (by rw [hlost]; decide), hpoison]
    have hsame : ∀ (a b : HalfData) (p q : Bool), p = false → q = false →
        (⟨a ++ b, BitVec.ofNat 2 (b2n q + 2 * b2n p), false⟩ : LineImg) = ⟨a ++ b, 0, false⟩ := by rintro a b _ _ rfl rfl; rfl
    exact hsame _ _ _ _ hp1 hp0
  rw [hmerge]
  refine ⟨rfl, rfl, fun j hj => ?_⟩
  dsimp only
  rw [BitVec.getLsbD_append]
  split
  · next h =>
    rw [hd0 j h, beHalf, lineHalf, lineHalf]
    simp [h, show j / 8 < 32 by omega]
  · next h =>
    rw [hd1 _ (by omega), beHalf, lineHalf, lineHalf]
    simp [show j - 256 < 256 by omega, show (j - 256) / 8 < 32 by omega, show 256 + (j - 256) = j by omega,
      show 32 + (j - 256) / 8 = j / 8 by omega]

theorem mergeImg_bytes {src : LineImg} (d : LineData) (be : BitVec 64) {i : Nat} (hlost : src.lost = false) (hpoison : src.poison = 0)
    (hi : i < 64) : (mergeImg src d 0 be).data.extractLsb' (8 * i) 8 =
      if be.getLsbD i then d.extractLsb' (8 * i) 8 else src.data.extractLsb' (8 * i) 8 := by
  obtain ⟨-, -, hbits⟩ := mergeImg_clean src d be hlost hpoison
  refine BitVec.eq_of_getLsbD_eq fun j hj => ?_
  rw [BitVec.getLsbD_extractLsb', hbits _ (by omega), show (8 * i + j) / 8 = i by omega]
  split <;> simp

-- the burst

/-- The place of a check line: its channel, its unit, and its number there. -/
def samePlace (x l : CheckLine) : Bool := x.chan == l.chan && x.unit == l.unit && x.k == l.k

theorem dramGet_congr {s t : State} (h : t.dram = s.dram) (key : Nat) : dramGet t key = dramGet s key := by
  unfold dramGet
  rw [h]

theorem dramGet_dramSet_ne (s : State) {a b : Nat} (d : LineData) (h : a ≠ b) : dramGet (dramSet s b d) a = dramGet s a :=
  cellsGet_set_ne s.dram d h

theorem dramGet_dramSet_same (s : State) (a : Nat) (d : LineData) : dramGet (dramSet s a d) a = d := cellsGet_set_same s.dram a d

theorem ccWriteBack_keeps (s : State) (l : CheckLine) (key : Nat) (h : l.dirty = true → dramKey l.chan l.unit (28 + l.k) ≠ key) :
    dramGet (ccWriteBack s l) key = dramGet s key ∧ SameEngines s (ccWriteBack s l) := by
  unfold ccWriteBack
  split
  · next hd =>
    obtain ⟨v, hv⟩ : ∃ v, v = slotWritten (pmuEvent s (8 + l.chan) 0x09) l.chan l.unit (28 + l.k) := ⟨_, rfl⟩
    have hpmu := sameEngines_pmuEvents s (8 + l.chan) 0x09 1
    have hslot : SameEngines _ v := hv ▸ sameEngines_of_touches (touches_slotWritten _ _ _ _) rfl rfl
    have hdram : v.dram = s.dram := by
      rw [hv, (touches_slotWritten _ _ _ _).dram rfl, (touches_pmuEvent _ _ _).dram rfl]
    rw [← hv]
    exact ⟨(dramGet_dramSet_ne v _ (h hd).symm).trans (dramGet_congr hdram key),
      (hpmu.trans hslot).trans (sameEngines_of_touches (touches_dramSet v _ _) rfl rfl)⟩
  · exact ⟨rfl, SameEngines.refl s⟩

theorem ccStored_keeps (s : State) (n : Nat) (l : CheckLine) (rest : List CheckLine) (key : Nat) (h : ∀ x ∈ rest, x ∈ (slice s n).cc) :
    dramGet (setSlice s n { slice s n with cc := l :: rest }) key = dramGet s key ∧
    (∀ c, engineOf (setSlice s n { slice s n with cc := l :: rest }) c = engineOf s c) ∧
    ∀ x ∈ (slice (setSlice s n { slice s n with cc := l :: rest }) n).cc, samePlace x l = false → x ∈ (slice s n).cc := by
  have hregs := (touches_setSlice s n { slice s n with cc := l :: rest }).regs rfl
  refine ⟨dramGet_congr ((touches_setSlice s n _).dram rfl) key, fun c => ?_, fun x hx hplace => ?_⟩
  · unfold engineOf pairJoined slicePwr sliceFenced getBit
    rw [getReg_congr hregs, getReg_congr hregs]
  · by_cases hn : n < 8
    · rw [slice_setSlice_same s n _ hn] at hx
      rcases List.mem_cons.mp hx with rfl | hx
      · simp [samePlace] at hplace
      · exact h x hx
    · rw [setSlice, dif_neg hn] at hx
      exact hx

/-- A check line put into the cache of its engine writes back one that the cache held as changed at most, and of other places
the cache holds none that it did not hold before. -/
theorem ccPut_keeps (s : State) (l : CheckLine) (key : Nat)
    (h : ∀ x ∈ (slice s (engineOf s l.chan)).cc, samePlace x l = false → x.dirty = true → dramKey x.chan x.unit (28 + x.k) ≠ key) :
    dramGet (ccPut s l) key = dramGet s key ∧ (∀ c, engineOf (ccPut s l) c = engineOf s c) ∧
    ∀ x ∈ (slice (ccPut s l) (engineOf s l.chan)).cc, samePlace x l = false → x ∈ (slice s (engineOf s l.chan)).cc := by
  obtain ⟨n, hn⟩ : ∃ n, n = engineOf s l.chan := ⟨_, rfl⟩
  rw [← hn] at h ⊢
  unfold ccPut
  extract_lets n' x st rest same
  rw [show n' = n from hn.symm]
  have hrest : ∀ y ∈ rest, y ∈ (slice s n).cc ∧ samePlace y l = false := by
    intro y hy
    obtain ⟨hmem, hne⟩ := List.mem_filter.mp hy
    exact ⟨by rw [hn]; exact hmem, (Bool.not_eq_true' _).mp hne⟩
  have hx : x = slice s n := by rw [hn]
  rw [hx]
  split
  · exact ccStored_keeps s n l rest key fun y hy => (hrest y hy).1
  · next v hv =>
    obtain ⟨hdram, hengine, hcc⟩ := ccStored_keeps s n l (rest.filter (fun e => e != v)) key
      fun y hy => (hrest y (List.mem_of_mem_filter hy)).1
    have hvrest : v ∈ rest := by
      split at hv
      · exact List.mem_of_mem_filter (List.mem_of_mem_filter (List.mem_of_getLast? hv))
      · exact absurd hv (by simp)
    obtain ⟨hvmem, hvplace⟩ := hrest v hvrest
    obtain ⟨hback, hsame⟩ := ccWriteBack_keeps (setSlice s n { slice s n with cc := l :: rest.filter (fun e => e != v) }) v key
      (h v hvmem hvplace)
    refine ⟨hback.trans hdram, fun c => (hsame.engineOf c).trans (hengine c), fun y hy => ?_⟩
    rw [hsame.cc] at hy
    exact hcc y hy

theorem checkLine_good (s : State) (c u k src : Nat) (hc : c < 16) (h : (checkLine s c u k 0 false src).2.1.bad = false) :
    ∃ v l b, checkLine s c u k 0 false src = (ccPut v l, l, b) ∧ SameEngines s v ∧ v.dram = s.dram ∧ l.chan = c := by
  have hdecode : ∀ {u' w : State} {e : LineData} {r}, SameEngines s u' → u'.dram = s.dram →
      checkDecode u' c u k e false src = (w, r) → SameEngines s w ∧ w.dram = s.dram := by
    intro u' w e r hu hdram hw
    have hd := hu.trans (sameEngines_checkDecode u' u k e false src hc)
    have hdram' := (touches_checkDecode u' c u k e false src).dram rfl
    rw [hw] at hd hdram'
    exact ⟨hd, hdram'.trans hdram⟩
  unfold checkLine at h ⊢
  cases hfind : ccFind s c u k with
  | none =>
    rw [hfind] at h
    dsimp only at h ⊢
    have hpmu := (sameEngines_pmuEvents s (engineOf s c) 0x11 1).trans (sameEngines_pmuEvents _ (8 + c) 0x09 1)
    have hdram : (pmuEvent (pmuEvent s (engineOf s c) 0x11) (8 + c) 0x09).dram = s.dram := by
      rw [(touches_pmuEvent _ _ _).dram rfl, (touches_pmuEvent _ _ _).dram rfl]
    split at h
    · next w d n heq =>
      obtain ⟨hw, hdram'⟩ := hdecode hpmu hdram heq
      exact ⟨w, _, _, rfl, hw, hdram', rfl⟩
    · exact absurd h (by simp)
  | some l =>
    have hchan : l.chan = c := by
      have hplace := List.find?_some hfind
      simp only [Bool.and_eq_true, beq_iff_eq] at hplace
      exact hplace.1.1
    rw [hfind] at h
    dsimp only at h ⊢
    by_cases hbad : l.bad = true
    · rw [if_pos hbad] at h
      exact absurd hbad (by simp [show l.bad = false from h])
    · rw [if_neg hbad] at h ⊢
      have hpmu := sameEngines_pmuEvents s (engineOf s c) 0x10 1
      have hdram : (pmuEvent s (engineOf s c) 0x10).dram = s.dram := (touches_pmuEvent _ _ _).dram rfl
      split at h
      · next w d n heq =>
        obtain ⟨hw, hdram'⟩ := hdecode hpmu hdram heq
        exact ⟨w, _, _, rfl, hw, hdram', hchan⟩
      · exact absurd h (by simp)

theorem dramGet_writeBurst_other (s : State) (c m : Nat) (d : LineData) (ck : BitVec 64) (src key : Nat) (hc : c < 16)
    (hkey : key ≠ dramKey c (m / 28) (m % 28))
    (hgood : (checkLine (initEarly s c (m / 28)) c (m / 28) (m % 28 / 7) 0 false src).2.1.bad = false)
    (hcache : ∀ x ∈ (slice s (engineOf s c)).cc, x.dirty = true → dramKey x.chan x.unit (28 + x.k) ≠ key) :
    dramGet (writeBurst s c m d ck src) key = dramGet s key := by
  obtain ⟨v, l, b, hline, hv, hdram, hchan⟩ := checkLine_good _ c (m / 28) (m % 28 / 7) src hc hgood
  rw [hline] at hgood
  have hsame := (sameEngines_initEarly s (m / 28) hc).trans hv
  have hdram' : v.dram = s.dram := hdram.trans ((touches_initEarly s c (m / 28)).dram rfl)
  have hcc : (slice v (engineOf v l.chan)).cc = (slice s (engineOf s c)).cc := by rw [hchan, hsame.engineOf, hsame.cc]
  obtain ⟨hfirst, hengine, hkeep⟩ := ccPut_keeps v l key fun x hx _ hdirty => hcache x (hcc ▸ hx) hdirty
  unfold writeBurst
  dsimp only
  rw [hline]
  dsimp only
  rw [hgood, if_neg (by decide)]
  dsimp only
  have hplace : ∀ x d' b', samePlace x { l with data := d', dirty := b' } = samePlace x l := fun _ _ _ => rfl
  rw [dramGet_dramSet_ne _ _ hkey, dramGet_congr ((touches_slotWritten _ _ _ _).dram rfl), dramGet_congr ((touches_pmuEvent _ _ _).dram rfl)]
  refine ((ccPut_keeps (ccPut v l) _ key fun x hx hne hdirty => ?_).1.trans hfirst).trans (dramGet_congr hdram' key)
  rw [hplace] at hne
  rw [show engineOf (ccPut v l) ({ l with data := lineSet l.data (8 * (m % 7)) 8 ck.toNat, dirty := true } : CheckLine).chan
    = engineOf v l.chan from hengine l.chan] at hx
  exact hcache x (hcc ▸ hkeep x hx hne) hdirty

theorem dramGet_writeBurst_same (s : State) (c m : Nat) (d : LineData) (ck : BitVec 64) (src : Nat) :
    dramGet (writeBurst s c m d ck src) (dramKey c (m / 28) (m % 28)) = d := dramGet_dramSet_same _ _ d

/-- Settles O9: what is queued is found again by its line, a merge goes byte by byte, and of the burst's steps only the write-back
of a changed check line and the write of the line itself reach DRAM. -/
theorem writesAreForwarded : Obligations.WritesAreForwarded := by
  unfold Obligations.WritesAreForwarded
  refine ⟨fun s c m img w hc => forwardRead_wqFull s c m img w hc, ?merged, ?waits, ?bytes, ?lost, dramGet_writeBurst_same,
    fun s c m d ck src key hc hkey hgood hcache => dramGet_writeBurst_other s c m d ck src key hc hkey hgood hcache⟩
  case merged =>
    intro s c m d p be w e hc hfind hfull
    unfold wqPartial
    rw [hfind]
    dsimp only
    rw [if_pos hfull]
    exact forwardRead_wqFull s c m _ w hc
  case waits =>
    intro s c m d p be w hc hfind
    obtain ⟨e, r, rfl, hfull, hrm, hruse, hrissued, heq⟩ := wqPartial_none d p be w hfind
    rw [heq]
    refine ⟨?forward, ⟨{ r with id := (chan (wrqStore (takeOrder s c).2 c e) c).rdNext }, ?_, hrm, hruse, hrissued⟩, fun m' hne => ?_⟩
    case forward => exact forwardRead_partial ((wrqFind_pushRead _ c e.m r hc).trans (wrqFind_wrqStore_same _ c e hc)) hfull
    · rw [rdq_pushRead _ c r hc]
      exact List.mem_append_right _ (List.mem_singleton_self _)
    · rw [wrqFind_pushRead _ c m' r hc, wrqFind_wrqStore_ne _ c e hc hne, wrqFind_takeOrder s c m' hc]
  case bytes =>
    intro src d be i hlost hpoison hi
    obtain ⟨hp, hl, -⟩ := mergeImg_clean src d be hlost hpoison
    exact ⟨hp, hl, mergeImg_bytes d be hlost hpoison hi⟩
  case lost =>
    intro src d p be hlost
    exact if_pos hlost

end Sys2Proof.Proofs
end

section
/-! SUPPORT. The packet of a mailbox that stands alone (Chapter 18): how it is taken up, and what a reply leaves of the mailboxes. -/

namespace Sys2Proof.Proofs

open Sys2Proof.Machine Sys2Proof.Safety Sys2Proof.Laws

/-- No command waits in a mailbox. -/
def NoMail (s : State) : Prop := ∀ b, (mailOf s b).cmd = []

theorem mailOf_setMail_same (s : State) (b : Mailbox) (m : Mail) : mailOf (setMail s b m) b = m := by cases b <;> rfl

theorem mailOf_setMail_ne (s : State) {b b' : Mailbox} (m : Mail) (h : b' ≠ b) : mailOf (setMail s b m) b' = mailOf s b' := by
  cases b <;> cases b' <;> simp_all [mailOf, setMail]

theorem mailOf_congr {s t : State} (h : t.seq = s.seq) (b : Mailbox) : mailOf t b = mailOf s b := by
  cases b <;> simp only [mailOf, h]

theorem eq_or_otherBox (b mb : Mailbox) : b = mb ∨ b = otherBox mb := by
  cases b <;> cases mb <;> simp [otherBox]

theorem noMail_of_seq {s t : State} (h : NoMail s) (hseq : t.seq = s.seq) : NoMail t := fun b => by rw [mailOf_congr hseq]; exact h b

theorem noMail_setMail {s : State} (h : NoMail s) (b : Mailbox) {m : Mail} (hm : m.cmd = []) : NoMail (setMail s b m) := by
  intro b'
  by_cases hb : b' = b
  · rw [hb, mailOf_setMail_same, hm]
  · rw [mailOf_setMail_ne s m hb]
    exact h b'

theorem noMail_pushReply {s : State} (h : NoMail s) (mb : Mailbox) (r : List Word) : NoMail (pushReply s mb r) := by
  unfold pushReply
  extract_lets m u
  have hstored : NoMail (setMail s mb { m with reply := m.reply ++ r }) := noMail_setMail h mb (h mb)
  have hu : NoMail u := noMail_of_seq hstored rfl
  split
  · split
    · exact noMail_of_seq hu ((touches_wakePme u).seq rfl)
    · exact hu
  · exact noMail_setMail h mb (h mb)

theorem noMail_sendReply {s : State} (h : NoMail s) (mb : Mailbox) (hdr : Word) (st : Nat) (d : List Word) :
    NoMail (sendReply s mb hdr st d) := by
  unfold sendReply
  split
  · exact h
  · exact noMail_pushReply h mb _

theorem settleMail_noMail {s : State} (h : NoMail s) : settleMail s = s :=
  settleMail_idle (headPkt_of_cmd_nil (h .host)) (headPkt_of_cmd_nil (h .partner))

-- the packet that is next

variable {s : State} {mb : Mailbox} {op : Nat} {p : CmdPkt} {r : CmdRule}

theorem defined_of_lone (h : Lone s mb op p) : s.undef = false := by
  obtain ⟨⟨hdef, -⟩, -⟩ := h
  exact hdef

theorem noMail_popPkt (h : Lone s mb op p) : NoMail (popPkt s mb) := by
  obtain ⟨-, -, hcmd, -, hother, -⟩ := h
  intro b
  unfold popPkt
  rcases eq_or_otherBox b mb with rfl | rfl
  · rw [mailOf_setMail_same]
    simp only [hcmd, List.tail_cons]
  · rw [mailOf_setMail_ne _ _ (by cases mb <;> decide), hother]

theorem nextPkt_lone (h : Lone s mb op p) : nextPkt s mb op = some p := by
  obtain ⟨⟨-, hrun⟩, hready, hcmd, hheld, hother, howed, hdropped, hop⟩ := h
  have hhead : headPkt s mb = some p := by
    unfold headPkt
    simp [hcmd, hheld, howed, hdropped]
  have hnext : nextMailbox s = mb := by
    cases mb
    · rw [nextMailbox, hhead]; rfl
    · rw [nextMailbox, headPkt_of_cmd_nil (mb := .host) hother]; rfl
  unfold nextPkt
  rw [hrun, hready, hnext, hhead, if_pos (by cases mb <;> rfl)]
  simp [hop]

theorem takePacket_lone (h : Lone s mb op p) (r : CmdRule) : takePacket s mb op r =
    settleMail (match refusalOf (popPkt s mb) mb p r with
      | some st => sendReply (popPkt s mb) mb p.hdr st []
      | none => r.act (popPkt s mb) (takenOf mb p)) := by
  unfold takePacket
  rw [nextPkt_lone h]
  rfl

theorem exec_packet {c : Instr} (hc : packetRule c = some (mb, op, r)) (h : Lone s mb op p) :
    exec c s = guarded s (takePacket s mb op r) := by
  unfold packetRule at hc
  split at hc
  case h_7 =>
    cases hc
    exact congrArg (guarded s) (if_pos (by rw [nextPkt_lone h]; rfl))
  case h_25 => exact absurd hc (by simp)
  all_goals
    cases hc
    rfl

theorem exec_refused {c : Instr} {st : Nat} (hc : packetRule c = some (mb, op, r)) (h : Lone s mb op p)
    (href : refusalOf (popPkt s mb) mb p r = some st) : exec c s = resume s (sendReply (popPkt s mb) mb p.hdr st []) := by
  rw [exec_packet hc h, guarded_defined _ (defined_of_lone h), takePacket_lone h, href]
  exact congrArg (resume s) (settleMail_noMail (noMail_sendReply (noMail_popPkt h) _ _ _ _))

theorem exec_accepted {c : Instr} (hc : packetRule c = some (mb, op, r)) (h : Lone s mb op p) (hacc : Accepts s mb p r) :
    exec c s = resume s (settleMail (r.act (popPkt s mb) (takenOf mb p))) := by
  rw [exec_packet hc h, guarded_defined _ (defined_of_lone h), takePacket_lone h, show refusalOf (popPkt s mb) mb p r = none from hacc]

/-- An accepted packet whose rule leaves no mail. -/
theorem exec_accepted_quiet {c : Instr} (hc : packetRule c = some (mb, op, r)) (h : Lone s mb op p) (hacc : Accepts s mb p r)
    (hmail : NoMail (r.act (popPkt s mb) (takenOf mb p))) : exec c s = resume s (r.act (popPkt s mb) (takenOf mb p)) := by
  rw [exec_accepted hc h hacc, settleMail_noMail hmail]

theorem touches_popPkt (s : State) (mb : Mailbox) : Touches { seq := true } s (popPkt s mb) := by
  unfold popPkt
  cases mb <;> exact (touches_seq s _).mono rfl

/-- An accepted packet whose rule leaves no mail ends with what its rule says. -/
theorem completes_accepted {c : Instr} {K : Parts} {P : State → Prop} (hc : packetRule c = some (mb, op, r)) (h : Lone s mb op p)
    (hacc : Accepts s mb p r) {u : State} (hu : r.act (popPkt s mb) (takenOf mb p) = u) (hmail : NoMail u)
    (ht : Touches K (popPkt s mb) u) (hk : K.pending = false) (hP : P u) : Completes c s P := by
  refine ⟨u, ?_, hP⟩
  rw [exec_accepted_quiet hc h hacc (hu ▸ hmail), hu, resume_eq, ← (touches_popPkt s mb).pending rfl, ← ht.pending hk]

end Sys2Proof.Proofs
end

section
/-! PROOF. Every command packet: taken by its rule, or refused (O31). -/

namespace Sys2Proof.Proofs

open Sys2Proof.Machine Sys2Proof.Safety Sys2Proof.Laws

/-- Settles O31: the packet that stands alone is next, and the order of the refusals is the one that `refusalOf` tests. -/
theorem packetsAreTakenOrRefused : Obligations.PacketsAreTakenOrRefused := by
  unfold Obligations.PacketsAreTakenOrRefused
  refine ⟨fun s c mb op r p st hc h href => exec_refused hc h href, fun s c mb op r p hc h hacc => exec_accepted hc h hacc, ?_, ?_, ?_⟩
  · intro s p r hform
    exact if_pos ⟨rfl, by rw [hform]; rfl⟩
  · intro s p r hbad
    unfold refusalOf
    rw [if_neg (by simp)]
    by_cases htorn : p.torn = true
    · rw [if_pos htorn]
    · rw [if_neg htorn, if_pos]
      rcases hbad with h | h | h
      · exact absurd h htorn
      · exact Or.inl h
      · exact Or.inr (by rw [h]; rfl)
  · intro s p r htorn hflags hshape hlong hrun
    unfold refusalOf
    rw [if_neg (by simp), if_neg (ne_true_of_eq_false htorn), if_neg (by simp [hflags, hshape]), if_pos ⟨hlong, hrun⟩]

end Sys2Proof.Proofs
end

section
/-! PROOF. The packets that answer and the packets that set (O32). -/

namespace Sys2Proof.Proofs

open Sys2Proof.Machine Sys2Proof.Safety Sys2Proof.Laws

variable {s : State} {mb : Mailbox} {op : Nat} {p : CmdPkt} {r : CmdRule}

-- what an answer leaves

theorem getReg_popPkt (s : State) (mb : Mailbox) (a : Nat) : getReg (popPkt s mb) a = getReg s a :=
  getReg_congr ((touches_popPkt s mb).regs rfl) a

theorem popPkt_held_reply (s : State) (mb : Mailbox) : (mailOf (popPkt s mb) mb).held = (mailOf s mb).held ∧
    (mailOf (popPkt s mb) mb).reply = (mailOf s mb).reply := by
  unfold popPkt
  rw [mailOf_setMail_same]
  exact ⟨rfl, rfl⟩

/-- A reply that has room is appended and sets the event of its mailbox (R446). -/
theorem pushReply_room {u : State} {w : List Word} (hheld : (mailOf u mb).held = [])
    (hroom : (mailOf u mb).reply.length + w.length ≤ mailCap mb) :
    (mailOf (pushReply u mb w) mb).reply = (mailOf u mb).reply ++ w ∧ getBit (pushReply u mb w) 0x35000C (replyBit mb) = true := by
  unfold pushReply
  extract_lets m v
  rw [if_pos (by simp [m, hheld, hroom])]
  have hv : (mailOf v mb).reply = (mailOf u mb).reply ++ w := by
    rw [show mailOf v mb = mailOf (setMail u mb { m with reply := m.reply ++ w }) mb from mailOf_congr rfl mb, mailOf_setMail_same]
  have hbit : getBit v 0x35000C (replyBit mb) = true :=
    getBit_setBit_same (setMail u mb { m with reply := m.reply ++ w }) 0x35000C true (by cases mb <;> decide)
  split
  · rw [mailOf_congr ((touches_wakePme v).seq rfl), getBit, getReg_wakePme]
    exact ⟨hv, hbit⟩
  · exact ⟨hv, hbit⟩

theorem keepsMemory_trans {s t u : State} (h : KeepsMemory s t) (h' : KeepsMemory t u) : KeepsMemory s u := by
  obtain ⟨hd, hs, hc⟩ := h
  obtain ⟨hd', hs', hc'⟩ := h'
  exact ⟨hd'.trans hd, hs'.trans hs, hc'.trans hc⟩

theorem keepsMemory_popPkt (s : State) (mb : Mailbox) : KeepsMemory s (popPkt s mb) :=
  keepsMemory_of_touches (touches_popPkt s mb) rfl rfl rfl

theorem keepsMemory_sendReply (s : State) (mb : Mailbox) (hdr : Word) (st : Nat) (d : List Word) :
    KeepsMemory s (sendReply s mb hdr st d) := keepsMemory_of_touches (touches_sendReply s mb hdr st d) rfl rfl rfl

/-- A packet that only answers. -/
theorem completes_information {c : Instr} {d : List Word} {n : Nat} (hc : packetRule c = some (mb, op, r)) (h : Lone s mb op p)
    (hacc : Accepts s mb p r) (hquiet : bitOf p.hdr 24 = false) (hroom : (mailOf s mb).reply.length + n ≤ mailCap mb)
    (hact : r.act (popPkt s mb) (takenOf mb p) = sendReply (popPkt s mb) mb p.hdr stOk d) (hn : n = d.length + 1) :
    Completes c s (fun t =>
      (mailOf t mb).reply = (mailOf s mb).reply ++ mkReply p.hdr stOk d ∧ (mailOf t mb).cmd = [] ∧
      getBit t 0x35000C (replyBit mb) = true ∧ RegsBut 0x35000C s t ∧ KeepsMemory s t) := by
  obtain ⟨hheld, hreply⟩ := popPkt_held_reply s mb
  have hmail := noMail_sendReply (noMail_popPkt h) mb p.hdr stOk d
  refine completes_accepted hc h hacc hact hmail (touches_sendReply _ _ _ _ _) rfl ?_
  obtain ⟨-, -, -, hnone, -⟩ := h
  have hsend : sendReply (popPkt s mb) mb p.hdr stOk d = pushReply (popPkt s mb) mb (mkReply p.hdr stOk d) :=
    if_neg (by rw [hquiet]; simp)
  obtain ⟨hpushed, hbit⟩ := pushReply_room (u := popPkt s mb) (mb := mb) (w := mkReply p.hdr stOk d) (hheld.trans hnone)
    (by rw [hreply]; simpa [mkReply, hn] using hroom)
  rw [← hsend] at hpushed hbit
  rw [hreply] at hpushed
  exact ⟨hpushed, hmail mb, hbit, fun b hb => ((sendReply_regs _ _ _ _ _).1 b hb).trans (getReg_popPkt s mb b),
    keepsMemory_trans (keepsMemory_popPkt s mb) (keepsMemory_sendReply _ _ _ _ _)⟩

-- the packets that set

/-- The scrub that `SCRUB_CTL` sets in channel `k`. -/
def scrubSet (l : List Word) (s : State) (k : Nat) : State :=
  if bitOf (paramOf l 1) k && slicePop s (k / 2) then setScrub s k (bitOf (paramOf l 1) 16) (bitsOf (paramOf l 2) 0 16) else s

theorem touches_scrubSet (l : List Word) (s : State) (k : Nat) : Touches { regs := true, chans := true } s (scrubSet l s k) := by
  unfold scrubSet
  exact .ite ((touches_setScrub _ _ _ _).mono rfl) (.refl _)

theorem scrubSet_others (l : List Word) (s : State) {k c : Nat} (h : c ≠ k) :
    getReg (scrubSet l s k) (mcBase c + 0x68) = getReg s (mcBase c + 0x68) ∧ chan (scrubSet l s k) c = chan s c := by
  unfold scrubSet
  split
  · unfold setScrub
    extract_lets u
    have hu : getReg u (mcBase c + 0x68) = getReg s (mcBase c + 0x68) := getReg_setReg_ne s _ (by unfold mcBase; omega)
    exact ⟨(getReg_congr ((touches_setChan u k _).regs rfl) _).trans hu, chan_setChan_ne u _ h⟩
  · exact ⟨rfl, rfl⟩

theorem scrubSet_skips {l : List Word} {k : Nat} (s : State) (h : bitOf (paramOf l 1) k = false) : scrubSet l s k = s :=
  if_neg (by rw [h, Bool.false_and]; decide)

theorem scrubSet_sets {l : List Word} {s : State} {k : Nat} (hk : k < 16) (hbit : bitOf (paramOf l 1) k = true)
    (hpop : slicePop s (k / 2) = true) :
    getReg (scrubSet l s k) (mcBase k + 0x68) = BitVec.ofNat 32 (bitsOf (paramOf l 2) 0 16 + 2 ^ 16 * b2n (bitOf (paramOf l 1) 16)) ∧
    (chan (scrubSet l s k) k).scrubDue = s.tick + bitsOf (paramOf l 2) 0 16 * 1000 := by
  unfold scrubSet
  rw [if_pos (by rw [hbit, hpop]; rfl)]
  unfold setScrub
  extract_lets u
  exact ⟨(getReg_congr ((touches_setChan u k _).regs rfl) _).trans (getReg_setReg_same s _ _), congrArg Chan.scrubDue (chan_setChan_same u k _ hk)⟩

/-- Of each channel only its own turn matters. -/
theorem scrubSet_all (l : List Word) (s : State) {c : Nat} : ∀ n, (n ≤ c → getReg (forEach n s (scrubSet l)) (mcBase c + 0x68) =
      getReg s (mcBase c + 0x68) ∧ chan (forEach n s (scrubSet l)) c = chan s c) ∧
    (c < n → ∃ u, Touches { regs := true, chans := true } s u ∧ getReg u (mcBase c + 0x68) = getReg s (mcBase c + 0x68) ∧
      chan u c = chan s c ∧ getReg (forEach n s (scrubSet l)) (mcBase c + 0x68) = getReg (scrubSet l u c) (mcBase c + 0x68) ∧
      chan (forEach n s (scrubSet l)) c = chan (scrubSet l u c) c)
  | 0 => ⟨fun _ => ⟨rfl, rfl⟩, fun h => by omega⟩
  | n + 1 => by
    obtain ⟨hbefore, hafter⟩ := scrubSet_all l s (c := c) n
    rw [forEach_succ]
    refine ⟨fun h => ?_, fun h => ?_⟩
    · obtain ⟨hreg, hchan⟩ := scrubSet_others l (forEach n s (scrubSet l)) (show c ≠ n by omega)
      obtain ⟨hreg', hchan'⟩ := hbefore (by omega)
      exact ⟨hreg.trans hreg', hchan.trans hchan'⟩
    · by_cases hc : c = n
      · subst hc
        obtain ⟨hreg', hchan'⟩ := hbefore (by omega)
        exact ⟨_, .forEach (fun s k => touches_scrubSet l s k) c s, hreg', hchan', rfl, rfl⟩
      · obtain ⟨u, hu, hreg, hchan, hreg', hchan'⟩ := hafter (by omega)
        obtain ⟨hreg'', hchan''⟩ := scrubSet_others l (forEach n s (scrubSet l)) hc
        exact ⟨u, hu, hreg, hchan, hreg''.trans hreg', hchan''.trans hchan'⟩

theorem slicePop_congr {s t : State} (h : t.pins = s.pins) (n : Nat) : slicePop t n = slicePop s n := by
  unfold slicePop
  rw [h]

theorem scrubCtl_completes (h : Lone s mb 0x12 p) (hacc : Accepts s mb p scrubCtlRule) : Completes (.scrubCtl mb) s (fun t =>
    (∀ c, c < 16 → bitOf (paramOf p.stored 1) c = true → slicePop s (c / 2) = true →
      getReg t (mcBase c + 0x68) = BitVec.ofNat 32 (bitsOf (paramOf p.stored 2) 0 16 + 2 ^ 16 * b2n (bitOf (paramOf p.stored 1) 16)) ∧
      (chan t c).scrubDue = s.tick + bitsOf (paramOf p.stored 2) 0 16 * 1000) ∧
    (∀ c, c < 16 → bitOf (paramOf p.stored 1) c = false → getReg t (mcBase c + 0x68) = getReg s (mcBase c + 0x68) ∧
      chan t c = chan s c) ∧ t.dram = s.dram ∧ t.slices = s.slices) := by
  obtain ⟨v, hv⟩ : ∃ v, v = forEach 16 (popPkt s mb) (scrubSet p.stored) := ⟨_, rfl⟩
  have htouch : Touches { regs := true, chans := true } (popPkt s mb) v := hv ▸ .forEach (fun s k => touches_scrubSet p.stored s k) 16 _
  have hpop := touches_popPkt s mb
  have hmail := noMail_sendReply (noMail_of_seq (noMail_popPkt h) (htouch.seq rfl)) mb p.hdr stOk []
  have hreg : ∀ c, c < 16 → getReg (sendReply v mb p.hdr stOk []) (mcBase c + 0x68) = getReg v (mcBase c + 0x68) := fun c hc =>
    (sendReply_regs v mb p.hdr stOk []).1 _ (by unfold mcBase; omega)
  have hchan : ∀ c, chan (sendReply v mb p.hdr stOk []) c = chan v c := fun c => chan_congr ((touches_sendReply v mb p.hdr stOk []).chans rfl) c
  refine completes_accepted (r := scrubCtlRule) rfl h hacc (hv ▸ rfl : _ = sendReply v mb p.hdr stOk []) hmail
    ((touches_sendReply v mb p.hdr stOk []).after rfl <| htouch.mono rfl :
      Touches { regs := true, chans := true, twin := true, seq := true } _ _) rfl ⟨fun c hc hbit hpops => ?_, fun c hc hbit => ?_, ?_, ?_⟩
  · obtain ⟨u, hu, -, -, hr, hch⟩ := (scrubSet_all p.stored (popPkt s mb) (c := c) 16).2 hc
    obtain ⟨hset, hdue⟩ := scrubSet_sets (l := p.stored) (s := u) hc hbit
      ((slicePop_congr ((hu.pins rfl).trans (hpop.pins rfl)) (c / 2)).trans hpops)
    rw [hreg c hc, hchan, hv, hr, hch, hset, hdue, hu.tick rfl, hpop.tick rfl]
    exact ⟨rfl, rfl⟩
  · obtain ⟨u, -, hr', hch', hr, hch⟩ := (scrubSet_all p.stored (popPkt s mb) (c := c) 16).2 hc
    rw [hreg c hc, hchan, hv, hr, hch, scrubSet_skips u hbit, hr', hch', getReg_popPkt]
    exact ⟨rfl, chan_congr (hpop.chans rfl) c⟩
  · rw [(touches_sendReply v mb p.hdr stOk []).dram rfl, htouch.dram rfl, hpop.dram rfl]
  · rw [(touches_sendReply v mb p.hdr stOk []).slices rfl, htouch.slices rfl, hpop.slices rfl]

-- the faults that are cleared

theorem fltBase_apart {u v a b : Nat} (hu : u < 32) (hv : v < 32) (ha : a < 0x40) (hb : b < 0x40) (h : u ≠ v ∨ a ≠ b) :
    fltBase u + a ≠ fltBase v + b := by
  unfold fltBase
  split <;> split <;> omega

theorem getReg_clearFaults {s : State} {u : Nat} (m : Word) (hu : u < 32) :
    getReg (clearFaults s u m) (fltBase u + 4) = getReg s (fltBase u + 4) &&& ~~~m ∧
    ∀ v, v < 32 → v ≠ u → getReg (clearFaults s u m) (fltBase v + 4) = getReg s (fltBase v + 4) := by
  unfold clearFaults
  extract_lets b v w
  have hw : w.regs = v.regs := forEach_keeps (P := fun t : State => t.regs = v.regs) (fun t k ht => by
    split
    · exact ht
    · exact ht) 32 rfl
  have hsame : getReg w (fltBase u + 4) = getReg s (fltBase u + 4) &&& ~~~m :=
    (getReg_congr hw _).trans (getReg_setReg_same s _ _)
  have hother : ∀ n, n < 32 → n ≠ u → getReg w (fltBase n + 4) = getReg s (fltBase n + 4) := fun n hn hne =>
    (getReg_congr hw _).trans (getReg_setReg_ne s _ (fltBase_apart hn hu (by decide) (by decide) (Or.inl hne)))
  split
  · exact ⟨(getReg_setBit_ne w _ _ (fltBase_apart hu hu (by decide) (by decide) (Or.inr (by decide)))).trans hsame, fun n hn hne =>
      (getReg_setBit_ne w _ _ (fltBase_apart hn hu (by decide) (by decide) (Or.inl hne))).trans (hother n hn hne)⟩
  · exact ⟨hsame, hother⟩

theorem faultClear_completes {u : Nat} (h : Lone s mb 0x51 p) (hacc : Accepts s mb p faultClearRule)
    (hu : u = bitsOf (paramOf p.stored 1) 0 5) : Completes (.faultClear mb) s (fun t =>
      getReg t (fltBase u + 4) = getReg s (fltBase u + 4) &&& ~~~(paramOf p.stored 2 &&& clearableMask u) ∧
      (∀ v, v < 27 → v ≠ u → getReg t (fltBase v + 4) = getReg s (fltBase v + 4)) ∧ KeepsMemory s t) := by
  have hlt : u < 32 := hu ▸ Nat.mod_lt _ (by decide)
  obtain ⟨v, hv⟩ : ∃ v, v = clearFaults (popPkt s mb) u (paramOf p.stored 2 &&& clearableMask u) := ⟨_, rfl⟩
  obtain ⟨hsame, hother⟩ := getReg_clearFaults (s := popPkt s mb) (paramOf p.stored 2 &&& clearableMask u) hlt
  rw [← hv] at hsame hother
  have htouch : Touches { regs := true, faults := true } (popPkt s mb) v := hv ▸ touches_clearFaults _ _ _
  have hact : ∃ st d, faultClearRule.act (popPkt s mb) (takenOf mb p) = sendReply v mb p.hdr st d := by
    rw [hv, hu]
    exact ⟨_, _, rfl⟩
  obtain ⟨st, d, hact⟩ := hact
  have hreg : ∀ n, n < 32 → getReg (sendReply v mb p.hdr st d) (fltBase n + 4) = getReg v (fltBase n + 4) := fun n hn =>
    (sendReply_regs v mb p.hdr st d).1 _ (by unfold fltBase; split <;> omega)
  refine completes_accepted rfl h hacc hact (noMail_sendReply (noMail_of_seq (noMail_popPkt h) (htouch.seq rfl)) _ _ _ _)
    ((touches_sendReply v mb p.hdr st d).after rfl <| htouch.mono rfl :
      Touches { regs := true, faults := true, twin := true, seq := true } _ _) rfl ⟨?_, fun n hn hne => ?_, ?_⟩
  · rw [hreg u hlt, hsame, getReg_popPkt]
  · rw [hreg n (by omega), hother n (by omega) hne, getReg_popPkt]
  · exact keepsMemory_trans (keepsMemory_popPkt s mb) (keepsMemory_trans (keepsMemory_of_touches htouch rfl rfl rfl)
      (keepsMemory_sendReply _ _ _ _ _))

-- the blotter

/-- A field inside a field that is written shows its part of the value. -/
theorem bitsOf_bitsTo_within (w : Word) {lo n a k : Nat} (v : Nat) (h : lo + n ≤ 32) (hak : a + k ≤ n) :
    bitsOf (bitsTo w lo n v) (lo + a) k = v / 2 ^ a % 2 ^ k := by
  have hfield : (bitsTo w lo n v).toNat / 2 ^ lo % 2 ^ n = v % 2 ^ n := bitsOf_bitsTo_same w v h
  have hcut : ∀ x : Nat, x / 2 ^ a % 2 ^ k = x % 2 ^ n / 2 ^ a % 2 ^ k := fun x => by
    rw [show n = a + (n - a) by omega, Nat.pow_add, Nat.mod_mul_right_div_self, Nat.mod_mod_of_dvd _ (Nat.pow_dvd_pow 2 (by omega))]
  rw [bitsOf, Nat.pow_add, ← Nat.div_div_eq_div_mul, hcut, hfield, ← hcut]

theorem bitsOf_lt (w : Word) (lo n : Nat) : bitsOf w lo n < 2 ^ n := Nat.mod_lt _ (Nat.two_pow_pos n)

/-- The word of an armed blotter. -/
theorem blotterWord_fields (w : Word) {k i r : Nat} (hk : k < 2 ^ 6) (hi : i < 2 ^ 5) (hr : r < 2 ^ 8) :
    bitOf (bitsTo w 0 20 (1 + 2 * k + 2 ^ 7 * i + 2 ^ 12 * r)) 0 = true ∧
    bitsOf (bitsTo w 0 20 (1 + 2 * k + 2 ^ 7 * i + 2 ^ 12 * r)) 1 6 = k ∧
    bitsOf (bitsTo w 0 20 (1 + 2 * k + 2 ^ 7 * i + 2 ^ 12 * r)) 7 5 = i ∧
    bitsOf (bitsTo w 0 20 (1 + 2 * k + 2 ^ 7 * i + 2 ^ 12 * r)) 12 8 = r := by
  have hpart := fun a n h => bitsOf_bitsTo_within (a := a) (k := n) w (1 + 2 * k + 2 ^ 7 * i + 2 ^ 12 * r) (lo := 0) (n := 20) (by decide) h
  simp only [Nat.zero_add] at hpart
  refine ⟨?_, ?_, ?_, ?_⟩
  · have hbit := hpart 0 1 (by decide)
    rw [bitOf, BitVec.getLsbD, Nat.testBit_zero]
    unfold bitsOf at hbit
    simp only [Nat.pow_zero, Nat.div_one, Nat.pow_one] at hbit
    rw [hbit]
    simp only [decide_eq_true_eq]
    omega
  · rw [hpart 1 6 (by decide)]; omega
  · rw [hpart 7 5 (by decide)]; omega
  · rw [hpart 12 8 (by decide)]; omega

theorem blotterAct_arms {u : State} {c : Taken} (hfree : getBit u 0x320018 0 = false)
    (hin : bitsOf (c.w 1) 8 5 < checkerInstances (bitsOf (c.w 1) 0 6)) : blotterAct u c =
      answer { setFld u 0x320018 0 20 (1 + 2 * bitsOf (c.w 1) 0 6 + 2 ^ 7 * bitsOf (c.w 1) 8 5 + 2 ^ 12 * bitsOf (c.w 1) 16 8) with
        faults := { u.faults with blotMask := c.w 3 ++ c.w 2, blotSuppress := bitOf (c.w 1) 24 } } c stOk [] := by
  unfold blotterAct
  extract_lets w v
  rw [if_neg (ne_true_of_eq_false hfree), if_neg (Nat.not_le.mpr hin)]
  rfl

theorem blotterArm_completes (h : Lone s mb 0x50 p) (hacc : Accepts s mb p blotterArmRule) (hfree : getBit s 0x320018 0 = false)
    (hin : bitsOf (paramOf p.stored 1) 8 5 < checkerInstances (bitsOf (paramOf p.stored 1) 0 6)) : Completes (.blotterArm mb) s (fun t =>
      getBit t 0x320018 0 = true ∧ getFld t 0x320018 1 6 = bitsOf (paramOf p.stored 1) 0 6 ∧
      getFld t 0x320018 7 5 = bitsOf (paramOf p.stored 1) 8 5 ∧ getFld t 0x320018 12 8 = bitsOf (paramOf p.stored 1) 16 8 ∧
      t.faults.blotMask = paramOf p.stored 3 ++ paramOf p.stored 2 ∧ t.faults.blotSuppress = bitOf (paramOf p.stored 1) 24 ∧
      KeepsMemory s t) := by
  obtain ⟨v, hv⟩ : ∃ v : State, v = { setFld (popPkt s mb) 0x320018 0 20 (1 + 2 * bitsOf (paramOf p.stored 1) 0 6 +
      2 ^ 7 * bitsOf (paramOf p.stored 1) 8 5 + 2 ^ 12 * bitsOf (paramOf p.stored 1) 16 8) with
    faults := { (popPkt s mb).faults with blotMask := paramOf p.stored 3 ++ paramOf p.stored 2,
                                          blotSuppress := bitOf (paramOf p.stored 1) 24 } } := ⟨_, rfl⟩
  have htouch : Touches { regs := true, faults := true } (popPkt s mb) v :=
    hv ▸ ((touches_faults _ _).after rfl <| (touches_setFld _ _ _ _ _).mono rfl)
  have hreg : getReg v 0x320018 = bitsTo (getReg (popPkt s mb) 0x320018) 0 20 (1 + 2 * bitsOf (paramOf p.stored 1) 0 6 +
      2 ^ 7 * bitsOf (paramOf p.stored 1) 8 5 + 2 ^ 12 * bitsOf (paramOf p.stored 1) 16 8) := hv ▸ getReg_setReg_same _ _ _
  have hmask : v.faults.blotMask = paramOf p.stored 3 ++ paramOf p.stored 2 ∧ v.faults.blotSuppress = bitOf (paramOf p.stored 1) 24 :=
    hv ▸ ⟨rfl, rfl⟩
  have hact : blotterArmRule.act (popPkt s mb) (takenOf mb p) = sendReply v mb p.hdr stOk [] :=
    (blotterAct_arms (c := takenOf mb p) ((congrArg (bitOf · 0) (getReg_popPkt s mb _)).trans hfree) hin).trans (hv ▸ rfl)
  obtain ⟨harm, hk, hi, hr⟩ := blotterWord_fields (getReg (popPkt s mb) 0x320018) (bitsOf_lt (paramOf p.stored 1) 0 6)
    (bitsOf_lt (paramOf p.stored 1) 8 5) (bitsOf_lt (paramOf p.stored 1) 16 8)
  rw [← hreg] at harm hk hi hr
  have hreply : getReg (sendReply v mb p.hdr stOk []) 0x320018 = getReg v 0x320018 := (sendReply_regs v mb p.hdr stOk []).1 _ (by decide)
  refine completes_accepted rfl h hacc hact (noMail_sendReply (noMail_of_seq (noMail_popPkt h) (htouch.seq rfl)) _ _ _ _)
    ((touches_sendReply v mb p.hdr stOk []).after rfl <| htouch.mono rfl :
      Touches { regs := true, faults := true, twin := true, seq := true } _ _) rfl ?_
  unfold getBit getFld
  rw [hreply, (touches_sendReply v mb p.hdr stOk []).faults rfl]
  exact ⟨harm, hk, hi, hr, hmask.1, hmask.2, keepsMemory_trans (keepsMemory_popPkt s mb)
    (keepsMemory_trans (keepsMemory_of_touches htouch rfl rfl rfl) (keepsMemory_sendReply _ _ _ _ _))⟩

theorem calendarSet_completes (h : Lone s mb 0x42 p) (hacc : Accepts s mb p calendarSetRule) : Completes (.calendarSet mb) s (fun t =>
    t.aon = { s.aon with calendar := paramOf p.stored 2 ++ paramOf p.stored 1, calSets := min (s.aon.calSets + 1) (2 ^ 32 - 1) } ∧
    RegsBut 0x35000C s t ∧ KeepsMemory s t) := by
  obtain ⟨v, hv⟩ : ∃ v : State, v = { popPkt s mb with aon := { (popPkt s mb).aon with
    calendar := paramOf p.stored 2 ++ paramOf p.stored 1, calSets := sat32 (popPkt s mb).aon.calSets } } := ⟨_, rfl⟩
  have htouch : Touches { aon := true } (popPkt s mb) v := hv ▸ touches_aon _ _
  have haon : v.aon = { s.aon with calendar := paramOf p.stored 2 ++ paramOf p.stored 1, calSets := min (s.aon.calSets + 1) (2 ^ 32 - 1) } := by
    rw [hv, ← (touches_popPkt s mb).aon rfl]
    rfl
  refine completes_accepted rfl h hacc (hv ▸ rfl : calendarSetRule.act _ _ = sendReply v mb p.hdr stOk [])
    (noMail_sendReply (noMail_of_seq (noMail_popPkt h) (htouch.seq rfl)) _ _ _ _)
    ((touches_sendReply v mb p.hdr stOk []).after rfl <| htouch.mono rfl :
      Touches { regs := true, aon := true, twin := true, seq := true } _ _) rfl
    ⟨((touches_sendReply v mb p.hdr stOk []).aon rfl).trans haon, fun b hb => ?_, ?_⟩
  · rw [(sendReply_regs v mb p.hdr stOk []).1 b hb, getReg_congr (htouch.regs rfl), getReg_popPkt]
  · exact keepsMemory_trans (keepsMemory_popPkt s mb) (keepsMemory_trans (keepsMemory_of_touches htouch rfl rfl rfl)
      (keepsMemory_sendReply _ _ _ _ _))

-- the fence of a port

theorem fenceBare_fences (s : State) {n : Nat} (hn : n < 24) : (port (fenceBare s n) n).fenced = true := by
  unfold fenceBare
  extract_lets q late u v sp w
  have hport : port v n = _ := port_setPort_same u n _ hn
  exact (congrArg Port.fenced (show port (setBit w (portBase n + 0x10) 0 true) n = port v n from rfl)).trans (congrArg Port.fenced hport)

/-- Settles O32: each packet is taken up by its rule; the fields and registers are those that its act writes. -/
theorem informationAndSettingPackets : Obligations.InformationAndSettingPackets := by
  unfold Obligations.InformationAndSettingPackets
  refine ⟨?info, ?mode, ?region, ?quiet, fun s mb p h hacc => scrubCtl_completes h hacc, fun s mb p h hacc => calendarSet_completes h hacc,
    fun s mb p u h hacc hu => faultClear_completes h hacc hu, fun s mb p h hacc hfree hin => blotterArm_completes h hacc hfree hin,
    ?fence, ?died, fun s n hf => if_pos hf⟩
  case info =>
    intro s mb p h hacc hquiet hroom
    exact completes_information rfl h hacc hquiet hroom (by cases mb <;> rfl) rfl
  case mode =>
    intro s mb p h hacc hquiet hroom
    exact completes_information rfl h hacc hquiet hroom (by cases mb <;> rfl) rfl
  case region =>
    intro s mb p i h hacc hquiet hi hroom
    subst hi
    exact completes_information rfl h hacc hquiet hroom (by cases mb <;> rfl) rfl
  case quiet =>
    intro s mb p h hacc hquiet
    have hact : getModeRule.act (popPkt s mb) (takenOf mb p) = popPkt s mb := if_pos ⟨rfl, hquiet⟩
    rw [exec_accepted_quiet (c := .getMode mb) rfl h hacc (hact.symm ▸ noMail_popPkt h), hact]
  case fence =>
    intro s mb p n h hacc hn hlt hen
    rw [exec_accepted (c := .agentFence mb) rfl h hacc]
    have hact : agentFenceRule.act (popPkt s mb) (takenOf mb p) = sendReply (fencePort (popPkt s mb) n) mb p.hdr stOk [] := by
      subst hn
      exact if_pos ⟨hlt, by cases mb <;> exact hen⟩
    rw [hact]
  case died =>
    intro s n hf
    exact ⟨if_neg (ne_true_of_eq_false hf), fun hn => fenceBare_fences s hn⟩

end Sys2Proof.Proofs
end

section
/-! SUPPORT. Packets that are accepted and answered (Chapter 18). -/

namespace Sys2Proof.Proofs

open Sys2Proof.Machine Sys2Proof.Safety Sys2Proof.Laws

variable {s : State} {mb : Mailbox} {op : Nat} {p : CmdPkt} {r : CmdRule}

theorem shape_of_accepts (h : Accepts s mb p r) : r.shape (popPkt s mb) (hdrLength p.hdr) p.stored = true := by
  unfold Accepts refusalOf at h
  by_contra hshape
  have hbad : bitsOf p.hdr 25 7 ≠ 0 ∨ (!r.shape (popPkt s mb) (hdrLength p.hdr) p.stored) = true := Or.inr (by simpa using hshape)
  rw [if_pos hbad] at h
  revert h
  repeat' split
  all_goals simp

theorem noMail_of_mail {s t : State} (h : NoMail s) (hhost : t.seq.host = s.seq.host) (hpartner : t.seq.partner = s.seq.partner) : NoMail t
  | .host => (congrArg Mail.cmd hhost).trans (h .host)
  | .partner => (congrArg Mail.cmd hpartner).trans (h .partner)

theorem seq_setMail (s : State) (mb : Mailbox) (m : Mail) : ∃ a b, (setMail s mb m).seq = { s.seq with host := a, partner := b } := by
  cases mb
  · exact ⟨m, s.seq.partner, rfl⟩
  · exact ⟨s.seq.host, m, rfl⟩

/-- A reply changes the mailboxes alone of the sequencer's record. -/
theorem seq_sendReply (s : State) (mb : Mailbox) (hdr : Word) (st : Nat) (d : List Word) :
    ∃ a b, (sendReply s mb hdr st d).seq = { s.seq with host := a, partner := b } := by
  unfold sendReply
  split
  · exact ⟨_, _, rfl⟩
  · unfold pushReply
    extract_lets m u
    split
    · split
      · rw [(touches_wakePme u).seq rfl]
        exact seq_setMail s mb _
      · exact seq_setMail s mb _
    · exact seq_setMail s mb _

theorem seq_popPkt (s : State) (mb : Mailbox) : ∃ a b, (popPkt s mb).seq = { s.seq with host := a, partner := b } := seq_setMail s mb _

theorem getBit_popPkt (s : State) (mb : Mailbox) (a i : Nat) : getBit (popPkt s mb) a i = getBit s a i :=
  congrArg (bitOf · i) (getReg_popPkt s mb a)

theorem getReg_sendReply (s : State) (mb : Mailbox) (hdr : Word) (st : Nat) (d : List Word) {a : Nat} (h : a ≠ 0x35000C) :
    getReg (sendReply s mb hdr st d) a = getReg s a := (sendReply_regs s mb hdr st d).1 a h

/-- An accepted packet whose rule answers after what it changes. -/
theorem completes_answered {c : Instr} {K : Parts} {P : State → Prop} (hc : packetRule c = some (mb, op, r)) (h : Lone s mb op p)
    (hacc : Accepts s mb p r) {v : State} {st : Nat} {d : List Word} (hact : r.act (popPkt s mb) (takenOf mb p) = sendReply v mb p.hdr st d)
    (hmail : NoMail v) (ht : Touches K (popPkt s mb) v) (hk : K.pending = false) (hP : P (sendReply v mb p.hdr st d)) :
    Completes c s P := by
  refine ⟨sendReply v mb p.hdr st d, ?_, hP⟩
  rw [exec_accepted_quiet hc h hacc (hact ▸ noMail_sendReply hmail _ _ _ _), hact, resume_eq, ← (touches_popPkt s mb).pending rfl,
    ← ht.pending hk, ← (touches_sendReply v mb p.hdr st d).pending rfl]

/-- An accepted packet whose rule refuses it. -/
theorem exec_answered {c : Instr} (hc : packetRule c = some (mb, op, r)) (h : Lone s mb op p) (hacc : Accepts s mb p r) {v : State}
    {st : Nat} {d : List Word} (hact : r.act (popPkt s mb) (takenOf mb p) = sendReply v mb p.hdr st d) (hmail : NoMail v) :
    exec c s = resume s (sendReply v mb p.hdr st d) := by
  rw [exec_accepted_quiet hc h hacc (hact ▸ noMail_sendReply hmail _ _ _ _), hact]

end Sys2Proof.Proofs
end

section
/-! PROOF. Slot tables, budgets and the lifetime ledger (O33). -/

namespace Sys2Proof.Proofs

open Sys2Proof.Machine Sys2Proof.Safety Sys2Proof.Laws

variable {s : State} {mb : Mailbox} {p : CmdPkt}

-- the tables of a channel

theorem tableMode_run {m : Nat} (h : m ≤ 6) : tableMode m = m := if_neg (by omega)

theorem storedTable_congr {s t : State} {c : Nat} (h : (chan t c).tables = (chan s c).tables) (m : Nat) : storedTable t c m = storedTable s c m := by
  unfold storedTable
  rw [h]

theorem storedTable_storeTable_same (s : State) {m : Nat} (x : Nat × SlotTable) (hx : x.1 < 16) (h3 : 3 ≤ m) (h6 : m ≤ 6) :
    storedTable (storeTable s m x) x.1 m = x.2 := by
  unfold storedTable storeTable
  simp only [tableMode_run h6, chan_setChan_same _ _ _ hx, show m - 3 < 4 by omega, dif_pos, Vector.getElem_set_self]

theorem storedTable_storeTable_ne (s : State) {m k c : Nat} (x : Nat × SlotTable) (hx : x.1 < 16) (h : c ≠ x.1 ∨ k ≠ m)
    (hm : 3 ≤ m) (hk3 : 3 ≤ k) (hk6 : k ≤ 6) : storedTable (storeTable s m x) c k = storedTable s c k := by
  by_cases hc : c = x.1
  · subst hc
    have hkm := h.resolve_left (fun hne => hne rfl)
    unfold storedTable storeTable
    simp only [tableMode_run hk6, chan_setChan_same _ _ _ hx, show k - 3 < 4 by omega, dif_pos]
    split
    · rw [Vector.getElem_set_ne _ _ (by omega)]
    · rfl
  · refine storedTable_congr ?_ k
    unfold storeTable
    rw [chan_setChan_ne _ _ hc]

theorem shadow_storeTable (s : State) (m : Nat) (x : Nat × SlotTable) (c : Nat) :
    (chan (storeTable s m x) c).shadow = (chan s c).shadow := by
  unfold storeTable
  by_cases hc : c = x.1
  · subst hc
    by_cases hlt : x.1 < 16
    · rw [chan_setChan_same _ _ _ hlt]
    · rw [setChan, dif_neg hlt]
  · rw [chan_setChan_ne _ _ hc]

/-- What a load stores: each channel that it names has its table of the mode, and nothing else of the tables and shadows changes. -/
theorem storeTables_stores {m : Nat} (hm3 : 3 ≤ m) (hm6 : m ≤ 6) : ∀ (l : List (Nat × SlotTable)) (s : State), (∀ x ∈ l, x.1 < 16) →
    (l.map (·.1)).Nodup →
    (∀ x ∈ l, storedTable (l.foldl (fun s x => storeTable s m x) s) x.1 m = x.2) ∧
    (∀ c k, (c ∉ l.map (·.1) ∨ k ≠ m) → 3 ≤ k → k ≤ 6 → storedTable (l.foldl (fun s x => storeTable s m x) s) c k = storedTable s c k) ∧
    (∀ c, (chan (l.foldl (fun s x => storeTable s m x) s) c).shadow = (chan s c).shadow)
  | [], s, _, _ => ⟨fun x hx => absurd hx (by simp), fun _ _ _ _ _ => rfl, fun _ => rfl⟩
  | y :: l, s, hlt, hnodup => by
    rw [List.map_cons, List.nodup_cons] at hnodup
    have hy := hlt y List.mem_cons_self
    obtain ⟨hstored, hothers, hshadow⟩ := storeTables_stores hm3 hm6 l (storeTable s m y) (fun x hx => hlt x (List.mem_cons_of_mem y hx)) hnodup.2
    rw [List.foldl_cons]
    refine ⟨fun x hx => ?_, fun c k hck hk3 hk6 => ?_, fun c => (hshadow c).trans (shadow_storeTable s m y c)⟩
    · rcases List.mem_cons.mp hx with rfl | hx
      · rw [hothers x.1 m (Or.inl hnodup.1) hm3 hm6, storedTable_storeTable_same s x hy hm3 hm6]
      · exact hstored x hx
    · rw [List.map_cons, List.mem_cons, not_or] at hck
      rw [hothers c k (hck.imp_left And.right) hk3 hk6, storedTable_storeTable_ne s y hy (hck.imp_left And.left) hm3 hk3 hk6]

theorem loadTables_chans (l : List Word) : (loadTables l).map (·.1) = loadChans (paramOf l 1) := by
  unfold loadTables
  rw [List.map_map]
  refine List.ext_getElem (by simp) fun i h1 h2 => ?_
  simp [List.getD_eq_getElem?_getD, h2]

theorem loadChans_nodup (w : Word) : (loadChans w).Nodup := List.nodup_range.filter _

theorem loadTables_lt {l : List Word} {x : Nat × SlotTable} (h : x ∈ loadTables l) : x.1 < 16 := by
  have hmem : x.1 ∈ loadChans (paramOf l 1) := loadTables_chans l ▸ List.mem_map_of_mem h
  exact List.mem_range.mp (List.mem_of_mem_filter hmem)

-- the shadows

theorem tables_shadowTable (s : State) (m c d : Nat) : (chan (shadowTable s m c) d).tables = (chan s d).tables := by
  unfold shadowTable
  split
  · by_cases hd : d = c
    · subst hd
      by_cases hlt : d < 16
      · rw [chan_setChan_same _ _ _ hlt]
      · rw [setChan, dif_neg hlt]
    · rw [chan_setChan_ne _ _ hd]
  · rfl

theorem shadow_shadowTable_ne (s : State) (m : Nat) {c d : Nat} (h : d ≠ c) : (chan (shadowTable s m c) d).shadow = (chan s d).shadow := by
  unfold shadowTable
  split
  · rw [chan_setChan_ne _ _ h]
  · rfl

theorem shadow_shadowTable_same (s : State) (m : Nat) {c : Nat} (hc : c < 16) (hpop : slicePop s (c / 2) = true) :
    ∃ st, (chan (shadowTable s m c) c).shadow = some (storedTable s c m, m, st) := by
  unfold shadowTable
  rw [if_pos hpop]
  exact ⟨_, congrArg Chan.shadow (chan_setChan_same s c _ hc)⟩

theorem shadowTables_shadow (m : Nat) : ∀ (l : List Nat) (s : State), (∀ c ∈ l, c < 16) → l.Nodup →
    (∀ c, (chan (l.foldl (fun s c => shadowTable s m c) s) c).tables = (chan s c).tables) ∧
    (∀ c ∈ l, slicePop s (c / 2) = true → ∃ st, (chan (l.foldl (fun s c => shadowTable s m c) s) c).shadow = some (storedTable s c m, m, st)) ∧
    (∀ c, c ∉ l → (chan (l.foldl (fun s c => shadowTable s m c) s) c).shadow = (chan s c).shadow)
  | [], s, _, _ => ⟨fun _ => rfl, fun c hc => absurd hc (by simp), fun _ _ => rfl⟩
  | d :: l, s, hlt, hnodup => by
    rw [List.nodup_cons] at hnodup
    obtain ⟨htables, hin, hout⟩ := shadowTables_shadow m l (shadowTable s m d) (fun c hc => hlt c (List.mem_cons_of_mem d hc)) hnodup.2
    have hpop : ∀ n, slicePop (shadowTable s m d) n = slicePop s n := slicePop_congr ((touches_shadowTable s m d).pins rfl)
    rw [List.foldl_cons]
    refine ⟨fun c => (htables c).trans (tables_shadowTable s m d c), fun c hc hp => ?_, fun c hc => ?_⟩
    · rcases List.mem_cons.mp hc with rfl | hc
      · rw [hout c hnodup.1]
        exact shadow_shadowTable_same s m (hlt c List.mem_cons_self) hp
      · obtain ⟨st, hst⟩ := hin c hc ((hpop _).trans hp)
        exact ⟨st, by rw [hst, storedTable_congr (tables_shadowTable s m d c)]⟩
    · rw [List.mem_cons, not_or] at hc
      rw [hout c hc.2, shadow_shadowTable_ne s m hc.1]

theorem noShadow_of_noSwap {s : State} (h : swapPending s = false) (c : Nat) : (chan s c).shadow = none := by
  unfold swapPending at h
  rw [Bool.or_eq_false_iff] at h
  by_cases hc : c < 16
  · have hany := h.2
    simp only [List.any_eq_false, List.mem_range] at hany
    simpa using hany c hc
  · rw [chan, dif_neg hc]
    rfl

theorem swapPending_congr {s t : State} (hdue : t.seq.swapDue = s.seq.swapDue) (h : ∀ c, (chan t c).shadow = (chan s c).shadow) :
    swapPending t = swapPending s := by
  unfold swapPending
  simp only [hdue, h]

-- the packets

theorem slotTableLoad_mode (hacc : Accepts s mb p slotTableLoadRule) : 3 ≤ bitsOf (paramOf p.stored 1) 0 4 ∧ bitsOf (paramOf p.stored 1) 0 4 ≤ 6 := by
  have hshape := shape_of_accepts hacc
  simp only [slotTableLoadRule, slotTableShape, Bool.and_eq_true, decide_eq_true_eq] at hshape
  exact hshape.1

theorem curMode_congr {s t : State} (h : t.regs = s.regs) : curMode t = curMode s := by
  unfold curMode
  rw [getFld_congr h]

theorem swapPending_popPkt (s : State) (mb : Mailbox) : swapPending (popPkt s mb) = swapPending s := by
  obtain ⟨a, b, hseq⟩ := seq_popPkt s mb
  exact swapPending_congr (by rw [hseq]) fun c => congrArg Chan.shadow (chan_congr ((touches_popPkt s mb).chans rfl) c)

theorem slotTable_act_tables {m : Nat} (hkind : bitOf (paramOf p.stored 1) 4 = false) (hm : m = bitsOf (paramOf p.stored 1) 0 4)
    (hfine : (loadTables p.stored).any (tableRefused (popPkt s mb) m) = false)
    (hfit : ratesFit ((loadTables p.stored).foldl (fun s x => storeTable s m x) (popPkt s mb)) m = true) (hidle : swapPending s = false) :
    slotTableLoadRule.act (popPkt s mb) (takenOf mb p) = sendReply (installTables
      ((loadTables p.stored).foldl (fun s x => storeTable s m x) (popPkt s mb)) m ((loadTables p.stored).map (·.1))) mb p.hdr stOk [] := by
  have hkind' : ¬ bitOf ((takenOf mb p).w 1) 4 = true := ne_true_of_eq_false hkind
  refine (if_neg hkind').trans ?_
  unfold loadTablesAct
  extract_lets m' l t
  rw [show m' = m from hm.symm] at *
  have hany : l.any (tableRefused (popPkt s mb) m) = false := hfine
  have hrates : ratesFit t m = true := by rw [← hfit]; exact congrArg (ratesFit · m) (by rw [hm]; rfl)
  rw [if_neg (by rw [hany, hrates]; decide), if_neg (by rw [swapPending_popPkt, hidle]; decide)]
  rw [show t = (loadTables p.stored).foldl (fun s x => storeTable s m x) (popPkt s mb) from by rw [hm]; rfl]
  rfl

/-- What the load of tables stores, before they are installed. -/
theorem loadTables_stored {m : Nat} (h : Lone s mb 0x58 p) (hacc : Accepts s mb p slotTableLoadRule) (hm : m = bitsOf (paramOf p.stored 1) 0 4)
    (hidle : swapPending s = false) {v : State} (hv : v = (loadTables p.stored).foldl (fun s x => storeTable s m x) (popPkt s mb)) :
    Touches { chans := true } (popPkt s mb) v ∧ NoMail v ∧ (∀ x ∈ loadTables p.stored, storedTable v x.1 m = x.2) ∧
    (∀ c k, k ≠ m → 3 ≤ k → k ≤ 6 → storedTable v c k = storedTable s c k) ∧ (∀ c, (chan v c).shadow = none) := by
  obtain ⟨hm3, hm6⟩ := slotTableLoad_mode hacc
  rw [← hm] at hm3 hm6
  obtain ⟨hstored, hothers, hshadow⟩ := storeTables_stores hm3 hm6 (loadTables p.stored) (popPkt s mb) (fun x hx => loadTables_lt hx)
    (loadTables_chans p.stored ▸ loadChans_nodup _)
  rw [← hv] at hstored hothers hshadow
  have htouch : Touches { chans := true } (popPkt s mb) v := hv ▸ .foldl (fun s x => touches_storeTable s m x) _ _
  refine ⟨htouch, noMail_of_seq (noMail_popPkt h) (htouch.seq rfl), hstored, fun c k hk hk3 hk6 => ?_, fun c => ?_⟩
  · rw [hothers c k (Or.inr hk) hk3 hk6]
    exact storedTable_congr (congrArg Chan.tables (chan_congr ((touches_popPkt s mb).chans rfl) c)) k
  · rw [hshadow c, chan_congr ((touches_popPkt s mb).chans rfl)]
    exact noShadow_of_noSwap hidle c

theorem swapDue_of_noSwap {s : State} (h : swapPending s = false) : s.seq.swapDue = none := by
  unfold swapPending at h
  rw [Bool.or_eq_false_iff] at h
  simpa using h.1

theorem swapDue_sendReply (s : State) (mb : Mailbox) (hdr : Word) (st : Nat) (d : List Word) :
    (sendReply s mb hdr st d).seq.swapDue = s.seq.swapDue := by
  obtain ⟨a, b, hseq⟩ := seq_sendReply s mb hdr st d
  rw [hseq]

theorem tables_elsewhere {m : Nat} (h : Lone s mb 0x58 p) (hacc : Accepts s mb p slotTableLoadRule)
    (hkind : bitOf (paramOf p.stored 1) 4 = false) (hm : m = bitsOf (paramOf p.stored 1) 0 4)
    (hfine : (loadTables p.stored).any (tableRefused (popPkt s mb) m) = false)
    (hfit : ratesFit ((loadTables p.stored).foldl (fun s x => storeTable s m x) (popPkt s mb)) m = true) (hidle : swapPending s = false)
    (hmode : tableMode (curMode s) ≠ m) : Completes (.slotTableLoad mb) s (fun t =>
      (∀ x, x ∈ loadTables p.stored → storedTable t x.1 m = x.2) ∧
      (∀ c k, k ≠ m → 3 ≤ k → k ≤ 6 → storedTable t c k = storedTable s c k) ∧ swapPending t = false ∧ t.dram = s.dram ∧
      t.slices = s.slices) := by
  have hact := slotTable_act_tables (mb := mb) hkind hm hfine hfit hidle
  obtain ⟨v, hv⟩ : ∃ v, v = (loadTables p.stored).foldl (fun s x => storeTable s m x) (popPkt s mb) := ⟨_, rfl⟩
  rw [← hv] at hact
  obtain ⟨htouch, hmail, hstored, hothers, hshadow⟩ := loadTables_stored h hacc hm hidle hv
  have hpop := touches_popPkt s mb
  have hsend := touches_sendReply v mb p.hdr stOk []
  have hmode' : curMode v = curMode s := curMode_congr ((htouch.regs rfl).trans (hpop.regs rfl))
  rw [installTables, if_neg (by rw [hmode']; exact hmode)] at hact
  have hchan : ∀ c, chan (sendReply v mb p.hdr stOk []) c = chan v c := chan_congr (hsend.chans rfl)
  have htables : ∀ c k, storedTable (sendReply v mb p.hdr stOk []) c k = storedTable v c k := fun c k =>
    storedTable_congr (congrArg Chan.tables (hchan c)) k
  refine completes_answered rfl h hacc hact hmail htouch rfl ⟨fun x hx => (htables _ _).trans (hstored x hx),
    fun c k hk hk3 hk6 => (htables c k).trans (hothers c k hk hk3 hk6), ?_, ?_, ?_⟩
  · rw [← hidle]
    obtain ⟨a, b, hseq⟩ := seq_popPkt s mb
    refine swapPending_congr ?_ fun c => ?_
    · rw [swapDue_sendReply, htouch.seq rfl, hseq]
    · rw [hchan, hshadow, noShadow_of_noSwap hidle]
  · rw [hsend.dram rfl, htouch.dram rfl, hpop.dram rfl]
  · rw [hsend.slices rfl, htouch.slices rfl, hpop.slices rfl]

theorem tables_inUse {m : Nat} (h : Lone s mb 0x58 p) (hacc : Accepts s mb p slotTableLoadRule)
    (hkind : bitOf (paramOf p.stored 1) 4 = false) (hm : m = bitsOf (paramOf p.stored 1) 0 4)
    (hfine : (loadTables p.stored).any (tableRefused (popPkt s mb) m) = false)
    (hfit : ratesFit ((loadTables p.stored).foldl (fun s x => storeTable s m x) (popPkt s mb)) m = true) (hidle : swapPending s = false)
    (hmode : tableMode (curMode s) = m) : Completes (.slotTableLoad mb) s (fun t =>
      t.seq.swapDue = some (s.tick / 1000 * 1000 + 1000) ∧
      (∀ x, x ∈ loadTables p.stored → storedTable t x.1 m = x.2 ∧
        (slicePop s (x.1 / 2) = true → ∃ st, (chan t x.1).shadow = some (x.2, m, st))) ∧
      (∀ c, (∀ x ∈ loadTables p.stored, x.1 ≠ c) → (chan t c).shadow = none) ∧ t.dram = s.dram ∧ t.slices = s.slices) := by
  have hact := slotTable_act_tables (mb := mb) hkind hm hfine hfit hidle
  obtain ⟨v, hv⟩ : ∃ v, v = (loadTables p.stored).foldl (fun s x => storeTable s m x) (popPkt s mb) := ⟨_, rfl⟩
  rw [← hv] at hact
  obtain ⟨htouch, hmail, hstored, -, hshadow⟩ := loadTables_stored h hacc hm hidle hv
  have hpop := touches_popPkt s mb
  have hmode' : curMode v = curMode s := curMode_congr ((htouch.regs rfl).trans (hpop.regs rfl))
  rw [installTables, if_pos (by rw [hmode']; exact hmode)] at hact
  obtain ⟨htables, hin, hout⟩ := shadowTables_shadow m ((loadTables p.stored).map (·.1)) v
    (fun c hc => by obtain ⟨x, hx, rfl⟩ := List.mem_map.mp hc; exact loadTables_lt hx) (loadTables_chans p.stored ▸ loadChans_nodup _)
  obtain ⟨w, hw⟩ : ∃ w, w = ((loadTables p.stored).map (·.1)).foldl (fun s c => shadowTable s m c) v := ⟨_, rfl⟩
  rw [← hw] at hact htables hin hout
  have hwv : Touches { chans := true } v w := hw ▸ .foldl (fun s c => touches_shadowTable s m c) _ _
  have hsoon := touches_swapSoon w
  have hsend := touches_sendReply (swapSoon w) mb p.hdr stOk []
  have hchan : ∀ c, chan (sendReply (swapSoon w) mb p.hdr stOk []) c = chan w c := chan_congr ((hsend.chans rfl).trans (hsoon.chans rfl))
  have htick : w.tick = s.tick := by rw [hwv.tick rfl, htouch.tick rfl, hpop.tick rfl]
  refine completes_answered rfl h hacc hact (noMail_of_mail (noMail_of_seq hmail (hwv.seq rfl)) rfl rfl)
    (hsoon.after rfl <| hwv.after rfl <| htouch.mono rfl : Touches { chans := true, seq := true } _ _) rfl
    ⟨?_, fun x hx => ⟨?_, fun hpops => ?_⟩, fun c hc => ?_, ?_, ?_⟩
  · rw [swapDue_sendReply, swapSoon, htick]
  · rw [storedTable_congr (congrArg Chan.tables (hchan x.1)), storedTable_congr (htables x.1)]
    exact hstored x hx
  · rw [hchan, ← hstored x hx]
    exact hin x.1 (List.mem_map_of_mem hx) ((slicePop_congr ((htouch.pins rfl).trans (hpop.pins rfl)) _).trans hpops)
  · rw [hchan, hout c fun hmem => by obtain ⟨x, hx, he⟩ := List.mem_map.mp hmem; exact hc x hx he]
    exact hshadow c
  · rw [hsend.dram rfl, hsoon.dram rfl, hwv.dram rfl, htouch.dram rfl, hpop.dram rfl]
  · rw [hsend.slices rfl, hsoon.slices rfl, hwv.slices rfl, htouch.slices rfl, hpop.slices rfl]

-- budgets

theorem storedBudget_storeBudgets (s : State) (m k : Nat) (l : List Word) {i : Nat} (hi : i < 24) :
    storedBudget (storeBudgets s m k l) m k i = loadBudget l i := by
  have hfold : ∀ n (b : Cells Word), i < n → cellsGet noBudget ((List.range n).foldl (fun b j => cellsSet noBudget b (budgetKey m k j)
      (loadBudget l j)) b) (budgetKey m k i) = loadBudget l i := by
    intro n b hn
    induction n with
    | zero => omega
    | succ n ih =>
      rw [List.range_succ, List.foldl_append, List.foldl_cons, List.foldl_nil]
      by_cases hin : i = n
      · rw [hin, cellsGet_set_same]
      · rw [cellsGet_set_ne _ _ (by unfold budgetKey; omega)]
        exact ih (by omega)
  exact hfold 24 s.seq.budgets hi

theorem budgets_inUse {m k : Nat} (h : Lone s mb 0x58 p) (hacc : Accepts s mb p slotTableLoadRule)
    (hkind : bitOf (paramOf p.stored 1) 4 = true) (hm : m = bitsOf (paramOf p.stored 1) 0 4) (hk : k = bitsOf (paramOf p.stored 1) 25 3)
    (hdepth : (List.range 24).any (fun i => bitsOf (loadBudget p.stored i) 8 8 == 0) = false)
    (hfit : ratesFit (storeBudgets (popPkt s mb) m k p.stored) m = true) (hidle : swapPending s = false)
    (hmode : tableMode (curMode s) = m) : Completes (.slotTableLoad mb) s (fun t =>
      (∀ i, i < 24 → storedBudget t m k i = loadBudget p.stored i) ∧
      t.seq.swapDue = some (s.tick / 1000 * 1000 + 1000) ∧ KeepsMemory s t) := by
  obtain ⟨v, hv⟩ : ∃ v, v = storeBudgets (popPkt s mb) m k p.stored := ⟨_, rfl⟩
  have hpop := touches_popPkt s mb
  have htouch : Touches { seq := true } (popPkt s mb) v := hv ▸ touches_storeBudgets _ _ _ _
  have hmail : NoMail v := hv ▸ noMail_of_mail (noMail_popPkt h) rfl rfl
  have hact : slotTableLoadRule.act (popPkt s mb) (takenOf mb p) = sendReply (installBudgets v m k) mb p.hdr stOk [] := by
    have hkind' : bitOf ((takenOf mb p).w 1) 4 = true := hkind
    refine (if_pos hkind').trans ?_
    unfold loadBudgetsAct
    extract_lets m' k' t
    have ht : t = v := by rw [hv, hm, hk]; rfl
    rw [show m' = m from hm.symm, show k' = k from hk.symm, ht, if_neg (by rw [show (takenOf mb p).params = p.stored from rfl, hdepth, hv, hfit]; decide),
      if_neg (by rw [swapPending_popPkt, hidle]; decide)]
    rfl
  obtain ⟨w, hw⟩ : ∃ w : State, w = { v with seq := { v.seq with swapBudget := (List.range 24).map (fun i => (k * 24 + i, storedBudget v m k i)) } } :=
    ⟨_, rfl⟩
  have hwv : Touches { seq := true } v w := hw ▸ touches_seq v _
  have hinstall : installBudgets v m k = swapSoon w := by
    rw [installBudgets, if_pos (by rw [curMode_congr ((htouch.regs rfl).trans (hpop.regs rfl))]; exact hmode), hw]
  rw [hinstall] at hact
  have hbudgets : ∀ i, storedBudget w m k i = storedBudget v m k i := fun i => by rw [hw]; rfl
  have hall := (touches_swapSoon w).after rfl <| hwv.after rfl <| htouch
  obtain ⟨a, b, hseq⟩ := seq_sendReply (swapSoon w) mb p.hdr stOk []
  refine completes_answered rfl h hacc hact (noMail_of_mail hmail (by rw [hw]; rfl) (by rw [hw]; rfl)) hall rfl ⟨fun i hi => ?_, ?_, ?_⟩
  · rw [storedBudget, hseq]
    exact (hbudgets i).trans (hv ▸ storedBudget_storeBudgets (popPkt s mb) m k p.stored hi)
  · rw [swapDue_sendReply, swapSoon, hwv.tick rfl, htouch.tick rfl, hpop.tick rfl]
  · exact keepsMemory_trans (keepsMemory_popPkt s mb) (keepsMemory_trans (keepsMemory_of_touches hall rfl rfl rfl) (keepsMemory_sendReply _ _ _ _ _))

-- the ledger

theorem exportNumber_regs (s : State) : getBit (exportNumber s) 0x37000C 0 = true ∧
    getReg (exportNumber s) 0x370010 = (if getBit s 0x37000C 0 then getReg s 0x370010 + 1 else 1) ∧
    ∀ a, a ≠ 0x37000C → a ≠ 0x370010 → getReg (exportNumber s) a = getReg s a := by
  unfold exportNumber
  by_cases hknown : getBit s 0x37000C 0 = true
  · rw [if_pos hknown, if_pos hknown]
    exact ⟨(congrArg (bitOf · 0) (getReg_setReg_ne s _ (by decide))).trans hknown, getReg_setReg_same s _ _,
      fun a _ h => getReg_setReg_ne s _ h⟩
  · rw [if_neg hknown, if_neg hknown]
    have hbit : getBit (setBit s 0x37000C 0 true) 0x37000C 0 = true := getBit_setBit_same s 0x37000C true (by decide)
    have hbit' := (getBit_setBit_ne (setBit s 0x37000C 0 true) 0x37000C true (i := 1) (j := 0) (by decide) (by decide)).trans hbit
    refine ⟨(congrArg (bitOf · 0) (getReg_setReg_ne _ _ (by decide))).trans hbit', getReg_setReg_same _ _ _, fun a hC h10 => ?_⟩
    rw [getReg_setReg_ne _ _ h10, getReg_setBit_ne _ _ _ hC, getReg_setBit_ne s _ _ hC]

theorem ledgerExport_completes (h : Lone s mb 0x40 p) (hacc : Accepts s mb p ledgerExportRule) : Completes (.ledgerExport mb) s (fun t =>
      getBit t 0x37000C 0 = true ∧
      getReg t 0x370010 = (if getBit s 0x37000C 0 then getReg s 0x370010 + 1 else 1) ∧
      (∀ a, a ≠ 0x37000C → a ≠ 0x370010 → a ≠ 0x35000C → getReg t a = getReg s a) ∧ KeepsMemory s t ∧ t.aon = s.aon) := by
  obtain ⟨hknown, hnumber, hothers⟩ := exportNumber_regs (popPkt s mb)
  obtain ⟨v, hv⟩ : ∃ v, v = exportNumber (popPkt s mb) := ⟨_, rfl⟩
  rw [← hv] at hknown hnumber hothers
  have hact : ∃ d, ledgerExportRule.act (popPkt s mb) (takenOf mb p) = sendReply v mb p.hdr stOk d := by
    rw [hv]
    exact ⟨_, rfl⟩
  obtain ⟨d, hact⟩ := hact
  have htouch : Touches { regs := true } (popPkt s mb) v := hv ▸ touches_exportNumber _
  have hpop := touches_popPkt s mb
  have hsend := touches_sendReply v mb p.hdr stOk d
  refine completes_answered rfl h hacc hact (noMail_of_seq (noMail_popPkt h) (htouch.seq rfl)) htouch rfl
    ⟨?_, ?_, fun a hC h10 h35 => ?_, ?_, ?_⟩
  · rw [getBit, getReg_sendReply _ _ _ _ _ (by decide)]
    exact hknown
  · rw [getReg_sendReply _ _ _ _ _ (by decide), hnumber, getBit_popPkt, getReg_popPkt]
  · rw [getReg_sendReply _ _ _ _ _ h35, hothers a hC h10, getReg_popPkt]
  · exact keepsMemory_trans (keepsMemory_popPkt s mb) (keepsMemory_trans (keepsMemory_of_touches htouch rfl rfl rfl) (keepsMemory_sendReply _ _ _ _ _))
  · rw [hsend.aon rfl, htouch.aon rfl, hpop.aon rfl]

theorem importRecord_takes (s : State) (l : List Word) : getReg (importRecord s l) 0x370010 = l.getD 2 0 ∧
    getBit (importRecord s l) 0x37000C 0 = true ∧
    (importRecord s l).aon.powered = mergeCount (getBit s 0x37000C 0) 32 s.aon.powered (recWord l 8) ∧
    (importRecord s l).aon.hist = mergeHist s.aon.hist (recHist l) ∧ (importRecord s l).aon.calendar = s.aon.calendar := by
  unfold importRecord
  extract_lets a known slower one b u v w
  have hu : u = { s with aon := b } := rfl
  have hv : getBit v 0x37000C 0 = true ∧ v.aon = b := by
    unfold v
    by_cases hknown : known = true
    · rw [if_pos hknown]
      exact ⟨hknown, rfl⟩
    · rw [if_neg hknown]
      have hlow : bitsOf (bitsTo (getReg u 0x37000C) 0 3 7) 0 1 = 1 := bitsOf_bitsTo_within (getReg u 0x37000C) (lo := 0) (a := 0) 7 (by decide) (by decide)
      refine ⟨?_, rfl⟩
      rw [getBit, setFld, getReg_setReg_same, bitOf, BitVec.getLsbD, Nat.testBit_zero]
      unfold bitsOf at hlow
      simpa using hlow
  have hw : getBit w 0x37000C 0 = true ∧ w.aon = b := by
    unfold w
    split
    · exact ⟨(getBit_setBit_ne v 0x37000C true (by decide) (by decide)).trans hv.1, hv.2⟩
    · exact hv
  refine ⟨getReg_setReg_same w _ _, (congrArg (bitOf · 0) (getReg_setReg_ne w _ (by decide))).trans hw.1, ?_, ?_, ?_⟩
  · exact congrArg Aon.powered hw.2
  · exact congrArg Aon.hist hw.2
  · exact (congrArg Aon.calendar hw.2).trans (show b.calendar = s.aon.calendar from rfl)

theorem ledgerImport_completes (h : Lone s mb 0x41 p) (hacc : Accepts s mb p ledgerImportRule)
    (href : recordRefused (popPkt s mb) p.stored = false) : Completes (.ledgerImport mb) s (fun t =>
      getReg t 0x370010 = p.stored.getD 2 0 ∧ getBit t 0x37000C 0 = true ∧
      t.aon.powered = mergeCount (getBit s 0x37000C 0) 32 s.aon.powered (recWord p.stored 8) ∧
      t.aon.hist = mergeHist s.aon.hist (recHist p.stored) ∧ t.aon.calendar = s.aon.calendar ∧ KeepsMemory s t) := by
  obtain ⟨hnumber, hknown, hpowered, hhist, hcal⟩ := importRecord_takes (popPkt s mb) p.stored
  obtain ⟨v, hv⟩ : ∃ v, v = importRecord (popPkt s mb) p.stored := ⟨_, rfl⟩
  rw [← hv] at hnumber hknown hpowered hhist hcal
  have hact : ledgerImportRule.act (popPkt s mb) (takenOf mb p) = sendReply v mb p.hdr stOk [] := by
    rw [hv]
    exact if_neg (ne_true_of_eq_false href)
  have htouch : Touches { regs := true, aon := true } (popPkt s mb) v := hv ▸ touches_importRecord _ _
  have hpop := touches_popPkt s mb
  have haon := (touches_sendReply v mb p.hdr stOk []).aon rfl
  rw [hpop.aon rfl] at hpowered hhist hcal
  refine completes_answered rfl h hacc hact (noMail_of_seq (noMail_popPkt h) (htouch.seq rfl)) htouch rfl
    ⟨?_, ?_, ?_, ?_, ?_, ?_⟩
  · rw [getReg_sendReply _ _ _ _ _ (by decide), hnumber]
  · rw [getBit, getReg_sendReply _ _ _ _ _ (by decide)]
    exact hknown
  · rw [haon, hpowered, getBit_popPkt]
  · rw [haon, hhist]
  · rw [haon, hcal]
  · exact keepsMemory_trans (keepsMemory_popPkt s mb) (keepsMemory_trans (keepsMemory_of_touches htouch rfl rfl rfl) (keepsMemory_sendReply _ _ _ _ _))

/-- Settles O33: a load is a fold of stores over distinct channels, and the ledger's packets write their registers and counts. -/
theorem slotTablesAndLedger : Obligations.SlotTablesAndLedger := by
  unfold Obligations.SlotTablesAndLedger
  refine ⟨fun s mb p m h hacc hkind hm hfine hfit hidle hmode => tables_elsewhere h hacc hkind hm hfine hfit hidle hmode,
    fun s mb p m h hacc hkind hm hfine hfit hidle hmode => tables_inUse h hacc hkind hm hfine hfit hidle hmode, ?refused,
    fun s mb p m k h hacc hkind hm hk hdepth hfit hidle hmode => budgets_inUse h hacc hkind hm hk hdepth hfit hidle hmode,
    fun s mb p h hacc => ledgerExport_completes h hacc, ?denied, fun s mb p h hacc href => ledgerImport_completes h hacc href⟩
  case refused =>
    intro s mb p m h hacc hkind hm href
    refine exec_answered (c := .slotTableLoad mb) rfl h hacc ?_ (noMail_popPkt h)
    have hkind' : ¬ bitOf ((takenOf mb p).w 1) 4 = true := ne_true_of_eq_false hkind
    subst hm
    exact (if_neg hkind').trans (if_pos (Bool.or_eq_true_iff.mpr (Or.inl href)))
  case denied =>
    intro s mb p h hacc href
    exact exec_answered (c := .ledgerImport mb) rfl h hacc (if_pos href) (noMail_popPkt h)

end Sys2Proof.Proofs
end

section
/-! PROOF. The region table and the realms (O34). -/

namespace Sys2Proof.Proofs

open Sys2Proof.Machine Sys2Proof.Safety Sys2Proof.Laws

variable {s : State} {mb : Mailbox} {p : CmdPkt}

/-- The register and the bit that mark realm `r` open. -/
theorem markRealm_marks (s : State) {r : Nat} (b : Bool) (hr : r < 64) :
    getBit (markRealm s r b) (if r < 32 then 0x360400 else 0x360404) (r % 32) = b ∧
    ∀ a, a ≠ 0x360400 → a ≠ 0x360404 → getReg (markRealm s r b) a = getReg s a := by
  unfold markRealm
  by_cases h : r < 32
  · rw [if_pos h, if_pos h, Nat.mod_eq_of_lt h]
    exact ⟨getBit_setBit_same s _ b h, fun a h0 _ => getReg_setBit_ne s _ _ h0⟩
  · rw [if_neg h, if_neg h, show r % 32 = r - 32 by omega]
    exact ⟨getBit_setBit_same s _ b (by omega), fun a _ h4 => getReg_setBit_ne s _ _ h4⟩

theorem realmOpenBit_ne (r n : Nat) : (if r < 32 then 0x360400 else 0x360404) ≠ 0x360500 + 4 * n ∧
    (if r < 32 then 0x360400 else 0x360404) ≠ 0x35000C := by split <;> omega

/-- Settles O34: a refused region change answers, an accepted one begins its steps, and a realm's bit and generation are its own registers. -/
theorem regionAndRealmPackets : Obligations.RegionAndRealmPackets := by
  unfold Obligations.RegionAndRealmPackets
  refine ⟨?refused, ?begins, ?opens, ?retires⟩
  case refused =>
    intro s mb p h hacc href
    exact exec_answered (c := .regionSet mb) rfl h hacc (if_pos href) (noMail_popPkt h)
  case begins =>
    intro s mb p h hacc href
    rw [exec_accepted (c := .regionSet mb) rfl h hacc]
    exact congrArg (fun u => resume s (settleMail u)) (if_neg (ne_true_of_eq_false href))
  case opens =>
    intro s mb p r h hacc hr
    have hlt : r < 64 := hr ▸ bitsOf_lt _ 0 6
    obtain ⟨hbit, hothers⟩ := markRealm_marks (popPkt s mb) true hlt
    have htouch := touches_markRealm (popPkt s mb) r true
    have hact : realmOpenRule.act (popPkt s mb) (takenOf mb p) =
        sendReply (markRealm (popPkt s mb) r true) mb p.hdr stOk [BitVec.ofNat 32 (realmGen (popPkt s mb) r)] := by subst hr; rfl
    refine completes_answered rfl h hacc hact (noMail_of_seq (noMail_popPkt h) (htouch.seq rfl)) htouch rfl ⟨?_, ?_, ?_⟩
    · rw [getBit, getReg_sendReply _ _ _ _ _ (realmOpenBit_ne r 0).2]
      exact hbit
    · rw [realmGen, realmGen, getFld, getReg_sendReply _ _ _ _ _ (by omega), hothers _ (by omega) (by omega), getReg_popPkt]; rfl
    · exact keepsMemory_trans (keepsMemory_popPkt s mb) (keepsMemory_trans (keepsMemory_of_touches htouch rfl rfl rfl)
        (keepsMemory_sendReply _ _ _ _ _))
  case retires =>
    intro s mb p r h hacc hr hnamed
    have hlt : r < 64 := hr ▸ bitsOf_lt _ 0 6
    obtain ⟨hbit, hothers⟩ := markRealm_marks (popPkt s mb) false hlt
    obtain ⟨v, hv⟩ : ∃ v, v = bumpGeneration (markRealm (popPkt s mb) r false) r := ⟨_, rfl⟩
    have htouch : Touches { regs := true } (popPkt s mb) v :=
      hv ▸ ((touches_bumpGeneration _ _).after rfl <| touches_markRealm _ _ _)
    have hact : realmRetireRule.act (popPkt s mb) (takenOf mb p) = sendReply v mb p.hdr stOk [BitVec.ofNat 32 (realmGen v r)] := by
      subst hr hv
      exact if_neg (ne_true_of_eq_false (by cases mb <;> exact hnamed))
    have hgen : getFld v (0x360500 + 4 * r) 0 16 = min (realmGen s r + 1) 0xFFFF := by
      rw [hv, bumpGeneration, getFld_satAdd _ _ _ (by decide), getFld, hothers _ (by omega) (by omega), getReg_popPkt]
      rfl
    refine completes_answered rfl h hacc hact (noMail_of_seq (noMail_popPkt h) (htouch.seq rfl)) htouch rfl ⟨?_, ?_, ?_⟩
    · have hkeep : getReg v (if r < 32 then 0x360400 else 0x360404) = getReg (markRealm (popPkt s mb) r false) (if r < 32 then 0x360400 else 0x360404) :=
        hv ▸ getReg_setFld_ne _ _ _ _ (realmOpenBit_ne r r).1
      rw [getBit, getReg_sendReply _ _ _ _ _ (realmOpenBit_ne r 0).2, hkeep]
      exact hbit
    · rw [realmGen, getFld, getReg_sendReply _ _ _ _ _ (by omega)]
      exact hgen
    · exact keepsMemory_trans (keepsMemory_popPkt s mb) (keepsMemory_trans (keepsMemory_of_touches htouch rfl rfl rfl)
        (keepsMemory_sendReply _ _ _ _ _))

end Sys2Proof.Proofs
end

section
/-! PROOF. Roles of the mirror, and changes of mode (O35). -/

namespace Sys2Proof.Proofs

open Sys2Proof.Machine Sys2Proof.Safety Sys2Proof.Laws

variable {s : State} {mb : Mailbox} {p : CmdPkt}

-- the ranks

theorem chanActive_congr {s t : State} (h : t.regs = s.regs) (c : Nat) : chanActive t c = chanActive s c :=
  congrArg (bitOf · 8) (getReg_congr h _)

theorem wakeChan_same (s : State) {c : Nat} (hc : c < 16) : (chan (wakeChan s c) c).selfRef = false ∧
    (chan (wakeChan s c) c).wrq = (chan s c).wrq ∧ (chan (wakeChan s c) c).rdq = (chan s c).rdq := by
  unfold wakeChan
  extract_lets x
  split
  · rw [chan_setChan_same _ _ _ hc]
    exact ⟨rfl, rfl, rfl⟩
  · next h => exact ⟨Bool.eq_false_iff.mpr h, rfl, rfl⟩

theorem wakeChan_ne (s : State) {c d : Nat} (h : d ≠ c) : chan (wakeChan s c) d = chan s d := by
  unfold wakeChan
  extract_lets x
  split
  · exact chan_setChan_ne s _ h
  · rfl

theorem wakesRanks_wakeAll (s : State) : WakesRanks s (wakeAll s) := by
  have hupTo : ∀ n, ∀ c, c < 16 →
      let t := forEach n s (fun s c => if chanActive s c then wakeChan s c else s)
      (c < n → chanActive s c = true → (chan t c).selfRef = false) ∧ (chan t c).wrq = (chan s c).wrq ∧ (chan t c).rdq = (chan s c).rdq := by
    intro n c hc t
    induction n with
    | zero => exact ⟨fun h => by omega, rfl, rfl⟩
    | succ n ih =>
      obtain ⟨u, hu⟩ : ∃ u, u = forEach n s (fun s c => if chanActive s c then wakeChan s c else s) := ⟨_, rfl⟩
      have hactive : chanActive u c = chanActive s c := chanActive_congr (hu ▸ Touches.regs (K := { chans := true })
        (.forEach (fun s c => .ite ((touches_wakeChan s c).mono rfl) (.refl s)) n s) rfl) c
      have ht : t = if chanActive u n then wakeChan u n else u := by rw [hu]; exact forEach_succ _ _ _
      rw [← hu] at ih
      obtain ⟨hself, hwrq, hrdq⟩ := ih
      by_cases hcn : c = n
      · subst hcn
        by_cases hact : chanActive u c = true
        · rw [ht, if_pos hact]
          obtain ⟨hs, hw, hr⟩ := wakeChan_same u hc
          exact ⟨fun _ _ => hs, hw.trans hwrq, hr.trans hrdq⟩
        · rw [ht, if_neg hact]
          exact ⟨fun _ h => absurd (hactive.trans h) hact, hwrq, hrdq⟩
      · have hsame : chan t c = chan u c := by
          rw [ht]
          split
          · exact wakeChan_ne u hcn
          · rfl
        rw [hsame]
        exact ⟨fun h => hself (by omega), hwrq, hrdq⟩
  have htouch := touches_wakeAll s
  refine ⟨htouch.dram rfl, htouch.slices rfl, fun c hc => ?_⟩
  obtain ⟨hself, hwrq, hrdq⟩ := hupTo 16 c hc
  exact ⟨hself hc, hwrq, hrdq⟩

-- the start of a transition

/-- The mode register after a mode is entered and a transition starts: the mode, the target and TRANSIT. -/
theorem startTransit_shows (u v : State) {m target : Nat} (hv : getReg v 0x10 = getReg (enterMode u m) 0x10) (hm : m < 16) (ht : target < 16) :
    curMode (startTransit v target) = m ∧ getFld (startTransit v target) 0x10 8 4 = target ∧ inTransit (startTransit v target) = true ∧
    RegsBut 0x10 v (startTransit v target) := by
  have hmode : getFld v 0x10 0 4 = m := by
    rw [getFld, hv]
    exact (curMode_enterMode u m).trans (Nat.mod_eq_of_lt hm)
  unfold startTransit curMode inTransit
  refine ⟨?_, ?_, getBit_setBit_same _ _ _ (by decide), fun b hb => ?_⟩
  · rw [setBit, getFld_setFld_ne _ _ _ (by decide) (by decide), getFld_setFld_ne _ _ _ (by decide) (by decide), hmode]
  · rw [setBit, getFld_setFld_ne _ _ _ (by decide) (by decide), getFld_setFld_same _ _ _ (by decide)]
    exact Nat.mod_eq_of_lt ht
  · rw [getReg_setBit_ne _ _ _ hb, getReg_setFld_ne _ _ _ _ hb]

theorem wakesRanks_congr {s u t w : State} (h : WakesRanks u t) (hregs : ∀ c, chanActive u c = chanActive s c) (hdram : u.dram = s.dram)
    (hslices : u.slices = s.slices) (hchans : u.chans = s.chans) (hdram' : w.dram = t.dram) (hslices' : w.slices = t.slices)
    (hchans' : w.chans = t.chans) : WakesRanks s w := by
  obtain ⟨hd, hs, hc⟩ := h
  refine ⟨hdram'.trans (hd.trans hdram), hslices'.trans (hs.trans hslices), fun c hlt => ?_⟩
  rw [chan_congr hchans', ← chan_congr hchans, ← hregs c]
  exact hc c hlt

theorem chanActive_enterMode (s : State) (m c : Nat) : chanActive (enterMode s m) c = chanActive s c :=
  congrArg (bitOf · 8) (getReg_setReg_ne s _ (by unfold mcBase; omega))

/-- The start of a Drain (R402). -/
theorem startDrain_drains {u : State} {r : RunCmd} {target : Nat} (ht : target < 16) (hrun : u.seq.run = some r) (htimer : r.timer = none) :
    curMode (startDrain u target) = 7 ∧ getFld (startDrain u target) 0x10 8 4 = target ∧ inTransit (startDrain u target) = true ∧
    (startDrain u target).seq = { u.seq with trans := some ⟨BitVec.ofNat 4 (curMode u), BitVec.ofNat 4 target, 0⟩,
                                             run := some { r with timer := some (u.tick + r.tmo) } } ∧
    RegsBut 0x10 u (startDrain u target) ∧ WakesRanks u (startDrain u target) := by
  obtain ⟨v, hv⟩ : ∃ v, v = wakeAll (enterMode u 7) := ⟨_, rfl⟩
  have hwake := touches_wakeAll (enterMode u 7)
  rw [← hv] at hwake
  obtain ⟨hmode, htarget, htransit, hbut⟩ := startTransit_shows u v (m := 7) (getReg_congr (hwake.regs rfl) _) (by decide) ht
  have hstart := touches_startTransit v target
  have heq : startDrain u target = waitCmd (setTrans (startTransit v target) (some ⟨BitVec.ofNat 4 (curMode u), BitVec.ofNat 4 target, 0⟩)) :=
    hv ▸ rfl
  have hregs : (startDrain u target).regs = (startTransit v target).regs := by
    rw [heq, (touches_waitCmd _).regs rfl, (touches_setTrans _ _).regs rfl]
  have hseq : (startTransit v target).seq = u.seq := by rw [hstart.seq rfl, hwake.seq rfl, (touches_enterMode u 7).seq rfl]
  have htick : (startTransit v target).tick = u.tick := by rw [hstart.tick rfl, hwake.tick rfl, (touches_enterMode u 7).tick rfl]
  refine ⟨?_, ?_, ?_, ?_, fun b hb => ?_, ?_⟩
  · rw [curMode_congr hregs, hmode]
  · rw [getFld_congr hregs, htarget]
  · rw [inTransit, getBit_congr hregs]
    exact htransit
  · rw [heq, waitCmd, mapRun, setTrans, hseq, htick, hrun, Option.map_some, htimer]
  · rw [getReg_congr hregs, hbut b hb, getReg_congr (hwake.regs rfl)]
    exact getReg_setReg_ne u _ hb
  · refine wakesRanks_congr (wakesRanks_wakeAll (enterMode u 7)) (chanActive_enterMode u 7) ((touches_enterMode u 7).dram rfl)
      ((touches_enterMode u 7).slices rfl) ((touches_enterMode u 7).chans rfl) ?_ ?_ ?_
    · rw [heq, (touches_waitCmd _).dram rfl, (touches_setTrans _ _).dram rfl, hstart.dram rfl, hv]
    · rw [heq, (touches_waitCmd _).slices rfl, (touches_setTrans _ _).slices rfl, hstart.slices rfl, hv]
    · rw [heq, (touches_waitCmd _).chans rfl, (touches_setTrans _ _).chans rfl, hstart.chans rfl, hv]

-- the packets that start a Drain

/-- The command that has been taken up, before its transition starts. -/
def modeRun (s : State) (mb : Mailbox) (p : CmdPkt) (l : Option (BitVec 3)) : State :=
  let u := startRun (popPkt s mb) (takenOf mb p) 1 0
  { u with seq := { u.seq with lcTarget := l } }

theorem touches_modeRun (s : State) (mb : Mailbox) (p : CmdPkt) (l : Option (BitVec 3)) : Touches { seq := true } s (modeRun s mb p l) :=
  (touches_seq _ _).after rfl <| (touches_startRun _ _ _ _).after rfl <| (touches_popPkt s mb)

theorem noMail_modeRun {op : Nat} (h : Lone s mb op p) (l : Option (BitVec 3)) : NoMail (modeRun s mb p l) :=
  noMail_of_mail (noMail_popPkt h) rfl rfl

theorem modeRun_run (s : State) (mb : Mailbox) (p : CmdPkt) (l : Option (BitVec 3)) : (modeRun s mb p l).seq.lcTarget = l ∧
    (modeRun s mb p l).seq.run = some ⟨mb, p.hdr, p.stored, 1, none, 0, false, max 1 (getFld s 0x350014 0 16) * 1000000⟩ := by
  refine ⟨rfl, ?_⟩
  rw [← getFld_congr ((touches_popPkt s mb).regs rfl)]
  rfl

/-- A packet that starts a Drain. -/
theorem completes_drain {c : Instr} {op target : Nat} {r : CmdRule} {l : Option (BitVec 3)} {P : State → Prop}
    (hc : packetRule c = some (mb, op, r)) (h : Lone s mb op p) (hacc : Accepts s mb p r) (ht : target < 16)
    (hact : r.act (popPkt s mb) (takenOf mb p) = startDrain (modeRun s mb p l) target)
    (hP : ∀ t, curMode t = 7 → getFld t 0x10 8 4 = target → inTransit t = true →
      t.seq.trans = some ⟨BitVec.ofNat 4 (curMode s), BitVec.ofNat 4 target, 0⟩ → t.seq.lcTarget = l →
      Runs s t mb p 1 0 (some (s.tick + max 1 (getFld s 0x350014 0 16) * 1000000)) → RegsBut 0x10 s t → WakesRanks s t → P t) :
    Completes c s P := by
  obtain ⟨htarget, hrun⟩ := modeRun_run s mb p l
  have hmail := noMail_modeRun h l
  have hu := touches_modeRun s mb p l
  generalize modeRun s mb p l = u at hact htarget hrun hmail hu
  obtain ⟨hmode, hfld, htransit, hseq, hbut, hwake⟩ := startDrain_drains ht hrun rfl
  have htouch := touches_startDrain u target
  have hmail' : NoMail (startDrain u target) := noMail_of_mail hmail (by rw [hseq]) (by rw [hseq])
  have hcur : curMode u = curMode s := curMode_congr (hu.regs rfl)
  refine ⟨startDrain u target, ?_, hP _ hmode hfld htransit ?_ ?_ ?_ (fun b hb => (hbut b hb).trans (getReg_congr (hu.regs rfl) b)) ?_⟩
  · rw [exec_accepted_quiet hc h hacc (hact ▸ hmail'), hact, resume_eq, ← hu.pending rfl, ← htouch.pending rfl]
  · rw [hseq, hcur]
  · rw [hseq]
    exact htarget
  · rw [Runs, hseq, hu.tick rfl]
  · exact wakesRanks_congr hwake (chanActive_congr (hu.regs rfl)) (hu.dram rfl) (hu.slices rfl) (hu.chans rfl) rfl rfl rfl

-- the roles

theorem twinRole_takeRole (s : State) {r : Nat} (hr : r < 4) : twinRole (takeRole s r) = r := by
  unfold takeRole
  extract_lets u v
  have hv : getReg v 0x310060 = BitVec.ofNat 32 r := (getReg_setFld_ne _ _ _ _ (by decide)).trans (getReg_setReg_same u _ _)
  have hrole : twinRole v = r := by
    unfold twinRole getFld
    rw [hv, bitsOf, BitVec.toNat_ofNat]
    omega
  exact hrole

/-- A role taken by a device that is no Lead. -/
theorem takeRole_fresh {s : State} {r : Nat} (h : twinRole s ≠ 1) (hr : r < 4) :
    twinRole (takeRole s r) = r ∧ getFld (takeRole s r) 0x310084 0 3 = 0 ∧ (takeRole s r).mirror.hbRxDue = s.tick + 100000 ∧
    (takeRole s r).mirror.hbSeen = false ∧ getReg (takeRole s r) 0x310060 = BitVec.ofNat 32 r ∧
    (takeRole s r).mirror.dirty = s.mirror.dirty ∧
    (∀ a, a ≠ 0x310060 → a ≠ 0x310084 → getReg (takeRole s r) a = getReg s a) ∧
    Touches { regs := true, mirror := true } s (takeRole s r) := by
  refine ⟨twinRole_takeRole s hr, ?_⟩
  unfold takeRole
  rw [if_neg (by simp [h])]
  extract_lets _ u
  have hzero : getFld u 0x310084 0 3 = 0 := getFld_setFld_same _ _ _ (by decide)
  have hrole : getReg u 0x310060 = BitVec.ofNat 32 r := (getReg_setFld_ne _ _ _ _ (by decide)).trans (getReg_setReg_same s _ _)
  have hothers : ∀ a, a ≠ 0x310060 → a ≠ 0x310084 → getReg u a = getReg s a := fun a h60 h84 =>
    (getReg_setFld_ne _ _ _ _ h84).trans (getReg_setReg_ne s _ h60)
  have hu : Touches { regs := true } s u := (touches_setFld _ _ _ _ _).after rfl <| (touches_setReg s _ _).mono rfl
  exact ⟨hzero, rfl, rfl, hrole, rfl, hothers, (touches_mirror u _).after rfl <| hu.mono rfl⟩

theorem twinRole_popPkt (s : State) (mb : Mailbox) : twinRole (popPkt s mb) = twinRole s := getFld_congr ((touches_popPkt s mb).regs rfl) _ _ _

/-- A packet that only takes a role. -/
theorem completes_role {c : Instr} {op r : Nat} {rule : CmdRule} {d : List Word} {P : State → Prop} (hc : packetRule c = some (mb, op, rule))
    (h : Lone s mb op p) (hacc : Accepts s mb p rule) (hrole : twinRole s ≠ 1) (hr : r < 4)
    (hact : rule.act (popPkt s mb) (takenOf mb p) = sendReply (takeRole (popPkt s mb) r) mb p.hdr stOk d)
    (hP : ∀ t, twinRole t = r → getFld t 0x310084 0 3 = 0 → t.mirror.hbRxDue = s.tick + 100000 → t.mirror.hbSeen = false →
      getReg t 0x310060 = BitVec.ofNat 32 r → t.mirror.dirty = s.mirror.dirty →
      (∀ a, a ≠ 0x310060 → a ≠ 0x310084 → a ≠ 0x35000C → getReg t a = getReg s a) → KeepsMemory s t → P t) : Completes c s P := by
  obtain ⟨hrole', hzero, hdue, hseen, hreg, hdirty, hothers, htouch⟩ := takeRole_fresh (s := popPkt s mb) (by rw [twinRole_popPkt]; exact hrole) hr
  have hpop := touches_popPkt s mb
  rw [hpop.tick rfl] at hdue
  rw [hpop.mirror rfl] at hdirty
  generalize takeRole (popPkt s mb) r = v at hact hrole' hzero hdue hseen hreg hdirty hothers htouch
  have hmirror := (touches_sendReply v mb p.hdr stOk d).mirror rfl
  have hfld : ∀ a lo n, a ≠ 0x35000C → getFld (sendReply v mb p.hdr stOk d) a lo n = getFld v a lo n := fun a lo n ha =>
    congrArg (bitsOf · lo n) (getReg_sendReply v mb p.hdr stOk d ha)
  refine completes_answered hc h hacc hact (noMail_of_seq (noMail_popPkt h) (htouch.seq rfl)) htouch rfl
    (hP _ ?_ ?_ ?_ ?_ ?_ ?_ (fun a h60 h84 h35 => ?_) ?_)
  · exact (hfld _ _ _ (by decide)).trans hrole'
  · exact (hfld _ _ _ (by decide)).trans hzero
  · rw [hmirror, hdue]
  · rw [hmirror, hseen]
  · rw [getReg_sendReply _ _ _ _ _ (by decide), hreg]
  · rw [hmirror, hdirty]
  · rw [getReg_sendReply _ _ _ _ _ h35, hothers a h60 h84, getReg_popPkt]
  · exact keepsMemory_trans (keepsMemory_popPkt s mb) (keepsMemory_trans (keepsMemory_of_touches htouch rfl rfl rfl) (keepsMemory_sendReply _ _ _ _ _))

/-- A role command that neither loads windows nor resyncs. -/
theorem mirrorCfg_act {r : Nat} (hload : bitOf (paramOf p.stored 1) 4 = false) (hsync : bitOf (paramOf p.stored 1) 2 = false)
    (hr : r = bitsOf (paramOf p.stored 1) 0 2) : mirrorCfgRule.act (popPkt s mb) (takenOf mb p) = sendReply
      (if r = 1 ∧ twinRole s ≠ 1 then enableWindows (takeRole (popPkt s mb) r) else takeRole (popPkt s mb) r) mb p.hdr stOk [] := by
  have hlt : r < 4 := hr ▸ bitsOf_lt _ 0 2
  have hrole := twinRole_takeRole (popPkt s mb) hlt
  have hload' : bitOf ((takenOf mb p).w 1) 4 = false := hload
  have hsync' : bitOf ((takenOf mb p).w 1) 2 = false := hsync
  have hr' : bitsOf ((takenOf mb p).w 1) 0 2 = r := hr.symm
  show mirrorCfgAct (popPkt s mb) (takenOf mb p) = _
  unfold mirrorCfgAct
  extract_lets w load was u v x y
  have hu : u = takeRole (popPkt s mb) r := by rw [← hr']
  have hv : v = if r = 1 ∧ twinRole s ≠ 1 then enableWindows (takeRole (popPkt s mb) r) else takeRole (popPkt s mb) r := by
    unfold v
    rw [hu, hrole, show was = twinRole s from twinRole_popPkt s mb]
  have hx : x = v := if_neg (ne_true_of_eq_false hload')
  have hy : y = x := if_neg (by rw [hsync']; simp)
  rw [if_neg (by rw [show load = false from hload']; simp), hy, hx, hv]
  rfl

/-- A transition of mode that needs no Drain. -/
theorem setMode_run_act (hrun : runMode (modeParam p.stored) = true) (hchans : modeChans p.stored = []) :
    setModeRule.act (popPkt s mb) (takenOf mb p) = setPhase (loadMode (startTransit (modeRun s mb p none) (modeParam p.stored)) (modeParam p.stored)) 2 := by
  have hm : modeParam p.stored ≠ 2 ∧ modeParam p.stored ≠ 8 ∧ modeParam p.stored ≠ 11 := by
    refine ⟨?_, ?_, ?_⟩ <;> (intro h; rw [h] at hrun; exact absurd hrun (by decide))
  obtain ⟨h2, h8, h11⟩ := hm
  show setModeAct (popPkt s mb) (takenOf mb p) = _
  unfold setModeAct
  rw [show (takenOf mb p).params = p.stored from rfl, if_neg (fun h => h2 h.2), hchans, if_neg (by simp)]
  show setModeBegin (modeRun s mb p none) p.stored = _
  unfold setModeBegin
  extract_lets t
  rw [show t = modeParam p.stored from rfl, if_neg h11, if_neg (by rintro (h | ⟨h, -⟩); exacts [h8 h, h2 h]), hchans, if_neg (by simp), beginMode,
    if_pos hrun]

/-- A `SET_MODE` that starts a Drain. -/
theorem setMode_drain_act {m : Nat} (hm : m = modeParam p.stored) (hchans : modeChans p.stored = [])
    (hcase : m = 8 ∨ (m = 2 ∧ curMode s ≠ 2 ∧ curMode s ≠ 10)) :
    setModeRule.act (popPkt s mb) (takenOf mb p) = startDrain (modeRun s mb p none) m := by
  have hcur : curMode (popPkt s mb) = curMode s := curMode_congr ((touches_popPkt s mb).regs rfl)
  have hcur' : curMode (modeRun s mb p none) = curMode s := curMode_congr ((touches_modeRun s mb p none).regs rfl)
  show setModeAct (popPkt s mb) (takenOf mb p) = _
  unfold setModeAct
  rw [show (takenOf mb p).params = p.stored from rfl, ← hm, hcur,
    if_neg (by rintro ⟨h, h2⟩; rcases hcase with rfl | ⟨-, hne, -⟩; exacts [absurd h2 (by decide), hne h]), hchans, if_neg (by simp)]
  show setModeBegin (modeRun s mb p none) p.stored = _
  unfold setModeBegin
  extract_lets t
  rw [show t = m from hm.symm, hcur', if_neg (by rcases hcase with rfl | ⟨rfl, -⟩ <;> decide), if_pos (hcase.imp_right fun h => ⟨h.1, h.2.2⟩)]

theorem startWipe_wipes (u : State) : curMode (startWipe u) = 11 ∧ getFld (startWipe u) 0x10 8 4 = 2 ∧ (startWipe u).seq.wipeCut = false ∧
    (startWipe u).dram = u.dram ∧ (startWipe u).seq.host = u.seq.host ∧ (startWipe u).seq.partner = u.seq.partner := by
  unfold startWipe
  extract_lets _ w
  obtain ⟨v, hv⟩ : ∃ v, v = wakeAll (enterMode w 11) := ⟨_, rfl⟩
  have hwake := touches_wakeAll (enterMode w 11)
  have henter := touches_enterMode w 11
  rw [← hv] at hwake ⊢
  obtain ⟨hmode, htarget, -, -⟩ := startTransit_shows w v (m := 11) (target := 2) (getReg_congr (hwake.regs rfl) _) (by decide) (by decide)
  have hstart := touches_startTransit v 2
  have hseq : (startTransit v 2).seq = w.seq := by rw [hstart.seq rfl, hwake.seq rfl, henter.seq rfl]
  have hdram : (startTransit v 2).dram = w.dram := by rw [hstart.dram rfl, hwake.dram rfl, henter.dram rfl]
  have hpause := touches_pauseCmd (setTrans (startTransit v 2) none)
  have hregs : (pauseCmd (setTrans (startTransit v 2) none)).regs = (startTransit v 2).regs := by
    rw [hpause.regs rfl, (touches_setTrans _ _).regs rfl]
  refine ⟨by rw [curMode_congr hregs, hmode], by rw [getFld_congr hregs, htarget], ?_, ?_, ?_, ?_⟩
  · rw [pauseCmd, mapRun, setTrans, hseq]
  · rw [hpause.dram rfl, (touches_setTrans _ _).dram rfl, hdram]
  · rw [pauseCmd, mapRun, setTrans, hseq]
  · rw [pauseCmd, mapRun, setTrans, hseq]

/-- Settles O35: each packet is taken up by its rule; a Drain is one lemma for the packets that start it. -/
theorem roleAndModePackets : Obligations.RoleAndModePackets := by
  unfold Obligations.RoleAndModePackets
  refine ⟨?role, ?roleExec, ?windows, ?follow, ?lead, ?drain, ?already, ?run, ?wipeDrain, ?wipeNow, ?advance⟩
  case role =>
    intro s mb p r h hacc hload hsync hr hrole hr1
    have hact := mirrorCfg_act (s := s) (mb := mb) hload hsync hr
    rw [if_neg (fun hand => hr1 hand.1)] at hact
    exact completes_role rfl h hacc hrole (hr ▸ bitsOf_lt _ 0 2) hact
      fun t h1 h2 h3 h4 h5 h6 h7 h8 => ⟨h1, h2, h3, h4, h5, h6, h7, h8⟩
  case roleExec =>
    intro s mb p r h hacc hload hsync hr
    rw [exec_accepted (c := .mirrorCfg mb) rfl h hacc, mirrorCfg_act hload hsync hr]
  case windows =>
    intro s mb p h hacc hload href
    exact exec_answered (c := .mirrorCfg mb) rfl h hacc (if_pos (Bool.and_eq_true_iff.mpr ⟨hload, href⟩)) (noMail_popPkt h)
  case follow =>
    intro s mb p h hacc hr hrole
    have hr' : bitsOf ((takenOf mb p).w 1) 0 2 = 2 := hr
    have hact : failoverRule.act (popPkt s mb) (takenOf mb p) = sendReply (takeRole (popPkt s mb) 2) mb p.hdr stOk [2] := by
      show failoverAct (popPkt s mb) (takenOf mb p) = _
      unfold failoverAct
      rw [hr']
      rfl
    exact completes_role rfl h hacc hrole (by decide) hact fun t h1 h2 h3 _ _ _ h7 h8 => ⟨h1, h2, h3, h7, h8⟩
  case lead =>
    intro s mb p h hacc hr hrole
    have hr' : bitsOf ((takenOf mb p).w 1) 0 2 = 1 := hr
    have hact : failoverRule.act (popPkt s mb) (takenOf mb p) = sendReply (failoverLead (popPkt s mb)) mb p.hdr stOk [1] := by
      show failoverAct (popPkt s mb) (takenOf mb p) = _
      unfold failoverAct
      rw [hr', twinRole_popPkt]
      dsimp only
      rw [if_pos ⟨rfl, hrole⟩]
      rfl
    rw [exec_accepted (c := .failover mb) rfl h hacc, hact]
  case drain =>
    intro s mb p m h hacc hm hchans hcase
    exact completes_drain rfl h hacc (hm ▸ bitsOf_lt _ 0 4) (setMode_drain_act hm hchans hcase)
      fun t h1 h2 h3 h4 _ h6 h7 h8 => ⟨h1, h2, h3, h4, h6, h7, h8⟩
  case already =>
    intro s mb p h hacc hm hchans hcur
    refine exec_answered (c := .setMode mb) rfl h hacc (if_pos ⟨?_, hm⟩) (noMail_popPkt h)
    exact (curMode_congr ((touches_popPkt s mb).regs rfl)).trans hcur
  case run =>
    intro s mb p h hacc hrun hchans
    rw [exec_accepted (c := .setMode mb) rfl h hacc, setMode_run_act hrun hchans]
    rfl
  case wipeDrain =>
    intro s mb p h hacc hcur
    have hact : wipeRule.act (popPkt s mb) (takenOf mb p) = startDrain (modeRun s mb p none) 11 := by
      refine if_neg ?_
      have hcur' : curMode (modeRun s mb p none) = curMode s := curMode_congr ((touches_modeRun s mb p none).regs rfl)
      show ¬ (curMode (modeRun s mb p none) == 10) = true
      rw [hcur']
      simpa using hcur
    exact completes_drain rfl h hacc (by decide) hact fun t h1 h2 h3 _ h5 h6 h7 h8 => ⟨h1, h2, h3, h5, h6, h7, h8⟩
  case wipeNow =>
    intro s mb p h hacc hcur
    have hact : wipeRule.act (popPkt s mb) (takenOf mb p) = startWipe (modeRun s mb p none) := by
      refine if_pos ?_
      have hcur' : curMode (modeRun s mb p none) = curMode s := curMode_congr ((touches_modeRun s mb p none).regs rfl)
      show (curMode (modeRun s mb p none) == 10) = true
      rw [hcur', hcur]
      rfl
    have hmail := noMail_modeRun h none
    have hu := touches_modeRun s mb p none
    generalize modeRun s mb p none = u at hact hmail hu
    obtain ⟨hmode, htarget, hcut, hdram, hhost, hpartner⟩ := startWipe_wipes u
    refine ⟨startWipe u, ?_, hmode, htarget, hcut, hdram.trans (hu.dram rfl)⟩
    rw [exec_accepted_quiet (c := .wipe mb) rfl h hacc (hact ▸ noMail_of_mail hmail hhost hpartner), hact, resume_eq, ← hu.pending rfl,
      ← (touches_startWipe u).pending rfl]
  case advance =>
    intro s mb p l h hacc hl hlt hle
    have hact : lifecycleAdvanceRule.act (popPkt s mb) (takenOf mb p) = startDrain (modeRun s mb p (some (BitVec.ofNat 3 l))) 11 := by
      subst hl
      have hlc : lcState (popPkt s mb) = lcState s := getFld_congr ((touches_popPkt s mb).regs rfl) _ _ _
      exact if_neg (by rw [hlc]; rintro (hc | hc); exacts [absurd hlt (Nat.not_lt.mpr hc), absurd hle (Nat.not_le.mpr hc)])
    exact completes_drain rfl h hacc (by decide) hact fun t h1 h2 _ _ h5 h6 h7 h8 => ⟨h1, h2, h5, h6, h7, h8⟩

end Sys2Proof.Proofs
end

section
/-! PROOF. Training, power and revive commands, and the command timer (O36). -/

namespace Sys2Proof.Proofs

open Sys2Proof.Machine Sys2Proof.Safety Sys2Proof.Laws

variable {s : State} {mb : Mailbox} {p : CmdPkt}

-- the slices that are held

theorem slice_onSlices (f : Slice → Slice) : ∀ (l : List Nat) (s : State), l.Nodup → (∀ n ∈ l, n < 8) →
    (∀ n ∈ l, slice (onSlices s l f) n = f (slice s n)) ∧ (∀ n, n ∉ l → slice (onSlices s l f) n = slice s n)
  | [], s, _, _ => ⟨fun n hn => absurd hn (by simp), fun _ _ => rfl⟩
  | m :: l, s, hnodup, hlt => by
    rw [List.nodup_cons] at hnodup
    obtain ⟨hin, hout⟩ := slice_onSlices f l (setSlice s m (f (slice s m))) hnodup.2 (fun n hn => hlt n (List.mem_cons_of_mem m hn))
    have hm := slice_setSlice_same s m (f (slice s m)) (hlt m List.mem_cons_self)
    refine ⟨fun n hn => ?_, fun n hn => ?_⟩
    · rcases List.mem_cons.mp hn with rfl | hn
      · exact (hout n hnodup.1).trans hm
      · exact (hin n hn).trans (congrArg f (slice_setSlice_ne s _ (fun he => hnodup.1 (he ▸ hn))))
    · rw [List.mem_cons, not_or] at hn
      exact (hout n hn.2).trans (slice_setSlice_ne s _ hn.1)

theorem slicePwr_congr {s t : State} (h : getReg t 0x300004 = getReg s 0x300004) (n : Nat) : slicePwr t n = slicePwr s n := by
  unfold slicePwr getBit
  rw [h]

theorem mem_heldSlices {s : State} {r : RunCmd} {n : Nat} : n ∈ heldSlices s r ↔
    (n = 2 * movePairOf r ∨ n = 2 * movePairOf r + 1) ∧ slicePwr s n = true := by
  simp [heldSlices, pairSlices]

theorem nodup_heldSlices (s : State) (r : RunCmd) : (heldSlices s r).Nodup := by
  refine List.Nodup.filter _ ?_
  simp [pairSlices]

theorem heldSlices_congr {s t : State} (h : getReg t 0x300004 = getReg s 0x300004) (r : RunCmd) : heldSlices t r = heldSlices s r := by
  unfold heldSlices
  exact List.filter_congr fun n _ => slicePwr_congr h n

/-- The slices of a pair that is held. -/
def holdPair (s : State) (r : RunCmd) : State := onSlices s (heldSlices s r) (fun x => { x with held := true })

theorem slice_holdPair {s : State} {r : RunCmd} (hp : movePairOf r < 4) : (∀ n, n ∈ heldSlices s r → (slice (holdPair s r) n).held = true) ∧
    (∀ n, (slice (holdPair s r) n).entries = (slice s n).entries) := by
  obtain ⟨hin, hout⟩ := slice_onSlices (fun x => { x with held := true }) (heldSlices s r) s (nodup_heldSlices s r) fun n hn => by
    obtain ⟨hn, -⟩ := mem_heldSlices.mp hn
    omega
  refine ⟨fun n hn => congrArg Slice.held (hin n hn), fun n => ?_⟩
  by_cases hn : n ∈ heldSlices s r
  · have hsame := congrArg Slice.entries (hin n hn)
    exact hsame
  · exact congrArg Slice.entries (hout n hn)

theorem dlAdmitted_holdPair {s : State} {r : RunCmd} (hp : movePairOf r < 4) (n : Nat) : dlAdmitted (holdPair s r) n = dlAdmitted s n := by
  unfold dlAdmitted
  rw [(slice_holdPair hp).2 n]

theorem accordTransit_others (s : State) (r : RunCmd) : RegsBut 0x10 s (accordTransit s r) := by
  unfold accordTransit
  extract_lets t
  split
  · intro a ha
    unfold startTransit
    rw [getReg_setBit_ne _ _ _ ha, getReg_setFld_ne _ _ _ _ ha]
  · exact fun _ _ => rfl

/-- The command that runs, with what a wait of its first phase makes of it. -/
def phaseOne (s : State) (r : RunCmd) : RunCmd :=
  match r.timer with
  | some _ => { r with phase := 1 }
  | none => { r with phase := 1, timer := some (s.tick + r.tmo) }

theorem seq_waitCmd_movePhase {w : State} {r : RunCmd} (hrun : w.seq.run = some r) (hleft : w.seq.moveLeft = none) :
    (waitCmd (movePhase w 1)).seq = { w.seq with run := some (phaseOne w r) } := by
  have hphase : movePhase w 1 = { w with seq := { w.seq with run := some { r with phase := 1 } } } := by
    unfold movePhase mapMover mapRun
    rw [if_neg (by rw [hleft]; decide), hrun]
    rfl
  rw [hphase, waitCmd, mapRun, phaseOne]
  cases r.timer <;> rfl

/-- While a held slice has an admitted Deadline entry the move waits, timed (R315). -/
theorem moveStart_waits {u : State} {r : RunCmd} (hrun : u.seq.run = some r) (hleft : u.seq.moveLeft = none)
    (hop : bitsOf r.hdr 0 8 = 0x38 ∨ bitsOf r.hdr 0 8 = 0x39) (hlater : laterPair r = false) (hp : movePairOf r < 4) {n : Nat}
    (hn : n ∈ heldSlices u r) (hdl : dlAdmitted u n = true) :
    moveStart u r = waitCmd (movePhase (holdPair (accordTransit u r) r) 1) := by
  obtain ⟨v, hv⟩ : ∃ v, v = accordTransit u r := ⟨_, rfl⟩
  have hvu := touches_accordTransit u r
  have hctl := accordTransit_others u r 0x300004 (by decide)
  rw [← hv] at hvu hctl
  have hheld := heldSlices_congr hctl r
  obtain ⟨w, hw⟩ : ∃ w, w = movePhase (holdPair v r) 1 := ⟨_, rfl⟩
  have hhold : Touches { slices := true } v (holdPair v r) := touches_onSlices v _ _
  have hphase := touches_movePhase (holdPair v r) 1
  rw [← hw] at hphase
  have hstart : moveStart u r = moveWait w { r with phase := 1 } := by rw [hw, holdPair, hheld, hv]; rfl
  have hheldw : heldSlices w { r with phase := 1 } = heldSlices u r :=
    (heldSlices_congr ((getReg_congr ((hphase.regs rfl).trans (hhold.regs rfl)) _).trans hctl) r : heldSlices w r = heldSlices u r)
  have hany : (heldSlices w { r with phase := 1 }).any (dlAdmitted w) = true := by
    rw [hheldw]
    refine List.any_eq_true.mpr ⟨n, hn, ?_⟩
    have hentries : dlAdmitted w n = dlAdmitted (holdPair v r) n := by
      unfold dlAdmitted
      rw [slice_congr (hphase.slices rfl)]
    rw [hentries, dlAdmitted_holdPair hp, dlAdmitted, slice_congr (hvu.slices rfl)]
    exact hdl
  have hlater' : laterPair { r with phase := 1 } = false := hlater
  have hseq : (holdPair v r).seq = u.seq := (hhold.seq rfl).trans (hvu.seq rfl)
  have hmover : mover (waitCmd w) = some (phaseOne (holdPair v r) r) := by
    unfold mover
    rw [hw, seq_waitCmd_movePhase (by rw [hseq, hrun]) (by rw [hseq, hleft]), hseq, hleft]
    have hhdr : (phaseOne (holdPair v r) r).hdr = r.hdr := by
      unfold phaseOne
      cases r.timer <;> rfl
    simp only [Option.filter_some, hhdr]
    rw [if_pos (by rcases hop with h | h <;> rw [h] <;> rfl)]
  have hone : (phaseOne (holdPair v r) r).phase = 1 := by
    unfold phaseOne
    cases r.timer <;> rfl
  rw [hstart, ← hv, ← hw]
  unfold moveWait
  extract_lets l x
  have hx : x = waitCmd w := by
    unfold x
    rw [if_pos rfl, if_pos hany, moveTimed, if_neg (ne_true_of_eq_false hlater')]
  rw [hx, hmover]
  exact if_neg (by rw [hone]; decide)

/-- What a move that waits has changed. -/
theorem moveStart_holds {u : State} {r : RunCmd} (hrun : u.seq.run = some r) (hleft : u.seq.moveLeft = none)
    (hop : bitsOf r.hdr 0 8 = 0x38 ∨ bitsOf r.hdr 0 8 = 0x39) (hlater : laterPair r = false) (hp : movePairOf r < 4) {n : Nat}
    (hn : n ∈ heldSlices u r) (hdl : dlAdmitted u n = true) :
    (moveStart u r).regs = (accordTransit u r).regs ∧ (∀ k ∈ heldSlices u r, (slice (moveStart u r) k).held = true) ∧
    (∀ k, (slice (moveStart u r) k).entries = (slice u k).entries) ∧ (moveStart u r).dram = u.dram ∧ (NoMail u → NoMail (moveStart u r)) := by
  have hvu := touches_accordTransit u r
  have hctl := accordTransit_others u r 0x300004 (by decide)
  rw [moveStart_waits hrun hleft hop hlater hp hn hdl]
  generalize accordTransit u r = v at hvu hctl
  obtain ⟨hheld, hentries⟩ := slice_holdPair (s := v) hp
  rw [heldSlices_congr hctl r] at hheld
  have hhold : Touches { slices := true } v (holdPair v r) := touches_onSlices v _ _
  have hseq : (holdPair v r).seq = u.seq := (hhold.seq rfl).trans (hvu.seq rfl)
  have hwait : Touches { seq := true } (holdPair v r) (waitCmd (movePhase (holdPair v r) 1)) :=
    (touches_waitCmd _).after rfl <| (touches_movePhase _ _)
  have hmail := seq_waitCmd_movePhase (w := holdPair v r) (r := r) (by rw [hseq, hrun]) (by rw [hseq, hleft])
  refine ⟨(hwait.regs rfl).trans (hhold.regs rfl), fun k hk => ?_, fun k => ?_, ?_, fun h => ?_⟩
  · rw [slice_congr (hwait.slices rfl)]
    exact hheld k hk
  · rw [slice_congr (hwait.slices rfl), hentries, slice_congr (hvu.slices rfl)]
  · rw [hwait.dram rfl, hhold.dram rfl, hvu.dram rfl]
  · exact noMail_of_mail h (by rw [hmail, hseq]) (by rw [hmail, hseq])

/-- The command that has been taken up with argument `k`. -/
def runOf (s : State) (mb : Mailbox) (p : CmdPkt) (k : Nat) : RunCmd :=
  ⟨mb, p.hdr, p.stored, 1, none, k, false, max 1 (getFld s 0x350014 0 16) * 1000000⟩

theorem startRun_popPkt (s : State) (mb : Mailbox) (p : CmdPkt) (k : Nat) :
    (startRun (popPkt s mb) (takenOf mb p) 1 k).seq.run = some (runOf s mb p k) := by
  unfold runOf
  rw [← getFld_congr ((touches_popPkt s mb).regs rfl)]
  rfl

theorem touches_startRun_popPkt (s : State) (mb : Mailbox) (p : CmdPkt) (k : Nat) :
    Touches { seq := true } s (startRun (popPkt s mb) (takenOf mb p) 1 k) :=
  (touches_startRun _ _ _ _).after rfl <| (touches_popPkt s mb)

theorem hdr_of_lone {op : Nat} (h : Lone s mb op p) : bitsOf p.hdr 0 8 = op := by
  obtain ⟨-, -, -, -, -, -, -, hop⟩ := h
  exact hop

theorem moveLeft_popPkt (s : State) (mb : Mailbox) : (popPkt s mb).seq.moveLeft = s.seq.moveLeft := by
  obtain ⟨a, b, hseq⟩ := seq_popPkt s mb
  rw [hseq]

theorem slicePop_popPkt (s : State) (mb : Mailbox) (n : Nat) : slicePop (popPkt s mb) n = slicePop s n :=
  slicePop_congr ((touches_popPkt s mb).pins rfl) n

theorem slicePwr_popPkt (s : State) (mb : Mailbox) (n : Nat) : slicePwr (popPkt s mb) n = slicePwr s n :=
  slicePwr_congr (getReg_popPkt s mb _) n

theorem dlAdmitted_congr {s t : State} (h : t.slices = s.slices) (n : Nat) : dlAdmitted t n = dlAdmitted s n := by
  unfold dlAdmitted
  rw [slice_congr h]

theorem accordTransit_power (u : State) {r : RunCmd} (h : bitsOf r.hdr 0 8 = 0x38) : accordTransit u r = u :=
  if_neg (by rintro ⟨hacc, -⟩; rw [isAccordCfg, h] at hacc; exact absurd hacc (by decide))

-- SLICE_POWER

theorem slicePower_on_act {n : Nat} (hn : n = bitsOf (paramOf p.stored 1) 0 3) (hon : bitOf (paramOf p.stored 1) 8 = true)
    (hpop : slicePop s n = true) (hpwr : slicePwr s n = false) : slicePowerRule.act (popPkt s mb) (takenOf mb p) =
      moveStart (startRun (popPkt s mb) (takenOf mb p) 1 n) (runOf s mb p n) := by
  show slicePowerAct (popPkt s mb) (takenOf mb p) = _
  unfold slicePowerAct
  dsimp only
  rw [show powerSlice (takenOf mb p).params = n from hn.symm, if_pos (show bitOf ((takenOf mb p).w 1) 8 = true from hon), slicePop_popPkt, slicePwr_popPkt,
    if_neg (by simp [hpop, hpwr]), startRun_popPkt]

theorem pairSlice_div (n : Nat) : pairSlice n / 2 = n / 2 ∧ (pairSlice n = 2 * (n / 2) ∨ pairSlice n = 2 * (n / 2) + 1) := by
  unfold pairSlice
  split <;> omega

theorem slicePower_on_waits {n : Nat} (h : Lone s mb 0x38 p) (hacc : Accepts s mb p slicePowerRule)
    (hn : n = bitsOf (paramOf p.stored 1) 0 3) (hon : bitOf (paramOf p.stored 1) 8 = true) (hpop : slicePop s n = true)
    (hpwr : slicePwr s n = false) (hother : slicePwr s (pairSlice n) = true) (hdl : dlAdmitted s (pairSlice n) = true)
    (hleft : s.seq.moveLeft = none) : Completes (.slicePower mb) s (fun t =>
      (slice t (pairSlice n)).held = true ∧ slicePwr t n = false ∧ t.regs = s.regs ∧ t.dram = s.dram) := by
  have hact := slicePower_on_act (mb := mb) hn hon hpop hpwr
  have hlt : n < 8 := hn ▸ bitsOf_lt _ 0 3
  have hrun := startRun_popPkt s mb p n
  have hu := touches_startRun_popPkt s mb p n
  have hleft' : (startRun (popPkt s mb) (takenOf mb p) 1 n).seq.moveLeft = none := (moveLeft_popPkt s mb).trans hleft
  have hmail : NoMail (startRun (popPkt s mb) (takenOf mb p) 1 n) := noMail_of_mail (noMail_popPkt h) rfl rfl
  generalize startRun (popPkt s mb) (takenOf mb p) 1 n = u at hact hrun hu hleft' hmail
  have hop : bitsOf (runOf s mb p n).hdr 0 8 = 0x38 := hdr_of_lone h
  have hnot : isAccordCfg (runOf s mb p n) = false := by rw [isAccordCfg, hop]; rfl
  have hpair : movePairOf (runOf s mb p n) = n / 2 := if_neg (ne_true_of_eq_false hnot)
  have hheld : pairSlice n ∈ heldSlices u (runOf s mb p n) := mem_heldSlices.mpr ⟨by rw [hpair]; exact (pairSlice_div n).2,
    (slicePwr_congr (getReg_congr (hu.regs rfl) _) _).trans hother⟩
  obtain ⟨hregs, hhold, -, hdram, hmail'⟩ := moveStart_holds hrun hleft' (Or.inl hop) (by rw [laterPair, hnot]; rfl) (by rw [hpair]; omega)
    hheld ((dlAdmitted_congr (hu.slices rfl) _).trans hdl)
  rw [accordTransit_power u hop] at hregs
  refine ⟨moveStart u (runOf s mb p n), ?_, hhold _ hheld, ?_, hregs.trans (hu.regs rfl), hdram.trans (hu.dram rfl)⟩
  · rw [exec_accepted_quiet (c := .slicePower mb) rfl h hacc (hact ▸ hmail' hmail), hact, resume_eq, ← hu.pending rfl,
      ← (touches_moveStart u _).pending rfl]
  · rw [slicePwr_congr (getReg_congr (hregs.trans (hu.regs rfl)) _), hpwr]

theorem slicePower_off_waits {n m : Nat} (h : Lone s mb 0x38 p) (hacc : Accepts s mb p slicePowerRule)
    (hn : n = bitsOf (paramOf p.stored 1) 0 3) (hm : m = bitsOf (paramOf p.stored 1) 12 3) (hoff : bitOf (paramOf p.stored 1) 8 = false)
    (hok : powerOffOk s n m = true) (hdl : dlAdmitted s n = true) (hleft : s.seq.moveLeft = none) :
    Completes (.slicePower mb) s (fun t =>
      getFld t 0x30000C (4 * n) 3 = m ∧ (slice t n).held = true ∧ (slice t n).entries = (slice s n).entries ∧
      RegsBut 0x30000C s t ∧ t.dram = s.dram) := by
  have hlt : n < 8 := hn ▸ bitsOf_lt _ 0 3
  have hmlt : m < 2 ^ 3 := hm ▸ bitsOf_lt _ 12 3
  have hpwr : slicePwr s n = true := by
    unfold powerOffOk inService at hok
    simp only [Bool.and_eq_true] at hok
    obtain ⟨⟨⟨⟨⟨⟨-, hpwr⟩, -⟩, -⟩, -⟩, -⟩, -⟩ := hok
    exact hpwr
  have hok' : powerOffOk (popPkt s mb) n m = true := by cases mb <;> exact hok
  obtain ⟨v, hv⟩ : ∃ v, v = setFld (popPkt s mb) 0x30000C (4 * n) 3 m := ⟨_, rfl⟩
  have hvs : Touches { regs := true } (popPkt s mb) v := hv ▸ touches_setFld _ _ _ _ _
  have hsucc : getFld v 0x30000C (4 * n) 3 = m := by
    rw [hv, getFld_setFld_same _ _ _ (by omega)]
    exact Nat.mod_eq_of_lt hmlt
  have hothers : RegsBut 0x30000C s v := fun a ha => by rw [hv, getReg_setFld_ne _ _ _ _ ha, getReg_popPkt]
  have hpop := touches_popPkt s mb
  obtain ⟨r, hr, hargs⟩ : ∃ r, (startRun v (takenOf mb p) 1 n).seq.run = some r ∧ r.hdr = p.hdr ∧ r.arg = n := ⟨_, rfl, rfl, rfl⟩
  obtain ⟨hhdr, harg⟩ := hargs
  have hact : slicePowerRule.act (popPkt s mb) (takenOf mb p) = moveStart (startRun v (takenOf mb p) 1 n) r := by
    show slicePowerAct (popPkt s mb) (takenOf mb p) = _
    unfold slicePowerAct
    dsimp only
    rw [show powerSlice (takenOf mb p).params = n from hn.symm, show powerSucc (takenOf mb p).params = m from hm.symm,
      if_neg (show ¬ bitOf ((takenOf mb p).w 1) 8 = true from ne_true_of_eq_false hoff), hok', if_neg (by decide), ← hv, hr]
  have hu : Touches { seq := true } v (startRun v (takenOf mb p) 1 n) := touches_startRun _ _ _ _
  have hleft' : (startRun v (takenOf mb p) 1 n).seq.moveLeft = none := by
    rw [show (startRun v (takenOf mb p) 1 n).seq.moveLeft = v.seq.moveLeft from rfl, hvs.seq rfl, moveLeft_popPkt, hleft]
  have hmail : NoMail (startRun v (takenOf mb p) 1 n) := noMail_of_mail (noMail_of_seq (noMail_popPkt h) (hvs.seq rfl)) rfl rfl
  generalize startRun v (takenOf mb p) 1 n = u at hact hr hu hleft' hmail
  have hop : bitsOf r.hdr 0 8 = 0x38 := hhdr ▸ hdr_of_lone h
  have hnot : isAccordCfg r = false := by rw [isAccordCfg, hop]; rfl
  have hpair : movePairOf r = n / 2 := harg ▸ if_neg (ne_true_of_eq_false hnot)
  have hslices : u.slices = s.slices := by rw [hu.slices rfl, hvs.slices rfl, hpop.slices rfl]
  have hctl : getReg u 0x300004 = getReg s 0x300004 := (getReg_congr (hu.regs rfl) _).trans (hothers _ (by decide))
  have hheld : n ∈ heldSlices u r := mem_heldSlices.mpr ⟨by rw [hpair]; omega, (slicePwr_congr hctl n).trans hpwr⟩
  obtain ⟨hregs, hhold, hentries, hdram, hmail'⟩ := moveStart_holds hr hleft' (Or.inl hop) (by rw [laterPair, hnot]; rfl) (by rw [hpair]; omega)
    hheld ((dlAdmitted_congr hslices n).trans hdl)
  rw [accordTransit_power u hop] at hregs
  have hregs' := hregs.trans (hu.regs rfl)
  refine ⟨moveStart u r, ?_, ?_, hhold n hheld, ?_, fun a ha => ?_, ?_⟩
  · rw [exec_accepted_quiet (c := .slicePower mb) rfl h hacc (hact ▸ hmail' hmail), hact, resume_eq, ← hpop.pending rfl, ← hvs.pending rfl,
      ← hu.pending rfl, ← (touches_moveStart u _).pending rfl]
  · rw [getFld_congr hregs', hsucc]
  · rw [hentries, slice_congr hslices]
  · rw [getReg_congr hregs', hothers a ha]
  · rw [hdram, hu.dram rfl, hvs.dram rfl, hpop.dram rfl]

-- ACCORD_CFG

theorem namedPairs_head {w : Word} {q : Nat} {l : List Nat} (h : namedPairs w = q :: l) : q < 4 ∧ ∀ k, k < q → bitOf w k = false ∧ k ∉ namedPairs w := by
  have hmem : q ∈ namedPairs w := h ▸ List.mem_cons_self
  have hq : q < 4 := List.mem_range.mp (List.mem_of_mem_filter hmem)
  refine ⟨hq, fun k hk => ?_⟩
  have hout : k ∉ namedPairs w := by
    have hsorted : (namedPairs w).Pairwise (· < ·) := List.Pairwise.filter _ List.pairwise_lt_range
    rw [h, List.pairwise_cons] at hsorted
    rw [h, List.mem_cons, not_or]
    exact ⟨by omega, fun hmem => by have := hsorted.1 k hmem; omega⟩
  refine ⟨?_, hout⟩
  by_contra hbit
  exact hout (List.mem_filter.mpr ⟨List.mem_range.mpr (by omega), by simp [show bitOf w k = true by simpa using hbit]⟩)

theorem accord_act {q : Nat} {l : List Nat} (hok : accordOk s (paramOf p.stored 1) = true) (hnamed : namedPairs (paramOf p.stored 1) = q :: l) :
    accordCfgRule.act (popPkt s mb) (takenOf mb p) = moveStart (startRun (popPkt s mb) (takenOf mb p) 1 q) (runOf s mb p q) := by
  have hok' : accordOk (popPkt s mb) ((takenOf mb p).w 1) = true := by cases mb <;> exact hok
  show accordAct (popPkt s mb) (takenOf mb p) = _
  unfold accordAct
  rw [hok', if_neg (by decide), show namedPairs ((takenOf mb p).w 1) = q :: l from hnamed, List.headD_cons]
  dsimp only
  rw [startRun_popPkt]

theorem pairMayMove_of_accordOk {q : Nat} {l : List Nat} {w : Word} (hok : accordOk s w = true) (hnamed : namedPairs w = q :: l) :
    slicePwr s (2 * q) = true ∧ slicePwr s (2 * q + 1) = true := by
  unfold accordOk at hok
  simp only [Bool.and_eq_true, List.all_eq_true] at hok
  obtain ⟨⟨-, hall⟩, -⟩ := hok
  have hmove := hall q (hnamed ▸ List.mem_cons_self)
  unfold pairMayMove inService at hmove
  simp only [Bool.and_eq_true] at hmove
  obtain ⟨⟨-, ⟨⟨-, hfirst⟩, -⟩⟩, ⟨⟨-, hsecond⟩, -⟩⟩ := hmove
  exact ⟨hfirst, hsecond⟩

/-- The pair that a command joins or splits, as the others stand. -/
theorem pairJoined_switchPair {u : State} {r : RunCmd} (hacc : isAccordCfg r = true) {q : Nat} (hq : r.arg = q) (hlt : q < 4) :
    pairJoined (switchPair u r) q = bitOf (firstParam r) q ∧ ∀ k, k ≠ q → pairJoined (switchPair u r) k = pairJoined u k := by
  have hsw : switchPair u r = setBit u 0x300004 (8 + q) (bitOf (firstParam r) q) := by
    unfold switchPair
    extract_lets k
    rw [if_pos hacc, show k = q from (if_pos hacc).trans hq]
  rw [hsw]
  exact ⟨getBit_setBit_same u _ _ (by omega), fun k hk => getBit_setBit_ne u _ _ (by omega) (by omega)⟩

theorem accordMode_joins {u : State} {r : RunCmd} (hacc : isAccordCfg r = true) {q : Nat} (hq : r.arg = q) (hlt : q < 4)
    (hbit : bitOf (firstParam r) q = true) : accordMode (switchPair u r) r = 6 := by
  refine if_pos (List.any_eq_true.mpr ⟨q, List.mem_range.mpr hlt, ?_⟩)
  rw [(pairJoined_switchPair hacc hq hlt).1, hbit]

theorem accordMode_splits {u : State} {r : RunCmd} (hacc : isAccordCfg r = true) {q : Nat} (hq : r.arg = q) (hlt : q < 4)
    (hbit : bitOf (firstParam r) q = false) (hothers : ∀ k, k < 4 → k ≠ q → pairJoined u k = false) :
    accordMode (switchPair u r) r = bitsOf (firstParam r) 8 4 := by
  obtain ⟨hown, hrest⟩ := pairJoined_switchPair (u := u) hacc hq hlt
  refine if_neg ?_
  rw [anyJoined, List.any_eq_true]
  rintro ⟨k, hk, hjoined⟩
  rw [List.mem_range] at hk
  by_cases hkq : k = q
  · rw [hkq, hown, hbit] at hjoined
    exact Bool.noConfusion hjoined
  · rw [hrest k hkq, hothers k hk hkq] at hjoined
    exact Bool.noConfusion hjoined

/-- Where the last joined pair splits, the command names a run mode. -/
theorem accordOk_names_mode {q : Nat} {l : List Nat} {w : Word} (hok : accordOk s w = true) (hnamed : namedPairs w = q :: l)
    (hbit : bitOf w q = false) (hothers : ∀ k, k < 4 → k ≠ q → pairJoined s k = false) : 3 ≤ bitsOf w 8 4 ∧ bitsOf w 8 4 ≤ 5 := by
  obtain ⟨hq, hbefore⟩ := namedPairs_head hnamed
  have hthrough : joinedThrough s w q = false := by
    unfold joinedThrough
    rw [List.any_eq_false]
    intro k hk
    rw [List.mem_range] at hk
    rcases Nat.lt_trichotomy k q with hlt | rfl | hgt
    · rw [if_neg (by simp [(hbefore k hlt).2]), hothers k hk (by omega)]
      decide
    · rw [if_pos (by simp [hnamed]), hbit]
      decide
    · rw [if_neg (by simp; omega), hothers k hk (by omega)]
      decide
  unfold accordOk at hok
  simp only [Bool.and_eq_true, Bool.or_eq_true, decide_eq_true_eq, List.all_eq_true] at hok
  obtain ⟨-, hall | hmode⟩ := hok
  · have h := hall q (hnamed ▸ List.mem_cons_self)
    rw [hthrough] at h
    exact Bool.noConfusion h
  · exact hmode

theorem accordTransit_starts {u : State} {r : RunCmd} {m : Nat} (hacc : isAccordCfg r = true) (hmode : accordMode (switchPair u r) r = m)
    (hne : m ≠ curMode u) (hm : m < 16) : inTransit (accordTransit u r) = true ∧ getFld (accordTransit u r) 0x10 8 4 = m ∧
      curMode (accordTransit u r) = curMode u := by
  have heq : accordTransit u r = startTransit u m := by
    unfold accordTransit
    extract_lets t
    rw [show t = m from hmode, if_pos ⟨hacc, hne⟩]
  rw [heq]
  unfold startTransit inTransit curMode
  refine ⟨getBit_setBit_same _ _ _ (by decide), ?_, ?_⟩
  · rw [setBit, getFld_setFld_ne _ _ _ (by decide) (by decide), getFld_setFld_same _ _ _ (by decide)]
    exact Nat.mod_eq_of_lt hm
  · rw [setBit, getFld_setFld_ne _ _ _ (by decide) (by decide), getFld_setFld_ne _ _ _ (by decide) (by decide)]

theorem accordCfg_waits {q : Nat} {l : List Nat} (h : Lone s mb 0x39 p) (hacc : Accepts s mb p accordCfgRule)
    (hok : accordOk s (paramOf p.stored 1) = true) (hnamed : namedPairs (paramOf p.stored 1) = q :: l) (hdl : dlAdmitted s (2 * q) = true)
    (hleft : s.seq.moveLeft = none) : Completes (.accordCfg mb) s (fun t =>
      (slice t (2 * q)).held = true ∧ (slice t (2 * q + 1)).held = slicePwr s (2 * q + 1) ∧ RegsBut 0x10 s t ∧
      (bitOf (paramOf p.stored 1) q = true → curMode s ≠ 6 →
        inTransit t = true ∧ getFld t 0x10 8 4 = 6 ∧ curMode t = curMode s) ∧
      (bitOf (paramOf p.stored 1) q = true → curMode s = 6 → getReg t 0x10 = getReg s 0x10) ∧
      (bitOf (paramOf p.stored 1) q = false → (∀ k, k < 4 → k ≠ q → pairJoined s k = false) → curMode s = 6 →
        inTransit t = true ∧ getFld t 0x10 8 4 = bitsOf (paramOf p.stored 1) 8 4) ∧ t.dram = s.dram) := by
  have hact := accord_act (mb := mb) hok hnamed
  obtain ⟨hq, -⟩ := namedPairs_head hnamed
  obtain ⟨hpwr0, hpwr1⟩ := pairMayMove_of_accordOk hok hnamed
  have hrun := startRun_popPkt s mb p q
  have hu := touches_startRun_popPkt s mb p q
  have hleft' : (startRun (popPkt s mb) (takenOf mb p) 1 q).seq.moveLeft = none := (moveLeft_popPkt s mb).trans hleft
  have hmail : NoMail (startRun (popPkt s mb) (takenOf mb p) 1 q) := noMail_of_mail (noMail_popPkt h) rfl rfl
  generalize startRun (popPkt s mb) (takenOf mb p) 1 q = u at hact hrun hu hleft' hmail
  have hop : bitsOf (runOf s mb p q).hdr 0 8 = 0x39 := hdr_of_lone h
  have hcfg : isAccordCfg (runOf s mb p q) = true := by rw [isAccordCfg, hop]; rfl
  have hpair : movePairOf (runOf s mb p q) = q := if_pos hcfg
  have hlater : laterPair (runOf s mb p q) = false := by
    rw [laterPair, show namedPairs (firstParam (runOf s mb p q)) = q :: l from hnamed, hcfg]
    simp [runOf]
  have hregsu := hu.regs rfl
  have hpwr : ∀ n, slicePwr u n = slicePwr s n := fun n => slicePwr_congr (getReg_congr hregsu _) n
  have hheld0 : 2 * q ∈ heldSlices u (runOf s mb p q) := mem_heldSlices.mpr ⟨by rw [hpair]; exact Or.inl rfl, (hpwr _).trans hpwr0⟩
  have hheld1 : 2 * q + 1 ∈ heldSlices u (runOf s mb p q) := mem_heldSlices.mpr ⟨by rw [hpair]; exact Or.inr rfl, (hpwr _).trans hpwr1⟩
  obtain ⟨hregs, hhold, -, hdram, hmail'⟩ := moveStart_holds hrun hleft' (Or.inr hop) hlater (by rw [hpair]; exact hq) hheld0
    ((dlAdmitted_congr (hu.slices rfl) _).trans hdl)
  have hcur : curMode u = curMode s := curMode_congr hregsu
  refine ⟨moveStart u (runOf s mb p q), ?_, hhold _ hheld0, (hhold _ hheld1).trans hpwr1.symm, fun a ha => ?_, fun hbit hne => ?_,
    fun hbit hcur6 => ?_, fun hbit hothers hcur6 => ?_, hdram.trans (hu.dram rfl)⟩
  · rw [exec_accepted_quiet (c := .accordCfg mb) rfl h hacc (hact ▸ hmail' hmail), hact, resume_eq, ← hu.pending rfl,
      ← (touches_moveStart u _).pending rfl]
  · rw [getReg_congr hregs, accordTransit_others u _ a ha, getReg_congr hregsu]
  · have hmode : accordMode (switchPair u (runOf s mb p q)) (runOf s mb p q) = 6 := accordMode_joins hcfg rfl hq hbit
    obtain ⟨htransit, htarget, hkeep⟩ := accordTransit_starts hcfg hmode (by rw [hcur]; exact fun he => hne he.symm) (by decide)
    rw [inTransit, getBit_congr hregs, getFld_congr hregs, curMode_congr hregs, hkeep, hcur]
    exact ⟨htransit, htarget, rfl⟩
  · have hmode : accordMode (switchPair u (runOf s mb p q)) (runOf s mb p q) = 6 := accordMode_joins hcfg rfl hq hbit
    have hsame : accordTransit u (runOf s mb p q) = u := by
      unfold accordTransit
      extract_lets t
      rw [show t = 6 from hmode, hcur, hcur6, if_neg (fun hand => hand.2 rfl)]
    rw [getReg_congr hregs, hsame, getReg_congr hregsu]
  · have hjoined : ∀ k, k < 4 → k ≠ q → pairJoined u k = false := fun k hk hkq =>
      (congrArg (bitOf · (8 + k)) (getReg_congr hregsu _)).trans (hothers k hk hkq)
    have hmode : accordMode (switchPair u (runOf s mb p q)) (runOf s mb p q) = bitsOf (paramOf p.stored 1) 8 4 :=
      accordMode_splits hcfg rfl hq hbit hjoined
    obtain ⟨-, hle⟩ := accordOk_names_mode hok hnamed hbit hothers
    obtain ⟨htransit, htarget, -⟩ := accordTransit_starts hcfg hmode (by rw [hcur, hcur6]; omega) (bitsOf_lt _ 8 4)
    rw [inTransit, getBit_congr hregs, getFld_congr hregs]
    exact ⟨htransit, htarget⟩

-- AGENT_REVIVE and the timer

theorem agentRevive_waits {n : Nat} (h : Lone s mb 0x61 p) (hacc : Accepts s mb p agentReviveRule)
    (hn : n = bitsOf (paramOf p.stored 1) 0 5) (hlt : n < 24) (hen : portEnabled s n = true) (hup : (port s n).resetLow = false) :
    Completes (.agentRevive mb) s (fun t =>
      Runs s t mb p 1 n (some (s.tick + max 1 (getFld s 0x350014 0 16) * 1000000)) ∧ t.regs = s.regs ∧ KeepsMemory s t) := by
  have hact : agentReviveRule.act (popPkt s mb) (takenOf mb p) = waitCmd (startRun (popPkt s mb) (takenOf mb p) 1 n) := by
    subst hn
    exact if_pos ⟨hlt, by cases mb <;> exact hen, by cases mb <;> exact congrArg (!·) hup⟩
  have hrun := startRun_popPkt s mb p n
  have hu := touches_startRun_popPkt s mb p n
  have hmail : NoMail (startRun (popPkt s mb) (takenOf mb p) 1 n) := noMail_of_mail (noMail_popPkt h) rfl rfl
  generalize startRun (popPkt s mb) (takenOf mb p) 1 n = u at hact hrun hu hmail
  have hw := touches_waitCmd u
  have hall := hw.after rfl hu
  refine ⟨waitCmd u, ?_, ?_, hall.regs rfl, keepsMemory_of_touches hall rfl rfl rfl⟩
  · rw [exec_accepted_quiet (c := .agentRevive mb) rfl h hacc (hact ▸ noMail_of_mail hmail rfl rfl), hact, resume_eq, ← hall.pending rfl]
  · unfold Runs waitCmd mapRun
    rw [hrun, Option.map_some, ← hu.tick rfl]
    rfl

theorem port_congr {s t : State} (h : t.ports = s.ports) (n : Nat) : port t n = port s n := by
  unfold port
  rw [h]

/-- What a latch makes of a port. -/
theorem port_latchPort (u : State) {n : Nat} (hn : n < 24) : port (latchPort u n) n = { port u n with
    caching := getBit u (portBase n) 0, xlat := getBit u (portBase n) 1, xlatSlice := BitVec.ofNat 3 (getFld u (portBase n) 4 3) } := by
  unfold latchPort
  extract_lets a k q v x
  have hv : port v n = _ := port_setPort_same u n _ hn
  split
  · exact hv
  · exact (port_congr ((touches_setSlice v k _).ports rfl) n).trans hv

theorem revivePort_revives (s : State) {n : Nat} (hn : n < 24) : (port (revivePort s n) n).fenced = false ∧
    (port (revivePort s n) n).dead = false ∧ (port (revivePort s n) n).txns = [] ∧ getBit (revivePort s n) 0x300300 n = false := by
  unfold revivePort
  extract_lets u _ v w ap _ y
  have hu : getBit u 0x300300 n = false := by
    have hclear : getBit (setBit s 0x300300 n false) 0x300300 n = false := getBit_setBit_same s _ false (by omega)
    exact (congrArg (bitOf · n) (getReg_setBit_ne _ _ _ (by unfold portBase; omega))).trans hclear
  have hwv : Touches { slices := true } v w := .forEach (fun s k => touches_setSlice s k _) 8 v
  have hport : port v n = _ := port_setPort_same u n _ hn
  have hlatch := port_latchPort y hn
  have hyw : Touches { obs := true } w y := touches_obs w _
  have hvu : v.regs = u.regs := (touches_setPort_unfence u n _).regs rfl
  have hregs : (latchPort y n).regs = u.regs := by rw [(touches_latchPort y n).regs rfl, hyw.regs rfl, hwv.regs rfl, hvu]
  rw [hlatch, port_congr ((hyw.ports rfl).trans (hwv.ports rfl)), hport, getBit_congr hregs]
  exact ⟨rfl, rfl, rfl, hu⟩

/-- Settles O36: a command that waits for its slices ends with `moveStart_waits`; the other clauses are the branches of their effects. -/
theorem trainingPowerAndRevive : Obligations.TrainingPowerAndRevive := by
  unfold Obligations.TrainingPowerAndRevive
  refine ⟨?train, ?init, ?noPower, ?power, fun s mb p n h hacc hn hon hpop hpwr hother hdl hleft =>
      slicePower_on_waits h hacc hn hon hpop hpwr hother hdl hleft,
    fun s mb p n m h hacc hn hm hoff hok _ hdl hleft => slicePower_off_waits h hacc hn hm hoff hok hdl hleft, ?noAccord,
    fun s mb p q l h hacc hok hnamed hdl hleft => accordCfg_waits h hacc hok hnamed hdl hleft,
    fun s mb p n h hacc hn hlt hen hup => agentRevive_waits h hacc hn hlt hen hup, ?revived, fun s n hn => revivePort_revives s hn, ?notYet,
    ?timedOut, ?inTime⟩
  case train =>
    intro s mb p h hacc
    have hact : trainChannelRule.act (popPkt s mb) (takenOf mb p) = startRun (popPkt s mb) (takenOf mb p) 1 (bitsOf (paramOf p.stored 1) 0 4) := rfl
    have hu := touches_startRun_popPkt s mb p (bitsOf (paramOf p.stored 1) 0 4)
    have hrun := startRun_popPkt s mb p (bitsOf (paramOf p.stored 1) 0 4)
    have hmail : NoMail (startRun (popPkt s mb) (takenOf mb p) 1 (bitsOf (paramOf p.stored 1) 0 4)) := noMail_of_mail (noMail_popPkt h) rfl rfl
    generalize startRun (popPkt s mb) (takenOf mb p) 1 (bitsOf (paramOf p.stored 1) 0 4) = u at hact hu hrun hmail
    refine ⟨u, ?_, hrun, hu.regs rfl, keepsMemory_of_touches hu rfl rfl rfl⟩
    rw [exec_accepted_quiet (c := .trainChannel mb) rfl h hacc (hact ▸ hmail), hact, resume_eq, ← hu.pending rfl]
  case init =>
    intro s mb p h hacc
    have hact : initMemoryRule.act (popPkt s mb) (takenOf mb p) = sendReply (startInitAll (loadDecode (popPkt s mb))) mb p.hdr stOk [] := rfl
    rw [exec_accepted (c := .initMemory mb) rfl h hacc, hact]
  case noPower =>
    intro s mb p n h hacc hn hon hno
    refine exec_answered (c := .slicePower mb) rfl h hacc ?_ (noMail_popPkt h)
    show slicePowerAct (popPkt s mb) (takenOf mb p) = _
    unfold slicePowerAct
    dsimp only
    rw [show powerSlice (takenOf mb p).params = n from hn.symm, if_pos (show bitOf ((takenOf mb p).w 1) 8 = true from hon), slicePop_popPkt,
      slicePwr_popPkt, if_pos (hno.imp_left fun hpop => by rw [hpop]; rfl)]
    rfl
  case power =>
    intro s mb p n h hacc hn hon hpop hpwr
    refine ⟨_, startRun_popPkt s mb p n, ?_⟩
    rw [exec_accepted (c := .slicePower mb) rfl h hacc, slicePower_on_act hn hon hpop hpwr]
  case noAccord =>
    intro s mb p h hacc hok
    have hok' : accordOk (popPkt s mb) ((takenOf mb p).w 1) = false := by cases mb <;> exact hok
    exact exec_answered (c := .accordCfg mb) rfl h hacc (if_pos (congrArg (!·) hok')) (noMail_popPkt h)
  case revived =>
    rintro s r ⟨hdef, hrunning⟩ hrun hop hready
    refine (guarded_defined _ hdef).trans (congrArg (resume s) ?_)
    unfold reviveDoneEffect
    rw [hrun]
    exact if_pos ⟨hrunning, hop, hready⟩
  case notYet =>
    intro s r hdef hrun hop hready
    refine (guarded_defined (reviveDoneEffect s) hdef).trans ?_
    unfold reviveDoneEffect
    rw [hrun]
    dsimp only
    rw [if_neg (by rw [hready]; simp), resume_same]
  case timedOut =>
    rintro s r ⟨hdef, hrunning⟩ hrun hdue
    refine (guarded_defined _ hdef).trans (congrArg (resume s) ?_)
    unfold timeoutEffect
    rw [hrun]
    exact if_pos ⟨hrunning, hdue⟩
  case inTime =>
    intro s r hdef hrun hdue
    refine (guarded_defined (timeoutEffect s) hdef).trans ?_
    unfold timeoutEffect
    rw [hrun]
    dsimp only
    rw [if_neg (by rw [hdue]; simp), resume_same]

end Sys2Proof.Proofs
end

section
/-! PROOF. The reset of an agent port (O37). -/

namespace Sys2Proof.Proofs

open Sys2Proof.Machine Sys2Proof.Safety Sys2Proof.Laws

/-- The fence of a port without an agent that caches. -/
theorem fenceOnly_fences (s : State) {n : Nat} (hn : n < 24) : (port (fenceOnly s n) n).fenced = true := by
  unfold fenceOnly
  split
  · next h => exact h
  · extract_lets u _ v
    have hv : (port v n).fenced = true := fenceBare_fences s hn
    have hslices : Touches (reaction.plus { dram := true, free := true }) v (forEach 8 v (fenceSlice n)) :=
      .forEach (fun s k => touches_fenceSlice n s k) 8 v
    exact hslices.fences rfl n hv

/-- The first part of a port's reset: its fence. -/
def resetFence (s : State) (n : Nat) : State :=
  if running s ∧ portEnabled s n then fencePort s n else setPort s n { port s n with fenced := true }

/-- The second part: what the port held is gone, and no credit is left. -/
def resetClear (u : State) (n : Nat) : State :=
  let v := setPort u n { port u n with txns := [], owed := [], egress := [], arb := freshArb, egDue := [] }
  let w := { v with obs := { v.obs with samples := v.obs.samples.filter (fun x => x.unit != n) } }
  zeroCredits (setPort w n { port w n with resetLow := true }) n

theorem agentResetEffect_eq (s : State) (n : Nat) : agentResetEffect s n =
    if reviving (resetClear (resetFence s n) n) n then finishCmd (resetClear (resetFence s n) n) stBadParam []
    else resetClear (resetFence s n) n := rfl

theorem port_zeroCredits (s : State) {n : Nat} (hn : n < 24) : port (zeroCredits s n) n = { port s n with
    inCred := Vector.replicate 6 0, outCred := Vector.replicate 6 0, granted := Vector.replicate 6 0 } := by
  unfold zeroCredits
  extract_lets z _ u
  exact port_setPort_same u n _ hn

theorem port_resetClear (u : State) {n : Nat} (hn : n < 24) : port (resetClear u n) n = { port u n with
    txns := [], owed := [], egress := [], arb := freshArb, egDue := [], resetLow := true,
    inCred := Vector.replicate 6 0, outCred := Vector.replicate 6 0, granted := Vector.replicate 6 0 } := by
  have hlow : ∀ (w : State) (x : Port), port w n = x → port (zeroCredits (setPort w n { port w n with resetLow := true }) n) n =
      { x with resetLow := true, inCred := Vector.replicate 6 0, outCred := Vector.replicate 6 0, granted := Vector.replicate 6 0 } := by
    rintro w _ rfl
    rw [port_zeroCredits _ hn, port_setPort_same _ _ _ hn]
  have hcleared := port_setPort_same u n { port u n with txns := [], owed := [], egress := [], arb := freshArb, egDue := [] } hn
  unfold resetClear
  extract_lets _ v _ w
  exact hlow w _ hcleared

theorem fences_resetFence (s : State) {n : Nat} (hn : n < 24) : ((port s n).fenced = true → (port (resetFence s n) n).fenced = true) ∧
    ((running s && portEnabled s n) = false ∨ (port s n).caching = false → (port (resetFence s n) n).fenced = true) := by
  unfold resetFence
  split
  · next h =>
    obtain ⟨hrun, hen⟩ := h
    refine ⟨(touches_fencePort s n).fences rfl n, fun hcase => ?_⟩
    have hcaching : (port s n).caching = false := hcase.resolve_left (by rw [hrun, hen]; decide)
    unfold fencePort
    split
    · next h => exact h
    · rw [if_neg (ne_true_of_eq_false hcaching)]
      exact fenceOnly_fences s hn
  · rw [port_setPort_same _ _ _ hn]
    exact ⟨fun _ => rfl, fun _ => rfl⟩

theorem agentResetAssert_completes (s : State) (n : PortId) (hdef : s.undef = false) : Completes (.agentResetAssert n) s (fun t =>
    (port t n.val).resetLow = true ∧ (port t n.val).inCred = Vector.replicate 6 0 ∧
    (port t n.val).outCred = Vector.replicate 6 0 ∧ (port t n.val).granted = Vector.replicate 6 0 ∧
    (port t n.val).txns = [] ∧ (port t n.val).owed = [] ∧ (port t n.val).egress = [] ∧
    ((port s n.val).fenced = true → (port t n.val).fenced = true) ∧
    ((running s && portEnabled s n.val) = false ∨ (port s n.val).caching = false → (port t n.val).fenced = true)) := by
  obtain ⟨hkeep, hfence⟩ := fences_resetFence s n.isLt
  have hport : port (agentResetEffect s n.val) n.val = port (resetClear (resetFence s n.val) n.val) n.val := by
    rw [agentResetEffect_eq]
    split
    · exact port_congr ((touches_finishCmd _ _ _).ports rfl) _
    · rfl
  refine completes_touched rfl hdef (touches_agentResetEffect s n.val) rfl ?_
  rw [hport, port_resetClear _ n.isLt]
  exact ⟨rfl, rfl, rfl, rfl, rfl, rfl, rfl, hkeep, hfence⟩

theorem portHolds_congr {s t : State} (h : t.regs = s.regs) (n : Nat) : portHolds t n = portHolds s n := by
  unfold portHolds
  simp only [slicePwr, getBit_congr h, getFld_congr h]

theorem portEnabled_congr {s t : State} (h : t.pins = s.pins) (n : Nat) : portEnabled t n = portEnabled s n := by
  unfold portEnabled
  rw [h]

theorem running_congr {s t : State} (hregs : t.regs = s.regs) (hpins : t.pins = s.pins) : running t = running s := by
  unfold running coreAlive
  rw [curMode_congr hregs, hpins]

theorem readyLink_congr {s t : State} (h : t.regs = s.regs) : readyLink t = readyLink s := getBit_congr h _ _

/-- A port that comes out of reset, before it is latched. -/
def outOfReset (s : State) (n : Nat) : State := zeroCredits (setPort s n { port s n with resetLow := false }) n

theorem touches_outOfReset (s : State) (n : Nat) : Touches { ports := true, spine := true } s (outOfReset s n) :=
  (touches_zeroCredits _ n).after rfl <| (touches_setPort s n _ (fun h => by exact h)).mono rfl

theorem port_outOfReset (s : State) {n : Nat} (hn : n < 24) : port (outOfReset s n) n = { port s n with
    resetLow := false, inCred := Vector.replicate 6 0, outCred := Vector.replicate 6 0, granted := Vector.replicate 6 0 } := by
  unfold outOfReset
  rw [port_zeroCredits _ hn, port_setPort_same _ _ _ hn]

theorem agentResetRelease_completes (s : State) (n : PortId) (hawake : Awake s) (hen : portEnabled s n.val = true)
    (hready : readyLink s = true) (hlow : (port s n.val).resetLow = true) : Completes (.agentResetRelease n) s (fun t =>
      (port t n.val).resetLow = false ∧ (port t n.val).fenced = (port s n.val).fenced ∧
      (port t n.val).inCred = initCredits (portHolds s n.val) ∧ (port t n.val).outCred = Vector.replicate 6 0 ∧
      (port t n.val).caching = getBit s (portBase n.val) 0 ∧ (port t n.val).xlat = getBit s (portBase n.val) 1 ∧
      (port t n.val).xlatSlice = BitVec.ofNat 3 (getFld s (portBase n.val) 4 3) ∧
      t.regs = s.regs ∧ t.chans = s.chans ∧ t.dram = s.dram) := by
  obtain ⟨hdef, hrun⟩ := hawake
  obtain ⟨u, hu⟩ : ∃ u, u = outOfReset s n.val := ⟨_, rfl⟩
  obtain ⟨v, hv⟩ : ∃ v, v = latchPort u n.val := ⟨_, rfl⟩
  have hus := touches_outOfReset s n.val
  have hvu := touches_latchPort u n.val
  have hportu := port_outOfReset s n.isLt
  have hportv := port_latchPort u n.isLt
  rw [← hu] at hus hportu
  rw [← hv] at hvu hportv
  have hregs : v.regs = s.regs := (hvu.regs rfl).trans (hus.regs rfl)
  have hpins : v.pins = s.pins := (hvu.pins rfl).trans (hus.pins rfl)
  have heff : agentReleaseEffect s n.val = setPort v n.val { port v n.val with inCred := initCredits (portHolds v n.val) } := by
    unfold agentReleaseEffect
    rw [if_neg (not_not_true hlow)]
    show (if running (outOfReset s n.val) = true ∧ portEnabled (outOfReset s n.val) n.val = true then
      (if readyLink (latchPort (outOfReset s n.val) n.val) then grantCredits (latchPort (outOfReset s n.val) n.val) n.val
        else latchPort (outOfReset s n.val) n.val) else outOfReset s n.val) = _
    rw [← hu, ← hv, if_pos ⟨(running_congr (hus.regs rfl) (hus.pins rfl)).trans hrun, (portEnabled_congr (hus.pins rfl) _).trans hen⟩,
      if_pos ((readyLink_congr hregs).trans hready), grantCredits, if_pos ⟨(portEnabled_congr hpins _).trans hen,
        (congrArg not (congrArg Port.resetLow (hportv.trans (by rw [hportu])))).trans rfl⟩]
  refine completes_touched (congrArg (guarded s) heff) hdef
    ((touches_setPort_unfence v n.val _).after rfl <| hvu.after rfl <| hus.mono rfl :
      Touches { ports := true, spine := true, slices := true, unfence := true } _ _) rfl ?_
  have hset := touches_setPort_unfence v n.val { port v n.val with inCred := initCredits (portHolds v n.val) }
  rw [port_setPort_same _ _ _ n.isLt, hset.regs rfl, hset.chans rfl, hset.dram rfl, hportv, hportu, portHolds_congr hregs,
    getBit_congr (hus.regs rfl), getBit_congr (hus.regs rfl), getFld_congr (hus.regs rfl), hvu.chans rfl, hvu.dram rfl]
  exact ⟨rfl, rfl, rfl, rfl, rfl, rfl, rfl, hregs, hus.chans rfl, hus.dram rfl⟩

/-- Settles O37: the reset is a fence and a clearing, and the release latches and grants. -/
theorem agentPortResets : Obligations.AgentPortResets := by
  unfold Obligations.AgentPortResets
  refine ⟨agentResetAssert_completes, fun s n hdef => guarded_defined _ hdef,
    fun s n hawake hen hready hlow => agentResetRelease_completes s n hawake hen hready hlow, ?absent, ?released⟩
  case absent =>
    intro s n hdef hlow habsent
    refine (guarded_defined _ hdef).trans (congrArg (resume s) ?_)
    have hus := touches_outOfReset s n.val
    unfold agentReleaseEffect
    rw [if_neg (not_not_true hlow)]
    refine if_neg ?_
    show ¬ (running (outOfReset s n.val) = true ∧ portEnabled (outOfReset s n.val) n.val = true)
    rw [running_congr (hus.regs rfl) (hus.pins rfl), portEnabled_congr (hus.pins rfl)]
    rcases habsent with h | h <;> simp [h]
  case released =>
    intro s n hdef hlow
    exact (congrArg (guarded s) (if_pos (by rw [hlow]; rfl))).trans (guarded_same hdef)

end Sys2Proof.Proofs
end

section
/-! PROOF. Request flits at the bridge (O38). -/

namespace Sys2Proof.Proofs

open Sys2Proof.Machine Sys2Proof.Safety Sys2Proof.Laws

-- a packet that leaves a unit

theorem getLsbD_ofNat_add_two_pow_mul {w a k i : Nat} (b : Nat) (h : i < k) :
    (BitVec.ofNat w (a + 2 ^ k * b)).getLsbD i = (BitVec.ofNat w a).getLsbD i := by
  have hmod : ∀ x : Nat, (x % 2 ^ k).testBit i = x.testBit i := fun x => by rw [Nat.testBit_mod_two_pow, decide_eq_true h, Bool.true_and]
  rw [BitVec.getLsbD_ofNat, BitVec.getLsbD_ofNat, ← hmod, Nat.add_mul_mod_self_left, hmod]

/-- The CRC of a flit does not cover the output that the next router takes. -/
theorem flitCrc_next (p : Packet) (x : BitVec 3) (second : Bool) : flitCrc { p with next := x } second = flitCrc p second := by
  have hbit : ∀ i, i < 49 → (headerWord { p with next := x }).getLsbD (8 + i) = (headerWord p).getLsbD (8 + i) := by
    intro i hi
    exact (getLsbD_ofNat_add_two_pow_mul _ (by omega)).trans (getLsbD_ofNat_add_two_pow_mul _ (by omega)).symm
  have hhead : (List.range 49).foldl (fun c i => crcBit c ((headerWord { p with next := x }).getLsbD (8 + i))) 0xFFFF
      = (List.range 49).foldl (fun c i => crcBit c ((headerWord p).getLsbD (8 + i))) 0xFFFF :=
    List.foldl_ext _ _ _ fun c i hi => by rw [hbit i (List.mem_range.mp hi)]
  unfold flitCrc
  dsimp only
  rw [hhead]

/-- One packet has joined those that leave input `i` of router `r`: it is `p` but for the output that its route takes. -/
def Launched (s t : State) (r i : Nat) (p : Packet) : Prop :=
  ∃ g, t.spine.arrive = s.spine.arrive ++ [g] ∧ g.router = r ∧ g.input = i ∧ g.pkt = { p with next := g.pkt.next } ∧
    g.crc = flitCrc g.pkt false

theorem launch_launched (s : State) (r i : Nat) (p : Packet) : Launched s (launch s r i p) r i p := by
  obtain ⟨x, hx⟩ : ∃ x, x = BitVec.ofNat 3 (chooseOut s r p) := ⟨_, rfl⟩
  obtain ⟨c, hc⟩ : ∃ c, c = flitCrc p := ⟨_, rfl⟩
  have hnext : c false = flitCrc { p with next := x } false := by rw [hc]; exact (flitCrc_next p x false).symm
  unfold launch onward routed
  rw [← hx, ← hc]
  exact ⟨_, rfl, rfl, rfl, rfl, hnext⟩

theorem launched_of_spine {s s' t : State} {r i : Nat} {p : Packet} (h : s'.spine = s.spine) (hl : Launched s' t r i p) :
    Launched s t r i p := by
  unfold Launched at hl ⊢
  rwa [h] at hl

-- the credit of a flit

/-- The bridge has the flit: its credit is used. -/
def spend (s : State) (n i : Nat) : State :=
  setPort s n { port s n with inCred := vecSet (port s n).inCred i (vecGet (port s n).inCred i - 1) }

theorem touches_spend (s : State) (n i : Nat) : Touches { ports := true } s (spend s n i) :=
  touches_setPort s n _ (fun h => by exact h)

theorem port_spend (s : State) {n : Nat} (i : Nat) (hn : n < 24) : port (spend s n i) n =
    { port s n with inCred := vecSet (port s n).inCred i (vecGet (port s n).inCred i - 1) } :=
  port_setPort_same s n _ hn

theorem underCredit_spend {s : State} {n ch : Nat} {dl : Bool} (f : State → Bool → State)
    (h : vecGet (port s n).inCred (credIdx ch dl) ≠ 0) : underCredit s n ch dl f =
      creditBack (f (spend s n (credIdx ch dl)) false) n (credIdx ch dl) (some (bridgeWaits s n)) := by
  unfold underCredit takeCredit
  dsimp only
  rw [if_neg h]
  rfl

theorem creditBack_kept {s t : State} (n i : Nat) (h : t.spine = s.spine) :
    creditBack t n i (some (bridgeWaits s n)) = returnCred t n i := by
  have hwaits : bridgeWaits t n = bridgeWaits s n := by
    unfold bridgeWaits
    rw [h]
  exact if_neg (by rw [hwaits]; exact Nat.lt_irrefl _)

/-- The credit comes back once the packet that left is on its way. -/
theorem creditBack_launched {s t : State} {n i : Nat} {p : Packet} (h : Launched s t n 4 p) :
    creditBack t n i (some (bridgeWaits s n)) = owesCred t n i ∧ Launched s (owesCred t n i) n 4 p := by
  obtain ⟨g, harr, hrouter, hinput, hpkt, hcrc⟩ := h
  have hfront : (g.router == n && g.input == 4) = true := by
    rw [hrouter, hinput, beq_self_eq_true]
    rfl
  have hwaits : bridgeWaits t n = bridgeWaits s n + 1 := by
    unfold bridgeWaits
    rw [harr, List.filter_append, List.length_append]
    rw [List.filter_cons_of_pos (p := fun f : Flight => f.router == n && f.input == 4) (l := []) hfront]
    rfl
  refine ⟨if_pos (by rw [hwaits]; exact Nat.lt_succ_self _), { g with cred := some i }, ?_, hrouter, hinput, hpkt, hcrc⟩
  unfold owesCred
  dsimp only
  rw [show t.spine.arrive.reverse = g :: s.spine.arrive.reverse by rw [harr, List.reverse_append]; rfl,
    List.takeWhile_cons_of_neg (by rw [hfront]; decide), List.dropWhile_cons_of_neg (by rw [hfront]; decide)]
  simp

-- a request that breaks no rule

theorem reqTarget_txns (s : State) {n : Nat} (r : Req) (hn : n < 24) : (port (reqTarget s n r).1 n).txns = (port s n).txns := by
  unfold reqTarget
  dsimp only
  split
  · rw [port_setPort_same _ _ _ hn]
  · split
    · rw [port_setPort_same _ _ _ hn]
    · rfl

theorem owe_txns (s : State) {n : Nat} (r : Req) (dl drop : Bool) (home no : Nat) (hn : n < 24) :
    (port (owe s n r dl drop home no) n).txns = (port s n).txns := by
  unfold owe
  split
  · rfl
  · rw [port_setPort_same _ _ _ hn]

theorem openTxn_opens (s : State) {n : Nat} (r : Req) (dl : Bool) (hn : n < 24) : ∃ x, x ∈ (port (openTxn s n r dl) n).txns ∧
    x.txn = r.txn ∧ x.req = r ∧ x.dl = dl ∧ x.held = false ∧ x.ended = false ∧ x.since = s.tick := by
  unfold openTxn
  rw [port_setPort_same _ _ _ hn]
  exact ⟨_, List.mem_append_right _ List.mem_cons_self, rfl, rfl, rfl, rfl, rfl, rfl⟩

/-- A forwarded request: its TXN is busy and its packet leaves. -/
theorem forwardReq_leaves (s : State) {n : Nat} (r : Req) (dl : Bool) (hn : n < 24) :
    (port (forwardReq s n r dl) n).txns = (port (openTxn s n r dl) n).txns ∧
    ∃ p, Launched s (forwardReq s n r dl) n 4 p ∧ p.src = BitVec.ofNat 5 n ∧ p.msg = .req r ∧ p.dl = dl := by
  unfold forwardReq
  extract_lets _ u
  have hu : u.spine = s.spine := (touches_openTxn s n r dl).spine rfl
  split
  next v rt unit series heq =>
  have hv : Touches { ports := true } u v := .of_pair heq (touches_reqTarget u n r)
  have hvt : (port v n).txns = (port u n).txns := by
    have h := reqTarget_txns u r hn
    rwa [heq] at h
  extract_lets _ no w home _
  have hw : w.spine = v.spine := (touches_setPort v n _ (fun h => by exact h)).spine rfl
  have hwt : (port w n).txns = (port v n).txns := by rw [show w = setPort v n _ from rfl, port_setPort_same _ _ _ hn]
  split
  next x _ heq =>
  have hx : Touches { regs := true, obs := true, free := true } w x :=
    .of_pair heq (.ite_fst (touches_markSample _ _ _ _ _) (.refl _))
  extract_lets y _
  have hy := touches_owe x n r dl false home no
  have hspine : y.spine = s.spine := (hy.spine rfl).trans ((hx.spine rfl).trans (hw.trans ((hv.spine rfl).trans hu)))
  refine ⟨?_, _, launched_of_spine hspine (launch_launched y n 4 _), rfl, rfl, rfl⟩
  rw [port_congr ((touches_launch _ _ _ _).ports rfl), owe_txns _ _ _ _ _ _ hn, port_congr (hx.ports rfl), hwt, hvt]

theorem reqKinds_spend (s : State) {n : Nat} (i : Nat) (dl late bad : Bool) (r : Req) (hn : n < 24) :
    reqKinds (spend s n i) n dl late bad r = reqKinds s n dl late bad r := by
  simp only [reqKinds, grantValid, txnOf, port_spend s i hn]

theorem clampPrio_congr {s t : State} (h : t.regs = s.regs) (n : Nat) (p : BitVec 2) : clampPrio t n p = clampPrio s n p := by
  unfold clampPrio
  rw [getFld_congr h]

theorem realmKinds_congr {s t : State} (h : t.regs = s.regs) (n : Nat) (r : Req) : realmKinds t n r = realmKinds s n r := by
  unfold realmKinds
  simp only [getBit_congr h, getFld_congr h]

theorem reqFlitEffect_clean {s : State} {n : PortId} {dl : Bool} {f : BitVec 128} {r : Req} (hlive : portLive s n.val = true)
    (hblot : blotArmed s 1 n.val = false) (hpar : parityOk f = true) (hcred : vecGet (port s n.val).inCred (credIdx 0 dl) ≠ 0)
    (hfence : (port s n.val).fenced = false) (hkinds : reqKinds s n.val dl false false (reqOf f) = [])
    (hr : r = { reqOf f with prio := clampPrio s n.val (reqOf f).prio }) (hrealm : realmKinds s n.val r = [])
    (hwin : namesLine r = true → inWindow s r.addr.toNat = true) : reqFlitEffect s n.val dl f =
      creditBack (forwardReq (spend s n.val (credIdx 0 dl)) n.val r dl) n.val (credIdx 0 dl) (some (bridgeWaits s n.val)) := by
  have hu := touches_spend s n.val (credIdx 0 dl)
  have hport := port_spend s (credIdx 0 dl) n.isLt
  have hreq := reqKinds_spend s (credIdx 0 dl) dl false false (reqOf f) n.isLt
  obtain ⟨u, hue⟩ : ∃ u, u = spend s n.val (credIdx 0 dl) := ⟨_, rfl⟩
  rw [reqFlitEffect, hlive, parityInject_unarmed 4 hblot, hpar, if_neg (by decide)]
  dsimp only
  rw [underCredit_spend _ hcred]
  rw [← hue] at hu hport hreq ⊢
  have hf : (port u n.val).fenced = false := by rw [hport]; exact hfence
  have hr' : { reqOf f with prio := clampPrio u n.val (reqOf f).prio, crd := (reqOf f).crd && true } = r := by
    rw [hr, clampPrio_congr (hu.regs rfl), Bool.and_true]
  have hwin' : ¬ (namesLine r = true ∧ (!inWindow u r.addr.toNat) = true) := by
    rintro ⟨hname, hout⟩
    have hin : inWindow u r.addr.toNat = true := by
      rw [← hwin hname]
      unfold inWindow windowBase windowSize
      rw [getFld_congr (hu.regs rfl), getFld_congr (hu.regs rfl)]
    rw [hin] at hout
    cases hout
  refine congrArg (fun t => creditBack t n.val (credIdx 0 dl) (some (bridgeWaits s n.val))) ?_
  simp only [Bool.false_eq_true, false_and, if_false]
  rw [if_neg (ne_true_of_eq_false hf)]
  show judgeReq u n.val (reqOf f) dl (reqKinds u n.val dl false false (reqOf f)) = _
  rw [hreq, hkinds]
  unfold judgeReq portViolate
  simp only [List.isEmpty_nil, if_true, List.any_nil, List.contains_nil, Bool.not_false, Bool.false_eq_true, or_self, if_false]
  rw [if_neg (ne_true_of_eq_false hf), hr', Bool.and_true]
  unfold admitReq
  dsimp only
  rw [realmKinds_congr (hu.regs rfl), hrealm, if_neg (by decide), if_neg hwin']

/-- A fenced port answers with `CompErr` and records the request. -/
theorem reqFlitEffect_fenced {s : State} {n : PortId} {dl : Bool} {f : BitVec 128} (hlive : portLive s n.val = true)
    (hblot : blotArmed s 1 n.val = false) (hpar : parityOk f = true) (hcred : vecGet (port s n.val).inCred (credIdx 0 dl) ≠ 0)
    (hfence : (port s n.val).fenced = true) : reqFlitEffect s n.val dl f =
      returnCred (fencedReq (spend s n.val (credIdx 0 dl)) n.val { reqOf f with prio := clampPrio s n.val (reqOf f).prio } dl)
        n.val (credIdx 0 dl) := by
  have hu := touches_spend s n.val (credIdx 0 dl)
  have hport := port_spend s (credIdx 0 dl) n.isLt
  obtain ⟨u, hue⟩ : ∃ u, u = spend s n.val (credIdx 0 dl) := ⟨_, rfl⟩
  rw [reqFlitEffect, hlive, parityInject_unarmed 4 hblot, hpar, if_neg (by decide)]
  dsimp only
  rw [underCredit_spend _ hcred]
  rw [← hue] at hu hport ⊢
  have hf : (port u n.val).fenced = true := by rw [hport]; exact hfence
  have hback := touches_fencedReq u n.val { reqOf f with prio := clampPrio u n.val (reqOf f).prio } dl
  simp only [Bool.false_eq_true, false_and, if_false]
  rw [if_pos hf, ← clampPrio_congr (hu.regs rfl)]
  exact creditBack_kept n.val _ ((hback.spine rfl).trans (hu.spine rfl))

-- an error of a port

theorem getReg_raiseErr_ne (s : State) {err cap a : Nat} (i : Nat) (info : Word) (he : a ≠ err) (hc : a ≠ cap) :
    getReg (raiseErr s err i cap info) a = getReg s a := by
  unfold raiseErr
  dsimp only
  split
  · rw [getReg_setReg_ne _ _ hc, getReg_setBit_ne _ _ _ he]
  · exact getReg_setBit_ne _ _ _ he

theorem getBit_raiseErr (s : State) {err cap i : Nat} (info : Word) (hi : i < 32) (hc : err ≠ cap) :
    getBit (raiseErr s err i cap info) err i = true := by
  have hset : getBit (setBit s err i true) err i = true := getBit_setBit_same s err true hi
  unfold raiseErr
  dsimp only
  split
  · unfold getBit
    rw [getReg_setReg_ne _ _ hc]
    exact hset
  · exact hset

theorem inSafe_raiseErr (s : State) (n i : Nat) (info : Word) :
    inSafe (raiseErr s (portBase n + 0x14) i (portBase n + 0x18) info) = inSafe s := by
  unfold inSafe curMode getFld
  rw [getReg_raiseErr_ne _ _ _ (by unfold portBase; omega) (by unfold portBase; omega)]

theorem port_owe (s : State) {n : Nat} (r : Req) (dl drop : Bool) (home no : Nat) (hn : n < 24) :
    (port (owe s n r dl drop home no) n).egress = (port s n).egress := by
  unfold owe
  split
  · rfl
  · rw [port_setPort_same _ _ _ hn]

theorem toEgress_adds (s : State) {n : Nat} (m : Msg) (dl : Bool) (prio : BitVec 2) (src : BitVec 5) (hn : n < 24) :
    ∃ e, (port (toEgress s n m dl prio src) n).egress = (port s n).egress ++ [e] ∧ e.msg = m := by
  unfold toEgress
  rw [port_setPort_same _ _ _ hn]
  exact ⟨_, rfl, rfl⟩

theorem bridgeRefuse_answers (s : State) {n : Nat} (r : Req) (dl : Bool) (err : BitVec 4) (hn : n < 24) :
    ∃ e, (port (bridgeRefuse s n r dl err) n).egress = (port s n).egress ++ [e] ∧ e.msg = bridgeErr err r.txn r.prio := by
  obtain ⟨e, he, hmsg⟩ := toEgress_adds (owe (openTxn s n r dl) n r dl true 0 0) (bridgeErr err r.txn r.prio) dl r.prio (BitVec.ofNat 5 n) hn
  refine ⟨e, he.trans ?_, hmsg⟩
  rw [port_owe _ _ _ _ _ _ hn, openTxn, port_setPort_same _ _ _ hn]

theorem fencedReq_answers (s : State) {n : Nat} (r : Req) (dl : Bool) (hn : n < 24) :
    getBit (fencedReq s n r dl) (portBase n + 0x14) 11 = true ∧
    ∃ e, (port (fencedReq s n r dl) n).egress = (port s n).egress ++ [e] ∧ e.msg = bridgeErr (if inSafe s then 6 else 8) r.txn r.prio := by
  obtain ⟨info, hinfo⟩ : ∃ info, info = portInfo 11 0 (opOf r) r.txn.toNat dl := ⟨_, rfl⟩
  have hdetect : portDetect s n [11] 0 (opOf r) r.txn.toNat dl = raiseErr s (portBase n + 0x14) 11 (portBase n + 0x18) info := by
    rw [hinfo]
    rfl
  unfold fencedReq
  rw [hdetect]
  dsimp only
  rw [inSafe_raiseErr]
  obtain ⟨e, he, hmsg⟩ := bridgeRefuse_answers (raiseErr s (portBase n + 0x14) 11 (portBase n + 0x18) info) r dl
    (if inSafe s then 6 else 8) hn
  refine ⟨?_, e, he.trans ?_, hmsg⟩
  · rw [getBit_congr ((touches_bridgeRefuse _ n r dl _).regs rfl)]
    exact getBit_raiseErr s info (by decide) (by omega)
  · rw [port_congr ((touches_raiseErr _ _ _ _ _).ports rfl)]

theorem egress_returnCred (s : State) {n : Nat} (i : Nat) (hn : n < 24) : (port (returnCred s n i) n).egress = (port s n).egress := by
  unfold returnCred
  dsimp only
  split
  · rfl
  · rw [port_setPort_same _ _ _ hn]

/-- Settles O38: the violations decide; without one the request is forwarded and its credit waits for the packet. -/
theorem requestFlits : Obligations.RequestFlits := by
  unfold Obligations.RequestFlits
  refine ⟨?clean, ?fenced, ?parity, ?dead⟩
  case clean =>
    intro s n dl f r hdef hlive hblot hpar hcred hfence hkinds hr hrealm hwin
    have heff := reqFlitEffect_clean hlive hblot hpar hcred hfence hkinds hr hrealm hwin
    have hu := touches_spend s n.val (credIdx 0 dl)
    obtain ⟨u, hue⟩ : ∃ u, u = spend s n.val (credIdx 0 dl) := ⟨_, rfl⟩
    rw [← hue] at heff hu
    obtain ⟨htxns, p, hp, hsrc, hmsg, hdl⟩ := forwardReq_leaves u r dl n.isLt
    obtain ⟨hback, g, harr, hrouter, hinput, hpkt, hcrc⟩ := creditBack_launched (i := credIdx 0 dl) (launched_of_spine (hu.spine rfl) hp)
    have htouch : Touches { regs := true, ports := true, spine := true, obs := true, free := true } s
        (owesCred (forwardReq u n.val r dl) n.val (credIdx 0 dl)) :=
      (touches_owesCred _ _ _).after rfl <| (touches_forwardReq _ _ _ _).after rfl <| hu.mono rfl
    obtain ⟨x, hx, hxtxn, hxreq, hxdl, hxheld, hxended, hxsince⟩ := openTxn_opens u r dl n.isLt
    refine completes_touched (congrArg (guarded s) (heff.trans hback)) hdef htouch rfl ⟨⟨x, ?_, hxtxn, hxreq, hxdl, hxheld, hxended, ?_⟩,
      ⟨g, harr, hrouter, hinput, ?_, ?_, ?_, hcrc⟩, keepsMemory_of_touches htouch rfl rfl rfl⟩
    · rw [port_congr ((touches_owesCred _ _ _).ports rfl), htxns]
      exact hx
    · rw [hxsince, hu.tick rfl]
    · rw [hpkt]
      exact hsrc
    · rw [hpkt]
      exact hmsg
    · rw [hpkt]
      exact hdl
  case fenced =>
    intro s n dl f hdef hlive hblot hpar hcred hfence
    have heff := reqFlitEffect_fenced hlive hblot hpar hcred hfence
    have hu := touches_spend s n.val (credIdx 0 dl)
    have hport := port_spend s (credIdx 0 dl) n.isLt
    obtain ⟨u, hue⟩ : ∃ u, u = spend s n.val (credIdx 0 dl) := ⟨_, rfl⟩
    obtain ⟨r, hr⟩ : ∃ r, r = { reqOf f with prio := clampPrio s n.val (reqOf f).prio } := ⟨_, rfl⟩
    rw [← hue, ← hr] at heff
    rw [← hue] at hu hport
    obtain ⟨hbit, e, he, hmsg⟩ := fencedReq_answers u r dl n.isLt
    have hf := touches_fencedReq u n.val r dl
    have hc := touches_returnCred (fencedReq u n.val r dl) n.val (credIdx 0 dl)
    have htouch : Touches { regs := true, ports := true } s (returnCred (fencedReq u n.val r dl) n.val (credIdx 0 dl)) :=
      hc.after rfl <| hf.after rfl <| hu.mono rfl
    refine completes_touched (congrArg (guarded s) heff) hdef htouch rfl
      ⟨?_, htouch.spine rfl, ⟨e, ?_, ?_⟩, keepsMemory_of_touches htouch rfl rfl rfl⟩
    · rw [getBit_congr (hc.regs rfl)]
      exact hbit
    · rw [egress_returnCred _ _ n.isLt, he, hport]
    · rw [hmsg, hr, inSafe, inSafe, curMode_congr (hu.regs rfl)]
  case parity =>
    intro s n dl f hdef hlive hblot hpar hfence
    rw [← reqFlitEffect_badParity hlive hblot hpar hfence]
    exact guarded_defined _ hdef
  case dead =>
    intro s n dl f hdef hlive
    exact (congrArg (guarded s) (if_pos (by rw [hlive]; rfl))).trans (guarded_same hdef)

end Sys2Proof.Proofs
end

section
/-! PROOF. Inbound responses, data and credits at the bridge (O39). -/

namespace Sys2Proof.Proofs

open Sys2Proof.Machine Sys2Proof.Safety Sys2Proof.Laws

-- credit counters

theorem vecGet_vecSet_same (v : Vector Nat 6) {i : Nat} (k : Nat) (h : i < 6) : vecGet (vecSet v i k) i = k := by
  unfold vecGet vecSet
  rw [dif_pos h, Vector.toList_set, List.getD_eq_getElem?_getD, List.getElem?_set_self (by simpa using h)]
  rfl

theorem vecGet_vecSet_ne (v : Vector Nat 6) {i j : Nat} (k : Nat) (h : j ≠ i) : vecGet (vecSet v i k) j = vecGet v j := by
  unfold vecGet vecSet
  split
  · rw [Vector.toList_set, List.getD_eq_getElem?_getD, List.getElem?_set_ne (Ne.symm h), List.getD_eq_getElem?_getD]
  · rfl

theorem credIdx_lt (ch : Fin 3) (dl : Bool) : credIdx ch.val dl < 6 := by
  have := ch.isLt
  unfold credIdx
  cases dl <;> simp [b2n] <;> omega

-- the destination of a packet to a home

theorem sliceRouter_lt (n : Nat) : sliceRouter n < 24 := by
  unfold sliceRouter
  split <;> decide

theorem dstRouter_mkPacket {r : Nat} (u : Nat) (src : BitVec 5) (dl : Bool) (prio : BitVec 2) (m : Msg) (h : r < 24) :
    dstRouter (mkPacket r u src dl prio m) = r := by
  show 6 * (BitVec.ofNat 2 (r / 6)).toNat + (BitVec.ofNat 3 (r % 6)).toNat = r
  rw [BitVec.toNat_ofNat, BitVec.toNat_ofNat]
  omega

/-- A message has left for the home slice. -/
def LeftForHome (s t : State) (n : Nat) (home : BitVec 3) (mark : BitVec 2) (no : BitVec 16) (m : Msg) : Prop :=
  ∃ g, t.spine.arrive = s.spine.arrive ++ [g] ∧ dstRouter g.pkt = sliceRouter home.toNat ∧ g.pkt.dstUnit = 1 ∧
    g.pkt.src = BitVec.ofNat 5 n ∧ g.pkt.mark = mark ∧ g.pkt.reqNo = no ∧ g.pkt.msg = m

/-- The packet that `toHome` launches. -/
def homePacket (n : Nat) (home : BitVec 3) (dl : Bool) (prio : BitVec 2) (mark : BitVec 2) (no : BitVec 16) (m : Msg) : Packet :=
  { mkPacket (sliceRouter home.toNat) 1 (BitVec.ofNat 5 n) dl prio m with mark := mark, reqNo := no }

theorem toHome_launched (s : State) (n : Nat) (home : BitVec 3) (dl : Bool) (prio : BitVec 2) (mark : BitVec 2) (no : BitVec 16)
    (m : Msg) : Launched s (toHome s n home dl prio mark no m) n 4 (homePacket n home dl prio mark no m) :=
  launch_launched _ _ _ _

theorem leftForHome_of_launched {s t : State} {n : Nat} {home : BitVec 3} {dl : Bool} {prio : BitVec 2} {mark : BitVec 2}
    {no : BitVec 16} {m : Msg} (h : Launched s t n 4 (homePacket n home dl prio mark no m)) : LeftForHome s t n home mark no m := by
  obtain ⟨g, harr, -, -, hpkt, -⟩ := h
  refine ⟨g, harr, ?_, ?_, ?_, ?_, ?_, ?_⟩
  · rw [hpkt]
    exact dstRouter_mkPacket 1 (BitVec.ofNat 5 n) dl prio m (sliceRouter_lt _)
  all_goals
    rw [hpkt]
    rfl

-- a response that breaks no rule

theorem rspKinds_spend (s : State) {n : Nat} (i : Nat) (late bad : Bool) (r : Rsp) (hn : n < 24) :
    rspKinds (spend s n i) n late bad r = rspKinds s n late bad r := by
  simp only [rspKinds, rspKnown, snpRec, port_spend s i hn]

theorem rspFlitEffect_clean {s : State} {n : PortId} {dl : Bool} {f : BitVec 128} (hlive : portLive s n.val = true)
    (hblot : blotArmed s 1 n.val = false) (hpar : parityOk f = true) (hcred : vecGet (port s n.val).inCred (credIdx 1 dl) ≠ 0)
    (hfence : (port s n.val).fenced = false) (hkinds : rspKinds s n.val false false (rspOf f) = []) : rspFlitEffect s n.val dl f =
      creditBack (takeRsp (spend s n.val (credIdx 1 dl)) n.val dl { rspOf f with prio := clampPrio s n.val (rspOf f).prio })
        n.val (credIdx 1 dl) (some (bridgeWaits s n.val)) := by
  have hu := touches_spend s n.val (credIdx 1 dl)
  have hport := port_spend s (credIdx 1 dl) n.isLt
  have hrsp := rspKinds_spend s (credIdx 1 dl) false false (rspOf f) n.isLt
  obtain ⟨u, hue⟩ : ∃ u, u = spend s n.val (credIdx 1 dl) := ⟨_, rfl⟩
  rw [rspFlitEffect, hlive, parityInject_unarmed 4 hblot, hpar, if_neg (by decide)]
  dsimp only
  rw [underCredit_spend _ hcred]
  rw [← hue] at hu hport hrsp ⊢
  have hf : (port u n.val).fenced = false := by rw [hport]; exact hfence
  refine congrArg (fun t => creditBack t n.val (credIdx 1 dl) (some (bridgeWaits s n.val))) ?_
  simp only [Bool.false_eq_true, false_and, if_false, Bool.not_true, hrsp, hkinds, List.filter_nil, portViolate, List.isEmpty_nil,
    if_true, List.any_nil, hf, or_self, clampPrio_congr (hu.regs rfl)]

theorem touches_answer {s : State} (n : Nat) (home : BitVec 3) (dl : Bool) (prio mark : BitVec 2) (no : BitVec 16) (m : Msg) (k : SnpRec) :
    Touches { ports := true, spine := true } s (toHome (setSnpRec s n k) n home dl prio mark no m) :=
  (touches_toHome _ _ _ _ _ _ _ _).after rfl <| (touches_setSnpRec _ _ _).mono rfl

theorem answerMark_spend (s : State) {n : Nat} (i : Nat) (a : Addr) (hn : n < 24) : answerMark (spend s n i) n a = answerMark s n a := by
  unfold answerMark
  rw [port_spend s i hn]

theorem snpRec_spend (s : State) {n : Nat} (i : Nat) (home : BitVec 3) (entry : BitVec 8) (hn : n < 24) :
    snpRec (spend s n i) n home entry = snpRec s n home entry := by
  unfold snpRec
  rw [port_spend s i hn]

/-- The answer to a snoop leaves. -/
theorem takeRsp_answers {s : State} {n : Nat} {dl : Bool} {r : Rsp} {k : SnpRec} (hop : r.opcode = 1)
    (hk : snpRec s n r.home r.entry = some k) :
    Touches { ports := true, spine := true } s (takeRsp s n dl r) ∧
    Launched s (takeRsp s n dl r) n 4 (homePacket n r.home dl r.prio (answerMark s n k.snp.addr) 0
      (.rsp { r with txn := 0, err := 0, cls := false })) := by
  have hnat : r.opcode.toNat = 1 := by rw [hop]; rfl
  unfold takeRsp
  rw [hnat]
  dsimp only
  rw [hk]
  dsimp only
  exact ⟨touches_answer _ _ _ _ _ _ _ _, launched_of_spine ((touches_setSnpRec _ _ _).spine rfl) (toHome_launched _ _ _ _ _ _ _ _)⟩

/-- A `GrantAck` leaves and is owed no more. -/
theorem takeRsp_grantAck {s : State} {n : Nat} {dl : Bool} {r : Rsp} {a : AckOwed} (hn : n < 24) (hop : r.opcode = 3)
    (hacks : (port s n).acks = [a]) (hhome : a.home = r.home) (hentry : a.entry = r.entry) :
    (port (takeRsp s n dl r) n).acks = [] ∧
    Launched s (takeRsp s n dl r) n 4 (homePacket n r.home dl r.prio 0 0
      (.rsp { r with txn := 0, err := 0, state := 0, snpdata := 0, cls := false })) := by
  have hnat : r.opcode.toNat = 3 := by rw [hop]; rfl
  unfold takeRsp
  rw [hnat]
  simp only
  rw [hacks, List.find?_cons_of_pos (by rw [hhome, hentry, beq_self_eq_true, beq_self_eq_true]; rfl)]
  dsimp only
  have hset := touches_setPort s n { port s n with acks := dropFirst (fun x => x == a) [a] } (fun h => by exact h)
  have hport := port_setPort_same s n { port s n with acks := dropFirst (fun x => x == a) [a] } hn
  obtain ⟨u, hu⟩ : ∃ u, u = setPort s n { port s n with acks := dropFirst (fun x => x == a) [a] } := ⟨_, rfl⟩
  rw [← hu] at hset hport ⊢
  have hsample := touches_ackSample u n a true
  refine ⟨?_, launched_of_spine ((hsample.spine rfl).trans (hset.spine rfl)) (toHome_launched _ _ _ _ _ _ _ _)⟩
  rw [port_congr ((touches_toHome _ _ _ _ _ _ _ _).ports rfl), port_congr (hsample.ports rfl), hport]
  exact if_pos (beq_self_eq_true a)

-- write data that breaks no rule

theorem owedOf_spend (s : State) {n : Nat} (i : Nat) (x : BitVec 8) (half : Bool) (hn : n < 24) :
    owedOf (spend s n i) n x half = owedOf s n x half := by
  unfold owedOf
  rw [port_spend s i hn]

theorem datKinds_owed {s : State} {n : Nat} {d : Dat} {o : Owed} (hkind : d.kind = 3) (hwb : d.snpwb = false)
    (ho : owedOf s n d.txn d.half = some o) (hbe : beLegal s n d = true) : datKinds s n false false d = [] := by
  have hnat : d.kind.toNat = 3 := by rw [hkind]; rfl
  have hknown : datKnown s n d = true := by
    unfold datKnown
    rw [hnat]
    show (if d.snpwb then _ else (owedOf s n d.txn d.half).isSome) = true
    rw [if_neg (ne_true_of_eq_false hwb), ho]
    rfl
  unfold datKinds
  rw [hkind, hbe, hknown]
  rfl

theorem datFlitEffect_clean {s : State} {n : PortId} {dl : Bool} {f : BitVec 352} (hlive : portLive s n.val = true)
    (hblot : blotArmed s 1 n.val = false) (hpar : parityDatOk f = true) (hcred : vecGet (port s n.val).inCred (credIdx 2 dl) ≠ 0)
    (hfence : (port s n.val).fenced = false) (hkinds : datKinds (spend s n.val (credIdx 2 dl)) n.val false false (datOf f) = []) :
    datFlitEffect s n.val dl f =
      creditBack (takeDat (spend s n.val (credIdx 2 dl)) n.val dl { datOf f with prio := clampPrio s n.val (datOf f).prio })
        n.val (credIdx 2 dl) (some (bridgeWaits s n.val)) := by
  have hu := touches_spend s n.val (credIdx 2 dl)
  have hport := port_spend s (credIdx 2 dl) n.isLt
  obtain ⟨u, hue⟩ : ∃ u, u = spend s n.val (credIdx 2 dl) := ⟨_, rfl⟩
  rw [datFlitEffect, hlive, parityInject_unarmed 11 hblot, hpar, if_neg (by decide)]
  dsimp only
  rw [underCredit_spend _ hcred]
  rw [← hue] at hu hport hkinds ⊢
  have hf : (port u n.val).fenced = false := by rw [hport]; exact hfence
  refine congrArg (fun t => creditBack t n.val (credIdx 2 dl) (some (bridgeWaits s n.val))) ?_
  simp only [Bool.false_eq_true, false_and, and_false, if_false, Bool.not_true, hkinds, List.filter_nil, portViolate, List.isEmpty_nil,
    if_true, List.any_nil, List.contains_nil, hf, or_self, clampPrio_congr (hu.regs rfl)]

theorem owed_txnSettle (s : State) {n : Nat} (x : BitVec 8) (hn : n < 24) : (port (txnSettle s n x) n).owed = (port s n).owed := by
  unfold txnSettle
  split
  · extract_lets p due u
    split
    · have hu : (port u n).owed = (port s n).owed := by
        rw [show u = setPort s n _ from rfl, port_setPort_same _ _ _ hn]
      split
      · split
        · rw [port_congr ((touches_samplePark _ _ _ _ _).ports rfl), hu]
        · rw [port_congr ((touches_sampleClose _ _ _ _).ports rfl), hu]
      · rw [port_congr ((touches_sampleClose _ _ _ _).ports rfl), hu]
    · rfl
  · rfl

/-- The half that has come is owed no more. -/
theorem owed_owedTake {s : State} {n : Nat} {o : Owed} {half : Bool} (hn : n < 24) (ho : (port s n).owed = [o]) :
    ∀ x ∈ (port (owedTake s n o half) n).owed, x.miss &&& halfBit half = 0 := by
  unfold owedTake setOwed
  dsimp only
  rw [owed_txnSettle _ _ hn, port_setPort_same _ _ _ hn, ho, List.takeWhile_cons_of_neg (by rw [bne_self_eq_false]; decide),
    List.dropWhile_cons_of_neg (by rw [bne_self_eq_false]; decide)]
  intro x hx
  obtain ⟨hx, -⟩ := List.mem_filter.mp hx
  rw [List.mem_singleton.mp hx, BitVec.and_assoc, BitVec.not_and_self]
  exact BitVec.and_zero

/-- Owed write data leaves for its home. -/
theorem takeDat_owed {s : State} {n : Nat} {dl : Bool} {d : Dat} {o : Owed} (hn : n < 24) (hkind : d.kind = 3) (hwb : d.snpwb = false)
    (ho : owedOf s n d.txn d.half = some o) (hdrop : o.drop = false) (hap : o.ap = false) (hbe : beLegal s n d = true) :
    ((port s n).owed = [o] → ∀ x ∈ (port (takeDat s n dl d) n).owed, x.miss &&& halfBit d.half = 0) ∧
    Launched s (takeDat s n dl d) n 4 (homePacket n o.home o.dl d.prio 0 o.reqNo
      (.dat { d with dst := 0, state := 0, home := o.home, entry := 0 })) := by
  have hlegal : o.be.all (fun b => b == d.be) = true := by
    unfold beLegal at hbe
    rw [if_pos ⟨hkind, by rw [hwb]; rfl⟩, ho] at hbe
    exact hbe
  unfold takeDat
  rw [if_neg (by rw [hkind]; decide), if_neg (ne_true_of_eq_false hwb), ho]
  dsimp only
  have hbad : badData s n o d = (s, d) := if_pos (Or.inr hlegal)
  rw [hbad]
  dsimp only
  unfold sendOwed
  rw [if_neg (ne_true_of_eq_false hdrop), if_neg (ne_true_of_eq_false hap)]
  refine ⟨fun howed => ?_, launched_of_spine ((touches_owedTake _ _ _ _).spine rfl) (toHome_launched _ _ _ _ _ _ _ _)⟩
  rw [port_congr ((touches_toHome _ _ _ _ _ _ _ _).ports rfl)]
  exact owed_owedTake hn howed

theorem beLegal_spend (s : State) {n : Nat} (i : Nat) (d : Dat) (hn : n < 24) : beLegal (spend s n i) n d = beLegal s n d := by
  unfold beLegal
  rw [owedOf_spend s i _ _ hn]

/-- Settles O39: without a violation the answer, the acknowledgement or the half leaves; the credit counters go up by one. -/
theorem inboundFlitsAndCredits : Obligations.InboundFlitsAndCredits := by
  unfold Obligations.InboundFlitsAndCredits
  refine ⟨?answer, ?ack, ?data, ?credit, ?excess⟩
  case answer =>
    intro s n dl f k hdef hlive hblot hpar hcred hfence hop hstate hk hacked hsnp
    have hnat : (rspOf f).opcode.toNat = 1 := by rw [hop]; rfl
    have hkinds : rspKinds s n.val false false (rspOf f) = [] := by
      have hknown : rspKnown s n.val (rspOf f) = true := by
        unfold rspKnown
        rw [hnat]
        show (snpRec s n.val (rspOf f).home (rspOf f).entry).any _ = true
        rw [hk]
        simp only [Option.any_some, hacked, Bool.not_false, Bool.true_and, bne_iff_ne]
        exact hsnp
      unfold rspKinds
      rw [hnat, hknown]
      simp [hstate]
    have heff := rspFlitEffect_clean (dl := dl) hlive hblot hpar hcred hfence hkinds
    have hu := touches_spend s n.val (credIdx 1 dl)
    have hmark := answerMark_spend s (credIdx 1 dl) k.snp.addr n.isLt
    have hrec := (snpRec_spend s (credIdx 1 dl) (rspOf f).home (rspOf f).entry n.isLt).trans hk
    obtain ⟨u, hue⟩ : ∃ u, u = spend s n.val (credIdx 1 dl) := ⟨_, rfl⟩
    rw [← hue] at heff hu hmark hrec
    obtain ⟨htake, hleft⟩ := takeRsp_answers (dl := dl) (r := { rspOf f with prio := clampPrio s n.val (rspOf f).prio }) hop hrec
    obtain ⟨hback, hleft⟩ := creditBack_launched (i := credIdx 1 dl) (launched_of_spine (hu.spine rfl) hleft)
    obtain ⟨g, harr, hdst, hunit, hsrc, hm, -, hmsg⟩ := leftForHome_of_launched hleft
    have htouch : Touches { ports := true, spine := true } s _ :=
      (touches_owesCred _ n.val (credIdx 1 dl)).after rfl <| htake.after rfl <| hu.mono rfl
    refine completes_touched (congrArg (guarded s) (heff.trans hback)) hdef htouch rfl
      ⟨⟨g, harr, hdst, hunit, hsrc, hm.trans hmark, _, hmsg, hop, rfl, rfl, rfl⟩, htouch.regs rfl,
        keepsMemory_of_touches htouch rfl rfl rfl⟩
  case ack =>
    intro s n dl f a hdef hlive hblot hpar hcred hfence hop hacks hhome hentry
    have hnat : (rspOf f).opcode.toNat = 3 := by rw [hop]; rfl
    have hkinds : rspKinds s n.val false false (rspOf f) = [] := by
      have hknown : rspKnown s n.val (rspOf f) = true := by
        unfold rspKnown
        rw [hnat]
        show (port s n.val).acks.any _ = true
        rw [hacks]
        simp [hhome, hentry]
      unfold rspKinds
      rw [hnat, hknown]
      simp
    have heff := rspFlitEffect_clean (dl := dl) hlive hblot hpar hcred hfence hkinds
    have hu := touches_spend s n.val (credIdx 1 dl)
    have hport := port_spend s (credIdx 1 dl) n.isLt
    obtain ⟨u, hue⟩ : ∃ u, u = spend s n.val (credIdx 1 dl) := ⟨_, rfl⟩
    rw [← hue] at heff hu hport
    obtain ⟨r, hr⟩ : ∃ r, r = { rspOf f with prio := clampPrio s n.val (rspOf f).prio } := ⟨_, rfl⟩
    rw [← hr] at heff
    obtain ⟨hgone, hleft⟩ := takeRsp_grantAck (dl := dl) (r := r) (a := a) n.isLt (by rw [hr]; exact hop) (by rw [hport]; exact hacks)
      (by rw [hr]; exact hhome) (by rw [hr]; exact hentry)
    have hrhome : r.home = a.home := by rw [hr, hhome]
    have hrentry : r.entry = a.entry := by rw [hr, hentry]
    have hrop : r.opcode = 3 := by rw [hr]; exact hop
    obtain ⟨hback, hleft⟩ := creditBack_launched (i := credIdx 1 dl) (launched_of_spine (hu.spine rfl) hleft)
    obtain ⟨g, harr, hdst, hunit, -, -, -, hmsg⟩ := leftForHome_of_launched hleft
    have htake := touches_takeRsp u n.val dl r
    have htouch : Touches { regs := true, ports := true, spine := true, obs := true, free := true } s _ :=
      (touches_owesCred _ n.val (credIdx 1 dl)).after rfl <| htake.after rfl <| hu.mono rfl
    refine completes_touched (congrArg (guarded s) (heff.trans hback)) hdef htouch rfl
      ⟨?_, ⟨g, ?_, hrhome ▸ hdst, hunit, _, hmsg, hrop, hrentry⟩, keepsMemory_of_touches htouch rfl rfl rfl⟩
    · rw [port_congr ((touches_owesCred _ _ _).ports rfl)]
      exact hgone
    · rw [harr]
      exact List.mem_append_right _ List.mem_cons_self
  case data =>
    intro s n dl f o hdef hlive hblot hpar hcred hfence hkind hwb ho hdrop hap hbe
    have howed := (owedOf_spend s (credIdx 2 dl) (datOf f).txn (datOf f).half n.isLt).trans ho
    have hlegal := (beLegal_spend s (credIdx 2 dl) (datOf f) n.isLt).trans hbe
    have heff := datFlitEffect_clean (dl := dl) hlive hblot hpar hcred hfence (datKinds_owed hkind hwb howed hlegal)
    have hu := touches_spend s n.val (credIdx 2 dl)
    have hport := port_spend s (credIdx 2 dl) n.isLt
    obtain ⟨u, hue⟩ : ∃ u, u = spend s n.val (credIdx 2 dl) := ⟨_, rfl⟩
    rw [← hue] at heff hu hport howed hlegal
    obtain ⟨hgone, hleft⟩ := takeDat_owed (dl := dl) (d := { datOf f with prio := clampPrio s n.val (datOf f).prio }) n.isLt
      hkind hwb howed hdrop hap hlegal
    obtain ⟨hback, hleft⟩ := creditBack_launched (i := credIdx 2 dl) (launched_of_spine (hu.spine rfl) hleft)
    obtain ⟨g, harr, hdst, hunit, -, -, hno, hmsg⟩ := leftForHome_of_launched hleft
    have htake := touches_takeDat u n.val dl { datOf f with prio := clampPrio s n.val (datOf f).prio }
    have htouch : Touches { regs := true, ports := true, spine := true, obs := true, free := true } s _ :=
      (touches_owesCred _ n.val (credIdx 2 dl)).after rfl <| htake.after rfl <| hu.mono rfl
    refine completes_touched (congrArg (guarded s) (heff.trans hback)) hdef htouch rfl
      ⟨⟨g, ?_, hdst, hunit, hno, _, hmsg, rfl, rfl, rfl, rfl, rfl⟩, fun hone => ?_, keepsMemory_of_touches htouch rfl rfl rfl⟩
    · rw [harr]
      exact List.mem_append_right _ List.mem_cons_self
    · rw [port_congr ((touches_owesCred _ _ _).ports rfl)]
      exact hgone (by rw [hport]; exact hone)
  case credit =>
    intro s n ch dl hdef hlive hfew
    obtain ⟨g, hg⟩ : ∃ g, g = vecSet (port s n.val).granted (credIdx ch.val dl)
      (min 63 (vecGet (port s n.val).granted (credIdx ch.val dl) + 1)) := ⟨_, rfl⟩
    have hset := touches_setPort s n.val { port s n.val with granted := g } (fun h => by exact h)
    have hport := port_setPort_same s n.val { port s n.val with granted := g } n.isLt
    obtain ⟨u, hu⟩ : ∃ u, u = setPort s n.val { port s n.val with granted := g } := ⟨_, rfl⟩
    rw [← hu] at hset hport
    obtain ⟨c, hc⟩ : ∃ c, c = vecSet (port s n.val).outCred (credIdx ch.val dl) (vecGet (port s n.val).outCred (credIdx ch.val dl) + 1) :=
      ⟨_, rfl⟩
    have heff : creditReturnEffect s n.val ch.val dl = setPort u n.val { port s n.val with granted := g, outCred := c } := by
      unfold creditReturnEffect
      rw [if_neg (by rw [hlive]; decide)]
      dsimp only
      rw [← hg, ← hu, if_neg (by rw [hport]; exact Nat.not_le_of_lt hfew), hport, ← hc]
    have hkeep : (port u n.val).fenced = true → (port s n.val).fenced = true := fun h => by rwa [hport] at h
    have htouch := (touches_setPort u n.val { port s n.val with granted := g, outCred := c } (fun h => by exact hkeep h)).comp hset
    refine completes_touched (congrArg (guarded s) heff) hdef htouch rfl ?_
    rw [port_setPort_same _ _ _ n.isLt]
    exact ⟨hc ▸ vecGet_vecSet_same _ _ (credIdx_lt ch dl), fun i hi => hc ▸ vecGet_vecSet_ne _ _ hi, rfl, htouch.regs rfl, htouch.spine rfl,
      keepsMemory_of_touches htouch rfl rfl rfl⟩
  case excess =>
    intro s n ch dl hdef hlive hmany
    refine (guarded_defined _ hdef).trans (congrArg (resume s) ?_)
    unfold creditReturnEffect
    rw [if_neg (by rw [hlive]; decide)]
    dsimp only
    exact if_pos (by rw [port_setPort_same _ _ _ n.isLt]; exact hmany)

end Sys2Proof.Proofs
end

section
/-! PROOF. Egress of a port and the return arbiters (O40). -/

namespace Sys2Proof.Proofs

open Sys2Proof.Machine Sys2Proof.Safety Sys2Proof.Laws

-- the order of R318

theorem foldl_max_spec {α : Type} (f : α → Nat) : ∀ (l : List α) (b : Nat),
    b ≤ l.foldl (fun b e => max b (f e)) b ∧ (∀ x ∈ l, f x ≤ l.foldl (fun b e => max b (f e)) b) ∧
    (l.foldl (fun b e => max b (f e)) b = b ∨ ∃ x ∈ l, f x = l.foldl (fun b e => max b (f e)) b)
  | [], b => ⟨Nat.le_refl b, fun _ h => absurd h List.not_mem_nil, .inl rfl⟩
  | a :: l, b => by
    obtain ⟨hge, hall, hmax⟩ := foldl_max_spec f l (max b (f a))
    rw [List.foldl_cons]
    refine ⟨le_trans (Nat.le_max_left _ _) hge, fun x hx => ?_, ?_⟩
    · rcases List.mem_cons.mp hx with rfl | hx
      · exact le_trans (Nat.le_max_right _ _) hge
      · exact hall x hx
    · rcases hmax with hmax | ⟨x, hx, hmax⟩
      · rcases Nat.le_total (f a) b with hle | hle
        · exact .inl (by rw [hmax, Nat.max_eq_left hle])
        · exact .inr ⟨a, List.mem_cons_self, by rw [hmax, Nat.max_eq_right hle]⟩
      · exact .inr ⟨x, List.mem_cons_of_mem a hx, hmax⟩

/-- The rank of a line: Deadline before the rest, then its priority. -/
def lineRank (e : Nat × Bool × Nat) : Nat := 4 * b2n e.2.1 + e.2.2

/-- The lines of the highest rank. -/
def topLines (l : List (Nat × Bool × Nat)) : List (Nat × Bool × Nat) :=
  l.filter (fun e => lineRank e == l.foldl (fun b e => max b (lineRank e)) 0)

theorem mem_topLines {l : List (Nat × Bool × Nat)} {e : Nat × Bool × Nat} (h : e ∈ topLines l) :
    e ∈ l ∧ ∀ x ∈ l, lineRank x ≤ lineRank e := by
  obtain ⟨hmem, hrank⟩ := List.mem_filter.mp h
  rw [beq_iff_eq] at hrank
  exact ⟨hmem, fun x hx => hrank ▸ (foldl_max_spec lineRank l 0).2.1 x hx⟩

theorem mem_topLines_of_same {l : List (Nat × Bool × Nat)} {e x : Nat × Bool × Nat} (he : e ∈ topLines l) (hx : x ∈ l) (h : x.2 = e.2) :
    x ∈ topLines l := by
  obtain ⟨-, hrank⟩ := List.mem_filter.mp he
  have hsame : lineRank x = lineRank e := by rw [lineRank, lineRank, h]
  exact List.mem_filter.mpr ⟨hx, by rw [hsame]; exact hrank⟩

theorem topLines_ne_nil {l : List (Nat × Bool × Nat)} (h : l ≠ []) : topLines l ≠ [] := by
  have hex : ∃ x, x ∈ topLines l := by
    rcases (foldl_max_spec lineRank l 0).2.2 with hmax | ⟨x, hx, hmax⟩
    · obtain ⟨x, l', rfl⟩ := List.exists_cons_of_ne_nil h
      have hle := (foldl_max_spec lineRank (x :: l') 0).2.1 x List.mem_cons_self
      exact ⟨x, List.mem_filter.mpr ⟨List.mem_cons_self, by rw [hmax] at hle ⊢; simpa using hle⟩⟩
    · exact ⟨x, List.mem_filter.mpr ⟨hx, by rw [hmax]; exact beq_self_eq_true _⟩⟩
  obtain ⟨x, hx⟩ := hex
  exact List.ne_nil_of_mem hx

/-- The choice is the first of the highest rank behind the last one granted, or the first of all of them. -/
theorem arbPick_cases (last : Nat) {l : List (Nat × Bool × Nat)} (h : l ≠ []) : ∃ e, e ∈ topLines l ∧ arbPick last l = some e.1 ∧
    ((topLines l).find? (fun e => decide (last < e.1)) = some e ∨
      (topLines l).find? (fun e => decide (last < e.1)) = none ∧ (topLines l).head? = some e) := by
  have hpick : arbPick last l = match (topLines l).find? (fun e => decide (last < e.1)) with
      | some e => some e.1
      | none => (topLines l).head?.map (·.1) := rfl
  rw [hpick]
  cases hfind : (topLines l).find? (fun e => decide (last < e.1)) with
  | some e => exact ⟨e, List.mem_of_find?_eq_some hfind, rfl, .inl rfl⟩
  | none =>
    obtain ⟨e, tl, htop⟩ := List.exists_cons_of_ne_nil (topLines_ne_nil h)
    exact ⟨e, htop ▸ List.mem_cons_self, by rw [htop]; rfl, .inr ⟨rfl, by rw [htop]; rfl⟩⟩

theorem arbPick_order (last : Nat) {l : List (Nat × Bool × Nat)} (hsorted : l.Pairwise (fun a b => a.1 < b.1))
    (hprio : ∀ x ∈ l, x.2.2 < 4) (h : l ≠ []) : ∃ e, e ∈ l ∧ arbPick last l = some e.1 ∧ (∀ x ∈ l, x.2.1 = true → e.2.1 = true) ∧
      (∀ x ∈ l, x.2.1 = e.2.1 → x.2.2 ≤ e.2.2) ∧
      (∀ x ∈ l, x.2 = e.2 → (last < e.1 → last < x.1 → e.1 ≤ x.1) ∧ (¬ last < e.1 → x.1 ≤ last ∧ e.1 ≤ x.1)) := by
  obtain ⟨e, htop, hpick, hwhich⟩ := arbPick_cases last h
  obtain ⟨hmem, hrank⟩ := mem_topLines htop
  have hsortedTop : (topLines l).Pairwise (fun a b => a.1 < b.1) := hsorted.filter _
  refine ⟨e, hmem, hpick, fun x hx hdl => ?_, fun x hx hdl => ?_, fun x hx hsame => ?_⟩
  · have hle := hrank x hx
    have := hprio e hmem
    by_contra hne
    rw [lineRank, lineRank, hdl, Bool.eq_false_iff.mpr hne] at hle
    simp only [b2n, if_true, Bool.false_eq_true, if_false] at hle
    omega
  · have hle := hrank x hx
    rw [lineRank, lineRank, hdl] at hle
    omega
  · have hxtop := mem_topLines_of_same htop hx hsame
    rcases hwhich with hfind | ⟨hnone, hhead⟩
    · obtain ⟨hlt, as, bs, hsplit, hbefore⟩ := List.find?_eq_some_iff_append.mp hfind
      rw [decide_eq_true_eq] at hlt
      refine ⟨fun _ hxlt => ?_, fun hnlt => absurd hlt hnlt⟩
      rw [hsplit] at hxtop hsortedTop
      rcases List.mem_append.mp hxtop with hin | hin
      · have hno := hbefore x hin
        rw [decide_eq_true hxlt] at hno
        cases hno
      · rcases List.mem_cons.mp hin with rfl | hin
        · exact Nat.le_refl _
        · exact Nat.le_of_lt ((List.pairwise_cons.mp (List.pairwise_append.mp hsortedTop).2.1).1 x hin)
    · have hno : ∀ y ∈ topLines l, ¬ last < y.1 := fun y hy hlt => List.find?_eq_none.mp hnone y hy (decide_eq_true hlt)
      refine ⟨fun hlt => absurd hlt (hno e htop), fun _ => ⟨Nat.le_of_not_lt (hno x hxtop), ?_⟩⟩
      obtain ⟨tl, hcons⟩ : ∃ tl, topLines l = e :: tl := List.head?_eq_some_iff.mp hhead
      rw [hcons] at hxtop hsortedTop
      rcases List.mem_cons.mp hxtop with rfl | hin
      · exact Nat.le_refl _
      · exact Nat.le_of_lt ((List.pairwise_cons.mp hsortedTop).1 x hin)

-- what leaves a port

theorem notBusy_snoop {s : State} {n : Nat} {e : EgMsg} (h : (outChan e.msg == 0) = true) : notBusy s n e = false := by
  unfold notBusy staleFwd
  cases hm : e.msg with
  | dat d =>
    rw [hm] at h
    cases h
  | _ =>
    rw [hm] at h
    dsimp only
    split <;> simp_all

theorem mem_waitingOn {s : State} {n ch : Nat} {dl : Bool} {e : EgMsg} (h : e ∈ waitingOn s n ch dl) :
    (outChan e.msg == ch) = true ∧ e.dl = dl := by
  obtain ⟨-, h⟩ := List.mem_filter.mp h
  rw [Bool.and_eq_true, beq_iff_eq (b := dl)] at h
  exact h

theorem port_egDrop (s : State) {n : Nat} (id : Nat) (hn : n < 24) :
    (port (egDrop s n id) n).egress = (port s n).egress.filter (fun x => x.id != id) ∧ (port (egDrop s n id) n).txns = (port s n).txns ∧
    (port (egDrop s n id) n).outCred = (port s n).outCred ∧ (port (egDrop s n id) n).lastOut = (port s n).lastOut := by
  unfold egDrop
  dsimp only
  rw [port_setPort_same _ _ _ hn]
  exact ⟨rfl, rfl, rfl, rfl⟩

theorem port_setEgDue (s : State) {n : Nat} (ch : Nat) (dl : Bool) (hn : n < 24) :
    (port (setEgDue s n ch dl) n).egress = (port s n).egress ∧ (port (setEgDue s n ch dl) n).outCred = (port s n).outCred ∧
    (port (setEgDue s n ch dl) n).lastOut = (port s n).lastOut := by
  unfold setEgDue
  dsimp only
  rw [port_setPort_same _ _ _ hn]
  exact ⟨rfl, rfl, rfl⟩

/-- A snoop that is presented can be answered from then on. -/
theorem presentSnp_accepts (s : State) {n : Nat} (m : Snp) (dl : Bool) (hn : n < 24) :
    (∃ k, snpRec (presentSnp s n m dl) n m.home m.entry = some k ∧ k.snp = m ∧ k.acked = false ∧ k.fw = (if m.fwd then 3 else 0)) ∧
    (port (presentSnp s n m dl) n).egress = (port s n).egress ∧ (port (presentSnp s n m dl) n).outCred = (port s n).outCred ∧
    (port (presentSnp s n m dl) n).lastOut = (port s n).lastOut := by
  unfold presentSnp snpRec
  dsimp only
  rw [port_setPort_same _ _ _ hn]
  refine ⟨⟨⟨m.home, m.entry, m, dl, false, if m.opcode = 8 then 0 else 3, if m.fwd then 3 else 0⟩, ?_, rfl, rfl, rfl⟩, rfl, rfl, rfl⟩
  dsimp only
  rw [List.find?_append, List.find?_eq_none.mpr, Option.none_or,
    List.find?_cons_of_pos (by rw [beq_self_eq_true, beq_self_eq_true]; rfl)]
  intro x hx hsame
  obtain ⟨-, hother⟩ := List.mem_filter.mp hx
  rw [hsame] at hother
  cases hother

/-- The credit is taken and the flit is on the pins. -/
def driveSnp (s : State) (n : Nat) (m : Snp) (dl second : Bool) : State :=
  setPort s n { port s n with
    outCred := vecSet (port s n).outCred (credIdx 0 dl) (vecGet (port s n).outCred (credIdx 0 dl) - 1),
    lastOut := (port s n).lastOut.set 0 (flitOf (.snp m) second) }

theorem presentMsg_snoop {s : State} {n : Nat} {dl : Bool} {e : EgMsg} {m : Snp} (hm : e.msg = .snp m) (hdl : e.dl = dl) :
    presentMsg s n e = presentSnp (egDrop (setEgDue (driveSnp s n m dl (e.flit != 0)) n 0 dl) n e.id) n m dl := by
  unfold presentMsg
  rw [hm, hdl]
  exact congrArg (fun u => presentSnp u n m dl) (if_neg (by simp [asPresented, msgFlits]))

theorem egressEffect_snoop {s : State} {n : PortId} {dl : Bool} {e : EgMsg} {l : List EgMsg} {m : Snp} (hlive : portLive s n.val = true)
    (hl : waitingOn s n.val 0 dl = e :: l) (hm : e.msg = .snp m) (hcred : vecGet (port s n.val).outCred (credIdx 0 dl) ≠ 0) :
    egressEffect s n.val 0 dl = presentSnp (egDrop (setEgDue (driveSnp s n.val m dl (e.flit != 0)) n.val 0 dl) n.val e.id) n.val m dl := by
  have hnone : (waitingOn s n.val 0 dl).find? (notBusy s n.val) = none :=
    List.find?_eq_none.mpr fun x hx => ne_true_of_eq_false (notBusy_snoop (mem_waitingOn hx).1)
  have hnext : nextOut s n.val 0 dl = some e := by
    unfold nextOut
    dsimp only
    rw [hl]
    rfl
  unfold egressEffect
  rw [if_neg (by rw [hlive]; decide), hnone]
  dsimp only
  rw [hnext]
  dsimp only
  rw [if_neg hcred]
  exact presentMsg_snoop hm (mem_waitingOn (hl ▸ List.mem_cons_self)).2

theorem touches_snoopOut (s : State) (n : Nat) (m : Snp) (dl second : Bool) (id : Nat) :
    Touches { ports := true } s (presentSnp (egDrop (setEgDue (driveSnp s n m dl second) n 0 dl) n id) n m dl) :=
  (touches_presentSnp _ _ _ _).after rfl <| (touches_egDrop _ _ _).after rfl <| (touches_setEgDue _ _ _ _).after rfl <|
    touches_setPort s n _ (fun h => by exact h)

-- the arbiters

theorem portArbiter_free {s : State} {n : Nat} (hn : n < 24) (hen : getBit s (dlBase n + 4) 8 = false)
    (hfree : (port s n).arb.holder = none) : Touches { regs := true, ports := true } s (portArbiter s n) ∧
    (port (portArbiter s n) n).arb.holder = arbPick (port s n).arb.last
      (((port s n).egress.filter (fun e => outChan e.msg == 2)).map (fun e => (e.id, e.dl, e.prio.toNat))) := by
  refine ⟨touches_portArbiter s n, ?_⟩
  obtain ⟨lines, hlines⟩ : ∃ l, l = (port s n).egress.filter (fun e => outChan e.msg == 2) := ⟨_, rfl⟩
  have hnone : lines.find? (fun e => (port s n).arb.holder == some e.id) = none :=
    List.find?_eq_none.mpr fun x _ => by rw [hfree]; exact ne_true_of_eq_false rfl
  unfold portArbiter
  dsimp only
  rw [if_neg (ne_true_of_eq_false hen), ← hlines, hnone]
  simp only [Option.isSome_none, Bool.false_and, Bool.false_eq_true, if_false]
  cases hpick : arbPick (port s n).arb.last (lines.map (fun e => (e.id, e.dl, e.prio.toNat))) with
  | none =>
    dsimp only
    rw [port_setPort_same _ _ _ hn]
  | some id =>
    dsimp only
    rw [port_setPort_same _ _ _ hn]

theorem portArbiter_held {s : State} {n : Nat} {e : EgMsg} (hmem : e ∈ (port s n).egress) (hout : outChan e.msg = 2)
    (hheld : (port s n).arb.holder = some e.id) (hdl : ∀ x ∈ (port s n).egress, x.dl = false) : portArbiter s n = s := by
  obtain ⟨lines, hlines⟩ : ∃ l, l = (port s n).egress.filter (fun e => outChan e.msg == 2) := ⟨_, rfl⟩
  have hsome : (lines.find? (fun e => (port s n).arb.holder == some e.id)).isSome = true :=
    List.find?_isSome.mpr ⟨e, by rw [hlines]; exact List.mem_filter.mpr ⟨hmem, beq_iff_eq.mpr hout⟩, by rw [hheld]; exact beq_self_eq_true _⟩
  have hno : lines.any (·.dl) = false :=
    List.any_eq_false.mpr fun x hx => ne_true_of_eq_false (hdl x (List.mem_filter.mp (hlines ▸ hx)).1)
  unfold portArbiter
  dsimp only
  split
  · rfl
  · rw [← hlines, hno, Bool.and_false, hsome]
    rfl

theorem chanArbiter_free {s : State} {c : Nat} (hc : c < 16) (hjoined : pairJoined s (c / 4) = true)
    (hen : getBit s (mcBase c + 0x94) 8 = false) (hfree : (chan s c).arb.holder = none) :
    (chan (chanArbiter s c) c).arb.holder = arbPick (chan s c).arb.last
      (((chan s c).rdq.filter (·.issued)).map (fun r => (r.id, r.dl, r.prio.toNat))) ∧
    (chan (chanArbiter s c) c).rdq = (chan s c).rdq := by
  obtain ⟨lines, hlines⟩ : ∃ l, l = (chan s c).rdq.filter (·.issued) := ⟨_, rfl⟩
  have hnone : lines.find? (fun r => (chan s c).arb.holder == some r.id) = none :=
    List.find?_eq_none.mpr fun x _ => by rw [hfree]; exact ne_true_of_eq_false rfl
  unfold chanArbiter
  dsimp only
  rw [if_neg (by rw [chanArbited, hjoined, hen]; decide), ← hlines, hnone]
  simp only [Option.isSome_none, Bool.false_and, Bool.false_eq_true, if_false]
  cases hpick : arbPick (chan s c).arb.last (lines.map (fun r => (r.id, r.dl, r.prio.toNat))) with
  | none =>
    dsimp only
    rw [chan_setChan_same _ _ _ hc]
    exact ⟨rfl, rfl⟩
  | some id =>
    dsimp only
    rw [chan_setChan_same _ _ _ hc]
    exact ⟨rfl, rfl⟩

/-- Settles O40: the branches of what leaves and of the arbiters, and the order among the lines that wait. -/
theorem egressAndArbiters : Obligations.EgressAndArbiters := by
  unfold Obligations.EgressAndArbiters
  refine ⟨?poor, ?discarded, ?snoop, ?free, ?held, ?channel, fun _ => rfl, fun last l hsorted hprio h => arbPick_order last hsorted hprio h⟩
  case poor =>
    intro s n ch dl hdef hnone hcred
    refine (congrArg (guarded s) ?_).trans (guarded_same hdef)
    unfold egressEffect
    split
    · rfl
    · rw [hnone]
      cases nextOut s n.val ch.val dl with
      | none => rfl
      | some e => rfl
  case discarded =>
    intro s n ch dl e hdef hlive hfind
    have heff : egressEffect s n.val ch.val dl = egDrop s n.val e.id := by
      unfold egressEffect
      rw [if_neg (by rw [hlive]; decide), hfind]
    have htouch := touches_egDrop s n.val e.id
    obtain ⟨hegress, htxns, hcred, -⟩ := port_egDrop s e.id n.isLt
    exact completes_touched (congrArg (guarded s) heff) hdef htouch rfl
      ⟨hegress, htxns, hcred, htouch.regs rfl, htouch.spine rfl, keepsMemory_of_touches htouch rfl rfl rfl⟩
  case snoop =>
    intro s n dl e l m hdef hlive hl hm hcred
    have htouch := touches_snoopOut s n.val m dl (e.flit != 0) e.id
    have hport := port_setPort_same s n.val { port s n.val with
      outCred := vecSet (port s n.val).outCred (credIdx 0 dl) (vecGet (port s n.val).outCred (credIdx 0 dl) - 1),
      lastOut := (port s n.val).lastOut.set 0 (flitOf (.snp m) (e.flit != 0)) } n.isLt
    refine completes_touched (congrArg (guarded s) (egressEffect_snoop hlive hl hm hcred)) hdef htouch rfl ?_
    obtain ⟨u, hu⟩ : ∃ u, u = driveSnp s n.val m dl (e.flit != 0) := ⟨_, rfl⟩
    have hdrive : port u n.val = _ := (congrArg (port · n.val) hu).trans hport
    rw [← hu] at htouch ⊢
    obtain ⟨hegDue, hcredDue, houtDue⟩ := port_setEgDue u 0 dl n.isLt
    obtain ⟨v, hv⟩ : ∃ v, v = setEgDue u n.val 0 dl := ⟨_, rfl⟩
    rw [← hv] at hegDue hcredDue houtDue htouch ⊢
    obtain ⟨hegDrop, -, hcredDrop, houtDrop⟩ := port_egDrop v e.id n.isLt
    obtain ⟨w, hw⟩ : ∃ w, w = egDrop v n.val e.id := ⟨_, rfl⟩
    rw [← hw] at hegDrop hcredDrop houtDrop htouch ⊢
    obtain ⟨hrec, hegress, hout, hlast⟩ := presentSnp_accepts w m dl n.isLt
    refine ⟨?_, ?_, hrec, ?_, htouch.regs rfl, htouch.spine rfl, keepsMemory_of_touches htouch rfl rfl rfl⟩
    · rw [hout, hcredDrop, hcredDue, hdrive]
      exact vecGet_vecSet_same _ _ (credIdx_lt 0 dl)
    · rw [hegress, hegDrop, hegDue, hdrive]
    · rw [hlast, houtDrop, houtDue, hdrive]
      exact Vector.getElem_set_self _
  case free =>
    intro s n hdef hlive hen hfree
    obtain ⟨htouch, hpick⟩ := portArbiter_free n.isLt hen hfree
    exact completes_touched (congrArg (guarded s) (if_pos hlive)) hdef htouch rfl ⟨hpick, keepsMemory_of_touches htouch rfl rfl rfl⟩
  case held =>
    intro s n e hdef hlive hmem hout hheld hdl
    exact (congrArg (guarded s) ((if_pos hlive).trans (portArbiter_held hmem hout hheld hdl))).trans (guarded_same hdef)
  case channel =>
    rintro s c ⟨hdef, hrun⟩ hjoined hen hfree
    obtain ⟨hpick, hrdq⟩ := chanArbiter_free c.isLt hjoined hen hfree
    have htouch := touches_chanArbiter s c.val
    exact completes_touched (congrArg (guarded s) (if_pos hrun)) hdef htouch rfl
      ⟨hpick, hrdq, htouch.regs rfl, htouch.slices rfl, htouch.ports rfl⟩

end Sys2Proof.Proofs
end

section
/-! PROOF. The port watchdog (O41). -/

namespace Sys2Proof.Proofs

open Sys2Proof.Machine Sys2Proof.Safety Sys2Proof.Laws

variable {s : State} {n : PortId}

theorem touches_biteInfo_snd (s : State) (bit : Nat) (txn : BitVec 8) (dl : Bool) : Touches { free := true } s (biteInfo s bit txn dl).2 :=
  touches_takeFree s

theorem wdogFences_biteInfo (s : State) (n bit : Nat) (txn : BitVec 8) (dl : Bool) :
    wdogFences (biteInfo s bit txn dl).2 n = wdogFences s n :=
  getBit_congr ((touches_biteInfo_snd s bit txn dl).regs rfl) _ _

theorem wdogEgressEffect_bites {ch : Nat} {dl : Bool} {e : EgMsg} {l : List EgMsg} (hon : wdogOn s n.val = true)
    (hlive : portLive s n.val = true) (hl : waitingOn s n.val ch dl = e :: l) (hnone : (port s n.val).egDue = [])
    (hdue : e.since + wdogTicks s n.val ≤ s.tick) : wdogEgressEffect s n.val ch dl =
      wdogBite (setEgDue s n.val ch dl) n.val 12 (portInfo 12 (3 + ch) (outOpcode e.msg) (msgTxn e.msg).toNat dl) := by
  unfold wdogEgressEffect
  rw [hl, hnone]
  exact if_pos ⟨hon, hlive, by rw [List.find?_nil, Option.elim_none, Nat.max_zero]; exact hdue⟩

theorem wdogDataEffect_supplies {x : BitVec 8} {o : Owed} (hon : wdogOn s n.val = true) (hlive : portLive s n.val = true)
    (ho : (port s n.val).owed.find? (fun o => o.txn == x && decide (o.due ≤ s.tick)) = some o) (hact : wdogFences s n.val = false) :
    wdogDataEffect s n.val x =
      supplyHalf o (supplyHalf o (setOwed (wdogBite (biteInfo s 13 x o.dl).2 n.val 13 (biteInfo s 13 x o.dl).1) n.val o
        { o with miss := 0 }) n.val false) n.val true := by
  have hfences := (wdogFences_biteInfo s n.val 13 x o.dl).trans hact
  unfold wdogDataEffect
  rw [ho]
  dsimp only
  rw [if_pos ⟨hon, hlive⟩, if_neg (ne_true_of_eq_false hfences)]

theorem acks_find {h : BitVec 3} {i : BitVec 8} {a : AckOwed} (hacks : (port s n.val).acks = [a]) (hh : a.home = h) (hi : a.entry = i)
    (hdue : a.due ≤ s.tick) : (port s n.val).acks.find? (fun a => a.home == h && a.entry == i && decide (a.due ≤ s.tick)) = some a := by
  rw [hacks]
  exact List.find?_cons_of_pos (by rw [hh, hi, beq_self_eq_true, beq_self_eq_true, decide_eq_true hdue]; rfl)

theorem wdogAckEffect_fences {h : BitVec 3} {i : BitVec 8} {a : AckOwed} (hon : wdogOn s n.val = true) (hlive : portLive s n.val = true)
    (hfind : (port s n.val).acks.find? (fun a => a.home == h && a.entry == i && decide (a.due ≤ s.tick)) = some a)
    (hended : (port s n.val).txns.any (fun t => t.comp == some (h, i)) = false) (hact : wdogFences s n.val = true) :
    wdogAckEffect s n.val h i = wdogBite (biteInfo s 14 a.txn a.dl).2 n.val 14 (biteInfo s 14 a.txn a.dl).1 := by
  have hfences := (wdogFences_biteInfo s n.val 14 a.txn a.dl).trans hact
  unfold wdogAckEffect
  dsimp only
  rw [hfind]
  dsimp only
  rw [if_pos ⟨hon, hlive, by rw [hended]; rfl⟩, if_pos hfences]

theorem wdogAckEffect_sends {h : BitVec 3} {i : BitVec 8} {a : AckOwed} (hon : wdogOn s n.val = true) (hlive : portLive s n.val = true)
    (hfind : (port s n.val).acks.find? (fun a => a.home == h && a.entry == i && decide (a.due ≤ s.tick)) = some a)
    (hended : (port s n.val).txns.any (fun t => t.comp == some (h, i)) = false) (hact : wdogFences s n.val = false) {u : State}
    (hu : u = wdogBite (biteInfo s 14 a.txn a.dl).2 n.val 14 (biteInfo s 14 a.txn a.dl).1) :
    wdogAckEffect s n.val h i = toHome (ackSample (setPort u n.val { port u n.val with
      acks := dropFirst (fun x => x == a) (port u n.val).acks }) n.val a false) n.val h a.dl a.prio 0 0 (ackMsg a) := by
  have hfences := (wdogFences_biteInfo s n.val 14 a.txn a.dl).trans hact
  unfold wdogAckEffect
  dsimp only
  rw [hfind]
  dsimp only
  rw [if_pos ⟨hon, hlive, by rw [hended]; rfl⟩, if_neg (ne_true_of_eq_false hfences), hu]

theorem wdogCreditEffect_returns {x : BitVec 8} {t : Txn} (hon : wdogOn s n.val = true) (hlive : portLive s n.val = true)
    (ht : txnOf s n.val x = some t) (hgrant : t.grant.isSome = true) (hdue : t.grantDue ≤ s.tick) (hact : wdogFences s n.val = false) :
    wdogCreditEffect s n.val x = returnCredit (setTxn (wdogBite (biteInfo s 15 x t.dl).2 n.val 15 (biteInfo s 15 x t.dl).1)
      n.val { t with grant := none }) n.val x := by
  have hfences := (wdogFences_biteInfo s n.val 15 x t.dl).trans hact
  have hfilter : (some t).filter (fun t => t.grant.isSome && decide (t.grantDue ≤ s.tick)) = some t :=
    Option.filter_some_pos (by rw [hgrant, decide_eq_true hdue]; rfl)
  unfold wdogCreditEffect
  rw [ht, hfilter]
  dsimp only
  rw [if_pos ⟨hon, hlive⟩, if_neg (ne_true_of_eq_false hfences)]

/-- Without EN no watchdog does anything. -/
theorem wdog_off (hoff : wdogOn s n.val = false) (ch : Nat) (dl : Bool) (x i : BitVec 8) (h : BitVec 3) :
    wdogEgressEffect s n.val ch dl = s ∧ wdogDataEffect s n.val x = s ∧ wdogAckEffect s n.val h i = s ∧ wdogCreditEffect s n.val x = s := by
  have hne := ne_true_of_eq_false hoff
  refine ⟨?_, ?_, ?_, ?_⟩
  · unfold wdogEgressEffect
    split
    · exact if_neg fun h => hne h.1
    · rfl
  · unfold wdogDataEffect
    split
    · exact if_neg fun h => hne h.1
    · rfl
  · unfold wdogAckEffect
    dsimp only
    split
    · exact if_neg fun h => hne h.1
    · rfl
  · unfold wdogCreditEffect
    split
    · exact if_neg fun h => hne h.1
    · rfl

/-- A port that caches ends with the death of its agent, any other with the fence alone. -/
theorem fencePort_fences (s : State) {n : Nat} (hn : n < 24) (hdead : agentDead s n = true → (port s n).fenced = true) :
    (port (fencePort s n) n).fenced = true := by
  unfold fencePort
  split
  · assumption
  · split
    · next hopen _ =>
      unfold agentDeath
      rw [if_neg fun h => hopen (hdead h)]
      have hrest : Touches (reaction.plus { dram := true, free := true }) (fenceOnly s n)
          (report (forEach 8 (startReclaim (fenceOnly s n) n) (resolveSlice n)) 24 5) :=
        (touches_report _ _ _).after rfl <|
          (Touches.forEach (fun u k => (touches_resolveSlice n u k).mono rfl) 8 _).comp ((touches_startReclaim _ _).mono rfl)
      exact hrest.fences rfl n (fenceOnly_fences s hn)
    · exact fenceOnly_fences s hn

/-- Settles O41: the branches of the four watchdogs, and the two actions of a bite. -/
theorem watchdogBites : Obligations.WatchdogBites := by
  unfold Obligations.WatchdogBites
  refine ⟨?egress, ?data, ?ackFence, ?ack, ?credit, ?off, fun s n bit info h => if_neg (ne_true_of_eq_false h), ?fence,
    fun s n bit info _ hbit => getBit_raiseErr s info hbit (by omega)⟩
  case egress =>
    intro s n ch dl e l hdef hon hlive hl hnone hdue
    exact (guarded_defined _ hdef).trans (congrArg (resume s) (wdogEgressEffect_bites hon hlive hl hnone hdue))
  case data =>
    intro s n x o hdef hon hlive ho hact
    exact (guarded_defined _ hdef).trans (congrArg (resume s) (wdogDataEffect_supplies hon hlive ho hact))
  case ackFence =>
    intro s n h i a hdef hon hlive hacks hh hi hdue hended hact
    exact (guarded_defined _ hdef).trans (congrArg (resume s) (wdogAckEffect_fences hon hlive (acks_find hacks hh hi hdue)
      (by rw [hended]; rfl) hact))
  case ack =>
    intro s n h i a hdef hon hlive hacks hh hi hdue hended hact
    exact (guarded_defined _ hdef).trans (congrArg (resume s) (wdogAckEffect_sends hon hlive (acks_find hacks hh hi hdue)
      (List.any_eq_false.mpr fun t ht => by rw [beq_iff_eq]; exact hended t ht) hact rfl))
  case credit =>
    intro s n x t hdef hon hlive ht hgrant hdue hact
    exact (guarded_defined _ hdef).trans (congrArg (resume s) (wdogCreditEffect_returns hon hlive ht hgrant hdue hact))
  case off =>
    intro s n ch dl x i h hdef hoff
    obtain ⟨hegress, hdata, hack, hcredit⟩ := wdog_off hoff ch.val dl x i h
    exact ⟨(congrArg (guarded s) hegress).trans (guarded_same hdef), (congrArg (guarded s) hdata).trans (guarded_same hdef),
      (congrArg (guarded s) hack).trans (guarded_same hdef), (congrArg (guarded s) hcredit).trans (guarded_same hdef)⟩
  case fence =>
    rintro s u n bit info rfl hact
    have hbite : wdogBite s n bit info = fencePort (report (raiseErr s (portBase n + 0x14) bit (portBase n + 0x18) info) 24 4) n :=
      if_pos hact
    refine ⟨hbite, fun hn hdead => ?_⟩
    rw [hbite]
    exact fencePort_fences _ hn hdead

end Sys2Proof.Proofs
end

section
/-! PROOF. Packets at the routers of the spine (O42). -/

namespace Sys2Proof.Proofs

open Sys2Proof.Machine Sys2Proof.Safety Sys2Proof.Laws

-- the packet that arrives

theorem sameVc_self (f : Flight) : sameVc f f = true := by
  unfold sameVc
  rw [beq_self_eq_true, beq_self_eq_true]
  rfl

/-- The first packet of an input is next, where its queue has room and no Deadline packet passes it. -/
theorem hopNext_front {s : State} {r i : Nat} {f : Flight} {l : List Flight} (harr : s.spine.arrive = f :: l) (hr : f.router = r)
    (hi : f.input = i)
    (hroom : i < 4 ∨ queued s r i (msgChan f.pkt.msg) f.pkt.dl + flitsLeft f ≤ queueDepth (msgChan f.pkt.msg) f.pkt.dl)
    (hdl : i = 4 → f.pkt.dl = true ∨ ∀ g ∈ l, g.router = r → g.input = 4 → g.pkt.dl = false) : hopNext s r i = some f := by
  obtain ⟨l', hl'⟩ : ∃ l', l' = l.filter (fun f => f.router == r && f.input == i) := ⟨_, rfl⟩
  have hfilter : s.spine.arrive.filter (fun f => f.router == r && f.input == i) = f :: l' := by
    rw [harr, hl']
    exact List.filter_cons_of_pos (by rw [hr, hi, beq_self_eq_true, beq_self_eq_true]; rfl)
  have hok : ((f :: l').find? (sameVc f) == some f && (decide (i < 4) ||
      decide (queued s r i (msgChan f.pkt.msg) f.pkt.dl + flitsLeft f ≤ queueDepth (msgChan f.pkt.msg) f.pkt.dl))) = true := by
    rw [List.find?_cons_of_pos (sameVc_self f), beq_self_eq_true, Bool.true_and, Bool.or_eq_true, decide_eq_true_eq, decide_eq_true_eq]
    exact hroom
  unfold hopNext
  rw [hfilter]
  dsimp only
  by_cases hfirst : (i == 4 && f.pkt.dl) = true
  · rw [List.find?_cons_of_pos (by rw [hfirst, hok]; rfl)]
  · have hnone : (f :: l').find? (fun g => i == 4 && g.pkt.dl && ((f :: l').find? (sameVc g) == some g && (decide (i < 4) ||
        decide (queued s r i (msgChan g.pkt.msg) g.pkt.dl + flitsLeft g ≤ queueDepth (msgChan g.pkt.msg) g.pkt.dl)))) = none := by
      refine List.find?_eq_none.mpr fun g hg => ?_
      have hg' : (i == 4 && g.pkt.dl) = false := by
        rcases List.mem_cons.mp hg with rfl | hg
        · exact Bool.eq_false_iff.mpr hfirst
        · obtain ⟨hmem, hat⟩ := List.mem_filter.mp (hl' ▸ hg)
          rw [Bool.and_eq_true, beq_iff_eq, beq_iff_eq] at hat
          by_cases h4 : i = 4
          · have hopen : f.pkt.dl ≠ true := fun h => hfirst (by rw [h4, h]; rfl)
            rw [(hdl h4).resolve_left hopen g hmem hat.1 (hat.2.trans h4), Bool.and_false]
          · rw [beq_eq_false_iff_ne.mpr h4, Bool.false_and]
      rw [hg', Bool.false_and]
      decide
    have hfirst' : (f :: l').find? (fun g => (f :: l').find? (sameVc g) == some g && (decide (i < 4) ||
        decide (queued s r i (msgChan g.pkt.msg) g.pkt.dl + flitsLeft g ≤ queueDepth (msgChan g.pkt.msg) g.pkt.dl))) = some f :=
      List.find?_cons_of_pos hok
    rw [hnone, hfirst']

/-- The packet is on the router: it has left the link, and the credit it held is back. -/
def hopTaken (s : State) (r : Nat) (f : Flight) (l : List Flight) : State :=
  f.cred.elim { s with spine := { s.spine with arrive := l } } (returnCred { s with spine := { s.spine with arrive := l } } r)

theorem setPort_spine (s : State) (w : Spine) (n : Nat) (p : Port) :
    setPort { s with spine := w } n p = { setPort s n p with spine := w } := by
  unfold setPort
  split <;> rfl

theorem returnCred_spine (s : State) (w : Spine) (n i : Nat) : returnCred { s with spine := w } n i = { returnCred s n i with spine := w } := by
  unfold returnCred
  dsimp only
  rw [show portHolds { s with spine := w } n = portHolds s n from rfl]
  split
  · rfl
  · exact setPort_spine s w n _

theorem hopTaken_eq (s : State) (r : Nat) (f : Flight) (l : List Flight) :
    hopTaken s r f l = { f.cred.elim s (returnCred s r) with spine := { s.spine with arrive := l } } := by
  unfold hopTaken
  cases f.cred with
  | none => rfl
  | some i => exact returnCred_spine s _ r i

theorem touches_hopTaken (s : State) (r : Nat) (f : Flight) (l : List Flight) : Touches { ports := true, spine := true } s (hopTaken s r f l) :=
  .elim ((touches_spine s _).mono rfl) fun _ => (touches_returnCred _ _ _).after rfl <| (touches_spine s _).mono rfl

theorem blotArmed_congr {s t : State} (h : t.regs = s.regs) (k i : Nat) : blotArmed t k i = blotArmed s k i := by
  unfold blotArmed
  rw [getBit_congr h, getFld_congr h, getFld_congr h]

theorem blotUse_unarmed {s : State} {k i : Nat} (h : blotArmed s k i = false) : blotUse s k i = s := if_neg (ne_true_of_eq_false h)

theorem headerCheck_clean {s : State} {r : Nat} (i : Nat) (p : Packet) (h : blotArmed s 2 r = false) : headerCheck s r i p .clean = (s, false) := by
  unfold headerCheck
  dsimp only
  rw [h, blotUse_unarmed h, Bool.false_and, if_neg (by decide)]

theorem headerCheck_lost {s : State} {r : Nat} (i : Nat) (p : Packet) (syn : BitVec 9) (h : blotArmed s 2 r = false) :
    headerCheck s r i p (.multi syn) = (report (headerLost s r i p syn.toNat) 24 7, true) := by
  unfold headerCheck
  dsimp only
  rw [h, blotUse_unarmed h, Bool.false_and, if_neg (by decide)]

/-- What the CRC fields pick up on the way. -/
def withErrors (f : Flight) (crc crc2 : BitVec 16) : Flight :=
  { f with crc := f.crc ^^^ crc, crc2 := if msgFlits f.pkt.msg == 2 then f.crc2 ^^^ crc2 else 0, cred := none }

theorem dropFlits_none {f : Flight} (h : flitsLeft f ≠ 0) : dropFlits f false false = some f := by
  have hgone : f.gone ||| BitVec.ofNat 2 (b2n false + 2 * b2n false) = f.gone := BitVec.or_zero
  unfold dropFlits
  dsimp only
  rw [hgone]
  exact if_neg h

theorem routerHopEffect_eq {s : State} {r i : Nat} {f : Flight} {l : List Flight} (hdr hdr2 : CodeErr) (crc crc2 : BitVec 16)
    (hrun : running s = true) (hnext : hopNext s r i = some f) (harr : s.spine.arrive = f :: l) :
    routerHopEffect s r i hdr hdr2 crc crc2 =
      let (s, lost) := if f.gone.getLsbD 0 then (hopTaken s r f l, false) else headerCheck (hopTaken s r f l) r i f.pkt hdr
      let (s, lost2) := if (msgFlits f.pkt.msg == 2) && !f.gone.getLsbD 1 then headerCheck s r i f.pkt hdr2 else (s, false)
      match dropFlits (withErrors f crc crc2) lost lost2 with
      | some g => arrived s g
      | none => s := by
  have hdrop : dropFirst (fun g => g == f) (f :: l) = l := if_pos (beq_self_eq_true f)
  unfold routerHopEffect
  rw [if_neg (by rw [hrun]; decide), hnext]
  dsimp only
  rw [harr, hdrop]
  rfl

theorem routerHopEffect_clean {s : State} {r i : Nat} {f : Flight} {l : List Flight} (crc crc2 : BitVec 16)
    (hrun : running s = true) (hnext : hopNext s r i = some f) (harr : s.spine.arrive = f :: l) (hblot : blotArmed s 2 r = false)
    (hleft : flitsLeft f ≠ 0) :
    routerHopEffect s r i .clean .clean crc crc2 = arrived (hopTaken s r f l) (withErrors f crc crc2) := by
  have hu := touches_hopTaken s r f l
  have hclean := headerCheck_clean i f.pkt ((blotArmed_congr (hu.regs rfl) 2 r).trans hblot)
  rw [routerHopEffect_eq .clean .clean crc crc2 hrun hnext harr]
  obtain ⟨u, hue⟩ : ∃ u, u = hopTaken s r f l := ⟨_, rfl⟩
  rw [← hue] at hclean ⊢
  rw [hclean, ite_self]
  dsimp only
  rw [hclean, ite_self]
  dsimp only
  rw [dropFlits_none (f := withErrors f crc crc2) hleft]

theorem enterRouter_queues {s : State} {f : Flight} (h : bypassOk s f = false) :
    enterRouter s f = { s with spine := { s.spine with queued := s.spine.queued ++ [{ f with since := s.tick }] } } :=
  if_neg (ne_true_of_eq_false h)

theorem fencedTarget_congr {s t : State} (h : t.regs = s.regs) (r : Nat) (p : Packet) : fencedTarget t r p = fencedTarget s r p := by
  have hfun : sliceFenced t = sliceFenced s := funext fun n => getBit_congr h _ _
  unfold fencedTarget
  rw [hfun]

theorem arrived_enters {s : State} {f : Flight} (hdest : destOk f.pkt = true) (hopen : fencedTarget s f.router f.pkt = none) :
    arrived s f = enterRouter s f := by
  unfold arrived
  rw [if_neg (by rw [hdest]; decide), hopen]

-- what leaves a router

theorem probeLeave_off {s : State} {r : Nat} (o : Nat) (p : Packet) (h : getBit s (probeBase r) 0 = false) : probeLeave s r o p = s := by
  unfold probeLeave
  rw [h, Bool.false_and, Bool.false_and, if_neg (by decide)]

theorem leave_link {s : State} {f : Flight} {q : Nat × Nat} (hq : neighbour f.router f.out = some q)
    (hprobe : getBit s (probeBase f.router) 0 = false) : leave s f = onward s q.1 q.2 f := by
  unfold leave
  rw [hq]
  dsimp only
  rw [probeLeave_off _ _ hprobe]

theorem leave_unit {s : State} {f : Flight} (hq : neighbour f.router f.out = none) (hprobe : getBit s (probeBase f.router) 0 = false) :
    leave s f = deliver s f := by
  unfold leave
  rw [hq]
  dsimp only
  rw [probeLeave_off _ _ hprobe]

/-- A packet on its way to the next router. -/
theorem onward_arrives (s : State) (r i : Nat) (f : Flight) : (onward s r i f).spine.queued = s.spine.queued ∧
    ∃ g, (onward s r i f).spine.arrive = s.spine.arrive ++ [g] ∧ g.router = r ∧ g.input = i ∧ g.crc = f.crc ∧ g.crc2 = f.crc2 ∧
      g.pkt = { f.pkt with next := g.pkt.next } ∧ g.out = g.pkt.next.toNat ∧ g.gone = f.gone := by
  obtain ⟨x, hx⟩ : ∃ x, x = BitVec.ofNat 3 (chooseOut s r f.pkt) := ⟨_, rfl⟩
  unfold onward routed
  rw [← hx]
  exact ⟨rfl, _, rfl, rfl, rfl, rfl, rfl, rfl, rfl, rfl⟩

-- arbitration for one packet

theorem outWinner_only {s : State} {r o : Nat} {f : Flight} (hq : s.spine.queued = [f]) (hr : f.router = r) (ho : f.out = o)
    (hleave : canLeave s f = true) : outWinner s r o = some f := by
  have hself : sameQueue f f = true := by
    unfold sameQueue
    rw [beq_self_eq_true, beq_self_eq_true]
    rfl
  have hcont : contenders s r o = [f] := by
    unfold contenders
    dsimp only
    rw [hq, List.filter_cons_of_pos (by rw [hr]; exact beq_self_eq_true r), List.filter_nil]
    refine List.filter_cons_of_pos ?_
    rw [ho, beq_self_eq_true, List.find?_cons_of_pos hself, beq_self_eq_true, hleave]
    rfl
  unfold outWinner
  dsimp only
  rw [hcont, List.foldl_cons, List.foldl_nil, Nat.zero_max, 
    List.filter_cons_of_pos (p := fun g => outRank s g == outRank s f) (beq_self_eq_true _)]
  rfl

theorem outWinner_waits {s : State} {r o : Nat} {f : Flight} (hq : s.spine.queued = [f]) (hleave : canLeave s f = false) :
    outWinner s r o = none := by
  have hcont : contenders s r o = [] := by
    refine List.filter_eq_nil_iff.mpr fun g hg => ?_
    have hgf := List.mem_singleton.mp (hq ▸ (List.mem_filter.mp hg).1)
    rw [hgf, hleave, Bool.and_false]
    decide
  unfold outWinner
  dsimp only
  rw [hcont]
  rfl

theorem dequeue_only {s : State} {f : Flight} (hq : s.spine.queued = [f]) :
    dequeue s f = { s with spine := { s.spine with queued := [] } } := by
  have hdrop : dropFirst (fun g => g == f) [f] = [] := if_pos (beq_self_eq_true f)
  unfold dequeue
  rw [hq, hdrop]
  rfl

theorem outputEffect_leaves {s : State} {r o : Nat} {f : Flight} (hrun : running s = true) (hq : s.spine.queued = [f]) (hr : f.router = r)
    (ho : f.out = o) (hleave : canLeave s f = true) : outputEffect s r o = leave (served (dequeue s f) f) f := by
  unfold outputEffect
  rw [if_neg (by rw [hrun]; decide), outWinner_only hq hr ho hleave]

theorem touches_granted (s : State) (f : Flight) : Touches { spine := true } s (served (dequeue s f) f) :=
  (touches_served _ _).after rfl (touches_dequeue s f)

theorem granted_queues {s : State} {f : Flight} (hq : s.spine.queued = [f]) :
    (served (dequeue s f) f).spine.queued = [] ∧ (served (dequeue s f) f).spine.arrive = s.spine.arrive := by
  rw [dequeue_only hq]
  exact ⟨rfl, rfl⟩

-- the check at the destination

theorem crcDetect_passes {s : State} {f : Flight} {inst : Option Nat} {second : Bool} (hblot : getBit s 0x320018 0 = false)
    (hcrc : crcFails f second = false) : crcDetect s f inst second = s := by
  have hnone : inst.filter (fun k => blotArmed s 3 k && crcChecked f second) = none := by
    rw [Option.filter_eq_none_iff]
    intro k _
    rw [blotArmed, hblot, Bool.false_and, Bool.false_and, Bool.false_and]
    decide
  unfold crcDetect
  rw [hnone]
  exact if_neg (ne_true_of_eq_false hcrc)

theorem msgLeft_whole {f : Flight} (h : f.gone = 0) : msgLeft f = some f.pkt.msg := by
  unfold msgLeft
  rw [h]
  cases f.pkt.msg <;> rfl

theorem deliver_port {s : State} {f : Flight} (hblot : getBit s 0x320018 0 = false) (hcrc : crcFails f false = false)
    (hcrc2 : crcFails f true = false) (hunit : f.pkt.dstUnit = 0) (hgone : f.gone = 0) (hdead : f.dead = false) :
    deliver s f = portDeliver s f.router f.pkt := by
  have hleft : flitsLeft f ≠ 0 := by
    unfold flitsLeft
    rw [hgone]
    have hflits : msgFlits f.pkt.msg ≠ 0 := by unfold msgFlits; split <;> decide
    exact hflits
  unfold deliver
  dsimp only
  rw [crcDetect_passes hblot hcrc, crcDetect_passes hblot hcrc2, hcrc, hcrc2, dropFlits_none hleft, Option.bind_some, msgLeft_whole hgone]
  dsimp only
  rw [if_neg (ne_true_of_eq_false hdead), unitDeliver, hunit]
  rfl

/-- A packet of one flit whose CRC fails is gone. -/
theorem deliver_failed {s : State} {f : Flight} (hblot : getBit s 0x320018 0 = false) (hcrc : crcFails f false = true)
    (hone : msgFlits f.pkt.msg = 1) : deliver s f = report (spineDetect s 2 f.router f.input f.pkt f.pkt.src.toNat 0) 24 8 := by
  obtain ⟨inst, hinst⟩ : ∃ i, i = (if f.pkt.dstUnit = 0 then some f.router
    else if f.pkt.dstUnit = 1 then (routerSlice f.router).map (24 + ·) else none) := ⟨_, rfl⟩
  have hfirst : crcDetect s f inst false = report (spineDetect s 2 f.router f.input f.pkt f.pkt.src.toNat 0) 24 8 := by
    have hnone : inst.filter (fun k => blotArmed s 3 k && crcChecked f false) = none := by
      rw [Option.filter_eq_none_iff]
      intro k _
      rw [blotArmed, hblot, Bool.false_and, Bool.false_and, Bool.false_and]
      decide
    unfold crcDetect
    rw [hnone]
    exact if_pos hcrc
  have hpass : crcFails f true = false := by
    have hdiff : crcDiff f true = 0 := if_pos (.inr ⟨rfl, by rw [hone]; decide⟩)
    rw [crcFails, hdiff]
    rfl
  have hsecond : ∀ u, crcDetect u f inst true = u := fun u => by
    have hnone : inst.filter (fun k => blotArmed u 3 k && crcChecked f true) = none := by
      rw [Option.filter_eq_none_iff]
      intro k _
      rw [crcChecked, hone, Bool.not_true, Bool.false_or, show ((1 : Nat) == 2) = false from rfl, Bool.and_false, Bool.and_false]
      decide
    unfold crcDetect
    rw [hnone]
    exact if_neg (ne_true_of_eq_false hpass)
  have hgone : dropFlits f true false = none := by
    have hbit : (f.gone ||| BitVec.ofNat 2 (b2n true + 2 * b2n false)).getLsbD 0 = true := by
      rw [BitVec.getLsbD_or, show (BitVec.ofNat 2 (b2n true + 2 * b2n false)).getLsbD 0 = true from rfl, Bool.or_true]
    unfold dropFlits flitsLeft
    dsimp only
    rw [hone, hbit]
    exact if_pos (Nat.sub_eq_zero_of_le (Nat.le_add_right 1 _))
  unfold deliver
  dsimp only
  rw [← hinst, hfirst, hsecond, hcrc, hpass, hgone]
  rfl

theorem bypassOk_off {s : State} {f : Flight} (h : getBit s 0x300000 0 = false) : bypassOk s f = false := by
  unfold bypassOk
  rw [h, Bool.false_and, Bool.false_and, Bool.false_and]

theorem creditsFree_congr {s t : State} (h : t.spine = s.spine) (r i ch : Nat) (dl : Bool) :
    creditsFree t r i ch dl = creditsFree s r i ch dl := by
  unfold creditsFree queued incoming
  rw [h]

theorem canLeave_link {s : State} {f : Flight} {q : Nat × Nat} (hq : neighbour f.router f.out = some q) :
    canLeave s f = decide (flitsLeft f ≤ creditsFree s q.1 q.2 (msgChan f.pkt.msg) f.pkt.dl) := by
  unfold canLeave
  rw [hq]

theorem canLeave_unit {s : State} {f : Flight} (hq : neighbour f.router f.out = none) :
    canLeave s f = decide (unitHeld s f + flitsLeft f ≤ queueDepth (msgChan f.pkt.msg) f.pkt.dl) := by
  unfold canLeave
  rw [hq]

/-- Settles O42: the packet at the head of an input and the one that wins an output, case by case. -/
theorem routerHops : Obligations.RouterHops := by
  unfold Obligations.RouterHops
  refine ⟨?queues, ?passes, ?lost, ?absent, ?link, ?port, ?waits, ?failed⟩
  case queues =>
    rintro s r i f l crc crc2 ⟨hdef, hrun⟩ harr hr hi hblot hdest hroom hdl hleft hopen hoff
    have hu := touches_hopTaken s r.val f l
    have heff := routerHopEffect_clean crc crc2 hrun (hopNext_front harr hr hi hroom hdl) harr hblot hleft
    have heq := hopTaken_eq s r.val f l
    obtain ⟨u, hue⟩ : ∃ u, u = hopTaken s r.val f l := ⟨_, rfl⟩
    rw [← hue] at hu heff heq
    have hspine : u.spine = { s.spine with arrive := l } := congrArg State.spine heq
    have hports : u.ports = (f.cred.elim s (returnCred s r.val)).ports := by rw [heq]
    rw [arrived_enters (f := withErrors f crc crc2) hdest ((fencedTarget_congr (hu.regs rfl) _ _).trans (hr ▸ hopen)),
      enterRouter_queues (bypassOk_off ((getBit_congr (hu.regs rfl) _ _).trans hoff))] at heff
    have htouch := (touches_spine u { u.spine with queued := u.spine.queued ++ [{ withErrors f crc crc2 with since := u.tick }] }).after
      rfl hu
    refine completes_touched (congrArg (guarded s) heff) hdef htouch rfl
      ⟨?_, ?_, htouch.regs rfl, hports, keepsMemory_of_touches htouch rfl rfl rfl⟩
    · exact congrArg Spine.arrive hspine
    · show u.spine.queued ++ [{ withErrors f crc crc2 with since := u.tick }] = _
      rw [hspine, hu.tick rfl]
      rfl
  case passes =>
    rintro s r i f l crc crc2 q ⟨hdef, hrun⟩ harr hr hi hblot hdest hdl hleft hfits hopen hon hempty hfree hq hcred hprobe
    have hnext := hopNext_front harr hr hi (.inr (by rw [hempty, Nat.zero_add]; exact hfits)) hdl
    have hu := touches_hopTaken s r.val f l
    have heff := routerHopEffect_clean crc crc2 hrun hnext harr hblot hleft
    have heq := hopTaken_eq s r.val f l
    obtain ⟨u, hue⟩ : ∃ u, u = hopTaken s r.val f l := ⟨_, rfl⟩
    rw [← hue] at hu heff heq
    have hspine : u.spine = { s.spine with arrive := l } := congrArg State.spine heq
    obtain ⟨g, hg⟩ : ∃ g, g = withErrors f crc crc2 := ⟨_, rfl⟩
    have hgr : g.router = r.val := by rw [hg]; exact hr
    have hgi : g.input = i.val := by rw [hg]; exact hi
    have hgo : g.out = f.out := by rw [hg]; rfl
    have hgp : g.pkt = f.pkt := by rw [hg]; rfl
    have hgl : flitsLeft g = flitsLeft f := by rw [hg]; rfl
    rw [← hg] at heff
    have hqg : neighbour g.router g.out = some q := by rw [hgr, hgo]; exact hq
    have hfence : fencedTarget u g.router g.pkt = none := by
      rw [fencedTarget_congr (hu.regs rfl), hgr, hgp]
      exact hopen
    have hbypass : bypassOk u g = true := by
      have hqueue : queued u g.router g.input (msgChan g.pkt.msg) g.pkt.dl = 0 := by
        rw [hgr, hgi, hgp]
        unfold queued at hempty ⊢
        rw [hspine]
        exact hempty
      have hany : u.spine.queued.any (fun x => x.router == g.router && x.out == g.out) = false := by
        rw [hspine]
        refine List.any_eq_false.mpr fun x hx => ?_
        rw [Bool.and_eq_true, beq_iff_eq, beq_iff_eq, hgr, hgo]
        exact fun h => hfree x hx h.1 h.2
      have hcan : canLeave u g = true := by
        rw [canLeave_link hqg, creditsFree_congr (s := { s with spine := { s.spine with arrive := l } }) hspine, hgp, hgl]
        exact decide_eq_true hcred
      unfold bypassOk
      rw [getBit_congr (hu.regs rfl), hon, hqueue, hany, hcan]
      rfl
    have hsv := touches_served u g
    have hleave : leave (served u g) g = onward (served u g) q.1 q.2 g :=
      leave_link hqg (by rw [getBit_congr (hsv.regs rfl), getBit_congr (hu.regs rfl), hgr]; exact hprobe)
    have henter : enterRouter u g = leave (served u g) g := if_pos hbypass
    rw [arrived_enters (by rw [hgp]; exact hdest) hfence, henter, hleave] at heff
    have htouch := (touches_onward (served u g) q.1 q.2 g).after rfl <| hsv.after rfl hu
    obtain ⟨hqueue, x, harrive, hxr, hxi, hxc, -, hxp, hxo, hxg⟩ := onward_arrives (served u g) q.1 q.2 g
    have hserved : (served u g).spine.queued = u.spine.queued ∧ (served u g).spine.arrive = u.spine.arrive := ⟨rfl, rfl⟩
    rw [hserved.1, hspine] at hqueue
    rw [hserved.2, hspine] at harrive
    exact completes_touched (congrArg (guarded s) heff) hdef htouch rfl
      ⟨hqueue, ⟨x, harrive, hxr, hxi, by rw [hxc, hg]; rfl, by rw [← hgp]; exact hxp, hxo, by rw [hxg, hg]; rfl⟩, htouch.regs rfl,
        keepsMemory_of_touches htouch rfl rfl rfl⟩
  case lost =>
    rintro s r i f l h2 crc crc2 syn ⟨hdef, hrun⟩ harr hr hi hblot hone hroom hdl hgone
    refine (guarded_defined _ hdef).trans (congrArg (resume s) ?_)
    have hu := touches_hopTaken s r.val f l
    have hlost := headerCheck_lost i.val f.pkt syn ((blotArmed_congr (hu.regs rfl) 2 r.val).trans hblot)
    refine (routerHopEffect_eq (.multi syn) h2 crc crc2 hrun (hopNext_front harr hr hi hroom hdl) harr).trans ?_
    obtain ⟨u, hue⟩ : ∃ u, u = hopTaken s r.val f l := ⟨_, rfl⟩
    have hdrop : dropFlits (withErrors f crc crc2) true false = none := by
      unfold dropFlits flitsLeft withErrors
      dsimp only
      rw [hone, hgone]
      exact if_pos rfl
    show _ = report (headerLost (hopTaken s r.val f l) r.val i.val f.pkt syn.toNat) 24 7
    rw [← hue] at hlost ⊢
    rw [hgone, if_neg (by decide), hlost]
    dsimp only
    rw [hone, if_neg (by decide)]
    dsimp only
    rw [hdrop]
  case absent =>
    intro s r i h crc hdef hnone
    have hempty : s.spine.arrive.filter (fun f => f.router == r.val && f.input == i.val) = [] :=
      List.filter_eq_nil_iff.mpr fun f hf => by rw [Bool.and_eq_true, beq_iff_eq, beq_iff_eq]; exact hnone f hf
    have hnext : hopNext s r.val i.val = none := by
      unfold hopNext
      rw [hempty]
      rfl
    refine (congrArg (guarded s) ?_).trans (guarded_same hdef)
    unfold routerHopEffect
    rw [hnext]
    exact ite_self _
  case link =>
    rintro s r o f q ⟨hdef, hrun⟩ hqueue hr ho hq hcred hprobe
    have hqf : neighbour f.router f.out = some q := by rw [hr, ho]; exact hq
    have heff := outputEffect_leaves hrun hqueue hr ho (by rw [canLeave_link hqf]; exact decide_eq_true hcred)
    have hu := touches_granted s f
    obtain ⟨hnone, harr⟩ := granted_queues hqueue
    obtain ⟨u, hue⟩ : ∃ u, u = served (dequeue s f) f := ⟨_, rfl⟩
    rw [← hue] at heff hu hnone harr
    rw [leave_link hqf (by rw [getBit_congr (hu.regs rfl), hr]; exact hprobe)] at heff
    obtain ⟨hqueued, x, harrive, hxr, hxi, hxc, hxc2, hxp, hxo, -⟩ := onward_arrives u q.1 q.2 f
    have htouch := (touches_onward u q.1 q.2 f).after rfl hu
    exact completes_touched (congrArg (guarded s) heff) hdef htouch rfl ⟨hqueued.trans hnone,
      ⟨x, by rw [harrive, harr], hxr, hxi, hxc, hxc2, hxp, hxo⟩, htouch.regs rfl, keepsMemory_of_touches htouch rfl rfl rfl⟩
  case port =>
    rintro s r o f ⟨hdef, hrun⟩ hqueue hr ho hq hcrc hcrc2 hunit hgone hdead hroom hprobe hblot hfence hstale
    have hqf : neighbour f.router f.out = none := by rw [hr, ho]; exact hq
    have heff := outputEffect_leaves hrun hqueue hr ho (by rw [canLeave_unit hqf]; exact decide_eq_true hroom)
    have hu := touches_granted s f
    obtain ⟨hnone, harr⟩ := granted_queues hqueue
    obtain ⟨u, hue⟩ : ∃ u, u = served (dequeue s f) f := ⟨_, rfl⟩
    rw [← hue] at heff hu hnone harr
    have hport := port_congr (hu.ports rfl)
    have hstaleu : staleFwd u r.val f.pkt.msg f.pkt.src = false := by
      unfold staleFwd txnOf at hstale ⊢
      simp only [hport]
      exact hstale
    have hdeliver : portDeliver u r.val f.pkt = toEgress u r.val f.pkt.msg f.pkt.dl f.pkt.prio f.pkt.src :=
      if_neg (by rw [hport, hfence, hstaleu]; decide)
    rw [leave_unit hqf (by rw [getBit_congr (hu.regs rfl), hr]; exact hprobe),
      deliver_port ((getBit_congr (hu.regs rfl) _ _).trans hblot) hcrc hcrc2 hunit hgone hdead, hr, hdeliver] at heff
    have htouch := (touches_toEgress u r.val f.pkt.msg f.pkt.dl f.pkt.prio f.pkt.src).after rfl (hu.mono rfl :
      Touches { ports := true, spine := true } s u)
    have hto := touches_toEgress u r.val f.pkt.msg f.pkt.dl f.pkt.prio f.pkt.src
    refine completes_touched (congrArg (guarded s) heff) hdef htouch rfl ⟨?_, ?_, ?_, htouch.regs rfl,
      keepsMemory_of_touches htouch rfl rfl rfl⟩
    · rw [hto.spine rfl]
      exact hnone
    · rw [hto.spine rfl]
      exact harr
    · unfold toEgress
      rw [port_setPort_same _ _ _ r.isLt, hport]
      exact ⟨_, rfl, rfl, rfl⟩
  case waits =>
    rintro s r o f ⟨hdef, hrun⟩ hqueue hr ho hq hfull
    have hqf : neighbour f.router f.out = none := by rw [hr, ho]; exact hq
    have hcan : canLeave s f = false := by rw [canLeave_unit hqf]; exact decide_eq_false (Nat.not_le_of_lt hfull)
    refine (congrArg (guarded s) ?_).trans (guarded_same hdef)
    unfold outputEffect
    rw [outWinner_waits hqueue hcan]
    exact ite_self _
  case failed =>
    rintro s r o f ⟨hdef, hrun⟩ hqueue hr ho hq hcrc hone hunit hroom hprobe hblot
    have hqf : neighbour f.router f.out = none := by rw [hr, ho]; exact hq
    have heff := outputEffect_leaves hrun hqueue hr ho (by rw [canLeave_unit hqf]; exact decide_eq_true hroom)
    have hu := touches_granted s f
    refine (guarded_defined _ hdef).trans (congrArg (resume s) (heff.trans ?_))
    obtain ⟨u, hue⟩ : ∃ u, u = served (dequeue s f) f := ⟨_, rfl⟩
    rw [← hue] at hu ⊢
    rw [leave_unit hqf (by rw [getBit_congr (hu.regs rfl), hr]; exact hprobe),
      deliver_failed ((getBit_congr (hu.regs rfl) _ _).trans hblot) hcrc hone, hr]

end Sys2Proof.Proofs
end

section
/-! PROOF. The ingress of a slice, refusals and credit grants (O43). -/

namespace Sys2Proof.Proofs

open Sys2Proof.Machine Sys2Proof.Safety Sys2Proof.Laws

-- the home of a line

theorem decodeAddr_congr {s t : State} (hregs : t.regs = s.regs) (hpins : t.pins = s.pins) (pa : Nat) : decodeAddr t pa = decodeAddr s pa := by
  have hpop : popChans t = popChans s := by
    unfold popChans
    exact List.filter_congr fun c _ => slicePop_congr hpins _
  unfold decodeAddr inWindow windowBase windowSize grainLines chanBits
  simp only [getBit_congr hregs, getFld_congr hregs, hpop]

theorem placePair_congr {s t : State} (hregs : t.regs = s.regs) (haway : ∀ k, (slice t k).away = (slice s k).away) (p l : Nat) :
    placePair t p l = placePair s p l := by
  have hon : (fun k => slicePwr t k && !(slice t k).away) = (fun k => slicePwr s k && !(slice s k).away) :=
    funext fun k => by rw [haway, slicePwr_congr (getReg_congr hregs _)]
  unfold placePair
  rw [hon]

theorem homeOf_congr {s t : State} (hregs : t.regs = s.regs) (hpins : t.pins = s.pins) (haway : ∀ k, (slice t k).away = (slice s k).away)
    (pa : Nat) : homeOf t pa = homeOf s pa := by
  have hline : ∀ ch m, homeOfLine t ch m = homeOfLine s ch m := fun ch m => by
    have hjoined : pairJoined t (ch / 4) = pairJoined s (ch / 4) := getBit_congr hregs _ _
    unfold homeOfLine
    dsimp only
    rw [hjoined, placePair_congr hregs haway]
  unfold homeOf
  simp only [decodeAddr_congr hregs hpins, hline]
/-- A change of a slice that keeps its accord state leaves every home. -/
theorem homeOf_setSlice (s : State) {n : Nat} {x : Slice} (haway : x.away = (slice s n).away) (pa : Nat) :
    homeOf (setSlice s n x) pa = homeOf s pa := by
  refine homeOf_congr ((touches_setSlice s n x).regs rfl) ((touches_setSlice s n x).pins rfl) (fun k => ?_) pa
  by_cases hk : k = n
  · by_cases hn : n < 8
    · rw [hk, slice_setSlice_same _ _ _ hn, haway]
    · unfold setSlice
      rw [dif_neg hn]
  · rw [slice_setSlice_ne _ _ hk]

-- the ingress

theorem inSafe_congr {s t : State} (h : t.regs = s.regs) : inSafe t = inSafe s := by
  unfold inSafe
  rw [curMode_congr h]

/-- The inbox with its only message taken out. -/
def inboxTaken (s : State) (n : Nat) : State := setSlice s n { slice s n with inbox := [] }

theorem requestIngressEffect_only {s : State} {n : Nat} {i : InMsg} {r : Req} (hin : (slice s n).inbox = [i]) (hmsg : i.pkt.msg = .req r)
    (hready : ingressReady s n i = true) : requestIngressEffect s n = ingressTake (inboxTaken s n) n i r := by
  have hdrop : dropFirst (ingressReady s n) [i] = [] := if_pos hready
  unfold requestIngressEffect
  dsimp only
  rw [hin, List.find?_cons_of_pos hready, hdrop]
  dsimp only
  rw [hmsg]
  rfl

theorem ingressReady_line {s : State} {n : Nat} {i : InMsg} {r : Req} (hmsg : i.pkt.msg = .req r) (hline : isLineReq r = true)
    (h : inSafe s = true ∨ i.pkt.dl = false) : ingressReady s n i = true := by
  unfold ingressReady
  rw [hmsg]
  dsimp only
  rw [hline]
  rcases h with h | h <;> simp [h]

theorem slice_inboxTaken (s : State) {n : Nat} (hn : n < 8) : slice (inboxTaken s n) n = { slice s n with inbox := [] } :=
  slice_setSlice_same s n _ hn

theorem touches_inboxTaken (s : State) (n : Nat) : Touches { slices := true } s (inboxTaken s n) := touches_setSlice s n _

/-- A request for a line that this slice homes is judged for its line. -/
theorem ingressTake_line {s : State} {n : Nat} {i : InMsg} {r : Req} {h : Home} (hsafe : inSafe s = false) (hcrd : r.crd = false)
    (hopen : i.pkt.src.toNat < 24 → (port s i.pkt.src.toNat).fenced = false) (hhome : homeOf s r.addr.toNat = some h) (hslice : h.slice = n) :
    ingressTake (inboxTaken s n) n i r = ingressLine (inboxTaken s n) n i.pkt r h.line := by
  have hu := touches_inboxTaken s n
  have hhomeu := (homeOf_setSlice s (n := n) (x := { slice s n with inbox := [] }) rfl r.addr.toNat).trans hhome
  change homeOf (inboxTaken s n) r.addr.toNat = some h at hhomeu
  obtain ⟨u, hue⟩ : ∃ u, u = inboxTaken s n := ⟨_, rfl⟩
  rw [← hue] at hu hhomeu ⊢
  have hfilter : (some h).filter (fun k => k.slice == n) = some h := Option.filter_some_pos (beq_iff_eq.mpr hslice)
  have hr : ({ r with crd := false } : Req) = r := by rw [← hcrd]
  unfold ingressTake
  dsimp only
  rw [if_neg (by rw [inSafe_congr (hu.regs rfl), hsafe]; decide), if_neg (fun hf => ?_), hcrd, Bool.false_and, if_neg (by decide), hhomeu,
    hfilter]
  · dsimp only
    rw [show (reservedFor u n i.pkt.src r.txn).filter (fun _ => false) = none by cases reservedFor u n i.pkt.src r.txn <;> rfl]
    dsimp only
    rw [hr]
  · rw [port_congr (hu.ports rfl), hopen hf.1] at hf
    exact Bool.false_ne_true hf.2

theorem hasRecord_inboxTaken (s : State) {n : Nat} (src : BitVec 5) (txn : BitVec 8) (hn : n < 8) :
    hasRecord (inboxTaken s n) n src txn = hasRecord s n src txn := by
  unfold hasRecord
  rw [slice_inboxTaken s hn]

theorem freeEntryId_inboxTaken (s : State) {n : Nat} (p : Pool) (hn : n < 8) : freeEntryId (inboxTaken s n) n p = freeEntryId s n p := by
  unfold freeEntryId
  rw [slice_inboxTaken s hn]

/-- No earlier request of the source names the line: only the pool of entries decides. -/
theorem ingressLine_first {s : State} {n : Nat} {p : Packet} {r : Req} {l : Nat} (hn : n < 8) (hdl : p.dl = false)
    (hrec : hasRecord s n p.src r.txn = false) (hsame : ∀ e ∈ (slice s n).entries, e.src = p.src → e.line ≠ l) :
    ingressLine (inboxTaken s n) n p r l = match freeEntryId s n .general with
      | some id => acceptReq (inboxTaken s n) n p r l id .general .waiting false
      | none => sendRetry (inboxTaken s n) n p.src p.dl r (some ⟨p.src, r.txn, false, r.prio, none, r⟩) := by
  have hrecu := (hasRecord_inboxTaken s p.src r.txn hn).trans hrec
  have hfreeu := freeEntryId_inboxTaken s .general hn
  have hentries := congrArg Slice.entries (slice_inboxTaken s hn)
  change (slice (inboxTaken s n) n).entries = (slice s n).entries at hentries
  obtain ⟨u, hue⟩ : ∃ u, u = inboxTaken s n := ⟨_, rfl⟩
  rw [← hue] at hrecu hfreeu hentries ⊢
  have hother : ∀ e ∈ (slice s n).entries, (e.src == p.src && e.line == l) = false := fun e he => by
    rw [Bool.and_eq_false_iff, beq_eq_false_iff_ne, beq_eq_false_iff_ne]
    by_cases hsrc : e.src = p.src
    · exact .inr (hsame e he hsrc)
    · exact .inl hsrc
  have hnone : (slice s n).entries.find? (fun e => e.src == p.src && e.line == l && e.stage != .reserved && e.stage != .granted) = none :=
    List.find?_eq_none.mpr fun e he => by rw [hother e he, Bool.false_and, Bool.false_and]; decide
  have hholder : (slice s n).entries.any (fun e => e.src == p.src && e.line == l && e.stage == .granted && !e.holder) = false :=
    List.any_eq_false.mpr fun e he => by rw [hother e he, Bool.false_and, Bool.false_and]; decide
  unfold ingressLine
  dsimp only
  rw [if_neg (ne_true_of_eq_false hrecu), hentries, hnone, hholder, if_neg (ne_true_of_eq_false hdl), if_neg (ne_true_of_eq_false hdl),
    hfreeu] <;> cases freeEntryId s n .general <;> rfl

/-- Nothing on the line to wait for: the request takes its entry. -/
theorem acceptReq_plain {s : State} {n : Nat} {p : Packet} {r : Req} {l id : Nat} (hsmp : p.smp = false) (hhold : holdOf s n l = none)
    (hactive : activeEntry s n l = none) : acceptReq s n p r l id .general .waiting false =
      addEntry s n { newEntry id .general .waiting p.src r p.dl l 0 p.reqNo p.smp s.tick with holder := false } := by
  have hsample : homeSample s n p r (chanOfLine s n l).1 false = s := if_neg fun h => by rw [hsmp] at h; exact Bool.false_ne_true h.1
  have hwaits : lineWaits s n p.src r.txn l = s := by
    unfold lineWaits
    rw [hhold]
    dsimp only
    rw [hactive]
    rfl
  unfold acceptReq
  rw [hsample, hwaits]

theorem slice_addEntry (s : State) {n : Nat} (e : Entry) (hn : n < 8) : slice (addEntry s n e) n = { slice s n with
    entries := (slice s n).entries ++ [{ e with order := (slice s n).nextOrder }], nextOrder := (slice s n).nextOrder + 1 } :=
  slice_setSlice_same s n _ hn

theorem sliceSend_launched (s : State) (n : Nat) (dst : BitVec 5) (dl : Bool) (prio : BitVec 2) (m : Msg) :
    ∃ p, Launched s (sliceSend s n dst dl prio m) (sliceRouter n) 5 p ∧ p.msg = m :=
  ⟨mkPacket (srcDest dst).1 (srcDest dst).2 27 dl prio m, launch_launched _ _ _ _, rfl⟩

/-- What a message of a slice leaves on the spine. -/
theorem sliceSend_arrives (s : State) (n : Nat) (dst : BitVec 5) (dl : Bool) (prio : BitVec 2) (m : Msg) :
    ∃ g, (sliceSend s n dst dl prio m).spine.arrive = s.spine.arrive ++ [g] ∧ g.pkt.msg = m := by
  obtain ⟨p, ⟨g, harr, -, -, hpkt, -⟩, hm⟩ := sliceSend_launched s n dst dl prio m
  exact ⟨g, harr, by rw [hpkt]; exact hm⟩

-- grants

/-- The record is off the list. -/
def recordTaken (s : State) (n : Nat) (r : RetryRec) : State :=
  setSlice s n { slice s n with retry := dropFirst (fun y => y == r) (slice s n).retry, retryLast := r.src.toNat }

theorem grantRecord_retry {s : State} {n id : Nat} {r : RetryRec} (hcls : r.cls = false) (hid : freeEntryId s n .retry = some id) :
    ∃ l, grantRecord s n r = sliceSend (pmuEvent (addEntry (recordTaken s n r) n
      (newEntry id .retry .reserved r.src r.req false l 0 0 false (recordTaken s n r).tick)) n 0x0B) n r.src false r.prio
      (.rsp { homeRsp n 6 r.txn r.prio with cls := false }) := by
  unfold grantRecord
  dsimp only
  rw [hcls, if_neg (by decide), hid]
  exact ⟨_, rfl⟩

/-- Settles O43: what the ingress finds decides between an entry, a retry and an error; a grant takes its record. -/
theorem ingressAndGrants : Obligations.IngressAndGrants := by
  unfold Obligations.IngressAndGrants
  refine ⟨?accepted, ?refused, ?safe, ?empty, ?stopped, ?noGrant, ?granted⟩
  case accepted =>
    intro s n i r l id h hdef hsafe hin hmsg hline hcrd hdl hopen hhome hslice hl hrec hsame hfree hhold hactive hsmp
    have heff : requestIngressEffect s n.val = acceptReq (inboxTaken s n.val) n.val i.pkt r l id .general .waiting false := by
      rw [requestIngressEffect_only hin hmsg (ingressReady_line hmsg hline (.inr hdl)), ingressTake_line hsafe hcrd hopen hhome hslice, hl,
        ingressLine_first n.isLt hdl hrec hsame, hfree]
    have hu := touches_inboxTaken s n.val
    have hslice := slice_inboxTaken s n.isLt
    obtain ⟨u, hue⟩ : ∃ u, u = inboxTaken s n.val := ⟨_, rfl⟩
    rw [← hue] at heff hu hslice
    have hholdu : holdOf u n.val l = none := by
      unfold holdOf
      rw [hslice]
      exact hhold
    have hactiveu : activeEntry u n.val l = none := by
      unfold activeEntry
      rw [hslice]
      exact hactive
    rw [acceptReq_plain hsmp hholdu hactiveu] at heff
    have htouch := (touches_addEntry u n.val { newEntry id .general .waiting i.pkt.src r i.pkt.dl l 0 i.pkt.reqNo i.pkt.smp u.tick
      with holder := false }).after rfl hu
    refine completes_touched (congrArg (guarded s) heff) hdef htouch rfl ?_
    have hregs := htouch.regs rfl
    have hchans := htouch.chans rfl
    have hdram := htouch.dram rfl
    have hspine := htouch.spine rfl
    have hports := htouch.ports rfl
    rw [slice_addEntry _ _ n.isLt, hslice]
    exact ⟨rfl, ⟨_, rfl, rfl, rfl, rfl, rfl, rfl, rfl, hdl, rfl⟩, hregs, hchans, hdram, hspine, hports⟩
  case refused =>
    intro s n i r h hdef hsafe hin hmsg hline hcrd hdl hopen hhome hslice hrec hsame hfree
    refine (guarded_defined _ hdef).trans (congrArg (resume s) ?_)
    rw [requestIngressEffect_only hin hmsg (ingressReady_line hmsg hline (.inr hdl)), ingressTake_line hsafe hcrd hopen hhome hslice,
      ingressLine_first n.isLt hdl hrec hsame, hfree, hdl, show ({ r with crd := false } : Req) = r by rw [← hcrd]]
    rfl
  case safe =>
    intro s n i r hdef hsafe hin hmsg hline hsrc
    have hu := touches_inboxTaken s n.val
    have hslice := slice_inboxTaken s n.isLt
    have heff := requestIngressEffect_only hin hmsg (ingressReady_line (n := n.val) hmsg hline (.inl hsafe))
    obtain ⟨u, hue⟩ : ∃ u, u = inboxTaken s n.val := ⟨_, rfl⟩
    rw [← hue] at heff hu hslice
    have hsend : ingressTake u n.val i r =
        sliceSend u n.val i.pkt.src i.pkt.dl r.prio (.rsp { homeRsp n.val 7 r.txn r.prio with err := 6 }) := by
      unfold ingressTake
      dsimp only
      rw [if_pos ((inSafe_congr (hu.regs rfl)).trans hsafe), if_neg (Nat.not_lt.mpr hsrc)]
    have hs := touches_sliceSend u n.val i.pkt.src i.pkt.dl r.prio (.rsp { homeRsp n.val 7 r.txn r.prio with err := 6 })
    have htouch := hs.after rfl (hu.mono rfl : Touches { spine := true, slices := true } s u)
    obtain ⟨g, harr, hm⟩ := sliceSend_arrives u n.val i.pkt.src i.pkt.dl r.prio (.rsp { homeRsp n.val 7 r.txn r.prio with err := 6 })
    refine completes_touched (congrArg (guarded s) (heff.trans hsend)) hdef htouch rfl
      ⟨?_, htouch.regs rfl, htouch.dram rfl, htouch.chans rfl, g, ?_, hm⟩
    · rw [slice_congr (hs.slices rfl), hslice]
    · rw [harr, hu.spine rfl]
  case empty =>
    intro s n hdef hempty
    refine (congrArg (guarded s) ?_).trans (guarded_same hdef)
    unfold requestIngressEffect
    dsimp only
    rw [hempty]
    rfl
  case stopped =>
    intro s n hdef hstop
    exact (congrArg (guarded s) (if_pos hstop)).trans (guarded_same hdef)
  case noGrant =>
    intro s n hdef hnone
    refine (congrArg (guarded s) ?_).trans (guarded_same hdef)
    unfold creditGrantEffect
    rw [hnone]
    exact ite_self _
  case granted =>
    intro s n r id hdef hrun hgrant hcls hid
    obtain ⟨l, hl⟩ := grantRecord_retry hcls hid
    have heff : creditGrantEffect s n.val = grantRecord s n.val r := by
      unfold creditGrantEffect
      rw [if_neg (ne_true_of_eq_false hrun), hgrant]
    have hu : Touches { slices := true } s (recordTaken s n.val r) := touches_setSlice s n.val _
    have hslice : slice (recordTaken s n.val r) n.val = { slice s n.val with
        retry := dropFirst (fun y => y == r) (slice s n.val).retry, retryLast := r.src.toNat } := slice_setSlice_same s n.val _ n.isLt
    obtain ⟨u, hue⟩ : ∃ u, u = recordTaken s n.val r := ⟨_, rfl⟩
    rw [← hue] at hl hu hslice
    obtain ⟨e, he⟩ : ∃ e, e = newEntry id .retry .reserved r.src r.req false l 0 0 false u.tick := ⟨_, rfl⟩
    rw [← he] at hl
    have hadd := touches_addEntry u n.val e
    have hsliceAdd := slice_addEntry u e n.isLt
    obtain ⟨v, hve⟩ : ∃ v, v = addEntry u n.val e := ⟨_, rfl⟩
    rw [← hve] at hl hadd hsliceAdd
    have hpmu := touches_pmuEvent v n.val 0x0B
    obtain ⟨w, hwe⟩ : ∃ w, w = pmuEvent v n.val 0x0B := ⟨_, rfl⟩
    rw [← hwe] at hl hpmu
    have hsend := touches_sliceSend w n.val r.src false r.prio (.rsp { homeRsp n.val 6 r.txn r.prio with cls := false })
    obtain ⟨g, harr, hm⟩ := sliceSend_arrives w n.val r.src false r.prio (.rsp { homeRsp n.val 6 r.txn r.prio with cls := false })
    have htouch := hsend.after rfl <| hpmu.after rfl <| hadd.after rfl <|
      (hu.mono rfl : Touches { regs := true, spine := true, slices := true, obs := true } s u)
    refine completes_touched (congrArg (guarded s) (heff.trans hl)) hdef htouch rfl ?_
    have hfinal : slice (sliceSend w n.val r.src false r.prio (.rsp { homeRsp n.val 6 r.txn r.prio with cls := false })) n.val
        = slice v n.val := by rw [slice_congr (hsend.slices rfl), slice_congr (hpmu.slices rfl)]
    rw [hfinal, hsliceAdd, hslice, harr, hpmu.spine rfl, hadd.spine rfl, hu.spine rfl]
    refine ⟨rfl, rfl, ⟨_, rfl, ?_, ?_, ?_, ?_, ?_⟩, ⟨g, rfl, hm⟩, htouch.dram rfl, htouch.chans rfl⟩
    all_goals
      rw [he]
      rfl

end Sys2Proof.Proofs
end

section
/-! PROOF. The eleven take-up commands (O44). -/

namespace Sys2Proof.Proofs

open Sys2Proof.Machine Sys2Proof.Safety Sys2Proof.Laws

variable {s : State} {n id : Nat} {ok : Req → Bool} {e : Entry} {err : SetErr}

/-- A take-up command is an activation with its opcode. -/
theorem exec_takeUps {k : (SliceId → TakeUp → Instr) × (Req → Bool)} (hk : k ∈ takeUps) (s : State) (n : SliceId) (i : BitVec 8)
    (err : SetErr) : exec (k.1 n ⟨i, err⟩) s = guarded s (activation k.2 err s n.val i.toNat) := by
  simp only [takeUps, List.mem_cons, List.not_mem_nil, or_false] at hk
  rcases hk with rfl | rfl | rfl | rfl | rfl | rfl | rfl | rfl | rfl | rfl | rfl <;> rfl

theorem activation_waiting (hfind : findEntry s n id = some e) (hok : ok e.req = true) (hstage : e.stage = .waiting)
    (htake : canTake s n e = true) (hbank : bankYields s n e = false) :
    activation ok err s n id = allocAgain (takeUp s n e false err) n := by
  unfold activation
  rw [hfind]
  dsimp only
  rw [if_neg (by rw [hok]; decide), if_neg (by rw [hstage]; decide), if_pos ⟨hstage, htake, by rw [hbank]; rfl⟩]

theorem activation_tentative (hfind : findEntry s n id = some e) (hok : ok e.req = true) (hstage : e.stage = .tentative)
    (hrun : takeUpStopped s = false) (hset : lookupStopped s n e.line = false) {u : State} {got : Option Nat}
    (hdecide : decideAdmission s n e err = (u, got)) : activation ok err s n id = allocAgain
      (match got.bind (findEntry u n) with
       | some e => if canTake u n e then takeUp u n e true .clean else u
       | none => u) n := by
  unfold activation
  rw [hfind]
  dsimp only
  rw [if_neg (by rw [hok]; decide), if_pos hstage, if_neg (by rw [hrun, hset]; decide), hdecide] <;> rfl

theorem activation_alloc (hfind : findEntry s n id = some e) (hok : ok e.req = true) (hstage : e.stage = .alloc) :
    activation ok err s n id = advance s n id := by
  unfold activation
  rw [hfind]
  dsimp only
  rw [if_neg (by rw [hok]; decide), if_neg (by rw [hstage]; decide), if_neg (by rw [hstage]; exact fun h => nomatch h.1), if_pos hstage]

/-- What cannot be taken up now is left alone. -/
theorem activation_left (hfind : findEntry s n id = some e) (h : ok e.req = false ∨
    (e.stage = .tentative ∧ (takeUpStopped s = true ∨ lookupStopped s n e.line = true)) ∨
    (e.stage ≠ .tentative ∧ e.stage ≠ .alloc ∧ (e.stage ≠ .waiting ∨ canTake s n e = false ∨ bankYields s n e = true))) :
    activation ok err s n id = s := by
  unfold activation
  rw [hfind]
  dsimp only
  rcases h with hok | ⟨hstage, hstop⟩ | ⟨htentative, halloc, hwait⟩
  · rw [if_pos (by rw [hok]; rfl)]
  · rw [if_pos hstage, if_pos hstop, ite_self]
  · have hnot : ¬ (e.stage = .waiting ∧ canTake s n e = true ∧ (!bankYields s n e) = true) := by
      rintro ⟨hw, htake, hbank⟩
      rcases hwait with h | h | h
      · exact h hw
      · rw [h] at htake
        cases htake
      · rw [h] at hbank
        cases hbank
    rw [if_neg htentative, if_neg hnot, if_neg halloc, ite_self]

-- the checks at take-up

theorem takeUp_refused {looked : Bool} {code : BitVec 4} {bit : Option Nat} {rg : Nat} {w : Bool}
    (hcheck : regionCheck s e.src e.req = .refuse code bit rg w) : takeUp s n e looked err = refuseRegion s n e code bit rg w := by
  unfold takeUp
  rw [hcheck]

theorem takeUp_passed {looked : Bool} {rg : Nat} (hcheck : regionCheck s e.src e.req = .pass rg) : takeUp s n e looked err =
    if (slice s n).leaving then refuseLeft s n e
    else if !chanActive s (chanOfLine s n e.line).1 then refuseInactive s n e
    else
      let s := if looked then s else reclaimHit (trackerCheck (filterLookup s n e.line err) n) n e.line
      match findEntry s n e.id with
      | none => s
      | some e => if canTake s n e && !deadHit s n e.line then becomeActive s n e else s := by
  unfold takeUp
  rw [hcheck] <;> rfl

/-- Settles O44: each command is an activation, whose branches are those of the statement. -/
theorem requestsAreTakenUp : Obligations.RequestsAreTakenUp := by
  unfold Obligations.RequestsAreTakenUp
  intro s n i err k hk hdef
  rw [exec_takeUps hk]
  have hexec : ∀ u, activation k.2 err s n.val i.toNat = u → guarded s (activation k.2 err s n.val i.toNat) = resume s u :=
    fun u hu => (guarded_defined _ hdef).trans (congrArg (resume s) hu)
  have hsame : activation k.2 err s n.val i.toNat = s → guarded s (activation k.2 err s n.val i.toNat) = .next s :=
    fun hs => (congrArg (guarded s) hs).trans (guarded_same hdef)
  refine ⟨?active, ?refused, ?left, ?inactive, ?decided, ?again, ?alone, ?absent⟩
  case active =>
    intro e rg hfind hok hstage htake hbank hcheck hleaving hactive
    refine hexec _ ((activation_waiting hfind hok hstage htake hbank).trans (congrArg (allocAgain · n.val) ?_))
    exact (takeUp_passed hcheck).trans ((if_neg (ne_true_of_eq_false hleaving)).trans (if_neg (by rw [hactive]; decide)))
  case refused =>
    intro e code bit rg w hfind hok hstage htake hbank hcheck
    exact hexec _ ((activation_waiting hfind hok hstage htake hbank).trans (congrArg (allocAgain · n.val) (takeUp_refused hcheck)))
  case left =>
    intro e rg hfind hok hstage htake hbank hcheck hleaving
    refine hexec _ ((activation_waiting hfind hok hstage htake hbank).trans (congrArg (allocAgain · n.val) ?_))
    rw [takeUp_passed hcheck, if_pos hleaving, refuseLeft]
  case inactive =>
    intro e rg hfind hok hstage htake hbank hcheck hleaving hactive
    refine hexec _ ((activation_waiting hfind hok hstage htake hbank).trans (congrArg (allocAgain · n.val) ?_))
    rw [takeUp_passed hcheck, if_neg (ne_true_of_eq_false hleaving), if_pos (by rw [hactive]; rfl)]
  case decided =>
    intro e hfind hok hstage hrun hset
    refine hexec _ ((activation_tentative hfind hok hstage hrun hset (u := (decideAdmission s n.val e err).1)
      (got := (decideAdmission s n.val e err).2) rfl).trans ?_)
    rfl
  case again =>
    intro e hfind hok hstage
    exact hexec _ (activation_alloc hfind hok hstage)
  case alone =>
    intro e hfind h
    exact hsame (activation_left hfind h)
  case absent =>
    intro hnone
    refine hsame ?_
    unfold activation
    rw [hnone]

end Sys2Proof.Proofs
end

section
/-! PROOF. What each request asks of the holders of its line (O45). -/

namespace Sys2Proof.Proofs

open Sys2Proof.Machine Sys2Proof.Safety Sys2Proof.Laws

theorem mem_bits24 {v : BitVec 24} {a : Nat} : a ∈ bits24 v ↔ a < 24 ∧ v.getLsbD a = true := by
  unfold bits24
  rw [List.mem_filter, List.mem_range]

theorem mem_invAll {v : FEntry} {r : Option Nat} {a : Nat} (ha : a < 24) :
    (a, SnpForm.inv) ∈ invAll v r ↔ v.presence.getLsbD a = true ∧ r ≠ some a := by
  simp [invAll, mem_bits24, ha]

theorem mem_ownAndInv {v : FEntry} {o a : Nat} {f : SnpForm} (ha : a < 24) (hheld : v.presence.getLsbD a = true) (hne : a ≠ o) :
    (a, SnpForm.inv) ∈ ownAndInv v o f none := by
  refine List.mem_cons_of_mem _ (List.mem_map.mpr ⟨a, ?_, rfl⟩)
  rw [List.mem_filter, mem_bits24]
  exact ⟨⟨ha, hheld⟩, by simpa using hne⟩

theorem otherPlan_full {q : Req} {v : FEntry} {full : Bool} (h : opOf q = 0x10 ∨ (opOf q = 0x11 ∧ full = true)) :
    (otherPlan q v full).snoops = invAll v none := by
  unfold otherPlan
  rcases h with h | ⟨h, hfull⟩
  · rw [h]
    rfl
  · rw [h, hfull]
    rfl

theorem getLsbD_bit24 {a : Nat} (ha : a < 24) (b : Nat) : (bit24 a).getLsbD b = decide (b = a) := by
  unfold bit24
  rw [if_pos ha, BitVec.getLsbD_ofNat, Nat.testBit_two_pow]
  by_cases hb : b = a
  · rw [hb, decide_eq_true ha, decide_eq_true rfl]
    rfl
  · rw [decide_eq_false hb, decide_eq_false (Ne.symm hb), Bool.and_false]

/-- A holder that is dropped is the only one that goes. -/
theorem getLsbD_viewDrop (v : FEntry) {a b : Nat} (ha : a < 24) (hb : b < 24) :
    (viewDrop v a).presence.getLsbD b = (v.presence.getLsbD b && !decide (b = a)) := by
  have hp : (v.presence &&& ~~~ (bit24 a)).getLsbD b = (v.presence.getLsbD b && !decide (b = a)) := by
    rw [BitVec.getLsbD_and, BitVec.getLsbD_not, getLsbD_bit24 ha, decide_eq_true hb, Bool.true_and]
  unfold viewDrop
  dsimp only
  split
  · next hzero =>
    rw [hzero] at hp
    exact hp
  · split
    · exact hp
    · exact hp

/-- Settles O45: the tables of the plans, and the view after a grant, a drop and a notice. -/
theorem snoopPlans : Obligations.SnoopPlans := by
  unfold Obligations.SnoopPlans
  refine ⟨fun v h => ?shared, fun v h => ?invalid, fun v h => ?unique, fun v r a ha => ?upgrade, fun q v full a hop ha => ?full,
    fun q v full h => ?keep, fun v a _ => ⟨rfl, rfl⟩, fun v a ha => ⟨?dropped, fun b hne hb => ?others⟩, fun v a w h => ?notice⟩
  case shared =>
    unfold readPlan
    rw [h]
    rfl
  case invalid =>
    unfold readPlan
    rw [h]
    exact ⟨rfl, rfl⟩
  case unique =>
    have hplan : (readPlan 2 v).snoops = ownAndInv v v.fwd.toNat .ownM none := by
      unfold readPlan
      rw [h]
      rfl
    rw [hplan]
    exact ⟨List.mem_cons_self, fun a ha hheld hne => mem_ownAndInv ha hheld hne⟩
  case upgrade =>
    rw [upgradePlan, mem_invAll ha, ne_eq, Option.some.injEq, eq_comm (a := r)]
  case full =>
    rw [otherPlan_full hop, mem_invAll ha]
    exact and_iff_left (Option.some_ne_none a).symm
  case keep =>
    unfold otherPlan
    rw [h]
    rfl
  case dropped =>
    rw [getLsbD_viewDrop v ha ha, decide_eq_true rfl, Bool.not_true, Bool.and_false]
  case others =>
    rw [getLsbD_viewDrop v ha hb, decide_eq_false hne, Bool.not_false, Bool.and_true]
  case notice =>
    unfold noticeApply at h
    dsimp only at h
    rw [if_pos rfl] at h
    split at h
    · next howner =>
      exact ⟨beq_iff_eq.mp howner, (Option.some.inj h).symm⟩
    · cases h

end Sys2Proof.Proofs
end

section
/-! PROOF. Answers to snoops and write data at a slice (O46). -/

namespace Sys2Proof.Proofs

open Sys2Proof.Machine Sys2Proof.Safety Sys2Proof.Laws

variable {s : State} {n : Nat} {i : InMsg}

theorem takeMsg_only {p : InMsg → Bool} (hin : (slice s n).inbox = [i]) (hp : p i = true) : takeMsg s n p = some (i, inboxTaken s n) := by
  have hdrop : dropFirst p [i] = [] := if_pos hp
  unfold takeMsg
  dsimp only
  rw [hin, List.find?_cons_of_pos hp, hdrop]
  rfl

theorem isRsp_of_msg {r : Rsp} {op : BitVec 4} (hmsg : i.pkt.msg = .rsp r) (hop : r.opcode = op) : isRsp op i = true := by
  unfold isRsp
  rw [hmsg]
  exact beq_iff_eq.mpr hop

theorem findEntry_inboxTaken (s : State) (id : Nat) (hn : n < 8) : findEntry (inboxTaken s n) n id = findEntry s n id := by
  unfold findEntry
  rw [slice_inboxTaken s hn]

theorem inSafe_inboxTaken (s : State) (n : Nat) : inSafe (inboxTaken s n) = inSafe s := inSafe_congr ((touches_inboxTaken s n).regs rfl)

theorem snpAckEffect_only {r : Rsp} (hin : (slice s n).inbox = [i]) (hmsg : i.pkt.msg = .rsp r) (hop : r.opcode = 1) :
    snpAckEffect s n = if inSafe s then inboxTaken s n
      else allocAgain (snpAckAt (inboxTaken s n) n i.pkt.src.toNat r.entry.toNat r i.pkt.mark) n := by
  unfold snpAckEffect
  rw [takeMsg_only hin (isRsp_of_msg hmsg hop)]
  dsimp only
  rw [hmsg]
  dsimp only
  rw [inSafe_inboxTaken]

theorem snpAckAt_entry {a id : Nat} {r : Rsp} {mark : BitVec 2} (hid : id < 192) : snpAckAt s n a id r mark =
    match (findEntry s n id).filter (fun e => e.coll.out.getLsbD a) with
    | some e => ackEntry s n e a r mark
    | none => lateAnswer s n a id := by
  unfold snpAckAt
  rw [if_pos hid] <;> rfl

-- write data

theorem slice_inboxTaken_fields (s : State) (n k : Nat) (hn : n < 8) : (slice (inboxTaken s n) k).entries = (slice s k).entries ∧
    (slice (inboxTaken s n) k).lanes = (slice s k).lanes ∧ (slice (inboxTaken s n) k).victims = (slice s k).victims := by
  by_cases hk : k = n
  · rw [hk, slice_inboxTaken s hn]
    exact ⟨rfl, rfl, rfl⟩
  · rw [inboxTaken, slice_setSlice_ne _ _ hk]
    exact ⟨rfl, rfl, rfl⟩

theorem ownHere_inboxTaken (s : State) {n : Nat} (k : Nat) (p : Packet) (d : Dat) (hn : n < 8) :
    ownHere (inboxTaken s n) k p d = ownHere s k p d := by
  obtain ⟨hentries, hlanes, hvictims⟩ := slice_inboxTaken_fields s n k hn
  unfold ownHere
  dsimp only
  rw [hentries, hlanes, hvictims]

theorem dataWbEffect_own {d : Dat} (hn : n < 8) (hin : (slice s n).inbox = [i]) (hmsg : i.pkt.msg = .dat d) (hkind : d.kind = 3)
    (hwb : d.snpwb = false)
    (hready : (ownHere s n i.pkt d || ownHere s (pairSlice n) i.pkt d || !headerComing s n i.pkt d) = true) :
    dataWbEffect s n = if inSafe s then inboxTaken s n
      else if ownHere s n i.pkt d then pumpSlice (giveOwn (inboxTaken s n) n i.pkt d) n
      else if ownHere s (pairSlice n) i.pkt d then pumpSlice (giveOwn (inboxTaken s n) (pairSlice n) i.pkt d) (pairSlice n)
      else inboxTaken s n := by
  have hp : dataReady s n i = true := by
    unfold dataReady
    rw [hmsg]
    dsimp only
    rw [hkind, hwb, beq_self_eq_true, Bool.false_or, Bool.true_and]
    exact hready
  unfold dataWbEffect
  rw [takeMsg_only hin hp]
  dsimp only
  rw [hmsg]
  dsimp only
  rw [inSafe_inboxTaken, ownHere_inboxTaken s n _ _ hn, ownHere_inboxTaken s (pairSlice n) _ _ hn, hwb, if_neg (c := false = true) (by decide)]

theorem trackerCheck_unarmed (h : getBit s 0x320018 0 = false) : trackerCheck s n = s := by
  unfold trackerCheck
  rw [blotArmed, h, Bool.false_and, Bool.false_and, if_neg (by decide)]

theorem giveOwn_entry {p : Packet} {d : Dat} {e : Entry} (hn : n < 8) (hentries : (slice s n).entries = [e]) (hstage : e.stage ≠ .reserved)
    (hblot : getBit s 0x320018 0 = false) (hown : ownData p d e.src e.req.txn e.series = true) :
    ∃ f, (slice (giveOwn s n p d) n).entries = [f] ∧ f.own = addHalf e.own ⟨p.src, d.half, d.data, d.be, d.poison⟩ ∧ f.id = e.id ∧
      f.stage = e.stage := by
  have hmine : (e.stage != .reserved && ownData p d e.src e.req.txn e.series) = true := by
    rw [hown, bne_iff_ne.mpr hstage]
    rfl
  unfold giveOwn
  rw [trackerCheck_unarmed hblot, ite_self]
  dsimp only
  rw [slice_setSlice_same _ _ _ hn, hentries, List.map_singleton, if_pos hmine]
  exact ⟨_, rfl, rfl, rfl, rfl⟩

/-- Settles O46: the one message of the inbox is taken, and goes to what waits for it. -/
theorem snoopAnswersAndData : Obligations.SnoopAnswersAndData := by
  unfold Obligations.SnoopAnswersAndData
  refine ⟨?answer, ?late, ?safe, ?data, ?unclaimed, fun s n p d e hn hentries hstage hblot hown =>
    giveOwn_entry hn hentries hstage hblot hown⟩
  case answer =>
    intro s n i r e hdef hsafe hin hmsg hop hid hfind hout
    refine (guarded_defined _ hdef).trans (congrArg (resume s) ?_)
    rw [snpAckEffect_only hin hmsg hop, if_neg (ne_true_of_eq_false hsafe), snpAckAt_entry hid, findEntry_inboxTaken s _ n.isLt, hfind,
      Option.filter_some_pos (p := fun e : Entry => e.coll.out.getLsbD i.pkt.src.toNat) hout]
    rfl
  case late =>
    intro s n i r hdef hsafe hin hmsg hop hid hfind
    refine (guarded_defined _ hdef).trans (congrArg (resume s) ?_)
    rw [snpAckEffect_only hin hmsg hop, if_neg (ne_true_of_eq_false hsafe), snpAckAt_entry hid, findEntry_inboxTaken s _ n.isLt, hfind]
    rfl
  case safe =>
    intro s n i r hdef hsafe hin hmsg hop
    have heff : snpAckEffect s n.val = inboxTaken s n.val := by rw [snpAckEffect_only hin hmsg hop, if_pos hsafe]
    exact completes_touched (congrArg (guarded s) heff) hdef (touches_inboxTaken s n.val) rfl rfl
  case data =>
    intro s n i d hdef hsafe hin hmsg hkind hwb hown
    refine (guarded_defined _ hdef).trans (congrArg (resume s) ?_)
    rw [dataWbEffect_own n.isLt hin hmsg hkind hwb (by rw [hown]; rfl), if_neg (ne_true_of_eq_false hsafe), if_pos hown]
    rfl
  case unclaimed =>
    intro s n i d hdef hin hmsg hkind hwb hown hpair hcoming
    have heff : dataWbEffect s n.val = inboxTaken s n.val := by
      rw [dataWbEffect_own n.isLt hin hmsg hkind hwb (by rw [hcoming, Bool.not_false, Bool.or_true]), if_neg (ne_true_of_eq_false hown),
        if_neg (ne_true_of_eq_false hpair), ite_self]
    exact completes_touched (congrArg (guarded s) heff) hdef (touches_inboxTaken s n.val) rfl rfl

end Sys2Proof.Proofs
end

section
/-! PROOF. Notices, grant acknowledgements and hold windows (O47). -/

namespace Sys2Proof.Proofs

open Sys2Proof.Machine Sys2Proof.Safety Sys2Proof.Laws

variable {s : State} {n : Nat} {i : InMsg}

theorem homeOf_inboxTaken (s : State) (n pa : Nat) : homeOf (inboxTaken s n) pa = homeOf s pa := by
  rw [inboxTaken, homeOf_setSlice s (x := { slice s n with inbox := [] }) rfl]

/-- The slice and the line that serve a notice, from the home of its line. -/
def homeServed (s : State) (n : Nat) (i : InMsg) (o : Option Home) : Option (Nat × Nat) :=
  match o with
  | some h => if h.slice = n ∨ (!i.redir ∧ h.slice / 2 = n / 2 ∧ slicePwr s h.slice) then some (h.slice, h.line) else none
  | none => none

theorem noticeHome_eq {s : State} {r : Req} {o : Option Home} (n : Nat) (i : InMsg) (h : homeOf s r.addr.toNat = o) :
    noticeHome s n i r = homeServed s n i o := by
  obtain ⟨home, hh⟩ : ∃ f, f = homeOf := ⟨_, rfl⟩
  obtain ⟨f, hf⟩ : ∃ f, f = @noticeHome := ⟨_, rfl⟩
  rw [← hf]
  delta noticeHome at hf
  rw [← hh] at hf h
  rw [hf]
  beta_reduce
  rw [h]
  rfl

theorem noticeHome_inboxTaken (s : State) (n : Nat) (i : InMsg) (r : Req) : noticeHome (inboxTaken s n) n i r = noticeHome s n i r := by
  have hpwr : slicePwr (inboxTaken s n) = slicePwr s := funext fun k =>
    slicePwr_congr (getReg_congr ((touches_inboxTaken s n).regs rfl) _) k
  obtain ⟨o, ho⟩ : ∃ o, homeOf s r.addr.toNat = o := ⟨_, rfl⟩
  rw [noticeHome_eq n i ((homeOf_inboxTaken s n _).trans ho), noticeHome_eq n i ho]
  unfold homeServed
  rw [hpwr]

/-- What becomes of a notice, by the slice and the line that serve it. -/
theorem noticeEffect_only {op : Nat} {r : Req} {o : Option (Nat × Nat)} (hsafe : inSafe s = false) (hin : (slice s n).inbox = [i])
    (hmsg : i.pkt.msg = .req r) (hop : opOf r = op) (hhome : noticeHome s n i r = o)
    (hroom : ∀ k l, o = some (k, l) → (slice s k).lanes.length < 8) :
    noticeEffect s n op = o.elim (staleNotice (inboxTaken s n) n (noticeOf (inboxTaken s n) i.pkt r 0))
      (fun q => allocAgain (noticeHere (inboxTaken s n) q.1 (noticeOf (inboxTaken s n) i.pkt r q.2)) q.1) := by
  have hready : noticeReadyMsg s n op i = true := by
    unfold noticeReadyMsg
    rw [hmsg]
    dsimp only
    rw [hop, beq_self_eq_true, Bool.true_and, hhome]
    cases ho : o with
    | none => rfl
    | some q =>
      dsimp only
      rw [decide_eq_true (hroom q.1 q.2 ho)]
      rfl
  unfold noticeEffect
  rw [takeMsg_only hin hready]
  dsimp only
  rw [hmsg]
  dsimp only
  rw [if_neg (by rw [inSafe_inboxTaken, hsafe]; decide), noticeHome_inboxTaken, hhome]
  cases o <;> rfl

theorem noticeHome_here {r : Req} {h : Home} (hhome : homeOf s r.addr.toNat = some h)
    (hserves : h.slice = n ∨ ((!i.redir) = true ∧ h.slice / 2 = n / 2 ∧ slicePwr s h.slice = true)) :
    noticeHome s n i r = some (h.slice, h.line) := by
  rw [noticeHome_eq n i hhome]
  exact if_pos hserves

theorem noticeHome_none {r : Req} (h : homeOf s r.addr.toNat = none ∨ ∃ h, homeOf s r.addr.toNat = some h ∧ h.slice ≠ n ∧
    (i.redir = true ∨ h.slice / 2 ≠ n / 2 ∨ slicePwr s h.slice = false)) : noticeHome s n i r = none := by
  rcases h with hnone | ⟨h, hhome, hne, hout⟩
  · exact noticeHome_eq n i hnone
  · rw [noticeHome_eq n i hhome]
    refine if_neg ?_
    rintro (heq | ⟨hredir, hpair, hpwr⟩)
    · exact hne heq
    · rcases hout with hr | hp | hoff
      · rw [hr] at hredir
        cases hredir
      · exact hp hpair
      · rw [hoff] at hpwr
        cases hpwr

/-- The two commands of notices. -/
theorem exec_notice {n : SliceId} {c : Instr} {op : Nat} (hc : (c = .wbDirty n ∧ op = 8) ∨ (c = .evClean n ∧ op = 9)) (s : State) :
    exec c s = guarded s (noticeEffect s n.val op) := by
  rcases hc with ⟨rfl, rfl⟩ | ⟨rfl, rfl⟩ <;> rfl

-- a notice in a lane

theorem lineSetTag_congr {s t : State} (h : t.regs = s.regs) (n l : Nat) : lineSetTag t n l = lineSetTag s n l := by
  have hjoined : pairJoined t (n / 2) = pairJoined s (n / 2) := getBit_congr h _ _
  unfold lineSetTag
  rw [hjoined]
  rfl

theorem entryOf_congr {s t : State} (h : t.regs = s.regs) {n : Nat} (hfilter : (slice t n).filter = (slice s n).filter) (l : Nat) :
    entryOf t n l = entryOf s n l := by
  have hway : wayAt t n = wayAt s n := by
    funext st w
    unfold wayAt
    rw [hfilter]
  unfold entryOf hitWay hitWays
  rw [lineSetTag_congr h, hway]

theorem holdOf_endHold (s : State) (n l : Nat) : holdOf (endHold s n l) n l = none := by
  unfold holdOf endHold
  by_cases hn : n < 8
  · rw [slice_setSlice_same _ _ _ hn]
    refine List.find?_eq_none.mpr fun w hw => ?_
    obtain ⟨-, hne⟩ := List.mem_filter.mp hw
    simpa using hne
  · unfold setSlice slice
    rw [dif_neg hn]
    rfl

theorem noticeHere_lane {t : Notice} (hactive : activeEntry s n t.line = none) (hvictim : victimOf s n t.line = none) :
    noticeHere s n t = noticeLane s n t := by
  unfold noticeHere
  rw [hactive]
  dsimp only
  rw [hvictim]

/-- A dirty notice waits in its lane for its data. -/
theorem noticeIdle_waits {t : Notice} {v : FEntry} (happly : noticeApply (entryOf s n t.line) t.src.toNat t.dirty = some v)
    (hdirty : t.dirty = true) (hhalves : t.halves = []) (hopen : t.applied = false) (hqueued : t.queued = false) :
    noticeIdle s n t = (s, t) := by
  have hboth : bothHalves t.halves t.src = false := by
    rw [hhalves]
    rfl
  have hqueue : noticeQueue s n t = (s, t) := by
    unfold noticeQueue
    rw [if_neg (by rw [hboth]; simp), if_neg (by rw [hboth]; simp)]
  unfold noticeIdle
  rw [if_neg (ne_true_of_eq_false hopen), if_neg (by rw [hboth]; simp), happly]
  dsimp only
  rw [hqueue]
  exact if_pos ⟨hdirty, by rw [hqueued]; rfl⟩

theorem laneStep_waits {t : Notice} {v : FEntry} (hlanes : (slice s n).lanes = [t]) (hactive : activeEntry s n t.line = none)
    (happly : noticeApply (entryOf s n t.line) t.src.toNat t.dirty = some v)
    (hdirty : t.dirty = true) (hhalves : t.halves = []) (hopen : t.applied = false) (hqueued : t.queued = false) :
    laneStep s n = setSlice s n { slice s n with lanes := [t] } := by
  have hidle := noticeIdle_waits happly hdirty hhalves hopen hqueued
  have hack : noticesAck s n [t] = (s, [t]) := by
    unfold noticesAck
    rw [List.foldl_cons, List.foldl_nil, if_neg (by rw [hopen]; simp)]
    rfl
  unfold laneStep
  rw [hlanes, List.foldl_cons, List.foldl_nil, hopen, if_neg (by decide)]
  dsimp only
  rw [hactive]
  dsimp only
  rw [hidle]
  dsimp only
  rw [List.nil_append, hack]

/-- The notice is in its lane: only the lanes and the holds of the slice differ. -/
theorem noticeHere_waits {t : Notice} {v : FEntry} (hn : n < 8) (hactive : activeEntry s n t.line = none)
    (hvictim : victimOf s n t.line = none) (happly : noticeApply (entryOf s n t.line) t.src.toNat t.dirty = some v)
    (hdirty : t.dirty = true) (hhalves : t.halves = []) (hopen : t.applied = false) (hqueued : t.queued = false)
    (hlanes : (slice s n).lanes = []) :
    (slice (noticeHere s n t) n).lanes = [t] ∧ (slice (noticeHere s n t) n).filter = (slice s n).filter ∧
    holdOf (noticeHere s n t) n t.line = none ∧ (noticeHere s n t).regs = s.regs ∧ (noticeHere s n t).spine = s.spine := by
  have hend : Touches { slices := true } s (endHold s n t.line) := touches_setSlice s n _
  have hendSlice : slice (endHold s n t.line) n = { slice s n with holds := (slice s n).holds.filter (fun h => h.line != t.line) } :=
    slice_setSlice_same s n _ hn
  have hhold := holdOf_endHold s n t.line
  have heff : noticeHere s n t = laneStep (setSlice (endHold s n t.line) n
      { slice (endHold s n t.line) n with lanes := (slice (endHold s n t.line) n).lanes ++ [t] }) n := by
    rw [noticeHere_lane hactive hvictim, noticeLane, happly]
  obtain ⟨u, hu⟩ : ∃ u, u = endHold s n t.line := ⟨_, rfl⟩
  rw [← hu] at hend hendSlice hhold heff
  have hset := touches_setSlice u n { slice u n with lanes := (slice u n).lanes ++ [t] }
  have hsetSlice := slice_setSlice_same u n { slice u n with lanes := (slice u n).lanes ++ [t] } hn
  obtain ⟨w, hw⟩ : ∃ w, w = setSlice u n { slice u n with lanes := (slice u n).lanes ++ [t] } := ⟨_, rfl⟩
  rw [← hw] at hset hsetSlice heff
  have hlanesw : (slice w n).lanes = [t] := by
    rw [hsetSlice, hendSlice]
    show (slice s n).lanes ++ [t] = [t]
    rw [hlanes]
    rfl
  have hfilterw : (slice w n).filter = (slice s n).filter := by rw [hsetSlice, hendSlice]
  have hregsw : w.regs = s.regs := (hset.regs rfl).trans (hend.regs rfl)
  have hactivew : activeEntry w n t.line = none := by
    unfold activeEntry
    rw [hsetSlice, hendSlice]
    exact hactive
  rw [laneStep_waits hlanesw hactivew ((entryOf_congr hregsw hfilterw _).symm ▸ happly) hdirty hhalves hopen hqueued] at heff
  have hlast := touches_setSlice w n { slice w n with lanes := [t] }
  have hlastSlice := slice_setSlice_same w n { slice w n with lanes := [t] } hn
  rw [heff, hlastSlice]
  refine ⟨rfl, hfilterw, ?_, (hlast.regs rfl).trans hregsw, (hlast.spine rfl).trans ((hset.spine rfl).trans (hend.spine rfl))⟩
  unfold holdOf at hhold ⊢
  rw [hlastSlice, hsetSlice]
  exact hhold

-- `GrantAck` and the hold window

theorem grantAckEffect_only {r : Rsp} {err : SetErr} (hn : n < 8) (hin : (slice s n).inbox = [i]) (hmsg : i.pkt.msg = .rsp r)
    (hop : r.opcode = 3) {o : Option Entry}
    (hfind : (findEntry s n r.entry.toNat).filter (fun e => e.stage == .granted && e.src == i.pkt.src) = o) :
    grantAckEffect s n err = o.elim (inboxTaken s n) (fun e => grantAckAt (inboxTaken s n) n e err) := by
  unfold grantAckEffect
  rw [takeMsg_only hin (isRsp_of_msg hmsg hop)]
  dsimp only
  rw [hmsg]
  dsimp only
  rw [findEntry_inboxTaken s _ hn, hfind]
  cases o <;> rfl

theorem holdExpireEffect_due {a : Addr} {h : Home} {err : SetErr} (hhome : homeOf s a.toNat = some h) (hslice : h.slice = n)
    (hdue : (holdOf s n h.line).any (fun w => decide (w.due ≤ s.tick)) = true) :
    holdExpireEffect s n a err = allocAgain (activateNext (endHold s n h.line) n h.line err) n := by
  obtain ⟨home, hh⟩ : ∃ f, f = homeOf := ⟨_, rfl⟩
  obtain ⟨f, hf⟩ : ∃ f, f = @holdExpireEffect := ⟨_, rfl⟩
  rw [← hf]
  delta holdExpireEffect at hf
  rw [← hh] at hf hhome
  rw [hf]
  beta_reduce
  rw [hhome]
  exact if_pos ⟨hslice, hdue⟩

/-- Settles O47: where a notice goes, what a lane does with it, and the two ends of a grant. -/
theorem noticesAndGrantAcks : Obligations.NoticesAndGrantAcks := by
  unfold Obligations.NoticesAndGrantAcks
  refine ⟨?here, ?stale, ?pair, ?joins, ?lane, fun s n t v hn hactive hvictim happly hdirty hhalves hopen hqueued hlanes =>
    noticeHere_waits hn hactive hvictim happly hdirty hhalves hopen hqueued hlanes, ?ack, ?unnamed, ?expires, holdOf_endHold⟩
  case here =>
    intro s n c op i r h hc hdef hsafe hin hmsg hop hroom hhome hslice
    have hserved : noticeHome s n.val i r = some (n.val, h.line) := hslice ▸ noticeHome_here hhome (.inl rfl)
    rw [exec_notice hc, noticeEffect_only hsafe hin hmsg hop hserved
      (fun k l heq => by rw [Option.some.injEq, Prod.mk.injEq] at heq; rw [← heq.1]; exact hroom)]
    exact guarded_defined _ hdef
  case stale =>
    intro s n c op i r hc hdef hsafe hin hmsg hop hnone
    rw [exec_notice hc, noticeEffect_only hsafe hin hmsg hop (noticeHome_none hnone) (fun k l heq => nomatch heq)]
    exact guarded_defined _ hdef
  case pair =>
    intro s n c op i r h hc hdef hsafe hin hmsg hop hhome hne hredir hpair hpwr hroom
    rw [exec_notice hc, noticeEffect_only hsafe hin hmsg hop (noticeHome_here hhome (.inr ⟨by rw [hredir]; rfl, hpair, hpwr⟩))
      (fun k l heq => by rw [Option.some.injEq, Prod.mk.injEq] at heq; rw [← heq.1]; exact hroom)]
    exact guarded_defined _ hdef
  case joins =>
    intro s n t e hactive
    unfold noticeHere
    rw [hactive]
    rfl
  case lane =>
    intro s n t hactive hvictim
    exact noticeHere_lane hactive hvictim
  case ack =>
    intro s n i r e err hdef hin hmsg hop hfind hstage hsrc
    refine (guarded_defined _ hdef).trans (congrArg (resume s) (grantAckEffect_only n.isLt hin hmsg hop (o := some e) ?_))
    rw [hfind]
    exact Option.filter_some_pos (by rw [hstage, hsrc, beq_self_eq_true, beq_self_eq_true]; rfl)
  case unnamed =>
    intro s n i r err hdef hin hmsg hop hfind
    exact completes_touched (congrArg (guarded s) (grantAckEffect_only n.isLt hin hmsg hop (o := none) (by rw [hfind]; rfl))) hdef
      (touches_inboxTaken s n.val) rfl rfl
  case expires =>
    intro s n a h w err hdef hhome hslice hhold hdue
    exact (guarded_defined _ hdef).trans (congrArg (resume s) (holdExpireEffect_due hhome hslice
      (by rw [hhold]; exact decide_eq_true hdue)))

end Sys2Proof.Proofs
end

section
/-! PROOF. Translation maintenance and hazard watches (O48). -/

namespace Sys2Proof.Proofs

open Sys2Proof.Machine Sys2Proof.Safety Sys2Proof.Laws

variable {s : State} {n : Nat} {i : InMsg}

theorem setSlice_setSlice (s : State) (n : Nat) (x y : Slice) : setSlice (setSlice s n x) n y = setSlice s n y := by
  unfold setSlice
  split
  · dsimp only
    rw [Vector.set_set]
  · rfl

/-- The next slot, message and number of a translation request. -/
theorem takeXlat_only {op : Nat} {r : Req} (hin : (slice s n).inbox = [i]) (hmsg : i.pkt.msg = .req r) (hop : opOf r = op)
    (hslots : (slice s n).xslots = []) : takeXlat s n op = some (i.pkt, r, 0, inboxTaken s n) := by
  have hfree : firstFree 16 ((slice s n).xslots.map (·.slot)) = some 0 := by
    rw [hslots]
    rfl
  unfold takeXlat
  rw [hfree]
  dsimp only
  rw [takeMsg_only hin (by rw [hmsg]; exact beq_iff_eq.mpr hop)]
  dsimp only
  rw [hmsg]

-- what a number that has ended leaves

/-- The inbox and the translation slots of a slice. -/
def SameSlots (s t : State) (n : Nat) : Prop := (slice t n).inbox = (slice s n).inbox ∧ (slice t n).xslots = (slice s n).xslots

theorem SameSlots.trans {s t u : State} (h : SameSlots s t n) (h' : SameSlots t u n) : SameSlots s u n :=
  ⟨h'.1.trans h.1, h'.2.trans h.2⟩

theorem sameSlots_setSlice (s : State) (m n : Nat) {x : Slice} (hin : x.inbox = (slice s m).inbox) (hslots : x.xslots = (slice s m).xslots) :
    SameSlots s (setSlice s m x) n := by
  by_cases hm : m < 8
  · by_cases hn : n = m
    · rw [hn, SameSlots, slice_setSlice_same _ _ _ hm]
      exact ⟨hin, hslots⟩
    · rw [SameSlots, slice_setSlice_ne _ _ hn]
      exact ⟨rfl, rfl⟩
  · unfold setSlice
    rw [dif_neg hm]
    exact ⟨rfl, rfl⟩

theorem sameSlots_xlatAdvance (fuel : Nat) (s : State) (m src n : Nat) : SameSlots s (xlatAdvance fuel s m src) n := by
  induction fuel generalizing s with
  | zero => exact ⟨rfl, rfl⟩
  | succ fuel ih =>
    unfold xlatAdvance
    dsimp only
    split
    · refine SameSlots.trans ?_ (ih _)
      exact sameSlots_setSlice s m n rfl rfl
    · exact ⟨rfl, rfl⟩

theorem sameSlots_xlatEndedAt (s : State) (m : Nat) (src : BitVec 5) (k n : Nat) : SameSlots s (xlatEndedAt s m src k) n := by
  refine SameSlots.trans ?_ (sameSlots_xlatAdvance _ _ _ _ _)
  exact sameSlots_setSlice s m n rfl rfl

theorem sameSlots_xlatEnded (s : State) (m : Nat) (src : BitVec 5) (k n : Nat) : SameSlots s (xlatEnded s m src k) n := by
  unfold xlatEnded
  dsimp only
  split
  · exact (sameSlots_xlatEndedAt s m src k n).trans (sameSlots_xlatEndedAt _ _ src k n)
  · exact sameSlots_xlatEndedAt s m src k n

theorem xlatSyncs_none (src : BitVec 5) (h : (slice s n).xslots = []) : xlatSyncs s n src = s := by
  unfold xlatSyncs
  rw [h]
  rfl

/-- The last answer of a broadcast: its slot is free, and its number has ended. -/
theorem xlatRelease_last {t x : XSlot} (hn : n < 8) (hslots : (slice s n).xslots = [x]) (hslot : x.slot = t.slot) (hawait : t.await = 0) :
    xlatRelease s n t = xlatEnded (setSlice s n { slice s n with xslots := [] }) n t.src t.series := by
  unfold xlatRelease
  rw [if_pos hawait]
  dsimp only
  rw [hslots, List.filter_cons_of_neg (by simp [hslot]), List.filter_nil]
  refine xlatSyncs_none _ ?_
  rw [(sameSlots_xlatEnded _ _ _ _ _).2, slice_setSlice_same _ _ _ hn]

theorem xlatRelease_waits {t x : XSlot} (hslots : (slice s n).xslots = [x]) (hslot : x.slot = t.slot) (hawait : t.await ≠ 0) :
    xlatRelease s n t = setSlice s n { slice s n with xslots := [t] } := by
  unfold xlatRelease
  rw [if_neg hawait]
  dsimp only
  rw [hslots]
  unfold mapIf
  rw [List.map_singleton, if_pos (beq_iff_eq.mpr hslot)]

theorem xlatDoneEffect_answer {r : Rsp} {x : XSlot} (hn : n < 8) (hsafe : inSafe s = false) (hin : (slice s n).inbox = [i])
    (hmsg : i.pkt.msg = .rsp r) (hop : r.opcode = 8) (hslots : (slice s n).xslots = [x]) (hslot : 208 + x.slot = r.entry.toNat)
    (hawait : x.await.getLsbD i.pkt.src.toNat = true) :
    xlatDoneEffect s n = xlatAnswered (inboxTaken s n) n x i.pkt.src.toNat := by
  have hslotsTaken : (slice (inboxTaken s n) n).xslots = [x] := by
    rw [slice_inboxTaken s hn]
    exact hslots
  unfold xlatDoneEffect
  rw [takeMsg_only hin (isRsp_of_msg hmsg hop)]
  dsimp only
  rw [hmsg]
  dsimp only
  rw [if_neg (by rw [inSafe_inboxTaken, hsafe]; decide), hslotsTaken,
    List.find?_cons_of_pos (by rw [hslot, hawait, beq_self_eq_true]; rfl)]

/-- The slot that an invalidate without a port to ask takes. -/
def invSlot (s : State) (i : InMsg) (r : Req) : XSlot :=
  { slot := 0, sync := false, src := i.pkt.src, txn := r.txn, prio := r.prio, series := i.pkt.series.toNat, taken := s.tick,
    xtag := r.xtag, await := 0, timer := none, mute := false }

-- hazard watches

/-- The capture of a watch, where none stands. -/
def watchCapture (s : State) (n : Nat) (w : Watch) : State :=
  if getBit s (slcBase n + 0x408) 31 then s
  else setReg (setReg s (slcBase n + 0x408) (BitVec.ofNat 32 (w.src.toNat + 2 ^ 5 * w.opcode.toNat + 2 ^ 11 * b2n w.accord + 2 ^ 31)))
    (slcBase n + 0x40C) (BitVec.ofNat 32 (w.line % 2 ^ 30))

theorem getReg_watchCapture_ne (s : State) (n : Nat) (w : Watch) {a : Nat} (h : a ≠ slcBase n + 0x408) (h' : a ≠ slcBase n + 0x40C) :
    getReg (watchCapture s n w) a = getReg s a := by
  unfold watchCapture
  split
  · rfl
  · rw [getReg_setReg_ne _ _ h', getReg_setReg_ne _ _ h]

theorem getBit_watchCapture (s : State) (n : Nat) (w : Watch) : getBit (watchCapture s n w) (slcBase n + 0x408) 31 = true := by
  unfold watchCapture
  split
  · assumption
  · unfold getBit
    rw [getReg_setReg_ne _ _ (by omega), getReg_setReg_same]
    have hsrc := w.src.isLt
    have hop := w.opcode.isLt
    have hb : b2n w.accord ≤ 1 := by cases w.accord <;> decide
    unfold bitOf
    rw [BitVec.getLsbD_ofNat, Nat.testBit_eq_decide_div_mod_eq]
    simp only [Nat.reduceLT, decide_true, Bool.true_and, decide_eq_true_eq]
    omega

theorem hazardExpireEffect_due {w : Watch} (hw : (slice s n).watches = [w]) (hdue : w.due ≤ s.tick) :
    hazardExpireEffect s n w.slot = logRecord (watchCapture (satAdd (setSlice s n { slice s n with watches := [] }) (slcBase n + 0x410) 0 16 1)
      n w) 2 n w.src.toNat w.opcode.toNat (w.line % 2 ^ 30) := by
  unfold hazardExpireEffect
  dsimp only
  rw [hw, List.find?_cons_of_pos (by rw [beq_self_eq_true, decide_eq_true hdue]; rfl)]
  dsimp only
  rw [List.filter_cons_of_neg (by simp), List.filter_nil]
  rfl

theorem getReg_logRecord_ne (s : State) (kind unit src detail w3 : Nat) {a : Nat} (h : a ≠ 0x340008) :
    getReg (logRecord s kind unit src detail w3) a = getReg s a := by
  unfold logRecord
  split
  · exact getReg_setBit_ne _ _ _ h
  · rfl

theorem slcBase_apart (n k : Nat) (hk : k < 0x800) (hn : n < 8) : slcBase n + k ≠ 0x340008 := by
  unfold slcBase
  omega

/-- Settles O48: the slot of a request, its last answer, and the end of a watch. -/
theorem translationAndWatches : Obligations.TranslationAndWatches := by
  unfold Obligations.TranslationAndWatches
  refine ⟨?invalidate, ?sync, ?answer, ?last, ?signal, ?watch⟩
  case invalidate =>
    intro s n i r hdef hsafe hin hmsg hop hsrc hopen hslots hset hhome
    obtain ⟨t, ht⟩ : ∃ t, t = invSlot (inboxTaken s n.val) i r := ⟨_, rfl⟩
    have hu := touches_inboxTaken s n.val
    have hslice := slice_inboxTaken s n.isLt
    have hset' : xlatSet (inboxTaken s n.val) = [] := by
      rw [← hset]
      unfold xlatSet
      exact List.filter_congr fun a _ => by rw [port_congr (hu.ports rfl), portEnabled_congr (hu.pins rfl)]
    have htake := takeXlat_only hin hmsg hop hslots
    have hsafe' := (inSafe_inboxTaken s n.val).trans hsafe
    obtain ⟨u, hue⟩ : ∃ u, u = inboxTaken s n.val := ⟨_, rfl⟩
    rw [← hue] at hu hslice hset' htake ht hsafe'
    have heff : xlatInvEffect s n.val = xlatRelease (xlatComp (setSlice u n.val { slice u n.val with xslots := [t] }) n.val t) n.val t := by
      unfold xlatInvEffect
      rw [htake]
      dsimp only
      rw [if_neg (ne_true_of_eq_false hsafe'), if_neg (by rw [port_congr (hu.ports rfl), hopen]; decide), hset', ht, hslice, hslots]
      rfl
    have hput := touches_setSlice u n.val { slice u n.val with xslots := [t] }
    have hputSlice := slice_setSlice_same u n.val { slice u n.val with xslots := [t] } n.isLt
    obtain ⟨v, hve⟩ : ∃ v, v = setSlice u n.val { slice u n.val with xslots := [t] } := ⟨_, rfl⟩
    rw [← hve] at heff hput hputSlice
    have hcomp : xlatComp v n.val t = sliceSend v n.val t.src false t.prio
        (.rsp { homeRsp n.val 2 t.txn t.prio with entry := BitVec.ofNat 8 (208 + t.slot) }) :=
      if_neg (by rw [ht]; exact Bool.false_ne_true)
    have hsend := touches_sliceSend v n.val t.src false t.prio
      (.rsp { homeRsp n.val 2 t.txn t.prio with entry := BitVec.ofNat 8 (208 + t.slot) })
    obtain ⟨g, harr, hg⟩ := sliceSend_arrives v n.val t.src false t.prio
      (.rsp { homeRsp n.val 2 t.txn t.prio with entry := BitVec.ofNat 8 (208 + t.slot) })
    rw [← hcomp] at hsend harr
    obtain ⟨w, hwe⟩ : ∃ w, w = xlatComp v n.val t := ⟨_, rfl⟩
    rw [← hwe] at heff hsend harr
    have hsliceW : slice w n.val = { slice u n.val with xslots := [t] } := by rw [slice_congr (hsend.slices rfl), hputSlice]
    have hawait : t.await = 0 := by rw [ht]; rfl
    rw [xlatRelease_last (x := t) n.isLt (by rw [hsliceW]) rfl hawait] at heff
    have hdrop := touches_setSlice w n.val { slice w n.val with xslots := [] }
    have hdropSlice := slice_setSlice_same w n.val { slice w n.val with xslots := [] } n.isLt
    obtain ⟨x, hxe⟩ : ∃ x, x = setSlice w n.val { slice w n.val with xslots := [] } := ⟨_, rfl⟩
    rw [← hxe] at heff hdrop hdropSlice
    have hend := touches_xlatEnded x n.val t.src t.series
    obtain ⟨hinbox, hxslots⟩ := sameSlots_xlatEnded x n.val t.src t.series n.val
    have htouch := hend.after rfl <| hdrop.after rfl <| hsend.after rfl <| hput.after rfl
      (hu.mono rfl : Touches { spine := true, slices := true } s u)
    refine completes_touched (congrArg (guarded s) heff) hdef htouch rfl ⟨?_, ?_, ⟨g, ?_, ?_⟩, htouch.regs rfl, htouch.dram rfl⟩
    · rw [hinbox, hdropSlice, hsliceW, hslice]
    · rw [hxslots, hdropSlice]
    · rw [hend.spine rfl, hdrop.spine rfl, harr, hput.spine rfl, hu.spine rfl]
    · rw [hg, ht]
      rfl
  case sync =>
    intro s n i r hdef hsafe hin hmsg hop hsrc hopen hslots
    refine (guarded_defined _ hdef).trans (congrArg (resume s) ?_)
    have hu := touches_inboxTaken s n.val
    have hslice := slice_inboxTaken s n.isLt
    unfold xlatSyncEffect
    rw [takeXlat_only hin hmsg hop hslots]
    dsimp only
    rw [if_neg (by rw [inSafe_inboxTaken, hsafe]; decide), if_neg (by rw [port_congr (hu.ports rfl), hopen]; decide), hslice, hslots,
      hu.tick rfl, inboxTaken, setSlice_setSlice]
    rfl
  case answer =>
    intro s n i r x hdef hsafe hin hmsg hop hslots hslot hawait hleft
    have hu := touches_inboxTaken s n.val
    have hslice := slice_inboxTaken s n.isLt
    have heff := xlatDoneEffect_answer n.isLt hsafe hin hmsg hop hslots hslot hawait
    obtain ⟨u, hue⟩ : ∃ u, u = inboxTaken s n.val := ⟨_, rfl⟩
    rw [← hue] at hu hslice heff
    have hanswered : xlatAnswered u n.val x i.pkt.src.toNat =
        setSlice u n.val { slice u n.val with xslots := [{ x with await := x.await &&& ~~~ (bit24 i.pkt.src.toNat) }] } := by
      unfold xlatAnswered
      dsimp only
      rw [if_neg hleft]
      exact xlatRelease_waits (x := x) (by rw [hslice]; exact hslots) rfl hleft
    have hset := (touches_setSlice u n.val
      { slice u n.val with xslots := [{ x with await := x.await &&& ~~~ (bit24 i.pkt.src.toNat) }] }).comp hu
    refine completes_touched (congrArg (guarded s) (heff.trans hanswered)) hdef hset rfl ?_
    rw [slice_setSlice_same _ _ _ n.isLt]
    exact ⟨rfl, by rw [hslice], hset.spine rfl, hset.regs rfl, hset.ports rfl⟩
  case last =>
    intro s n i r x hdef hsafe hin hmsg hop hslots hslot hawait hleft
    have hu := touches_inboxTaken s n.val
    have hslice := slice_inboxTaken s n.isLt
    have heff : xlatDoneEffect s n.val =
        xlatEnded (setSlice s n.val { slice s n.val with inbox := [], xslots := [] }) n.val x.src x.series := by
      rw [xlatDoneEffect_answer n.isLt hsafe hin hmsg hop hslots hslot hawait, xlatAnswered]
      dsimp only
      refine (xlatRelease_last (x := x) n.isLt ?_ ?_ ?_).trans ?_
      · rw [hslice]
        exact hslots
      · rfl
      · exact hleft
      rw [hslice, inboxTaken, setSlice_setSlice]
    have hset := touches_setSlice s n.val { slice s n.val with inbox := [], xslots := [] }
    have hsetSlice := slice_setSlice_same s n.val { slice s n.val with inbox := [], xslots := [] } n.isLt
    obtain ⟨v, hve⟩ : ∃ v, v = setSlice s n.val { slice s n.val with inbox := [], xslots := [] } := ⟨_, rfl⟩
    rw [← hve] at heff hset hsetSlice ⊢
    have htouch := (touches_xlatEnded v n.val x.src x.series).comp hset
    obtain ⟨hinbox, hxslots⟩ := sameSlots_xlatEnded v n.val x.src x.series n.val
    refine ⟨(guarded_defined _ hdef).trans (congrArg (resume s) heff), completes_touched (congrArg (guarded s) heff) hdef htouch rfl
      ⟨?_, ?_, htouch.spine rfl, htouch.regs rfl, htouch.ports rfl⟩⟩
    · rw [hxslots, hsetSlice]
    · rw [hinbox, hsetSlice]
  case signal =>
    intro s n i src k hdef hin hmsg
    have heff : xlatSignalEffect s n.val = setSlice s n.val (closeWatches src k { slice s n.val with inbox := [] }) := by
      unfold xlatSignalEffect
      rw [takeMsg_only hin (by rw [hmsg])]
      dsimp only
      rw [hmsg]
      dsimp only
      rw [slice_inboxTaken s n.isLt, inboxTaken, setSlice_setSlice]
    exact completes_touched (congrArg (guarded s) heff) hdef (touches_setSlice s n.val _) rfl rfl
  case watch =>
    intro s n k w hdef hw hslot hdue
    have heff := hazardExpireEffect_due hw hdue
    rw [hslot] at heff
    have hset := touches_setSlice s n.val { slice s n.val with watches := [] }
    have hsetSlice := slice_setSlice_same s n.val { slice s n.val with watches := [] } n.isLt
    obtain ⟨u, hue⟩ : ∃ u, u = setSlice s n.val { slice s n.val with watches := [] } := ⟨_, rfl⟩
    rw [← hue] at heff hset hsetSlice
    have hsat := touches_satAdd u (slcBase n.val + 0x410) 0 16 1
    have hcount := getFld_satAdd u (slcBase n.val + 0x410) (lo := 0) (n := 16) 1 (by decide)
    have hother : getReg (satAdd u (slcBase n.val + 0x410) 0 16 1) (slcBase n.val + 0x408) = getReg u (slcBase n.val + 0x408) :=
      getReg_setFld_ne _ _ _ _ (by omega)
    obtain ⟨v, hve⟩ : ∃ v, v = satAdd u (slcBase n.val + 0x410) 0 16 1 := ⟨_, rfl⟩
    rw [← hve] at heff hsat hcount hother
    have hcap : Touches { regs := true } v (watchCapture v n.val w) :=
      .ite (.refl _) ((touches_setReg _ _ _).after rfl <| (touches_setReg _ _ _).mono rfl)
    have hbit := getBit_watchCapture v n.val w
    have hkeep := getReg_watchCapture_ne v n.val w (a := slcBase n.val + 0x410) (by omega) (by omega)
    have hstands : getBit v (slcBase n.val + 0x408) 31 = true → watchCapture v n.val w = v := fun h => if_pos h
    obtain ⟨x, hxe⟩ : ∃ x, x = watchCapture v n.val w := ⟨_, rfl⟩
    rw [← hxe] at heff hcap hbit hkeep hstands
    have hlog := touches_logRecord x 2 n.val w.src.toNat w.opcode.toNat (w.line % 2 ^ 30)
    have hreg : ∀ k, k < 0x800 → getReg (logRecord x 2 n.val w.src.toNat w.opcode.toNat (w.line % 2 ^ 30)) (slcBase n.val + k)
        = getReg x (slcBase n.val + k) := fun k hk => getReg_logRecord_ne _ _ _ _ _ _ (slcBase_apart _ _ hk n.isLt)
    have htouch := hlog.after rfl <| hcap.after rfl <| hsat.after rfl
      (hset.mono rfl : Touches { regs := true, slices := true, obs := true } s u)
    refine completes_touched (congrArg (guarded s) heff) hdef htouch rfl ⟨?_, ?_, ?_, fun hstood => ?_, htouch.chans rfl, htouch.dram rfl,
      htouch.ports rfl⟩
    · rw [slice_congr (hlog.slices rfl), slice_congr (hcap.slices rfl), slice_congr (hsat.slices rfl), hsetSlice]
    · unfold getFld at hcount ⊢
      rw [hreg _ (by decide), hkeep, hcount, getReg_congr (hset.regs rfl)]
      rfl
    · unfold getBit at hbit ⊢
      rw [hreg _ (by decide)]
      exact hbit
    · have hsame : getReg v (slcBase n.val + 0x408) = getReg s (slcBase n.val + 0x408) := hother.trans (getReg_congr (hset.regs rfl) _)
      rw [hreg _ (by decide), hstands (by unfold getBit at hstood ⊢; rw [hsame]; exact hstood), hsame]

end Sys2Proof.Proofs
end

section
/-! PROOF. Snoop timeouts, the filter scrub and reclamation (O49). -/

namespace Sys2Proof.Proofs

open Sys2Proof.Machine Sys2Proof.Safety Sys2Proof.Laws

variable {s : State} {n : Nat}

-- the snoop timer

theorem snoopTimeoutEffect_entry {id : Nat} {e : Entry} {d : Nat} (hid : id < 192) (hfind : findEntry s n id = some e)
    (htimer : e.coll.timer = some d) : snoopTimeoutEffect s n id =
      if d ≤ s.tick then expire (setEntry s n { e with coll := rearm s n e.coll }) n id (outstanding e.coll) else s := by
  have hdue : timerDue s e.coll.timer = decide (d ≤ s.tick) := by
    rw [htimer]
    rfl
  unfold snoopTimeoutEffect
  dsimp only
  rw [if_pos hid, hfind]
  by_cases h : d ≤ s.tick
  · rw [Option.filter_some_pos (p := fun e : Entry => timerDue s e.coll.timer) (by rw [hdue]; exact decide_eq_true h), if_pos h]
  · rw [Option.filter_some_neg (p := fun e : Entry => timerDue s e.coll.timer) (by rw [hdue, decide_eq_false h]), if_neg h]

-- the checks of a set

theorem codeFound_clean (s : State) (n st w : Nat) : codeFound s n st w .clean = s := rfl

theorem codeFound_multi {w : Nat} (s : State) (n st : Nat) (y : BitVec 9) (hw : w < 12) :
    codeFound s n st w (.multi y) = report (stopSet (sfDetect s n 1 st w y.toNat) n st) n 4 := by
  show sfUncorrectable s n 1 st w y.toNat false = _
  unfold sfUncorrectable
  rw [Bool.false_and, if_neg (by decide)]
  dsimp only
  rw [if_neg (by decide), if_neg (Nat.not_le.mpr hw)]

theorem codeCheck_unarmed (k st w : Nat) (c : CodeErr) (h : getBit s 0x320018 0 = false) : codeCheck s n k st w c = codeFound s n st w c := by
  have harmed : blotArmed s k n = false := by rw [blotArmed, h, Bool.false_and, Bool.false_and]
  unfold codeCheck
  dsimp only
  rw [harmed, blotUse_unarmed harmed]
  exact if_pos (.inl rfl)

theorem nruCheck_unarmed (st : Nat) (h : getBit s 0x320018 0 = false) : nruCheck s n st false = s := by
  have harmed : blotArmed s 6 n = false := by rw [blotArmed, h, Bool.false_and, Bool.false_and]
  unfold nruCheck
  dsimp only
  rw [harmed, blotUse_unarmed harmed, Bool.false_and]
  rfl

theorem foldl_range_idle {α : Type} {f : α → Nat → α} (m : Nat) (a : α) (h : ∀ b k, f b k = b) : (List.range m).foldl f a = a := by
  induction m with
  | zero => rfl
  | succ m ih => rw [List.range_succ, List.foldl_append, ih, List.foldl_cons, List.foldl_nil, h]

/-- A sweep in which one number alone acts. -/
theorem foldl_range_only {α : Type} {f : α → Nat → α} {m w : Nat} (a : α) (hw : w < m) (h : ∀ b k, k ≠ w → f b k = b) :
    (List.range m).foldl f a = f a w := by
  have hbelow : ∀ j, j ≤ w → (List.range j).foldl f a = a := by
    intro j
    induction j with
    | zero => exact fun _ => rfl
    | succ j ih =>
      intro hj
      rw [List.range_succ, List.foldl_append, ih (by omega), List.foldl_cons, List.foldl_nil, h _ _ (by omega)]
  induction m with
  | zero => exact absurd hw (Nat.not_lt_zero w)
  | succ m ih =>
    rw [List.range_succ, List.foldl_append, List.foldl_cons, List.foldl_nil]
    by_cases hm : w < m
    · rw [ih hm, h _ _ (by omega)]
    · obtain rfl : m = w := by omega
      rw [hbelow m (Nat.le_refl m)]

/-- What a scrub read finds, where the blotter is not armed. -/
theorem setChecks_scrub (st : Nat) (e : SetErr) (h : getBit s 0x320018 0 = false) : setChecks s n st 0 false e =
    nruCheck ((List.range 12).foldl (fun s k => codeFound s n st k (match e with
      | .entry i c => if i.val = k then c else .clean
      | _ => .clean)) s) n st (e == .nruParity) := by
  obtain ⟨err, herr⟩ : ∃ f : Nat → CodeErr, f = fun (k : Nat) => match e with
    | .entry i c => if i.val = k then c else .clean
    | _ => .clean := ⟨_, rfl⟩
  have hsweep : (List.range 12).foldl (fun s k => if k = 0 then s else codeFound s n st k (err k)) (codeCheck s n 4 st 0 (err 0))
      = (List.range 12).foldl (fun s k => codeFound s n st k (err k)) s := by
    rw [codeCheck_unarmed 4 st 0 _ h]
    rfl
  unfold setChecks
  dsimp only
  simp only [Bool.false_eq_true, false_and, if_false]
  rw [herr] at hsweep
  exact congrArg (fun u => nruCheck u n st (e == .nruParity)) hsweep

theorem setChecks_clean (st : Nat) (h : getBit s 0x320018 0 = false) : setChecks s n st 0 false .clean = s := by
  rw [setChecks_scrub st .clean h, foldl_range_idle 12 s (fun b k => codeFound_clean b n st k)]
  exact nruCheck_unarmed st h

/-- An uncorrectable entry stops its set. -/
theorem setChecks_multi (st : Nat) (w : Fin 12) (y : BitVec 9) (hn : n < 8) (h : getBit s 0x320018 0 = false) :
    setChecks s n st 0 false (.entry w (.multi y)) = report (stopSet (sfDetect s n 1 st w.val y.toNat) n st) n 4 := by
  have hsweep : (List.range 12).foldl (fun s k => codeFound s n st k (if w.val = k then .multi y else .clean)) s
      = report (stopSet (sfDetect s n 1 st w.val y.toNat) n st) n 4 := by
    rw [foldl_range_only (w := w.val) s w.isLt (fun b k hk => by rw [if_neg (Ne.symm hk)]; exact codeFound_clean b n st k), if_pos rfl,
      codeFound_multi s n st y w.isLt]
  have hquiet : getBit (report (stopSet (sfDetect s n 1 st w.val y.toNat) n st) n 4) 0x320018 0 = false := by
    have hreport := (report_spares (stopSet (sfDetect s n 1 st w.val y.toNat) n st) (u := n) 4 (by omega)).regs 0x320018
    have hdetect : getReg (sfDetect s n 1 st w.val y.toNat) 0x320018 = getReg s 0x320018 :=
      getReg_raiseErr_ne s 1 _ (by unfold slcBase; omega) (by unfold slcBase; omega)
    have hstop : getReg (stopSet (sfDetect s n 1 st w.val y.toNat) n st) 0x320018 = getReg (sfDetect s n 1 st w.val y.toNat) 0x320018 :=
      getReg_congr ((touches_setSlice _ _ _).regs rfl) _
    unfold getBit at h ⊢
    rw [hreport (by simp [SparedReg, QuietReg]) (by simp [FaultReg]), hstop, hdetect]
    exact h
  rw [setChecks_scrub st _ h]
  refine (congrArg (fun u => nruCheck u n st _) hsweep).trans ?_
  exact nruCheck_unarmed st hquiet

/-- The set after this one is next. -/
def scrubbed (s : State) (n : Nat) : State :=
  setSlice s n { slice s n with scrubSet := ((slice s n).scrubSet + 1) % 16384, scrubDue := s.tick + scrubTicks s n }

theorem filterScrubEffect_due (e : SetErr) (hrun : running s = true) (hon : getBit s (slcBase n + 0x200) 4 = true)
    (hpwr : slicePwr s n = true) (hdue : (slice s n).scrubDue ≤ s.tick) (hwait : lookupsWait s n ((slice s n).scrubSet % 4) = false) :
    filterScrubEffect s n e = setChecks (scrubbed s n) n (slice s n).scrubSet 0 false e :=
  if_pos ⟨hon, hpwr, hrun, hdue, by rw [hwait]; rfl⟩

/-- Settles O49: the timer, the scrub read and the scan, each with its guard. -/
theorem slicesSweep : Obligations.SlicesSweep := by
  unfold Obligations.SlicesSweep
  refine ⟨?expired, ?running, ?clean, ?stopped, ?waits, ?noScan, ?scan⟩
  case expired =>
    intro s n i e d hdef hid hfind htimer hdue
    refine (guarded_defined _ hdef).trans (congrArg (resume s) ((snoopTimeoutEffect_entry hid hfind htimer).trans ?_))
    exact if_pos hdue
  case running =>
    intro s n i e d hdef hid hfind htimer hdue
    exact (congrArg (guarded s) ((snoopTimeoutEffect_entry hid hfind htimer).trans (if_neg (Nat.not_le.mpr hdue)))).trans
      (guarded_same hdef)
  case clean =>
    rintro s n ⟨hdef, hrun⟩ hon hpwr hdue hblot hwait
    have hset := touches_setSlice s n.val
      { slice s n.val with scrubSet := ((slice s n.val).scrubSet + 1) % 16384, scrubDue := s.tick + scrubTicks s n.val }
    have heff := (filterScrubEffect_due .clean hrun hon hpwr hdue hwait).trans
      (setChecks_clean _ ((getBit_congr (hset.regs rfl) _ _).trans hblot))
    refine completes_touched (congrArg (guarded s) heff) hdef hset rfl ?_
    rw [scrubbed, slice_setSlice_same _ _ _ n.isLt]
    exact ⟨rfl, rfl, rfl, hset.regs rfl, hset.chans rfl, hset.dram rfl⟩
  case stopped =>
    rintro s n w y ⟨hdef, hrun⟩ hon hpwr hdue hblot hwait
    have hset := touches_setSlice s n.val
      { slice s n.val with scrubSet := ((slice s n.val).scrubSet + 1) % 16384, scrubDue := s.tick + scrubTicks s n.val }
    exact (guarded_defined _ hdef).trans (congrArg (resume s) ((filterScrubEffect_due _ hrun hon hpwr hdue hwait).trans
      (setChecks_multi _ w y n.isLt ((getBit_congr (hset.regs rfl) _ _).trans hblot))))
  case waits =>
    intro s n e hdef hwait
    refine (congrArg (guarded s) (if_neg ?_)).trans (guarded_same hdef)
    rintro ⟨-, -, -, -, hgo⟩
    rw [hwait] at hgo
    cases hgo
  case noScan =>
    intro s n hdef hscan
    exact (congrArg (guarded s) (if_pos (by rw [hscan]; rfl))).trans (guarded_same hdef)
  case scan =>
    intro s n hdef hscan
    exact (guarded_defined _ hdef).trans (congrArg (resume s) (if_neg (by rw [List.isEmpty_iff]; exact hscan)))

end Sys2Proof.Proofs
end

section
/-! PROOF. Refresh, idle rows, refresh rate, ZQ and oscillator of a channel (O50). -/

namespace Sys2Proof.Laws

open Sys2Proof.Machine Sys2Proof.Safety

theorem refreshAt_setRefresh_same (s : State) {c r : Nat} (f : Refresh) (hc : c < 16) (hr : r < 2) :
    refreshAt (chan (setRefresh s c r f) c) r = f := by
  unfold setRefresh refreshAt
  rw [dif_pos hr, dif_pos hr, chan_setChan_same _ _ _ hc]
  exact Vector.getElem_set_self _

theorem refreshAt_setRefresh_ne (s : State) {c r q : Nat} (f : Refresh) (hc : c < 16) (h : q ≠ r) :
    refreshAt (chan (setRefresh s c r f) c) q = refreshAt (chan s c) q := by
  unfold setRefresh
  split
  · rw [chan_setChan_same _ _ _ hc]
    unfold refreshAt
    split
    · exact Vector.getElem_set_ne ‹r < 2› ‹q < 2› (Ne.symm h)
    · rfl
  · rfl

theorem chan_setRefresh_ne (s : State) {c d : Nat} (r : Nat) (f : Refresh) (h : d ≠ c) : chan (setRefresh s c r f) d = chan s d := by
  unfold setRefresh
  split
  · exact chan_setChan_ne _ _ h
  · rfl

end Sys2Proof.Laws

namespace Sys2Proof.Proofs

open Sys2Proof.Machine Sys2Proof.Safety Sys2Proof.Laws

variable {s : State} {c r : Nat}

-- a counted event leaves every register but the overflows of its unit

theorem getReg_pmuAdd_ne {k a : Nat} (ha : a ≠ pmuBase k + 0x80) : ∀ (fuel : Nat) (s : State) (i n : Nat),
    getReg (pmuAdd fuel s k i n) a = getReg s a
  | 0, _, _, _ => rfl
  | fuel + 1, s, i, n => by
    unfold pmuAdd
    extract_lets v u
    have hu : getReg u a = getReg s a := rfl
    split
    · exact hu
    · split
      · exact (getReg_pmuAdd_ne ha fuel u (i + 1) 1).trans hu
      · exact (getReg_setBit_ne u i true ha).trans hu

theorem getReg_pmuEvents_ne {k a : Nat} (e n : Nat) (ha : a ≠ pmuBase k + 0x80) : getReg (pmuEvents s k e n) a = getReg s a := by
  unfold pmuEvents
  split
  · refine forEach_keeps (P := fun u => getReg u a = getReg s a) (fun u i hu => ?_) 8 rfl
    extract_lets c
    split
    · exact (getReg_pmuAdd_ne ha 8 u i n).trans hu
    · exact hu
  · rfl

theorem getReg_countReserved_ne {a : Nat} (ha : a ≠ pmuBase (8 + c) + 0x80) : getReg (countReserved s c) a = getReg s a := by
  unfold countReserved
  split
  · exact getReg_pmuEvents_ne _ _ ha
  · rfl

theorem timPs_congr {u : State} (i lo n : Nat) (htim : getReg u (mcBase c + 0x10 + 4 * i) = getReg s (mcBase c + 0x10 + 4 * i))
    (hck : getReg u (mcBase c) = getReg s (mcBase c)) : timPs u c i lo n = timPs s c i lo n := by
  unfold timPs ckPs getFld
  rw [htim, hck]

theorem timPs_countReserved (hc : c < 16) (i lo n : Nat) (hi : i < 8) : timPs (countReserved s c) c i lo n = timPs s c i lo n :=
  timPs_congr i lo n (getReg_countReserved_ne (by unfold mcBase pmuBase; omega)) (getReg_countReserved_ne (by unfold mcBase pmuBase; omega))

theorem rowIdleEffect_closes {b : Nat} (hc : c < 16) (hlive : chanLive s c = true) (hrow : (bankAt (chan s c) r b).row.isSome = true)
    (hidle : (bankAt (chan s c) r b).idleDue ≤ nowPs s) (hpre : (bankAt (chan s c) r b).preAt ≤ nowPs s)
    (hfree : rowTargeted s c r b = false) : rowIdleEffect s c r b = setBank (countReserved s c) c r b
      { bankAt (chan s c) r b with row := none, ready := nowPs s + timPs s c 0 24 8, hits := 0, close := false } := by
  have hcount := touches_countReserved s c
  have hchan : chan (countReserved s c) c = chan s c := chan_congr (hcount.chans rfl) c
  have hnow : nowPs (countReserved s c) = nowPs s := congrArg (· * 1000) (hcount.tick rfl)
  unfold rowIdleEffect
  dsimp only
  rw [if_pos ⟨hlive, hrow, hidle, hpre, by rw [hfree]; rfl⟩]
  unfold doPrecharge prechargeAt
  dsimp only
  rw [hchan, hnow, timPs_countReserved hc 0 24 8 (by decide)]

-- the refresh rate

theorem ranksOf_congr {u : State} (h : u.regs = s.regs) (c : Nat) : ranksOf u c = ranksOf s c := by
  unfold ranksOf twoRanks
  rw [getBit_congr h]

/-- The state after a rank has answered: its rate, and the highest of the channel's ranks. -/
def rated (s : State) (c r : Nat) (m : BitVec 2) : State :=
  let u := setRefresh s c r { refreshAt (chan s c) r with mr4Due := s.tick + 4000000, multAt := m }
  setFld u (mcBase c + 0x48) 5 2 ((ranksOf s c).foldl (fun a k => max a (refreshAt (chan u c) k).multAt.toNat) 0)

theorem touches_rated (s : State) (c r : Nat) (m : BitVec 2) : Touches { regs := true, chans := true } s (rated s c r m) :=
  (touches_setFld _ _ _ _ _).after rfl <| (touches_setRefresh _ _ _ _).mono rfl

theorem mr4Effect_due (m : BitVec 2) (out : Bool) (hlive : chanLive s c = true) (hr : r < (ranksOf s c).length)
    (hdue : (refreshAt (chan s c) r).mr4Due ≤ s.tick) : mr4Effect s c r m out =
      if out then report (rated s c r 2) (8 + c) 6 else rated s c r (if m = 3 then 2 else m) := by
  unfold mr4Effect rated
  dsimp only
  rw [if_pos ⟨hlive, hr, hdue⟩]
  cases out with
  | false =>
    rw [if_neg Bool.false_ne_true, if_neg Bool.false_ne_true, if_neg Bool.false_ne_true,
      ranksOf_congr ((touches_setRefresh _ _ _ _).regs rfl) c]
  | true => rw [if_pos rfl, if_pos rfl, if_pos rfl, ranksOf_congr ((touches_setRefresh _ _ _ _).regs rfl) c]

theorem refreshAt_rated_same (m : BitVec 2) (hc : c < 16) (hr : r < 2) : refreshAt (chan (rated s c r m) c) r =
    { refreshAt (chan s c) r with mr4Due := s.tick + 4000000, multAt := m } :=
  refreshAt_setRefresh_same s _ hc hr

theorem refreshAt_rated_ne {q : Nat} (m : BitVec 2) (hc : c < 16) (h : q ≠ r) :
    refreshAt (chan (rated s c r m) c) q = refreshAt (chan s c) q :=
  refreshAt_setRefresh_ne s _ hc h

theorem getFld_rated {r q : Fin 2} (m : BitVec 2) (hc : c < 16) (htwo : twoRanks s c = true) (hqr : q ≠ r) :
    getFld (rated s c r m) (mcBase c + 0x48) 5 2 = max m.toNat (refreshAt (chan s c) q).multAt.toNat := by
  have hother : (q : Nat) ≠ r := fun h => hqr (Fin.ext h)
  have hranks : ranksOf s c = [0, 1] := if_pos htwo
  have hthis : (refreshAt (chan (setRefresh s c r { refreshAt (chan s c) r with mr4Due := s.tick + 4000000, multAt := m }) c) r).multAt = m :=
    congrArg Refresh.multAt (refreshAt_setRefresh_same s _ hc r.isLt)
  have hthat := refreshAt_setRefresh_ne s { refreshAt (chan s c) r with mr4Due := s.tick + 4000000, multAt := m } hc hother
  unfold rated
  dsimp only
  rw [getFld_setFld_same _ _ _ (by decide), hranks]
  have hm := m.isLt
  have hq := (refreshAt (chan s c) q).multAt.isLt
  obtain ⟨rfl, rfl⟩ | ⟨rfl, rfl⟩ : (r = 0 ∧ q = 1) ∨ (r = 1 ∧ q = 0) := by omega
  all_goals
    simp only [List.foldl_cons, List.foldl_nil]
    simp only [Fin.isValue, Fin.val_zero, Fin.val_one] at hthis hthat hq ⊢
    rw [hthis, hthat]
    omega

theorem regsBut_rated (m : BitVec 2) : RegsBut (mcBase c + 0x48) s (rated s c r m) := fun a ha => by
  unfold rated
  dsimp only
  rw [getReg_setFld_ne _ _ _ _ ha, getReg_congr ((touches_setRefresh _ _ _ _).regs rfl)]

theorem chan_rated_ne {d : Nat} (m : BitVec 2) (h : d ≠ c) : chan (rated s c r m) d = chan s d :=
  chan_setRefresh_ne s r _ h

/-- Settles O50: each timer is the equation of its effect where it is due, and the identity where it is not; a count in a
reserved slot changes no register that a channel's timing is read from. -/
theorem channelTimers : Obligations.ChannelTimers := by
  unfold Obligations.ChannelTimers
  refine ⟨?_, ?_, ?_, ?_, ?_, ?_, ?_, ?_⟩
  · intro s c r hdef hlive hr hdue
    exact completes_touched (u := refreshIntervalEffect s c r) rfl hdef (touches_refreshIntervalEffect s c r) rfl
      (if_pos ⟨hlive, hr, hdue⟩)
  · intro s c r hdef hearly
    have hstay : refreshIntervalEffect s c r = s := if_neg fun h => Nat.not_le.mpr hearly h.2.2
    exact (congrArg (guarded s) hstay).trans (guarded_same hdef)
  · intro s c r b hdef hlive hrow hidle hpre hfree
    exact completes_touched (u := rowIdleEffect s c r b) rfl hdef (touches_rowIdleEffect s c r b) rfl
      (rowIdleEffect_closes c.isLt hlive hrow hidle hpre hfree)
  · intro s c r b hdef hnot
    have hstay : rowIdleEffect s c r b = s := if_neg fun ⟨_, hrow, hidle, _⟩ => hnot.elim
      (fun h => by rw [h] at hrow; exact Bool.false_ne_true hrow) (fun h => Nat.not_le.mpr h hidle)
    exact (congrArg (guarded s) hstay).trans (guarded_same hdef)
  · intro s c r hdef hlive hr hdue
    exact completes_touched (u := zqEffect s c r) rfl hdef (touches_zqEffect s c r) rfl (if_pos ⟨hlive, hr, hdue⟩)
  · intro s c r n hdef hlive hr hdue
    exact completes_touched (u := dqsEffect s c r n) rfl hdef (touches_dqsEffect s c r n) rfl (if_pos ⟨hlive, hr, hdue⟩)
  · intro s c r q m hdef hlive htwo hqr hm hdue
    have hr : r.val < (ranksOf s c.val).length := by
      rw [ranksOf, if_pos htwo]
      exact r.isLt
    have heffect : mr4Effect s c r m false = rated s c r m := by
      rw [mr4Effect_due m false hlive hr hdue, if_neg Bool.false_ne_true, if_neg hm]
    have htouch := touches_rated s c.val r.val m
    refine completes_touched (u := rated s c r m) (congrArg (guarded s) heffect) hdef htouch rfl ⟨?_, ?_, ?_, ?_, ?_, ?_⟩
    · exact getFld_rated m c.isLt htwo hqr
    · exact congrArg Refresh.multAt (refreshAt_rated_same m c.isLt r.isLt)
    · exact refreshAt_rated_ne m c.isLt fun h => hqr (Fin.ext h)
    · exact regsBut_rated m
    · exact htouch.frame
    · exact fun d hd => chan_rated_ne m hd
  · intro s c r m hdef hlive hr hdue
    refine ⟨rated s c r 2, ?_, ?_⟩
    · exact (congrArg (guarded s) ((mr4Effect_due 2 false hlive hr hdue).trans ((if_neg Bool.false_ne_true).trans
        (congrArg (rated s c r) (if_neg (by decide)))))).trans (guarded_touched (touches_rated s c r 2) rfl hdef)
    · exact (guarded_defined _ hdef).trans (congrArg (resume s) ((mr4Effect_due m true hlive hr hdue).trans (if_pos rfl)))

end Sys2Proof.Proofs
end

section
/-! PROOF. Lines that return from DRAM, and the scrub of a channel (O51). -/

namespace Sys2Proof.Proofs

open Sys2Proof.Machine Sys2Proof.Safety Sys2Proof.Laws

variable {s : State} {c : Nat}

-- the reads that return

theorem lineReadEffect_idle (x y : LineData) (b : Option (Fin 10)) (h : ∀ r ∈ (chan s c).rdq, r.issued = false) :
    lineReadEffect s c x y b = s := by
  have hnone : nextReturn s c = none := List.find?_eq_none.mpr fun r hr => by
    rw [h r hr, Bool.false_and]
    exact Bool.false_ne_true
  unfold lineReadEffect
  split
  · rfl
  · rw [hnone]

/-- The channel without the one read that it had, the arbiter free. -/
theorem chan_taken {r : RdReq} (hrdq : (chan s c).rdq = [r]) (hfree : (chan s c).arb.holder = none) :
    { chan s c with rdq := (chan s c).rdq.filter (fun y => y.id != r.id),
                    arb := if (chan s c).arb.holder = some r.id then { (chan s c).arb with holder := none } else (chan s c).arb } =
      { chan s c with rdq := [] } := by
  rw [hrdq, hfree, if_neg (by intro h; cases h), List.filter_cons_of_neg (by rw [bne_self_eq_false]; exact Bool.false_ne_true),
    List.filter_nil]

theorem nextReturn_single {r : RdReq} (hrdq : (chan s c).rdq = [r]) (hissued : r.issued = true) (hlone : chanArbited s c = false) :
    nextReturn s c = some r := by
  unfold nextReturn
  dsimp only
  rw [hrdq]
  exact List.find?_cons_of_pos (by rw [hissued, hlone]; rfl)

theorem lineReadEffect_data {r : RdReq} (x y : LineData) (b : Option (Fin 10)) (hrun : running s = true)
    (hrdq : (chan s c).rdq = [r]) (hissued : r.issued = true) (hlone : chanArbited s c = false)
    (hfree : (chan s c).arb.holder = none) (hdata : ∀ k, r.use ≠ .check k) : lineReadEffect s c x y b =
      pumpChan (serveReads (sealOwed (decodeRead (setChan s c { chan s c with rdq := [] }) c r x y b)) c) c := by
  unfold lineReadEffect
  rw [if_neg (not_not_true hrun), nextReturn_single hrdq hissued hlone]
  dsimp only
  rw [chan_taken hrdq hfree]
  cases huse : r.use with
  | check k => exact absurd huse (hdata k)
  | entry n id => rfl
  | merge => rfl
  | scrub => rfl

theorem lineReadEffect_check {r : RdReq} {k : Nat} (x y : LineData) (b : Option (Fin 10)) (hrun : running s = true)
    (hrdq : (chan s c).rdq = [r]) (hissued : r.issued = true) (hlone : chanArbited s c = false)
    (hfree : (chan s c).arb.holder = none) (huse : r.use = .check k) : lineReadEffect s c x y b =
      pumpChan (serveReads (sealOwed (scrubCheck (setChan s c { chan s c with rdq := [] }) c (r.m / 28) k y)) c) c := by
  unfold lineReadEffect
  rw [if_neg (not_not_true hrun), nextReturn_single hrdq hissued hlone]
  dsimp only
  rw [chan_taken hrdq hfree, huse]

-- the scrub

/-- Reads with these line numbers and uses were queued behind the others, and nothing else of the channels changed. -/
structure QueuedBehind (s t : State) (c : Nat) (l : List (Nat × ReadFor)) : Prop where
  queue : ∃ q, (chan t c).rdq = (chan s c).rdq ++ q ∧ q.map (fun r => (r.m, r.use)) = l
  due : (chan t c).scrubDue = (chan s c).scrubDue
  others : ∀ d, d ≠ c → chan t d = chan s d

theorem QueuedBehind.trans {t u : State} {l m : List (Nat × ReadFor)} (h : QueuedBehind s t c l) (h' : QueuedBehind t u c m) :
    QueuedBehind s u c (l ++ m) := by
  obtain ⟨q, hq, hl⟩ := h.queue
  obtain ⟨q', hq', hm⟩ := h'.queue
  refine ⟨⟨q ++ q', ?_, ?_⟩, h'.due.trans h.due, fun d hd => (h'.others d hd).trans (h.others d hd)⟩
  · rw [hq', hq, List.append_assoc]
  · rw [List.map_append, hl, hm]

theorem queuedBehind_pushRead (r : RdReq) (hc : c < 16) : QueuedBehind s (pushRead s c r) c [(r.m, r.use)] where
  queue := ⟨_, rdq_pushRead s c r hc, rfl⟩
  due := by
    unfold pushRead
    dsimp only
    rw [chan_setChan_same _ _ _ hc]
  others := fun _ hd => chan_setChan_ne s _ hd

theorem queuedBehind_forEach (m : Nat → Nat) (use : Nat → ReadFor) (hc : c < 16) (s : State) : ∀ n,
    QueuedBehind s (forEach n s (fun s k => pushRead s c (scrubRead s (m k) (use k)))) c ((List.range n).map fun k => (m k, use k))
  | 0 => ⟨⟨[], (List.append_nil _).symm, rfl⟩, rfl, fun _ _ => rfl⟩
  | n + 1 => by
    rw [forEach_succ, List.range_succ, List.map_append]
    exact (queuedBehind_forEach m use hc s n).trans (queuedBehind_pushRead _ hc)

theorem queuedBehind_pushScrub (s : State) (u : Nat) (hc : c < 16) : QueuedBehind s (pushScrub s c u) c
    ((List.range 4).map (fun k => (28 * u + 7 * k, ReadFor.check k)) ++ (List.range 28).map (fun i => (28 * u + i, ReadFor.scrub))) :=
  (queuedBehind_forEach (fun k => 28 * u + 7 * k) .check hc s 4).trans (queuedBehind_forEach (fun i => 28 * u + i) (fun _ => .scrub) hc _ 28)

/-- The channel at the start of a scrub interval. -/
def scrubbing (s : State) (c : Nat) (urgent : Bool) : State :=
  setChan s c { chan s c with scrubDue := s.tick + max 1 (getFld s (mcBase c + 0x68) 0 16) * 1000, scrubUrgent := urgent }

/-- The scrub pointer moved on from row unit `u`. -/
def scrubPast (t : State) (c u : Nat) : State :=
  if u + 1 < rowUnits t c then setFld t (mcBase c + 0x6C) 0 23 (u + 1)
  else setFld (setFld t (mcBase c + 0x6C) 0 23 0) (mcBase c + 0x6C) 24 8 (getFld t (mcBase c + 0x6C) 24 8 + 1)

theorem touches_scrubPast (t : State) (c u : Nat) : Touches { regs := true } t (scrubPast t c u) :=
  .ite (touches_setFld _ _ _ _ _) ((touches_setFld _ _ _ _ _).after rfl <| touches_setFld _ _ _ _ _)

theorem regsBut_scrubPast (t : State) (c u : Nat) : RegsBut (mcBase c + 0x6C) t (scrubPast t c u) := fun a ha => by
  unfold scrubPast
  split
  · exact getReg_setFld_ne _ _ _ _ ha
  · exact (getReg_setFld_ne _ _ _ _ ha).trans (getReg_setFld_ne _ _ _ _ ha)

theorem getFld_scrubPast (t : State) (c u : Nat) : getFld (scrubPast t c u) (mcBase c + 0x6C) 0 23 =
    if u + 1 < rowUnits t c then (u + 1) % 2 ^ 23 else 0 := by
  unfold scrubPast
  split
  · exact getFld_setFld_same _ _ _ (by decide)
  · rw [getFld_setFld_ne _ _ _ (by decide) (by decide), getFld_setFld_same _ _ _ (by decide), Nat.zero_mod]

theorem setChan_setChan (s : State) (c : Nat) (x y : Chan) : setChan (setChan s c x) c y = setChan s c y := by
  unfold setChan
  split
  · rw [Vector.set_set]
  · rfl

theorem scrubEffect_left {r : RdReq} (hc : c < 16) (hlive : chanLive s c = true) (hon : scrubOn s c = true)
    (hdue : (chan s c).scrubDue ≤ s.tick) (hr : r ∈ (chan s c).rdq) (huse : isScrubRead r.use = true) :
    scrubEffect s c = scrubbing s c true := by
  unfold scrubEffect scrubbing
  dsimp only
  rw [hlive, hon, decide_eq_true hdue, if_neg (by decide), if_pos (List.any_eq_true.mpr ⟨r, hr, huse⟩), chan_setChan_same _ _ _ hc,
    setChan_setChan]

theorem scrubEffect_next (hc : c < 16) (hlive : chanLive s c = true) (hon : scrubOn s c = true)
    (hdue : (chan s c).scrubDue ≤ s.tick) (hnone : ∀ r ∈ (chan s c).rdq, isScrubRead r.use = false) :
    scrubEffect s c = scrubPast (pushScrub (scrubbing s c false) c (getFld s (mcBase c + 0x6C) 0 23)) c (getFld s (mcBase c + 0x6C) 0 23) := by
  have hany : ¬ (chan s c).rdq.any (fun r => isScrubRead r.use) = true := fun h => by
    obtain ⟨r, hr, huse⟩ := List.any_eq_true.mp h
    rw [hnone r hr] at huse
    exact Bool.false_ne_true huse
  have hptr : ∀ x, getFld (setChan s c x) (mcBase c + 0x6C) 0 23 = getFld s (mcBase c + 0x6C) 0 23 := fun x =>
    getFld_congr ((touches_setChan s c x).regs rfl) _ _ _
  unfold scrubEffect scrubbing scrubPast
  dsimp only
  rw [hlive, hon, decide_eq_true hdue, if_neg (by decide), if_neg hany, hptr, chan_setChan_same _ _ _ hc, setChan_setChan]

theorem rowUnits_congr {u : State} (h : u.regs = s.regs) (c : Nat) : rowUnits u c = rowUnits s c := by
  unfold rowUnits rowsPerBank twoRanks
  simp only [getBit_congr h, getFld_congr h]

/-- Settles O51: the lone read that DRAM returned leaves the queue and goes through the decoder of its use; the scrub queues
the lines of a row unit one by one and moves the pointer. -/
theorem readsAndScrub : Obligations.ReadsAndScrub := by
  unfold Obligations.ReadsAndScrub
  refine ⟨?_, ?_, ?_, ?_, ?_, ?_⟩
  · intro s c x y b hdef hidle
    exact (congrArg (guarded s) (lineReadEffect_idle x y b hidle)).trans (guarded_same hdef)
  · intro s c x y b r hawake hrdq hissued hlone hdata hfree
    exact (guarded_defined _ hawake.1).trans (congrArg (resume s) (lineReadEffect_data x y b hawake.2 hrdq hissued hlone hfree hdata))
  · intro s c x y b r k hawake hrdq hissued hlone huse hfree
    exact (guarded_defined _ hawake.1).trans (congrArg (resume s) (lineReadEffect_check x y b hawake.2 hrdq hissued hlone hfree huse))
  · intro s c hdef hoff
    have hstay : scrubEffect s c = s := if_pos (by rw [hoff, Bool.and_false, Bool.false_and]; rfl)
    exact (congrArg (guarded s) hstay).trans (guarded_same hdef)
  · intro s c hdef hlive hon hdue hnone
    have heffect := scrubEffect_next c.isLt hlive hon hdue hnone
    have hstart : Touches { chans := true } s (scrubbing s c false) := touches_setChan _ _ _
    have hpush := (touches_pushScrub (scrubbing s c false) c (getFld s (mcBase c + 0x6C) 0 23)).after rfl hstart
    have hpast := touches_scrubPast (pushScrub (scrubbing s c false) c (getFld s (mcBase c + 0x6C) 0 23)) c (getFld s (mcBase c + 0x6C) 0 23)
    have hqueue := queuedBehind_pushScrub (scrubbing s c false) (getFld s (mcBase c + 0x6C) 0 23) c.isLt
    have hchan : chan (scrubbing s c false) c = _ := chan_setChan_same s c _ c.isLt
    rw [← heffect] at hpast
    refine completes_touched (u := scrubEffect s c) rfl hdef (touches_scrubEffect s c) rfl ⟨?_, ?_, ?_, ?_, ?_, ?_⟩
    · rw [chan_congr (hpast.chans rfl)]
      have hq := hqueue.queue
      rwa [hchan] at hq
    · rw [chan_congr (hpast.chans rfl), hqueue.due, hchan]
    · rw [heffect, getFld_scrubPast, rowUnits_congr (hpush.regs rfl)]
    · exact fun a ha => by rw [heffect, regsBut_scrubPast _ _ _ a ha, getReg_congr (hpush.regs rfl)]
    · have hall : Touches { regs := true, chans := true } s (scrubEffect s c) := hpast.after rfl (hpush.mono rfl)
      exact hall.frame
    · exact fun d hd => by
        rw [chan_congr (hpast.chans rfl), hqueue.others d hd]
        exact chan_setChan_ne s _ hd
  · intro s c r hdef hlive hon hdue hr huse
    have heffect := scrubEffect_left c.isLt hlive hon hdue hr huse
    have hchan : chan (scrubbing s c true) c = _ := chan_setChan_same s c _ c.isLt
    refine completes_touched (congrArg (guarded s) heffect) hdef (touches_setChan _ _ _) rfl ⟨?_, ?_, ?_⟩
    · rw [hchan]
    · rw [hchan]
    · exact (touches_setChan _ _ _).frame

end Sys2Proof.Proofs
end

section
/-! PROOF. The scheduler issues the first command in the order of Table 10.3 (O52). -/

namespace Sys2Proof.Proofs

open Sys2Proof.Machine Sys2Proof.Safety Sys2Proof.Laws

variable {s : State} {c : Nat}

-- the first of a list of candidates

/-- `y` comes before `x`, or stands level with it. -/
def Ahead (y x : Cand) : Prop := y.key < x.key ∨ (y.key = x.key ∧ y.arrival ≤ x.arrival)

theorem Ahead.refl (y : Cand) : Ahead y y := .inr ⟨rfl, Nat.le_refl _⟩

theorem Ahead.trans {x y z : Cand} (h : Ahead x y) (h' : Ahead y z) : Ahead x z := by
  unfold Ahead at *
  omega

/-- The better of the best so far and the next candidate, as `bestCand` folds it. -/
def better (y x : Cand) : Cand := if x.key < y.key ∨ (x.key = y.key ∧ x.arrival < y.arrival) then x else y

theorem better_eq_or (y x : Cand) : better y x = x ∨ better y x = y := ite_eq_or_eq _ _ _

theorem better_ahead_left (y x : Cand) : Ahead (better y x) y := by
  unfold better Ahead
  split
  · omega
  · exact Ahead.refl y

theorem better_ahead_right (y x : Cand) : Ahead (better y x) x := by
  unfold better
  split
  · exact Ahead.refl x
  · unfold Ahead
    omega

theorem bestCand_cons (a : Cand) (l : List Cand) : bestCand (a :: l) = some (l.foldl better a) := by
  unfold bestCand
  rw [List.foldl_cons]
  induction l generalizing a with
  | nil => rfl
  | cons x l ih =>
    rw [List.foldl_cons, List.foldl_cons]
    dsimp only
    rw [← apply_ite some]
    exact ih (better a x)

theorem foldl_better (l : List Cand) (a : Cand) : l.foldl better a ∈ a :: l ∧ ∀ x ∈ a :: l, Ahead (l.foldl better a) x := by
  induction l generalizing a with
  | nil => exact ⟨List.mem_cons_self .., fun x hx => List.mem_singleton.mp hx ▸ Ahead.refl _⟩
  | cons b l ih =>
    obtain ⟨hmem, hfirst⟩ := ih (better a b)
    have hbest := hfirst _ (List.mem_cons_self ..)
    rw [List.foldl_cons]
    refine ⟨?_, fun x hx => ?_⟩
    · obtain h | h := List.mem_cons.mp hmem
      · rw [h]
        obtain h | h := better_eq_or a b <;> rw [h]
        · exact List.mem_cons_of_mem _ (List.mem_cons_self ..)
        · exact List.mem_cons_self ..
      · exact List.mem_cons_of_mem _ (List.mem_cons_of_mem _ h)
    · obtain rfl | hx := List.mem_cons.mp hx
      · exact hbest.trans (better_ahead_left x b)
      · obtain rfl | hx := List.mem_cons.mp hx
        · exact hbest.trans (better_ahead_right a x)
        · exact hfirst x (List.mem_cons_of_mem _ hx)

theorem bestCand_eq_none (l : List Cand) : bestCand l = none ↔ l = [] := by
  cases l with
  | nil => exact ⟨fun _ => rfl, fun _ => rfl⟩
  | cons a l =>
    rw [bestCand_cons]
    exact ⟨nofun, nofun⟩

theorem bestCand_first {l : List Cand} {b : Cand} (h : bestCand l = some b) : b ∈ l ∧ ∀ x ∈ l, Ahead b x := by
  cases l with
  | nil => cases h
  | cons a l =>
    rw [bestCand_cons] at h
    cases h
    exact foldl_better l a

-- the keys of the candidates

theorem key_candNeighbour {x : Cand} (h : x ∈ candNeighbour s c) : x.key = 0 := by
  unfold candNeighbour at h
  simp only [List.mem_flatMap] at h
  obtain ⟨r, -, b, -, h⟩ := h
  split_ifs at h <;> simp only [List.not_mem_nil, List.mem_singleton] at h <;> exact congrArg Cand.key h

theorem key_candRefresh {r : Nat} {x : Cand} (cls : Nat) (h : x ∈ candRefresh s c r cls) : x.key = cls * 64 := by
  unfold candRefresh at h
  dsimp only at h
  split at h
  · rw [List.mem_singleton.mp h]
    rfl
  · split at h
    · rw [List.mem_singleton.mp h]
      rfl
    · exact absurd h List.not_mem_nil

theorem key_candScrubEnd {x : Cand} (h : x ∈ candScrubEnd s c) : x.key = 335 := by
  unfold candScrubEnd at h
  simp only [List.mem_flatMap] at h
  obtain ⟨r, -, b, -, h⟩ := h
  split at h
  · rw [List.mem_singleton.mp h]
    rfl
  · exact absurd h List.not_mem_nil

theorem key_candInit {x : Cand} (h : x ∈ candInit s c) : x.key = 384 := by
  unfold candInit at h
  dsimp only at h
  split at h
  · exact absurd h List.not_mem_nil
  · split at h
    · rw [List.mem_singleton.mp h]
      rfl
    · split at h
      · rw [List.mem_singleton.mp h]
        rfl
      · exact absurd h List.not_mem_nil

/-- The urgency a request is ordered by: a forced write takes the highest of the reads it delays. -/
def raisedUrgency (s : State) (c : Nat) (w : Want) : Nat :=
  if w.forced then ((wants s c).filter (fun v => !v.isWrite)).foldl (fun a v => max a (min 3 v.urgency)) (min 3 w.urgency)
  else min 3 w.urgency

/-- The request is of the kind that goes first: the drain's, turned round at urgency 3. -/
def kindFirst (s : State) (c : Nat) (w : Want) : Bool :=
  if (chan s c).drain then w.isWrite != (raisedUrgency s c w == 3) else w.isWrite == (raisedUrgency s c w == 3)

/-- Ranks 4 and 5 of Table 10.3 within an urgency. -/
def wantRank (s : State) (c : Nat) (w : Want) : Nat :=
  if w.scrub then 3 else (if kindFirst s c w then 0 else 2) + (if w.forced || rowFirst s c w then 0 else 1)

theorem mem_candWant {w : Want} {x : Cand} (h : x ∈ candWant s c w) :
    x.key = wantClass s c w * 64 + ((3 - raisedUrgency s c w) * 4 + wantRank s c w) ∧
      x.arrival = if w.forced then 0 else w.arrival := by
  unfold candWant at h
  split at h
  · exact absurd h List.not_mem_nil
  · rw [List.mem_singleton.mp h]
    exact ⟨rfl, rfl⟩

theorem wantRank_le (s : State) (c : Nat) (w : Want) : wantRank s c w ≤ 3 := by
  unfold wantRank
  split_ifs <;> decide

theorem wantClass_bounds (s : State) (c : Nat) (w : Want) : 2 ≤ wantClass s c w ∧ wantClass s c w ≤ 5 := by
  unfold wantClass
  dsimp only
  split
  · decide
  · split
    · decide
    · split
      · decide
      · split
        · decide
        · split
          · split <;> decide
          · decide

theorem wantClass_plain {w : Want} (h : w.dl = false) : wantClass s c w = 5 := by
  unfold wantClass
  rw [h]
  rfl

theorem wantClass_deadline {v : Want} (hdl : v.dl = true) (h : v.first = false ∨ (inReserved s c = true ∧ (chan s c).slotOpen = true ∧
    (v.isWrite = true ∨ ∃ q, oldestRead (dlPending s c) = some q ∧ v.who = .read q.id))) : wantClass s c v ≤ 3 := by
  unfold wantClass
  dsimp only
  rw [hdl, if_neg (by decide)]
  by_cases hfirst : v.first = true
  · obtain h | ⟨hres, hopen, h⟩ := h
    · rw [hfirst] at h
      cases h
    · rw [hfirst, hres, hopen, if_neg (by decide), if_neg (by decide)]
      by_cases hwrite : v.isWrite = true
      · rw [if_pos hwrite]
      · obtain h | ⟨q, hq, hwho⟩ := h
        · exact absurd h hwrite
        · rw [if_neg hwrite, hq]
          dsimp only
          rw [if_pos hwho]
          decide
  · rw [if_pos (by rw [Bool.eq_false_iff.mpr hfirst]; rfl)]
    decide

theorem raisedUrgency_free {w : Want} (h : w.forced = false) : raisedUrgency s c w = min 3 w.urgency := by
  unfold raisedUrgency
  rw [h, if_neg Bool.false_ne_true]

theorem wantRank_free {w : Want} (hforced : w.forced = false) (hscrub : w.scrub = false) :
    wantRank s c w = (if kindFirst s c w then 0 else 2) + (if rowFirst s c w then 0 else 1) := by
  unfold wantRank
  rw [hscrub, if_neg Bool.false_ne_true, hforced, Bool.false_or]

/-- Of two requests of one urgency, the one of the kind in turn goes first and the other does not. -/
theorem kindFirst_turn {v w : Want} (hv : v.forced = false) (hw : w.forced = false) (hurg : min 3 w.urgency = min 3 v.urgency)
    (hkind : v.isWrite ≠ w.isWrite) (hturn : v.isWrite = ((chan s c).drain != decide (3 ≤ v.urgency))) :
    kindFirst s c v = true ∧ kindFirst s c w = false := by
  have hother : w.isWrite = !v.isWrite := by
    cases hvw : v.isWrite <;> cases hww : w.isWrite <;> simp_all
  have htop : (min 3 v.urgency == 3) = decide (3 ≤ v.urgency) := by
    rw [beq_eq_decide]
    exact decide_eq_decide.mpr (by omega)
  unfold kindFirst
  rw [raisedUrgency_free hv, raisedUrgency_free hw, hurg, htop, hother, hturn]
  cases (chan s c).drain <;> cases decide (3 ≤ v.urgency) <;> decide

theorem kindFirst_same {v w : Want} (hv : v.forced = false) (hw : w.forced = false) (hurg : min 3 w.urgency = min 3 v.urgency)
    (hkind : v.isWrite = w.isWrite) : kindFirst s c v = kindFirst s c w := by
  unfold kindFirst
  rw [raisedUrgency_free hv, raisedUrgency_free hw, hurg, hkind]

theorem rowFirst_below {w : Want} (h : (bankAt (chan s c) w.p.rank w.p.bank).hits < max 1 (getFld s (mcBase c + 0x40) 16 5)) :
    rowFirst s c w = ((bankAt (chan s c) w.p.rank w.p.bank).row == some w.p.row) := by
  unfold rowFirst
  dsimp only
  rw [decide_eq_false (Nat.not_le.mpr h), Bool.false_and]
  rfl

theorem rowFirst_past {w : Want} (h : max 1 (getFld s (mcBase c + 0x40) 16 5) ≤ (bankAt (chan s c) w.p.rank w.p.bank).hits)
    (hwait : missWaits s c (bankAt (chan s c) w.p.rank w.p.bank) w.p.rank w.p.bank = true) :
    rowFirst s c w = ((bankAt (chan s c) w.p.rank w.p.bank).row != some w.p.row) := by
  unfold rowFirst
  dsimp only
  rw [decide_eq_true h, hwait]
  rfl

-- the command of a channel whose queues are empty

theorem serveQueued_empty (h : (chan s c).rdq = []) : serveQueued s c = s := by
  have hserve : serveReads s c = s := by
    unfold serveReads
    rw [h]
    rfl
  unfold serveQueued
  dsimp only
  rw [hserve, if_neg (Nat.lt_irrefl _)]

theorem drainUpdate_empty (h : (chan s c).wrq = []) (hdrain : (chan s c).drain = false) : drainUpdate s c = s := by
  unfold drainUpdate
  dsimp only
  rw [hdrain, h, if_neg Bool.false_ne_true, if_neg fun hw => hw.1 rfl]

theorem schedulerEffect_empty (hlive : chanLive s c = true) (hrdq : (chan s c).rdq = []) (hwrq : (chan s c).wrq = [])
    (hdrain : (chan s c).drain = false) : schedulerEffect s c =
      match bestCand (schedCands (safeFlush s c) c) with
      | some k => issue (safeFlush s c) c k
      | none => safeFlush s c := by
  unfold schedulerEffect
  dsimp only
  rw [if_neg (not_not_true hlive), serveQueued_empty hrdq, drainUpdate_empty hwrq hdrain] <;> rfl

theorem safeFlush_run (h : inSafe s = false) : safeFlush s c = s := by
  unfold safeFlush
  rw [h, Bool.false_and, if_neg Bool.false_ne_true]

theorem safeFlush_safe (h : inSafe s = true) (hwrq : (chan s c).wrq = []) : safeFlush s c = flushCaches s (engineOf s c) := by
  unfold safeFlush
  rw [h, hwrq]
  rfl

/-- Settles O52: a candidate's key is its class, its urgency and its rank in turn, `bestCand` takes the least key and then the
earliest arrival, and with empty queues the decision is that candidate's command. -/
theorem schedulerOrder : Obligations.SchedulerOrder := by
  unfold Obligations.SchedulerOrder
  refine ⟨bestCand_eq_none, fun _ _ => bestCand_first, fun _ _ _ => key_candNeighbour, fun _ _ _ _ => key_candRefresh 1,
    ?_, ?_, ?_, fun _ _ _ => rowFirst_below, fun _ _ _ => rowFirst_past, ?_, fun _ _ _ => key_candScrubEnd,
    fun _ _ _ => key_candInit, ?_, ?_, ?_, ?_⟩
  · intro s c w x hx
    have hrank := wantRank_le s c w
    obtain ⟨hlow, hhigh⟩ := wantClass_bounds s c w
    rw [(mem_candWant hx).1]
    omega
  · intro s c v w x y hx hy hdl hplain h
    have hclass := wantClass_deadline hdl h
    have hrank := wantRank_le s c v
    rw [(mem_candWant hx).1, (mem_candWant hy).1, wantClass_plain hplain]
    omega
  · intro s c v w x y hx hy hclass hv hw
    have hrank := wantRank_le s c v
    rw [(mem_candWant hx).1, (mem_candWant hy).1, hclass, raisedUrgency_free hv, raisedUrgency_free hw]
    refine ⟨fun hurg => by omega, fun hurg hvs hws => ⟨fun hkind hturn => ?_, fun hkind hvrow hwrow => ?_⟩⟩
    · obtain ⟨hvk, hwk⟩ := kindFirst_turn hv hw hurg hkind hturn
      rw [hurg, wantRank_free hv hvs, wantRank_free hw hws, hvk, hwk, if_pos rfl, if_neg Bool.false_ne_true]
      split <;> split <;> omega
    · rw [hurg, wantRank_free hv hvs, wantRank_free hw hws, kindFirst_same hv hw hurg hkind, hvrow, hwrow, if_pos rfl,
        if_neg Bool.false_ne_true]
      omega
  · intro s c w x hx hforced
    rw [(mem_candWant hx).2, hforced, if_neg Bool.false_ne_true]
  · intro s c hdef hoff
    have hstay : schedulerEffect s c = s := if_pos (by rw [hoff]; rfl)
    exact (congrArg (guarded s) hstay).trans (guarded_same hdef)
  · intro s c k hdef hlive hrdq hwrq hdrain hrun hbest
    have heffect := schedulerEffect_empty hlive hrdq hwrq hdrain
    rw [safeFlush_run hrun, hbest] at heffect
    exact (guarded_defined _ hdef).trans (congrArg (resume s) heffect)
  · intro s c hdef hlive hrdq hwrq hdrain hsafe
    have heffect := schedulerEffect_empty hlive hrdq hwrq hdrain
    rw [safeFlush_safe hsafe hwrq] at heffect
    exact (guarded_defined _ hdef).trans (congrArg (resume s) heffect)
  · intro s c hdef hlive hrdq hwrq hdrain hrun hnone
    have heffect := schedulerEffect_empty hlive hrdq hwrq hdrain
    rw [safeFlush_run hrun, (bestCand_eq_none _).mpr hnone] at heffect
    exact (congrArg (guarded s) heffect).trans (guarded_same hdef)

end Sys2Proof.Proofs
end

section
/-! PROOF. Epoch boundaries refill the buckets, and slots begin (O53). -/

namespace Sys2Proof.Proofs

open Sys2Proof.Machine Sys2Proof.Safety Sys2Proof.Laws

variable {s : State}

-- a sweep whose every part writes registers of its own

section
variable {f : State → Nat → State} {own : Nat → Nat → Prop} (honly : ∀ u k a, ¬ own k a → getReg (f u k) a = getReg u a)
include honly

theorem getReg_forEach_other {a : Nat} : ∀ n, (∀ k, k < n → ¬ own k a) → getReg (forEach n s f) a = getReg s a
  | 0, _ => rfl
  | n + 1, h => by
    rw [forEach_succ, honly _ _ _ (h n (Nat.lt_succ_self n))]
    exact getReg_forEach_other n fun k hk => h k (Nat.lt_succ_of_lt hk)

/-- A register of part `k` is as that part left it. -/
theorem getReg_forEach_own {a k : Nat} : ∀ n, k < n → (∀ j, j < n → own j a → j = k) →
    getReg (forEach n s f) a = getReg (f (forEach k s f) k) a
  | 0, hk, _ => absurd hk (Nat.not_lt_zero k)
  | n + 1, hk, hown => by
    obtain rfl | hne := eq_or_ne k n
    · rw [forEach_succ]
    · rw [forEach_succ, honly _ _ _ fun h => hne (hown n (Nat.lt_succ_self n) h).symm]
      exact getReg_forEach_own n (by omega) fun j hj => hown j (Nat.lt_succ_of_lt hj)

end

-- the buckets

/-- The tokens of a bucket after a boundary. -/
def refilled (s : State) (r : Nat) : Nat := min (getFld s r 8 8) (getFld s r 16 8 + getFld s r 0 8)

/-- A bucket is refilled, written only where its tokens change. -/
def refillBucket (k : Nat) (s : State) (i : Nat) : State :=
  let r := budgetReg k (BitVec.ofNat 5 i)
  let v := refilled s r
  if v = getFld s r 16 8 then s else setFld s r 16 8 v

/-- The buckets of one slice. -/
def refillSlice (s : State) (k : Nat) : State := if slicePwr s k then forEach 24 s (refillBucket k) else s

theorem refillBuckets_eq (s : State) : refillBuckets s = forEach 8 s refillSlice := rfl

theorem getReg_refillBucket_ne (k : Nat) (u : State) (i a : Nat) (h : ¬ a = budgetReg k (BitVec.ofNat 5 i)) :
    getReg (refillBucket k u i) a = getReg u a := by
  unfold refillBucket
  dsimp only
  split
  · rfl
  · exact getReg_setFld_ne _ _ _ _ h

theorem getFld_refillBucket (k : Nat) (u : State) (i : Nat) : getFld (refillBucket k u i) (budgetReg k (BitVec.ofNat 5 i)) 16 8 =
    refilled u (budgetReg k (BitVec.ofNat 5 i)) := by
  have hfit : refilled u (budgetReg k (BitVec.ofNat 5 i)) < 2 ^ 8 :=
    Nat.lt_of_le_of_lt (Nat.min_le_left _ _) (Nat.mod_lt _ (by decide))
  unfold refillBucket
  dsimp only
  split
  · exact Eq.symm ‹_›
  · rw [getFld_setFld_same _ _ _ (by decide), Nat.mod_eq_of_lt hfit]

/-- A register is a bucket of slice `k`. -/
def IsBucket (k a : Nat) : Prop := ∃ i, i < 24 ∧ a = budgetReg k (BitVec.ofNat 5 i)

theorem getReg_refillSlice_ne (u : State) (k a : Nat) (h : ¬ IsBucket k a) : getReg (refillSlice u k) a = getReg u a := by
  unfold refillSlice
  split
  · exact getReg_forEach_other (getReg_refillBucket_ne k) 24 fun i hi ha => h ⟨i, hi, ha⟩
  · rfl

theorem budgetReg_ofNat (k : Nat) {i : Nat} (hi : i < 24) : budgetReg k (BitVec.ofNat 5 i) = slcBase k + 0x680 + 4 * i := by
  unfold budgetReg
  rw [BitVec.toNat_ofNat, Nat.mod_eq_of_lt (by omega)]

theorem isBucket_unique {k j a : Nat} (h : IsBucket k a) (h' : IsBucket j a) : j = k := by
  obtain ⟨i, hi, ha⟩ := h
  obtain ⟨l, hl, ha'⟩ := h'
  rw [budgetReg_ofNat k hi] at ha
  rw [budgetReg_ofNat j hl] at ha'
  unfold slcBase at ha ha'
  omega

theorem not_isBucket_power (k : Nat) (hk : k < 8) : ¬ IsBucket k 0x300004 := fun ⟨i, hi, h⟩ => by
  rw [budgetReg_ofNat k hi] at h
  unfold slcBase at h
  omega

theorem refilled_congr {u : State} {r : Nat} (h : getReg u r = getReg s r) : refilled u r = refilled s r := by
  unfold refilled getFld
  rw [h]

theorem getFld_refillSlice (u : State) (k : Nat) {i : Nat} (hi : i < 24) (hpwr : slicePwr u k = true) :
    getFld (refillSlice u k) (budgetReg k (BitVec.ofNat 5 i)) 16 8 = refilled u (budgetReg k (BitVec.ofNat 5 i)) := by
  have hone : ∀ j, j < 24 → budgetReg k (BitVec.ofNat 5 i) = budgetReg k (BitVec.ofNat 5 j) → j = i := fun j hj h => by
    rw [budgetReg_ofNat k hi, budgetReg_ofNat k hj] at h
    omega
  have hbefore : getReg (forEach i u (refillBucket k)) (budgetReg k (BitVec.ofNat 5 i)) = getReg u (budgetReg k (BitVec.ofNat 5 i)) :=
    getReg_forEach_other (getReg_refillBucket_ne k) i fun j hj h => absurd (hone j (by omega) h) (by omega)
  unfold refillSlice
  rw [if_pos hpwr, getFld, getReg_forEach_own (getReg_refillBucket_ne k) 24 hi hone, ← refilled_congr hbefore]
  exact getFld_refillBucket k _ i

theorem getReg_refillBuckets_ne {a : Nat} (h : ∀ k, k < 8 → ¬ IsBucket k a) : getReg (refillBuckets s) a = getReg s a :=
  getReg_forEach_other getReg_refillSlice_ne 8 h

theorem getFld_refillBuckets {k i : Nat} (hk : k < 8) (hi : i < 24) :
    getFld (refillBuckets s) (budgetReg k (BitVec.ofNat 5 i)) 16 8 =
      if slicePwr s k then refilled s (budgetReg k (BitVec.ofNat 5 i)) else getFld s (budgetReg k (BitVec.ofNat 5 i)) 16 8 := by
  have hbucket : IsBucket k (budgetReg k (BitVec.ofNat 5 i)) := ⟨i, hi, rfl⟩
  have hpwr : slicePwr (forEach k s refillSlice) k = slicePwr s k :=
    slicePwr_congr (getReg_forEach_other getReg_refillSlice_ne k fun j hj => not_isBucket_power j (by omega)) k
  have hbefore : getReg (forEach k s refillSlice) (budgetReg k (BitVec.ofNat 5 i)) = getReg s (budgetReg k (BitVec.ofNat 5 i)) :=
    getReg_forEach_other getReg_refillSlice_ne k fun j hj h => absurd (isBucket_unique hbucket h) (by omega)
  rw [refillBuckets_eq, getFld, getReg_forEach_own getReg_refillSlice_ne 8 hk fun j _ h => isBucket_unique hbucket h]
  split
  case isTrue hon =>
    rw [← refilled_congr hbefore]
    exact getFld_refillSlice _ k hi (hpwr.trans hon)
  case isFalse hoff =>
    have hstay : refillSlice (forEach k s refillSlice) k = forEach k s refillSlice := if_neg (by rwa [hpwr])
    rw [hstay, hbefore, getFld]

-- the boundary

/-- The state with the next boundary set. -/
def nextEpoch (s : State) : State := { s with seq := { s.seq with epochDue := s.seq.epochDue + 1000 } }

theorem epochEffect_unswapped (hawake : Ticking s) (hdue : s.seq.epochDue ≤ s.tick) (hswap : ∀ d, s.seq.swapDue = some d → s.seq.epochDue < d) :
    epochEffect s = refillBuckets (nextEpoch s) := by
  unfold epochEffect nextEpoch
  dsimp only
  rw [if_pos ⟨hawake.1.2, hawake.2, hdue⟩]
  cases hd : s.seq.swapDue with
  | none => rfl
  | some d =>
    dsimp only
    rw [if_neg (Nat.not_le.mpr (hswap d hd))]

theorem epochEffect_swapped {d : Nat} (hawake : Ticking s) (hdue : s.seq.epochDue ≤ s.tick) (hswap : s.seq.swapDue = some d)
    (hd : d ≤ s.seq.epochDue) : epochEffect s = refillBuckets (swapTables (nextEpoch s)) := by
  unfold epochEffect nextEpoch
  dsimp only
  rw [if_pos ⟨hawake.1.2, hawake.2, hdue⟩, hswap]
  dsimp only
  rw [if_pos hd]

/-- Settles O53: each bucket is written by its own turn of the sweep alone, which reads what the boundary found; a slot's start
is the equation of its effect. -/
theorem epochsAndSlots : Obligations.EpochsAndSlots := by
  unfold Obligations.EpochsAndSlots
  refine ⟨?_, ?_, ?_, ?_, ?_⟩
  · intro s hdef hnot
    have hstay : epochEffect s = s := if_neg fun ⟨_, hrun, hdue⟩ => hnot.elim (Nat.not_lt.mpr hdue)
      fun h => by rw [h] at hrun; exact Bool.false_ne_true hrun
    exact (congrArg (guarded s) hstay).trans (guarded_same hdef)
  · intro s hawake hdue hswap
    have htouch := touches_refillBuckets (nextEpoch s)
    refine completes_of_guarded (congrArg (guarded s) (epochEffect_unswapped hawake hdue hswap)) hawake.1.1 (htouch.pending rfl) ⟨?_, ?_, ?_⟩
    · exact htouch.frame
    · intro k i hk hi
      have hofNat : BitVec.ofNat 5 i.toNat = i := (BitVec.ofNat_toNat 5 i).trans (BitVec.setWidth_eq i)
      have hfld := getFld_refillBuckets (s := nextEpoch s) hk hi
      rwa [hofNat] at hfld
    · exact fun a ha => getReg_refillBuckets_ne (s := nextEpoch s) fun k hk ⟨i, hi, h⟩ => ha k (BitVec.ofNat 5 i) hk (by
        rwa [BitVec.toNat_ofNat, Nat.mod_eq_of_lt (by omega)]) h
  · intro s d hawake hdue hswap hd
    exact (guarded_defined _ hawake.1.1).trans (congrArg (resume s) (epochEffect_swapped hawake hdue hswap hd))
  · intro s c hdef hlive hdue
    exact completes_touched (u := commandSlotEffect s c) rfl hdef (touches_commandSlotEffect s c) rfl (if_pos ⟨hlive, hdue⟩)
  · intro s c hdef hearly
    have hstay : commandSlotEffect s c = s := if_neg fun h => Nat.not_le.mpr hearly h.2
    exact (congrArg (guarded s) hstay).trans (guarded_same hdef)

end Sys2Proof.Proofs
end

section
/-! PROOF. Reads and writes of the aperture interface (O54). -/

namespace Sys2Proof.Proofs

open Sys2Proof.Machine Sys2Proof.Safety Sys2Proof.Laws

variable {s : State} {n : Nat} {p : Packet} {r : Req}

theorem touches_apServed (s : State) (n : Nat) (p : Packet) : Touches { obs := true } s (apServed s n p) := touches_obs _ _

theorem apTurn_apServed (s : State) (n : Nat) (p : Packet) : apTurn (apServed s n p) n = (apTurn s n + 1) % 65536 :=
  cellsGet_set_same ..

theorem apTurn_congr {u : State} (h : u.obs.apNext = s.obs.apNext) (n : Nat) : apTurn u n = apTurn s n := by
  unfold apTurn
  rw [h]

-- what a read ends with

theorem apReadError_unnamed (h : apCounter r = none) : apReadError s r = 7 := by
  unfold apReadError
  rw [h]

theorem apReadError_low {k i : Nat} (h : apCounter r = some (k, i, false)) (hpwr : pmuPowered s k = true) :
    apReadError s r = if apReadAllowed s r then 0 else 3 := by
  unfold apReadError
  rw [h]
  dsimp only
  rw [hpwr, if_neg (by rintro (h | h); exacts [Bool.false_ne_true h, Bool.false_ne_true h.2])]

theorem apReadError_apServed (s : State) (n : Nat) (p : Packet) (r : Req) : apReadError (apServed s n p) r = apReadError s r := rfl

/-- A read that is answered names a counter. -/
theorem apCounter_of_answered (h : apReadError s r = 0) : ∃ c, apCounter r = some c := by
  cases hc : apCounter r with
  | none =>
    rw [apReadError_unnamed hc] at h
    exact absurd h (by decide)
  | some c => exact ⟨c, rfl⟩

theorem addr_of_apCounter {c : Nat × Nat × Bool} (h : apCounter r = some c) : 0x330000 ≤ r.addr.toNat ∧ r.addr.toNat < 0x331800 := by
  unfold apCounter at h
  dsimp only at h
  split at h
  · assumption
  · cases h

-- what a read leaves unchanged

/-- Nothing changed but registers and the copies of the counters' upper parts. -/
def OnlyCopies (s t : State) : Prop := t = { s with regs := t.regs, obs := { s.obs with hiCopy := t.obs.hiCopy } }

theorem onlyCopies_readEffects (s : State) (q : ReadPath) {a : Nat} (hlo : 0x330000 ≤ a) (hhi : a < 0x331800) :
    OnlyCopies s (readEffects s q a) := by
  unfold readEffects
  rw [if_neg (by omega), if_neg (by omega), if_neg (by omega), if_pos ⟨hlo, hhi⟩]
  split <;> rfl

theorem regRead_counter (s : State) (q : ReadPath) {a : Nat} (hlo : 0x330000 ≤ a) (hhi : a < 0x331800) :
    OnlyCopies s (regRead s q a).1 := by
  have hpar : parityItem a = none := by
    unfold parityItem
    rw [if_neg (by omega), if_neg (by omega), if_neg (by omega)]
  rw [regRead_general s q (by omega) (by omega) hpar]
  have hclear := onlyRegs_clearRc s a
  have hread := onlyCopies_readEffects (clearRc s a) q hlo hhi
  unfold OnlyRegs at hclear
  unfold OnlyCopies at hread ⊢
  dsimp only
  rw [hread, hclear]

theorem onlyCopies_apValue (s : State) (n : PortId) (h : ∃ c, apCounter r = some c) : OnlyCopies s (apValue s n r).1 := by
  obtain ⟨c, hc⟩ := h
  obtain ⟨hlo, hhi⟩ := addr_of_apCounter hc
  unfold apValue
  rw [hc]
  exact regRead_counter s (.agent n) hlo hhi

-- the effects

theorem apReadEffect_refused {n : PortId} (h : apRequest s n.val = some (p, r)) (hop : r.opcode = 0x30)
    (hopen : (port s n.val).fenced = false) (he : apReadError s r ≠ 0) :
    apReadEffect s n = apSend (apServed s n.val p) n.val p (apRsp r (apReadError s r)) := by
  have hserved : (port (apServed s n.val p) n.val).fenced = false := hopen
  unfold apReadEffect
  rw [h]
  dsimp only
  rw [if_neg (fun h => h hop), if_neg (ne_true_of_eq_false hserved),
    apReadError_apServed, if_pos he]

/-- The state and the data flit of an answered read. -/
def apAnswer (s : State) (n : PortId) (p : Packet) (r : Req) : State × Dat :=
  let v := apValue (apServed s n.val p) n r
  apData v.1 r v.2

theorem apAnswer_keeps (s : State) (n : PortId) (p : Packet) (h : ∃ c, apCounter r = some c) :
    (apAnswer s n p r).1.spine = s.spine ∧ (apAnswer s n p r).1.ports = s.ports ∧ KeepsMemory s (apAnswer s n p r).1 ∧
      (apAnswer s n p r).1.pending = s.pending ∧ apTurn (apAnswer s n p r).1 n = (apTurn s n + 1) % 65536 := by
  have hcopies := onlyCopies_apValue (apServed s n.val p) n h
  obtain ⟨v, hv⟩ : ∃ v, v = apValue (apServed s n.val p) n r := ⟨_, rfl⟩
  have hdata := touches_apData v.1 r v.2
  unfold apAnswer
  rw [← hv] at hcopies ⊢
  have hturn : apTurn v.1 n = (apTurn s n + 1) % 65536 :=
    (apTurn_congr (congrArg (fun u => u.obs.apNext) hcopies) n).trans (apTurn_apServed s n p)
  exact ⟨(hdata.spine rfl).trans ((congrArg State.spine hcopies).trans rfl), (hdata.ports rfl).trans ((congrArg State.ports hcopies).trans rfl),
    ⟨(hdata.dram rfl).trans ((congrArg State.dram hcopies).trans rfl), (hdata.slices rfl).trans ((congrArg State.slices hcopies).trans rfl),
      (hdata.chans rfl).trans ((congrArg State.chans hcopies).trans rfl)⟩, (hdata.pending rfl).trans ((congrArg State.pending hcopies).trans rfl),
    (apTurn_congr (congrArg Obs.apNext (hdata.obs rfl)) n).trans hturn⟩

theorem apReadEffect_answered {n : PortId} (h : apRequest s n.val = some (p, r)) (hop : r.opcode = 0x30)
    (hopen : (port s n.val).fenced = false) (he : apReadError s r = 0) : apReadEffect s n =
      apSend (apSend (apAnswer s n p r).1 n.val p (.dat (apAnswer s n p r).2)) n.val p (apRsp r 0) := by
  have hserved : (port (apServed s n.val p) n.val).fenced = false := hopen
  unfold apReadEffect
  rw [h]
  dsimp only
  rw [if_neg (fun h => h hop), if_neg (ne_true_of_eq_false hserved),
    apReadError_apServed, if_neg (fun h => h he)]
  rfl

theorem apWriteEffect_due {d : Dat} (h : apRequest s n = some (p, r)) (hd : apOperand s p = some d) (hop : r.opcode = 0x31)
    (hopen : (port s n).fenced = false) : apWriteEffect s n =
      if apWriteError r d ≠ 0 then apSend (apServed s n p) n p (apRsp r (apWriteError r d))
      else if trcOn s && stageFull s n (apWord r d) then waitRoom s n
      else apSend (stagePush (apServed s n p) n (apWord r d)) n p (apRsp r 0) := by
  unfold apWriteEffect
  rw [h]
  dsimp only
  rw [hd]
  dsimp only
  rw [if_neg (fun h => h hop), if_neg (ne_true_of_eq_false hopen)]

theorem mem_waitRoom (s : State) (n k : Nat) : k ∈ (waitRoom s n).obs.apWait ↔ k = n ∨ k ∈ s.obs.apWait := by
  unfold waitRoom
  split
  case isTrue h =>
    have hmem := List.contains_iff_mem.mp h
    exact ⟨.inr, fun hk => hk.elim (fun hk => hk ▸ hmem) id⟩
  case isFalse =>
    dsimp only
    rw [List.mem_append, List.mem_singleton]
    exact or_comm

theorem waitRoom_frame (s : State) (n : Nat) : waitRoom s n = { s with obs := { s.obs with apWait := (waitRoom s n).obs.apWait } } := by
  unfold waitRoom
  split <;> rfl

theorem apSend_arrives (s : State) {n : Nat} (p : Packet) (m : Msg) (hn : n < 24) : ∃ f,
    (apSend s n p m).spine.arrive = s.spine.arrive ++ [f] ∧ f.pkt.msg = m ∧ dstRouter f.pkt = n := by
  obtain ⟨f, harr, -, -, hpkt, -⟩ := launch_launched s 23 5 (mkPacket n 0 25 p.dl p.prio m)
  refine ⟨f, harr, ?_, ?_⟩
  · rw [hpkt]
    rfl
  · rw [hpkt]
    exact dstRouter_mkPacket 0 25 p.dl p.prio m hn

theorem apSend_queued (s : State) (n : Nat) (p : Packet) (m : Msg) : (apSend s n p m).spine.queued = s.spine.queued := rfl

/-- Settles O54: an answered read leaves as one data flit and `Comp` from the state that the register file's read leaves; a
write's ends are the branches of its effect. -/
theorem apertureAccesses : Obligations.ApertureAccesses := by
  unfold Obligations.ApertureAccesses
  refine ⟨?_, ?_, ?_, fun s r => apReadError_unnamed, fun s r k i => apReadError_low, ?_, ?_, ?_⟩
  · intro s n hdef hnone
    have hread : apReadEffect s n = s := by rw [apReadEffect, hnone]
    have hwrite : apWriteEffect s n.val = s := by rw [apWriteEffect, hnone]
    exact ⟨(congrArg (guarded s) ((congrArg (ite _ · s) hread).trans (ite_self s))).trans (guarded_same hdef),
      (congrArg (guarded s) ((congrArg (ite _ · s) hwrite).trans (ite_self s))).trans (guarded_same hdef)⟩
  · intro s n p r hawake hreq hop hopen he
    obtain ⟨hspine, hports, hmem, hpend, hturn⟩ := apAnswer_keeps s n p (apCounter_of_answered he)
    have heffect := apReadEffect_answered hreq hop hopen he
    have hkind : (apAnswer s n p r).2.kind = 2 ∧ (apAnswer s n p r).2.txn = r.txn ∧ (apAnswer s n p r).2.half = r.addr.getLsbD 5 :=
      ⟨rfl, rfl, rfl⟩
    obtain ⟨⟨u, d⟩, hu⟩ : ∃ a, a = apAnswer s n p r := ⟨_, rfl⟩
    rw [← hu] at hspine hports hmem hpend hturn heffect hkind
    have htouch : Touches { spine := true } u _ :=
      (touches_apSend (apSend u n.val p (.dat d)) n.val p (apRsp r 0)).after rfl (touches_apSend u n.val p (.dat d))
    obtain ⟨f, hf, hfmsg, hfdst⟩ := apSend_arrives u p (.dat d) n.isLt
    obtain ⟨g, hg, hgmsg, hgdst⟩ := apSend_arrives (apSend u n.val p (.dat d)) p (apRsp r 0) n.isLt
    refine completes_of_guarded (congrArg (guarded s) ((if_pos hawake.2).trans heffect)) hawake.1 ((htouch.pending rfl).trans hpend)
      ⟨?_, ⟨f, g, ?_, hgmsg, hfdst, hgdst, d, hfmsg, hkind⟩, ?_, ?_, (htouch.ports rfl).trans hports⟩
    · rw [apSend_queued, apSend_queued, hspine]
    · rw [hg, hf, hspine, List.append_assoc]
      rfl
    · exact (apTurn_congr (congrArg Obs.apNext (htouch.obs rfl)) n.val).trans hturn
    · obtain ⟨hdram, hslices, hchans⟩ := hmem
      exact ⟨(htouch.dram rfl).trans hdram, (htouch.slices rfl).trans hslices, (htouch.chans rfl).trans hchans⟩
  · intro s n p r hawake hreq hop hopen he
    have hsend := touches_apSend (apServed s n.val p) n.val p (apRsp r (apReadError s r))
    have htouch : Touches { spine := true, obs := true } s _ := hsend.after rfl <| (touches_apServed s n.val p).mono rfl
    refine completes_touched (congrArg (guarded s) ((if_pos hawake.2).trans (apReadEffect_refused hreq hop hopen he))) hawake.1 htouch rfl
      ⟨apSend_arrives (apServed s n.val p) p _ n.isLt, ?_, htouch.regs rfl, keepsMemory_of_touches htouch rfl rfl rfl, htouch.ports rfl⟩
    exact (apTurn_congr (congrArg Obs.apNext (hsend.obs rfl)) n.val).trans (apTurn_apServed s n.val p)
  · intro s n p r d hawake hreq hd hop hopen he
    have hsend := touches_apSend (apServed s n.val p) n.val p (apRsp r (apWriteError r d))
    have htouch : Touches { spine := true, obs := true } s _ := hsend.after rfl <| (touches_apServed s n.val p).mono rfl
    refine completes_touched (congrArg (guarded s) ((if_pos hawake.2).trans ((apWriteEffect_due hreq hd hop hopen).trans (if_pos he))))
      hawake.1 htouch rfl ⟨apSend_arrives (apServed s n.val p) p _ n.isLt, (congrArg Obs.stagers (hsend.obs rfl)).trans rfl,
      (congrArg Obs.storage (hsend.obs rfl)).trans rfl, htouch.regs rfl, keepsMemory_of_touches htouch rfl rfl rfl⟩
  · intro s n p r d hawake hreq hd hop hopen he hroom
    have hpush : ¬ (trcOn s && stageFull s n.val (apWord r d)) = true := fun h => by
      rw [Bool.and_eq_true] at h
      exact hroom.elim (fun hoff => ne_true_of_eq_false hoff h.1) fun hfit => ne_true_of_eq_false hfit h.2
    exact (guarded_defined _ hawake.1).trans (congrArg (resume s) ((if_pos hawake.2).trans
      ((apWriteEffect_due hreq hd hop hopen).trans ((if_neg (fun h => h he)).trans (if_neg hpush)))))
  · intro s n p r d hawake hreq hd hop hopen he hon hfull
    have heffect := (apWriteEffect_due hreq hd hop hopen).trans ((if_neg (fun h => h he)).trans
      (if_pos (by rw [hon, hfull]; rfl)))
    refine completes_touched (congrArg (guarded s) ((if_pos hawake.2).trans heffect)) hawake.1 (touches_waitRoom s n.val) rfl
      ⟨(mem_waitRoom s n.val n.val).mpr (.inl rfl), waitRoom_frame s n.val, fun k hk => ?_⟩
    rw [mem_waitRoom]
    exact or_iff_right hk

end Sys2Proof.Proofs
end

section
/-! PROOF. Snapshots, the dump writer and the sillage ring (O55). -/

namespace Sys2Proof.Proofs

open Sys2Proof.Machine Sys2Proof.Safety Sys2Proof.Laws

variable {s : State}

theorem onlyRegsObs_of_touches {u : State} (h : Touches { regs := true, obs := true } s u) : OnlyRegsObs s u := by
  have hf := h.frame
  unfold OnlyRegsObs
  rw [hf]
  rfl

-- snapshots

theorem snapLines_length (n : Nat) (s : State) : (snapLines n s).2.length = n := by
  induction n generalizing s with
  | zero => rfl
  | succ n ih =>
    unfold snapLines
    dsimp only
    rw [List.length_append, ih]
    rfl

/-- The state whose counters a snapshot captures: the new number is shown. -/
def numbered (s : State) : State :=
  setFld { s with obs := { s.obs with dumpNo := (s.obs.dumpNo + 1) % 2 ^ 32 } } 0x33201C 0 16 ((s.obs.dumpNo + 1) % 2 ^ 32)

theorem touches_numbered (s : State) : Touches { regs := true, obs := true } s (numbered s) :=
  (touches_setFld _ _ _ _ _).after rfl <| (touches_obs _ _).mono rfl

/-- The lines of a snapshot with their addresses, the header first. -/
def snapshotLines (v : State × List LineData) : List (Addr × LineData) :=
  (snapHeader v.1 :: v.2).zipIdx.map (fun d => (BitVec.ofNat 48 (slotBase v.1 + 64 * d.2), d.1))

/-- The captured lines wait for the dump writer. -/
def linesWait (v : State × List LineData) : State := { v.1 with obs := { v.1.obs with dumpQ := snapshotLines v } }

theorem takeSnapshot_eq (s : State) : takeSnapshot s = linesWait (snapLines 24 (numbered s)) := by
  obtain ⟨f, hf⟩ : ∃ f, f = snapLines := ⟨_, rfl⟩
  unfold takeSnapshot
  rw [← hf]
  rfl

theorem takeSnapshot_shows (s : State) : (takeSnapshot s).obs.dumpQ.length = 25 ∧
    (takeSnapshot s).obs.dumpNo = (s.obs.dumpNo + 1) % 2 ^ 32 ∧ (takeSnapshot s).obs.dumpDue = s.obs.dumpDue ∧
    RegsBut 0x33201C s (takeSnapshot s) := by
  have hlines := touches_snapLines 24 (numbered s)
  have hlen := snapLines_length 24 (numbered s)
  have hobs := hlines.obs rfl
  have hregs := hlines.regs rfl
  rw [takeSnapshot_eq]
  obtain ⟨v, hv⟩ : ∃ v, v = snapLines 24 (numbered s) := ⟨_, rfl⟩
  rw [← hv] at hlen hobs hregs ⊢
  refine ⟨?_, ?_, ?_, fun a ha => ?_⟩
  · show (snapshotLines v).length = 25
    rw [snapshotLines, List.length_map, List.length_zipIdx, List.length_cons, hlen]
  · exact (congrArg Obs.dumpNo hobs).trans rfl
  · exact (congrArg Obs.dumpDue hobs).trans rfl
  · exact (getReg_congr hregs a).trans (getReg_setFld_ne _ _ _ _ ha)

/-- The next dump tick is due a period later. -/
def nextDump (s : State) : State := { s with obs := { s.obs with dumpDue := s.obs.dumpDue + dumpPeriod s } }

theorem dumpTickEffect_due (hawake : Ticking s) (hen : getBit s 0x332010 0 = true) (hturn : comparatorTurn s 3 = true)
    (hdue : s.obs.dumpDue ≤ s.tick) : dumpTickEffect s =
      if dumpMode s && !snapPending s then takeSnapshot (nextDump s) else satAdd (nextDump s) 0x33201C 16 8 1 := by
  have hon : (running s && s.pins.tbRun && getBit s 0x332010 0 && comparatorTurn s 3 && decide (s.obs.dumpDue ≤ s.tick)) = true := by
    rw [hawake.1.2, hawake.2, hen, hturn, decide_eq_true hdue]
    rfl
  exact if_pos hon

-- a write that leaves

/-- A packet of the dump writer to slice `n`. -/
def dumpPacket (s : State) (x : DumpTxn) (n : Nat) (m : Msg) : Packet :=
  { mkPacket (sliceRouter n) 1 26 false x.req.prio m with reqNo := BitVec.ofNat 16 s.obs.dumpReqNo }

theorem dstRouter_dumpPacket (s : State) (x : DumpTxn) (n : Nat) (m : Msg) : dstRouter (dumpPacket s x n m) = sliceRouter n :=
  dstRouter_mkPacket 1 26 false x.req.prio m (sliceRouter_lt n)

/-- The answer that the writer gives itself for a line that no slice homes. -/
def homelessAnswer (s : State) (x : DumpTxn) : InMsg :=
  ⟨mkPacket 23 4 26 false x.req.prio (bridgeErr 7 x.req.txn x.req.prio), false, s.tick⟩

theorem dumpSend_homeless {x : DumpTxn} (h : homeOf s x.req.addr.toNat = none) :
    dumpSend s x = { s with obs := { s.obs with dumpInbox := s.obs.dumpInbox ++ [homelessAnswer s x] } } := by
  obtain ⟨home, hh⟩ : ∃ f, f = homeOf := ⟨_, rfl⟩
  obtain ⟨f, hf⟩ : ∃ f, f = @dumpSend := ⟨_, rfl⟩
  rw [← hf]
  delta dumpSend at hf
  rw [← hh] at hf h
  rw [hf]
  beta_reduce
  rw [h]
  rfl

theorem dumpSend_homed {x : DumpTxn} {h : Home} (hhome : homeOf s x.req.addr.toNat = some h) : dumpSend s x =
    launch (launch { s with obs := { s.obs with dumpReqNo := (s.obs.dumpReqNo + 1) % 65536 } } 23 5 (dumpPacket s x h.slice (.req x.req)))
      23 5 (dumpPacket s x h.slice (.datPair (dumpHalf x h.slice false) (dumpHalf x h.slice true))) := by
  obtain ⟨home, hh⟩ : ∃ f, f = homeOf := ⟨_, rfl⟩
  obtain ⟨f, hf⟩ : ∃ f, f = @dumpSend := ⟨_, rfl⟩
  rw [← hf]
  delta dumpSend at hf
  rw [← hh] at hf hhome
  rw [hf]
  beta_reduce
  rw [hhome]
  rfl

/-- Request and data of write `x` have left for slice `n`. -/
def WriteLeft (s t : State) (x : DumpTxn) (n : Nat) : Prop :=
  ∃ f g, t.spine.arrive = s.spine.arrive ++ [f, g] ∧ f.pkt.src = 26 ∧ g.pkt.src = 26 ∧ f.pkt.msg = .req x.req ∧
    g.pkt.msg = .datPair (dumpHalf x n false) (dumpHalf x n true) ∧ dstRouter f.pkt = sliceRouter n ∧ dstRouter g.pkt = sliceRouter n

theorem dumpSend_left {x : DumpTxn} {h : Home} (hhome : homeOf s x.req.addr.toNat = some h) :
    WriteLeft s (dumpSend s x) x h.slice ∧
      (dumpSend s x).obs = { s.obs with dumpReqNo := (s.obs.dumpReqNo + 1) % 65536 } := by
  rw [dumpSend_homed hhome]
  have hf := dstRouter_dumpPacket s x h.slice (.req x.req)
  have hg := dstRouter_dumpPacket s x h.slice (.datPair (dumpHalf x h.slice false) (dumpHalf x h.slice true))
  exact ⟨⟨_, _, List.append_assoc _ _ _, rfl, rfl, rfl, rfl, hf, hg⟩, rfl⟩

theorem dumpLaunch_left {x : DumpTxn} {h : Home} (hhome : homeOf s x.req.addr.toNat = some h) :
    WriteLeft s (dumpLaunch s x) x h.slice ∧
      (dumpLaunch s x).obs = { s.obs with dumpReqNo := (s.obs.dumpReqNo + 1) % 65536, dumpTxns := s.obs.dumpTxns ++ [x] } := by
  obtain ⟨hleft, hobs⟩ := dumpSend_left hhome
  unfold dumpLaunch
  obtain ⟨u, hu⟩ : ∃ u, u = dumpSend s x := ⟨_, rfl⟩
  rw [← hu] at hleft hobs ⊢
  refine ⟨hleft, ?_⟩
  dsimp only
  rw [hobs]

-- what the writer takes next

theorem dumpIssueEffect_next (hrun : running s = true) (hmode : dumpMode s = true) (hnone : s.obs.dumpTxns = []) :
    dumpIssueEffect s = dumpNext s 0 := by
  unfold dumpIssueEffect
  rw [hrun, hmode, if_neg (by decide), hnone]
  rfl

theorem dumpIssueEffect_full (hlen : s.obs.dumpTxns.length = 4) (hgrant : ∀ t ∈ s.obs.dumpTxns, t.grant = false)
    (htaken : ∀ k, k < 4 → ∃ t ∈ s.obs.dumpTxns, t.txn.toNat = k) : dumpIssueEffect s = s := by
  have hheld : s.obs.dumpTxns.find? (fun t => t.held && t.grant) = none := List.find?_eq_none.mpr fun t ht => by
    rw [hgrant t ht, Bool.and_false]
    exact Bool.false_ne_true
  have hfull : firstFree 4 (s.obs.dumpTxns.map (fun t => t.txn.toNat)) = none := List.find?_eq_none.mpr fun k hk => by
    obtain ⟨t, ht, htxn⟩ := htaken k (List.mem_range.mp hk)
    rw [List.contains_iff_mem.mpr (List.mem_map.mpr ⟨t, ht, htxn⟩)]
    decide
  unfold dumpIssueEffect
  split
  · rfl
  · rw [hheld]
    dsimp only
    rw [hfull]

theorem dumpTxn_addr (s : State) (k : Nat) (pa : Addr) (d : LineData) (ring : Bool) : (dumpTxn s k pa d ring).req.addr = pa := rfl

/-- A snapshot line is taken off the queue. -/
def lineTaken (s : State) (l : List (Addr × LineData)) : State :=
  { s with obs := { s.obs with dumpQ := l, dumpRun := s.obs.dumpRun + 1 } }

/-- An item is taken out of storage. -/
def itemTaken (s : State) (l : List (List (BitVec 64))) : State := { s with obs := { s.obs with storage := l, dumpRun := 0 } }

theorem dumpNext_line {a : Addr} {d : LineData} {l : List (Addr × LineData)} (hitem : itemFirst s = false)
    (hstop : s.obs.dumpStop = false) (hq : s.obs.dumpQ = (a, d) :: l) :
    dumpNext s 0 = dumpLaunch (lineTaken s l) (dumpTxn s 0 a d false) := by
  have hready : snapReady s = true := by
    unfold snapReady
    rw [hstop, hq]
    rfl
  unfold dumpNext
  rw [if_neg (ne_true_of_eq_false hitem), if_pos hready, hq]
  rfl

theorem dumpNext_item {i : List (BitVec 64)} {l : List (List (BitVec 64))} (hitem : itemFirst s = true) (hq : s.obs.storage = i :: l) :
    dumpNext s 0 = wakeWriters (dumpLaunch (itemTaken s l) (dumpTxn s 0 (BitVec.ofNat 48 (ringNext s)) (itemLine i) true)) := by
  unfold dumpNext
  rw [if_pos hitem, hq]
  rfl

theorem homeOf_obs (s : State) (x : Obs) (pa : Nat) : homeOf { s with obs := x } pa = homeOf s pa :=
  homeOf_congr rfl rfl (fun _ => rfl) pa

theorem wakeWriters_none (h : s.obs.apWait = []) : wakeWriters s = { s with obs := { s.obs with apWait := [] } } := by
  unfold wakeWriters
  rw [h]
  rfl

-- what comes back

/-- The messages of the writer but the one taken. -/
def answerTaken (s : State) : State := { s with obs := { s.obs with dumpInbox := [] } }

theorem dumpResponseEffect_lone {i : InMsg} {r : Rsp} {x : DumpTxn} (hin : s.obs.dumpInbox = [i]) (hmsg : i.pkt.msg = .rsp r)
    (hx : s.obs.dumpTxns = [x]) (htxn : x.txn = r.txn) : dumpResponseEffect s = dumpMessage (answerTaken s) x r := by
  have hfind : (answerTaken s).obs.dumpTxns.find? (fun t => t.txn == r.txn) = some x :=
    (congrArg (List.find? _) hx).trans (List.find?_cons_of_pos (beq_iff_eq.mpr htxn))
  unfold dumpResponseEffect
  rw [hin]
  dsimp only
  rw [hmsg]
  exact congrArg (fun o : Option DumpTxn => match o with | some t => dumpMessage (answerTaken s) t r | none => answerTaken s) hfind

/-- The write is in flight no longer. -/
def writeEnded (s : State) : State := { s with obs := { s.obs with dumpInbox := [], dumpTxns := [] } }

theorem dumpEnds_lone {x : DumpTxn} (ok : Bool) (hx : s.obs.dumpTxns = [x]) : dumpEnds (answerTaken s) x ok =
    if x.ring then (if ok then ringAdvance (writeEnded s) else { writeEnded s with obs := { (writeEnded s).obs with ringStop := true } })
    else if x.gone then writeEnded s
    else if !ok then setBit { writeEnded s with obs := { (writeEnded s).obs with dumpStop := true } } 0x33201C 24 true
    else if snapPending (writeEnded s) then writeEnded s else setBit (writeEnded s) 0x33201C 25 true := by
  have hnone : (answerTaken s).obs.dumpTxns.filter (fun y => y.txn != x.txn) = [] := by
    rw [show (answerTaken s).obs.dumpTxns = [x] from hx,
      List.filter_cons_of_neg (by rw [bne_self_eq_false]; exact Bool.false_ne_true), List.filter_nil]
  unfold dumpEnds
  dsimp only
  rw [hnone]
  rfl

/-- A snapshot write has failed: the snapshots stop. -/
def snapshotsStopped (s : State) : State := { writeEnded s with obs := { (writeEnded s).obs with dumpStop := true } }

theorem touches_snapshotsStopped (s : State) : Touches { obs := true } s (snapshotsStopped s) := touches_obs s _

theorem dumpMessage_failed {x : DumpTxn} {r : Rsp} (hx : s.obs.dumpTxns = [x]) (hring : x.ring = false) (hgone : x.gone = false)
    (hop : r.opcode = 7) : dumpMessage (answerTaken s) x r = setBit (snapshotsStopped s) 0x33201C 24 true := by
  unfold dumpMessage
  dsimp only
  rw [hop, if_neg (by decide), if_pos rfl, dumpEnds_lone false hx, hring, if_neg Bool.false_ne_true, hgone, if_neg Bool.false_ne_true,
    Bool.not_false, if_pos rfl]
  rfl

theorem dumpMessage_stored {x : DumpTxn} {r : Rsp} (hx : s.obs.dumpTxns = [x]) (hring : x.ring = true) (hop : r.opcode = 2)
    (hroom : getFld s 0x340020 0 15 + 1 < ringLines s) : dumpMessage (answerTaken s) x r =
      setFld (writeEnded s) 0x340020 0 15 (getFld s 0x340020 0 15 + 1) := by
  unfold dumpMessage
  dsimp only
  rw [hop, if_pos rfl, dumpEnds_lone true hx, hring, if_pos rfl, if_pos rfl]
  exact if_pos hroom

theorem flushEffect_due {d : Nat} (hawake : Ticking s) (hdue : s.obs.flushDue = some d) (hd : d ≤ s.tick)
    (hroom : s.obs.storage.length < 512) : flushEffect s = { s with obs := { s.obs with
      storage := s.obs.storage ++ [s.obs.assembly ++ List.replicate (8 - s.obs.assembly.length) 0], assembly := [], flushDue := none } } := by
  have hon : (running s && s.pins.tbRun && s.obs.flushDue.any (fun d => decide (d ≤ s.tick)) && decide (s.obs.storage.length < 512)) = true := by
    rw [hawake.1.2, hawake.2, hdue, decide_eq_true hroom, Option.any_some, decide_eq_true hd]
    rfl
  exact if_pos hon

/-- Settles O55: a snapshot is 25 lines under the next number; a write is sent from the state in which its line or item is
taken; its end takes it out of those in flight. -/
theorem dumpWriter : Obligations.DumpWriter := by
  unfold Obligations.DumpWriter
  refine ⟨?_, ?_, ?_, ?_, ?_, ?_, ?_, ?_, ?_, ?_, ?_, ?_⟩
  · intro s hawake hen hturn hdue hmode hpend
    have heffect := dumpTickEffect_due hawake hen hturn hdue
    rw [hmode, hpend, if_pos (by decide)] at heffect
    obtain ⟨hlen, hno, hnext, hregs⟩ := takeSnapshot_shows (nextDump s)
    have htouch : Touches { regs := true, obs := true, free := true } s _ :=
      (touches_takeSnapshot (nextDump s)).after rfl <| (touches_obs _ _).mono rfl
    exact completes_touched (congrArg (guarded s) heffect) hawake.1.1 htouch rfl
      ⟨hlen, hno, hnext, hregs, htouch.spine rfl, keepsMemory_of_touches htouch rfl rfl rfl⟩
  · intro s hawake hen hturn hdue hpend
    have heffect := dumpTickEffect_due hawake hen hturn hdue
    rw [hpend, if_neg (by rw [Bool.not_true, Bool.and_false]; exact Bool.false_ne_true)] at heffect
    have hsat := touches_satAdd (nextDump s) 0x33201C 16 8 1
    have htouch : Touches { regs := true, obs := true } s _ := hsat.after rfl <| (touches_obs _ _).mono rfl
    exact completes_touched (congrArg (guarded s) heffect) hawake.1.1 htouch rfl
      ⟨getFld_satAdd _ _ _ (by decide), hsat.obs rfl, fun a ha => getReg_setFld_ne _ _ _ _ ha, onlyRegsObs_of_touches htouch⟩
  · intro s hdef hnot
    have hstay : dumpTickEffect s = s := if_neg fun h => by
      simp only [Bool.and_eq_true, decide_eq_true_eq] at h
      obtain ⟨⟨⟨-, hen⟩, -⟩, hdue⟩ := h
      exact hnot.elim (fun hoff => ne_true_of_eq_false hoff hen) fun hearly => Nat.not_le.mpr hearly hdue
    exact (congrArg (guarded s) hstay).trans (guarded_same hdef)
  · intro s hdef hlen hgrant htaken
    exact (congrArg (guarded s) (dumpIssueEffect_full hlen hgrant htaken)).trans (guarded_same hdef)
  · intro s a d l h hawake hmode hnone hitem hstop hq hhome
    have heffect := (dumpIssueEffect_next hawake.2 hmode hnone).trans (dumpNext_line hitem hstop hq)
    have htouch : Touches { spine := true, obs := true } s _ :=
      (touches_dumpLaunch (lineTaken s l) (dumpTxn s 0 a d false)).after rfl <| (touches_obs _ _).mono rfl
    obtain ⟨hleft, hobs⟩ := dumpLaunch_left (s := lineTaken s l) (x := dumpTxn s 0 a d false) ((homeOf_obs s _ _).trans hhome)
    obtain ⟨x, hx⟩ : ∃ x, x = dumpTxn s 0 a d false := ⟨_, rfl⟩
    have hdata : x.data = d ∧ x.req.addr = a ∧ x.req.opcode = 0x10 ∧ x.ring = false := by
      rw [hx]
      exact ⟨rfl, rfl, rfl, rfl⟩
    rw [← hx] at hleft hobs heffect htouch
    obtain ⟨hdx, haddr, hop, hring⟩ := hdata
    have hflight : (dumpLaunch (lineTaken s l) x).obs.dumpTxns = [x] := by
      rw [hobs]
      exact congrArg (· ++ [x]) hnone
    exact completes_touched (congrArg (guarded s) heffect) hawake.1 htouch rfl ⟨(congrArg Obs.dumpQ hobs).trans rfl,
      ⟨x, hflight, hdx, haddr, hop, hring, hleft⟩, htouch.regs rfl, keepsMemory_of_touches htouch rfl rfl rfl⟩
  · intro s a d l hawake hmode hnone hitem hstop hq hhome
    have heffect := (dumpIssueEffect_next hawake.2 hmode hnone).trans (dumpNext_line hitem hstop hq)
    have hsend := dumpSend_homeless (s := lineTaken s l) (x := dumpTxn s 0 a d false) ((homeOf_obs s _ _).trans hhome)
    obtain ⟨x, hx⟩ : ∃ x, x = dumpTxn s 0 a d false := ⟨_, rfl⟩
    have htxn : x.req.txn = x.txn := by
      rw [hx]
      rfl
    rw [← hx] at hsend heffect
    unfold dumpLaunch at heffect
    rw [hsend] at heffect
    have htouch : Touches { obs := true } s (dumpIssueEffect s) := by
      rw [heffect]
      exact touches_obs s _
    refine completes_touched (u := dumpIssueEffect s) rfl hawake.1 htouch rfl
      ⟨?_, htouch.spine rfl, ⟨homelessAnswer (lineTaken s l) x, x, ?_, ?_, ?_⟩, htouch.regs rfl, keepsMemory_of_touches htouch rfl rfl rfl⟩
    · rw [heffect]
      rfl
    · rw [heffect]
      rfl
    · rw [heffect]
      exact congrArg (· ++ [x]) hnone
    · show bridgeErr 7 x.req.txn x.req.prio = _
      rw [htxn]
  · intro s i l h hawake hmode hnone hitem hq hwait hhome
    have hnext := (dumpIssueEffect_next hawake.2 hmode hnone).trans (dumpNext_item hitem hq)
    have hlaunch : Touches { spine := true, obs := true } s _ :=
      (touches_dumpLaunch (itemTaken s l) (dumpTxn s 0 (BitVec.ofNat 48 (ringNext s)) (itemLine i) true)).after rfl <|
        (touches_obs _ _).mono rfl
    obtain ⟨hleft, hobs⟩ := dumpLaunch_left (s := itemTaken s l) (x := dumpTxn s 0 (BitVec.ofNat 48 (ringNext s)) (itemLine i) true)
      ((homeOf_obs s _ _).trans hhome)
    obtain ⟨x, hx⟩ : ∃ x, x = dumpTxn s 0 (BitVec.ofNat 48 (ringNext s)) (itemLine i) true := ⟨_, rfl⟩
    have hdata : x.data = itemLine i ∧ x.ring = true ∧ x.req.addr = BitVec.ofNat 48 (ringNext s) ∧ x.req.opcode = 0x10 := by
      rw [hx]
      exact ⟨rfl, rfl, rfl, rfl⟩
    rw [← hx] at hleft hobs hnext hlaunch
    obtain ⟨hdx, hring, haddr, hop⟩ := hdata
    obtain ⟨u, hu⟩ : ∃ u, u = dumpLaunch (itemTaken s l) x := ⟨_, rfl⟩
    rw [← hu] at hleft hobs hnext hlaunch
    have hwake := wakeWriters_none ((congrArg Obs.apWait hobs).trans hwait)
    have htouch : Touches { spine := true, obs := true } s (wakeWriters u) := by
      rw [hwake]
      exact (touches_obs u _).after rfl hlaunch
    obtain ⟨f, g, harr, -, -, hf, hg, -, -⟩ := hleft
    refine completes_touched (congrArg (guarded s) hnext) hawake.1 htouch rfl
      ⟨?_, ?_, ⟨x, ?_, hdx, hring, haddr, hop, f, g, ?_, hf, hg⟩, htouch.regs rfl, keepsMemory_of_touches htouch rfl rfl rfl⟩
    · rw [hwake]
      exact (congrArg Obs.storage hobs).trans rfl
    · rw [hwake]
      exact (congrArg Obs.dumpRun hobs).trans rfl
    · rw [hwake]
      exact (congrArg Obs.dumpTxns hobs).trans (congrArg (· ++ [x]) hnone)
    · rw [hwake]
      exact harr
  · intro s i r x hawake hin hmsg hx htxn hring hgone hop
    have heffect := (dumpResponseEffect_lone hin hmsg hx htxn).trans (dumpMessage_failed hx hring hgone hop)
    have hbit := touches_setBit (snapshotsStopped s) 0x33201C 24 true
    have htouch : Touches { regs := true, obs := true } s _ := hbit.after rfl <| (touches_snapshotsStopped s).mono rfl
    exact completes_touched (congrArg (guarded s) ((if_pos hawake.2).trans heffect)) hawake.1 htouch rfl
      ⟨congrArg Obs.dumpStop (hbit.obs rfl), congrArg Obs.dumpTxns (hbit.obs rfl), congrArg Obs.dumpInbox (hbit.obs rfl),
        getBit_setBit_same _ _ _ (by decide), fun a ha => getReg_setBit_ne _ _ _ ha, onlyRegsObs_of_touches htouch⟩
  · intro s i r x hawake hin hmsg hx htxn hring hop hroom
    have heffect := (dumpResponseEffect_lone hin hmsg hx htxn).trans (dumpMessage_stored hx hring hop hroom)
    have hset := touches_setFld (writeEnded s) 0x340020 0 15 (getFld s 0x340020 0 15 + 1)
    have htouch : Touches { regs := true, obs := true } s _ := hset.after rfl <| (touches_obs s _).mono rfl
    exact completes_touched (congrArg (guarded s) ((if_pos hawake.2).trans heffect)) hawake.1 htouch rfl
      ⟨congrArg Obs.dumpTxns (hset.obs rfl), congrArg Obs.dumpInbox (hset.obs rfl), getFld_setFld_same _ _ _ (by decide), fun a ha => getReg_setFld_ne _ _ _ _ ha, onlyRegsObs_of_touches htouch⟩
  · intro s hdef hnone
    have hstay : dumpResponseEffect s = s := by rw [dumpResponseEffect, hnone]
    exact (congrArg (guarded s) ((congrArg (ite _ · s) hstay).trans (ite_self s))).trans (guarded_same hdef)
  · intro s d hawake hdue hd hroom
    exact completes_touched (congrArg (guarded s) (flushEffect_due hawake hdue hd hroom)) hawake.1.1 (touches_obs s _) rfl
      ⟨rfl, rfl, rfl, rfl⟩
  · intro s hdef hnone
    have hstay : flushEffect s = s := if_neg (by rw [hnone, Option.any_none, Bool.and_false, Bool.false_and]; exact Bool.false_ne_true)
    exact (congrArg (guarded s) hstay).trans (guarded_same hdef)

end Sys2Proof.Proofs
end

section
/-! PROOF. Counted sources of the fault units (O56). -/

namespace Sys2Proof.Proofs

open Sys2Proof.Machine Sys2Proof.Safety Sys2Proof.Laws

variable {s : State} {u i : Nat}

-- the counts

theorem fltCount_setCount_same (s : State) (u i : Nat) (c : FltCount) : fltCount (setCount s u i c) u i = c := cellsGet_set_same ..

theorem fltCount_setCount_ne {v k : Nat} (s : State) (c : FltCount) (hi : i < 32) (hk : k < 32) (h : (v, k) ≠ (u, i)) :
    fltCount (setCount s u i c) v k = fltCount s v k :=
  cellsGet_set_ne _ _ fun heq => h (by
    obtain ⟨rfl, rfl⟩ : v = u ∧ k = i := by omega
    rfl)

theorem setCount_frame (s : State) (u i : Nat) (c : FltCount) : setCount s u i c =
    { s with faults := { s.faults with counts := (setCount s u i c).faults.counts } } := rfl

-- the registers of a counted event

theorem getReg_countEvent_ne {a : Nat} (h : a ≠ fltBase u) (h' : a ≠ fltBase u + 0x20) : getReg (countEvent s u i) a = getReg s a :=
  (getReg_setFld_ne _ _ _ _ h').trans (getReg_setBit_ne s i true h)

theorem getBit_countEvent (hi : i < 32) : getBit (countEvent s u i) (fltBase u) i = true := by
  have hset := getBit_setBit_same s (fltBase u) true hi
  unfold getBit at hset ⊢
  rw [countEvent, satAdd, getReg_setFld_ne _ _ _ _ (by omega)]
  exact hset

theorem getFld_countEvent : getFld (countEvent s u i) (fltBase u + 0x20) 0 16 = min (getFld s (fltBase u + 0x20) 0 16 + 1) 65535 := by
  rw [countEvent, getFld_satAdd _ _ _ (by decide), getFld, getReg_setBit_ne s i true (by omega)]
  rfl

theorem countedSource_lt (h : srcClass u i = .counted) : i ≠ 31 := by
  rintro rfl
  cases h

/-- The count of a source with one event more. -/
def oneMore (s : State) (u i : Nat) : FltCount :=
  if (fltCount s u i).count = 0 then ⟨1, s.tick + fltWindow s u⟩ else { fltCount s u i with count := (fltCount s u i).count + 1 }

theorem oneMore_count (s : State) (u i : Nat) : (oneMore s u i).count = (fltCount s u i).count + 1 := by
  unfold oneMore
  split
  case isTrue h => rw [h]
  case isFalse => rfl

theorem countedEvent_below (inj : Bool) (hfault : inFault s u i = false) (h : (fltCount s u i).count + 1 < fltThresh s u) :
    countedEvent s u i inj = setCount s u i (oneMore s u i) := by
  have hthresh : fltThresh (setCount s u i (oneMore s u i)) u = fltThresh s u := rfl
  unfold countedEvent
  rw [if_neg (ne_true_of_eq_false hfault)]
  show (if fltThresh (setCount s u i (oneMore s u i)) u ≤ (oneMore s u i).count then _ else setCount s u i (oneMore s u i)) = _
  rw [hthresh, oneMore_count, if_neg (Nat.not_le.mpr h)]

theorem report_below (hclass : srcClass u i = .counted) (hfault : inFault s u i = false)
    (h : (fltCount s u i).count + 1 < fltThresh s u) : report s u i = setCount (countEvent s u i) u i (oneMore (countEvent s u i) u i) := by
  have hregs : ∀ o, o ≠ 0 → o ≠ 0x20 → getReg (countEvent s u i) (fltBase u + o) = getReg s (fltBase u + o) := fun o h0 h20 =>
    getReg_countEvent_ne (by omega) (by omega)
  have hinfault : inFault (countEvent s u i) u i = false := by
    rw [inFault, getBit, hregs 4 (by decide) (by decide)]
    exact hfault
  have hthresh : fltThresh (countEvent s u i) u = fltThresh s u := by
    unfold fltThresh getFld
    rw [hregs 0x10 (by decide) (by decide)]
  unfold report eventAt
  rw [hclass]
  exact countedEvent_below false hinfault (by rwa [hthresh])

/-- Settles O56: below its threshold an event writes the two registers and the count of its source alone; the end of a window
writes the count alone. -/
theorem countedFaults : Obligations.CountedFaults := by
  unfold Obligations.CountedFaults
  refine ⟨?_, ?_, ?_, ?_⟩
  · intro s u i hawake hon hclass hfault hbelow
    have hne : ¬ i.val = 31 := countedSource_lt hclass
    have heffect : faultEventEffect s u.val i.val = setCount (countEvent s u i) u i (oneMore (countEvent s u i) u i) :=
      (if_pos (by rw [hawake.2, hon]; rfl)).trans ((if_neg hne).trans (report_below hclass hfault hbelow))
    have hcount := touches_countEvent s u.val i.val
    have hregs : (setCount (countEvent s u i) u i (oneMore (countEvent s u i) u i)).regs = (countEvent s u i).regs := rfl
    have hsame : ∀ v k, fltCount (countEvent s u i) v k = fltCount s v k := fun v k => rfl
    refine completes_of_guarded (congrArg (guarded s) heffect) hawake.1 (hcount.pending rfl) ⟨?_, ?_, ?_, ?_, ?_, ?_⟩
    · exact (getBit_congr hregs _ _).trans (getBit_countEvent i.isLt)
    · exact (getFld_congr hregs _ _ _).trans getFld_countEvent
    · rw [fltCount_setCount_same, oneMore_count, hsame]
    · exact fun v k hk hvk => (fltCount_setCount_ne _ _ i.isLt hk hvk).trans (hsame v k)
    · exact fun a h h' => (getReg_congr hregs a).trans (getReg_countEvent_ne h h')
    · rfl
  · intro s u i hdef hclass
    have hne : ¬ i.val = 31 := fun h => by
      rw [h] at hclass
      cases hclass
    have hstay : faultEventEffect s u.val i.val = s := by
      unfold faultEventEffect report eventAt
      rw [if_neg hne, hclass]
      exact ite_self s
    exact (congrArg (guarded s) hstay).trans (guarded_same hdef)
  · intro s u i hawake hcount hdue
    exact completes_of_guarded (congrArg (guarded s) (if_pos ⟨hawake.2, hcount, hdue⟩)) hawake.1 rfl
      ⟨fltCount_setCount_same s u i _, fun v k hk hvk => fltCount_setCount_ne s _ i.isLt hk hvk, setCount_frame s u i _⟩
  · intro s u i hdef hnone
    have hstay : windowExpireEffect s u.val i.val = s := if_neg fun h => h.2.1 hnone
    exact (congrArg (guarded s) hstay).trans (guarded_same hdef)

end Sys2Proof.Proofs
end

section
/-! PROOF. The Safe reaction, and drydown (O57). -/

namespace Sys2Proof.Proofs

open Sys2Proof.Machine Sys2Proof.Safety Sys2Proof.Laws

/-- A bank whose neighbour action waits. -/
def owingBank : Bank := { freshBank with pend := some 0 }

/-- M10 entered from M2, the quiet period over, with a neighbour action that waits in a bank of channel 0. -/
def owingCalm : State :=
  { State.reset with
    regs := [(0x10, 10), (0x320004, 0x2000), (0x320010, 1)]
    tick := 1000000000
    chans := (Vector.replicate 16 freshChan).set 0 { freshChan with banks := (Vector.replicate 32 freshBank).set 0 owingBank }
    pins := { State.reset.pins with porstLow := false, live := true, straps := { State.reset.pins.straps with chPop := 1 } } }

/-- Refutes O57: where drydown returns to M2, the ranks enter self-refresh, and the neighbour actions that wait issue first and
are counted in the always-on domain (`countNeighbour`), so that more of the domain changes than the count of recoveries. -/
theorem not_safeIsEnteredAndLeft : ¬ Obligations.SafeIsEnteredAndLeft := by
  unfold Obligations.SafeIsEnteredAndLeft
  rintro ⟨-, -, -, hleave⟩
  obtain ⟨t, ht, -, -, -, -, haon, -⟩ := hleave owingCalm (by unfold Awake; decide +kernel) (by decide +kernel) (by decide +kernel)
    (by decide +kernel)
  have hcounted : (drydownEffect owingCalm).aon.nref[0] = 1 := by decide +kernel
  have hstep : exec .drydownExpire owingCalm = .next (drydownEffect owingCalm) :=
    guarded_touched (touches_drydownEffect owingCalm) rfl rfl
  have hkept : t.aon.nref[0] = 0 := by
    rw [haon]
    rfl
  rw [← Host.Outcome.next.inj (hstep.symm.trans ht), hcounted] at hkept
  exact Nat.one_ne_zero hkept

end Sys2Proof.Proofs
end

section
/-! PROOF. M1: calibration, self-test, training, and the exit from Retention (O58). -/

namespace Sys2Proof.Proofs

open Sys2Proof.Machine Sys2Proof.Safety Sys2Proof.Laws

variable {s : State}

-- calibration

theorem calibrationEffect_good {m : BitVec 8} (u : BitVec 5) (hawake : Awake s) (hmode : curMode s = 1)
    (hboot : s.seq.boot = .calibrate) (hm : 25 ≤ m.toNat) : calibrationEffect s true m u =
      setBoot (setReg s 0x90 (BitVec.ofNat 32 (1 + 2 ^ 8 * m.toNat + 2 ^ 16 * u.toNat))) .sram := by
  unfold calibrationEffect
  dsimp only
  rw [if_pos ⟨hawake.2, hmode, hboot⟩, Bool.true_and, decide_eq_true hm, if_pos rfl]
  rfl

theorem calibrationEffect_bad {b : Bool} {m : BitVec 8} (u : BitVec 5) (hawake : Awake s) (hmode : curMode s = 1)
    (hboot : s.seq.boot = .calibrate) (hm : b = false ∨ m.toNat < 25) : calibrationEffect s b m u =
      report (outputsLive (setBoot (setReg s 0x90 (BitVec.ofNat 32 (2 + 2 ^ 8 * m.toNat + 2 ^ 16 * u.toNat))) .stopped)) 26 7 := by
  have hok : (b && decide (25 ≤ m.toNat)) = false := by
    obtain rfl | h := hm
    · rfl
    · rw [decide_eq_false (Nat.not_le.mpr h), Bool.and_false]
  have hshown : b2n false + 2 * b2n (!false) = 2 := rfl
  unfold calibrationEffect
  dsimp only
  rw [if_pos ⟨hawake.2, hmode, hboot⟩, hok, if_neg Bool.false_ne_true, hshown]

-- the self-test

theorem touches_setBoot (s : State) (b : Boot) : Touches { seq := true } s (setBoot s b) := touches_seq s _

theorem linkReady_frame (s : State) : (linkReady s).pins = { s.pins with live := true, memResetN := true } ∧
    (linkReady s).regs = (setBit (outputsLive s) 0x14 0 true).regs := by
  have hports : Touches { ports := true, slices := true } (setBit (outputsLive s) 0x14 0 true) (linkReady s) :=
    .forEach (fun u n => .ite ((touches_grantCredits _ _).after rfl <| (touches_latchPort _ _).mono rfl) (.refl _)) _ _
  have hbit := touches_setBit (outputsLive s) 0x14 0 true
  exact ⟨(hports.pins rfl).trans (hbit.pins rfl), hports.regs rfl⟩

theorem selfTestEffect_trains (hawake : Awake s) (hmode : curMode s = 1) (hboot : s.seq.boot = .sram) (hexit : s.seq.exit8 = false)
    (hpop : popCountOk s = true) : selfTestEffect s = setBoot (linkReady s) .train := by
  have hseq : (linkReady s).seq.exit8 = false := (congrArg Seq.exit8 ((touches_linkReady s).seq rfl)).trans hexit
  have hpop' : popCountOk (linkReady s) = true := by
    unfold popCountOk popSlices slicePop at hpop ⊢
    rwa [(linkReady_frame s).1]
  unfold selfTestEffect
  dsimp only
  rw [if_pos ⟨hawake.2, hmode, hboot⟩, hseq, if_neg Bool.false_ne_true, hpop', if_pos rfl]

-- training

theorem passedSteps_all : passedSteps 63 = 63 := by decide

/-- What a training that passed leaves of the ranks, density and rate. -/
def trainedConfig (r : TrainResult) : Word :=
  BitVec.ofNat 32 (b2n r.ranks2 + 2 * r.density.toNat + 2 ^ 4 * r.rate.toNat + 2 ^ 7 * b2n r.rfm + 2 ^ 8)

/-- The registers of a channel before its timing words are written. -/
def trainedHead (s : State) (c : Nat) (r : TrainResult) : State :=
  setReg (setReg (setReg s (mcBase c + 0x24) 127) (mcBase c) (trainedConfig r)) (mcBase c + 0x20) (BitVec.ofNat 32 r.flight.toNat)

/-- One timing word. -/
def writeTiming (c : Nat) (r : TrainResult) (s : State) (i : Nat) : State :=
  if h : i < 4 then setReg s (mcBase c + 0x10 + 4 * i) (timingWord r.rate r.density ⟨i, h⟩) else s

/-- The registers of a channel whose training passed. -/
def trainedRegs (s : State) (c : Nat) (r : TrainResult) : State := forEach 4 (trainedHead s c r) (writeTiming c r)

theorem applyTraining_passed (s : State) (c : Nat) {r : TrainResult} (h : r.pass = 63) :
    applyTraining s c r = startTimers (trainedRegs s c r) c := by
  unfold applyTraining
  dsimp only
  rw [h, passedSteps_all]
  rfl

theorem touches_trainedRegs (s : State) (c : Nat) (r : TrainResult) : Touches { regs := true } s (trainedRegs s c r) := by
  have hhead : Touches { regs := true } s (trainedHead s c r) :=
    (touches_setReg _ _ _).after rfl <| (touches_setReg _ _ _).after rfl <| touches_setReg _ _ _
  refine .comp (.forEach (fun u i => ?_) _ _) hhead
  unfold writeTiming
  split
  · exact touches_setReg _ _ _
  · exact .refl _

theorem getReg_writeTiming_ne (c : Nat) (r : TrainResult) (u : State) (i a : Nat) (h : ¬ a = mcBase c + 0x10 + 4 * i) :
    getReg (writeTiming c r u i) a = getReg u a := by
  unfold writeTiming
  split
  · exact getReg_setReg_ne _ _ h
  · rfl

theorem getReg_trainedRegs_other {a c : Nat} (r : TrainResult) (h : ∀ i, i < 4 → a ≠ mcBase c + 0x10 + 4 * i) :
    getReg (trainedRegs s c r) a = getReg (trainedHead s c r) a :=
  getReg_forEach_other (getReg_writeTiming_ne c r) 4 h

theorem getReg_trainedRegs_timing (s : State) (c : Nat) (r : TrainResult) (i : Fin 4) :
    getReg (trainedRegs s c r) (mcBase c + 0x10 + 4 * i.val) = timingWord r.rate r.density i := by
  unfold trainedRegs
  rw [getReg_forEach_own (getReg_writeTiming_ne c r) 4 i.isLt (fun j _ h => by omega), writeTiming, dif_pos i.isLt, getReg_setReg_same]

theorem getReg_trainedHead_ne {a c : Nat} (r : TrainResult) (h0 : a ≠ mcBase c) (h20 : a ≠ mcBase c + 0x20)
    (h24 : a ≠ mcBase c + 0x24) : getReg (trainedHead s c r) a = getReg s a := by
  rw [trainedHead, getReg_setReg_ne _ _ h20, getReg_setReg_ne _ _ h0, getReg_setReg_ne _ _ h24]

/-- The state after a training that passed while others go on. -/
def trainedOne (s : State) (c : Nat) (r : TrainResult) : State := noteAttempt (startTimers (trainedRegs s c r) c) c true

theorem touches_trainedOne (s : State) (c : Nat) (r : TrainResult) : Touches { regs := true, chans := true } s (trainedOne s c r) :=
  (touches_noteAttempt _ _ _).after rfl <| (touches_startTimers _ _).after rfl <| (touches_trainedRegs s c r).mono rfl

theorem regs_trainedOne (s : State) (c : Nat) (r : TrainResult) : (trainedOne s c r).regs = (trainedRegs s c r).regs :=
  ((touches_noteAttempt _ _ _).regs rfl).trans ((touches_startTimers _ _).regs rfl)

theorem chan_trainedOne_ne {c d : Nat} (r : TrainResult) (h : d ≠ c) : chan (trainedOne s c r) d = chan s d := by
  unfold trainedOne noteAttempt startTimers
  dsimp only
  rw [chan_setChan_ne _ _ h, chan_setChan_ne _ _ h]
  exact chan_congr ((touches_trainedRegs s c r).chans rfl) d

theorem chan_trainedOne_trained {c : Nat} (r : TrainResult) (hc : c < 16) : (chan (trainedOne s c r) c).trained = true := by
  unfold trainedOne noteAttempt
  dsimp only
  rw [chan_setChan_same _ _ _ hc]

theorem mcBase_mono (c : Nat) : 0x200000 ≤ mcBase c := Nat.le_add_right _ _

/-- Another channel of M1 trains on. -/
theorem inTraining_trainedOne {c d : Nat} (r : TrainResult) (h : d ≠ c) (hd : inTraining s d = true) :
    inTraining (trainedOne s c r) d = true := by
  have htouch := touches_trainedOne s c r
  have hmode : curMode (trainedOne s c r) = curMode s := by
    have hbase := mcBase_mono c
    rw [curMode, getFld, getReg_congr (regs_trainedOne s c r), getReg_trainedRegs_other r (fun i _ => by omega),
      getReg_trainedHead_ne r (by omega) (by omega) (by omega)]
    rfl
  unfold inTraining trainDone slicePop at hd ⊢
  rwa [htouch.seq rfl, hmode, htouch.pins rfl, chan_trainedOne_ne r h]

theorem trainingEffect_passed {c d : Nat} {r : TrainResult} (hrun : running s = true) (hexit : s.seq.exit8 = false)
    (hc : inTraining s c = true) (hd : inTraining s d = true) (hd16 : d < 16) (hne : d ≠ c) (hpass : r.pass = 63) :
    trainingEffect s c r = trainedOne s c r := by
  have hstate : noteAttempt (applyTraining s c r) c (trainPass r) = trainedOne s c r := by
    have hok : trainPass r = true := by
      unfold trainPass
      rw [hpass, passedSteps_all]
      rfl
    rw [applyTraining_passed s c hpass, hok]
    rfl
  have hmore : allTrained (trainedOne s c r) = false := by
    unfold allTrained
    rw [List.any_eq_true.mpr ⟨d, List.mem_range.mpr hd16, inTraining_trainedOne r hne hd⟩]
    rfl
  unfold trainingEffect m1Training
  dsimp only
  rw [if_neg (not_not_true hrun), if_pos hc, hexit, if_neg Bool.false_ne_true, hstate, hmore]
  exact if_neg fun h => Bool.false_ne_true h.2

-- the exit from Retention

theorem getReg_resetWindows_window (s : State) {a : Nat} (hlo : 0x310100 ≤ a) (hhi : a < 0x310300) :
    getReg (resetWindows s) a = regReset a := by
  rw [resetWindows, getReg_setReg_ne _ _ (by omega)]
  show cellsGet regReset (cellsDrop (fun a => decide (0x310100 ≤ a) && decide (a < 0x310300)) s.regs) a = regReset a
  refine cellsGet_drop_same _ ?_ _
  rw [decide_eq_true hlo, decide_eq_true hhi]
  rfl

/-- The twin port at the exit from Retention. -/
def wakeTwin (s : State) : State := if twinPwr s then twinOn s else if s.twin.perstLow then resetWindows s else s

theorem touches_wakeTwin (s : State) : Touches { regs := true, twin := true } s (wakeTwin s) :=
  .ite (touches_twinOn s) (.ite ((touches_resetWindows s).mono rfl) (.refl _))

theorem twin_twinOn (s : State) : (twinOn s).twin = { s.twin with latched := getReg s 0x310000, cfg := [], msix := [], inbox := [] } := by
  unfold twinOn
  extract_lets t u v
  split
  · exact (touches_resetWindows v).twin rfl
  · rfl

theorem getReg_twinOn_low (s : State) {a : Nat} (ha : a < 0x300000) : getReg (twinOn s) a = getReg s a := by
  unfold twinOn
  extract_lets t u v
  have hv : getReg v a = getReg s a := (getReg_setBit_ne _ _ _ (by omega)).trans (getReg_setBit_ne _ _ _ (by omega))
  split
  · exact (getReg_resetWindows v (by omega) (by omega)).trans hv
  · exact hv

theorem getReg_wakeTwin_low (s : State) {a : Nat} (ha : a < 0x300000) : getReg (wakeTwin s) a = getReg s a := by
  unfold wakeTwin
  split
  · exact getReg_twinOn_low s ha
  · split
    · exact getReg_resetWindows s (by omega) (by omega)
    · rfl

theorem getReg_wakeTwin_window (s : State) (hlow : s.twin.perstLow = true) {a : Nat} (hlo : 0x310100 ≤ a) (hhi : a < 0x310300) :
    getReg (wakeTwin s) a = regReset a := by
  unfold wakeTwin
  split
  · unfold twinOn
    extract_lets t u v
    rw [if_pos (show v.twin.perstLow = true from hlow)]
    exact getReg_resetWindows_window v hlo hhi
  · exact getReg_resetWindows_window s hlo hhi

/-- The core is supplied. -/
def poweredCore (s : State) : State := { s with pins := { s.pins with coreOn := true, boundsVoid := s.pins.boundsVoid || !s.pins.coreOn } }

/-- M1 is entered from Retention, with the core supplied. -/
def wokenCore (s : State) : State := { poweredCore s with seq := { s.seq with boot := .lock, exit8 := true } }

theorem retentionWakeEffect_due (hporst : s.pins.porstLow = false) (hbrst : s.pins.brstLow = false) (hclk : s.pins.aonClk = true)
    (hmode : curMode s = 8) : retentionWakeEffect s = wokenCore (wakeTwin (enterMode s 1)) := by
  have hfree : retentionWakeEffect.coreResetFree s = true := by
    rw [retentionWakeEffect.coreResetFree, hporst, hbrst]
    rfl
  exact if_pos ⟨hfree, hmode, hclk⟩

theorem touches_wokenCore (s : State) : Touches { seq := true, pins := true } s (wokenCore s) :=
  (touches_seq (poweredCore s) _).after rfl <| (touches_pins s _).mono rfl

theorem regs_wokenCore (s : State) : (wokenCore s).regs = s.regs := rfl

theorem twin_wokenCore (s : State) : (wokenCore s).twin = s.twin := rfl

/-- Settles O58: each event of M1 is the equation of its branch; a channel that passes writes its own registers, and another
channel in training keeps M1 where it is. -/
theorem calibrateSelfTestTrain : Obligations.CalibrateSelfTestTrain := by
  unfold Obligations.CalibrateSelfTestTrain
  refine ⟨?_, ?_, ?_, ?_, ?_, ?_, ?_, ?_⟩
  · intro s m u hawake hmode hboot hm
    have hset := touches_setReg s 0x90 (BitVec.ofNat 32 (1 + 2 ^ 8 * m.toNat + 2 ^ 16 * u.toNat))
    have htouch : Touches { regs := true, seq := true } s _ := (touches_setBoot _ .sram).after rfl <| hset.mono rfl
    exact completes_touched (congrArg (guarded s) (calibrationEffect_good u hawake hmode hboot hm)) hawake.1 htouch rfl
      ⟨getReg_setReg_same _ _ _, rfl, fun a ha => getReg_setReg_ne _ _ ha, htouch.frame⟩
  · intro s b m u hawake hmode hboot hm
    exact (guarded_defined _ hawake.1).trans (congrArg (resume s) (calibrationEffect_bad u hawake hmode hboot hm))
  · intro s hawake hmode hboot hexit hpop
    have hlink := touches_linkReady s
    have htouch : Touches { regs := true, ports := true, slices := true, pins := true, seq := true } s _ :=
      (touches_setBoot (linkReady s) .train).after rfl <| hlink.mono rfl
    obtain ⟨hpins, hregs⟩ := linkReady_frame s
    refine completes_touched (congrArg (guarded s) (selfTestEffect_trains hawake hmode hboot hexit hpop)) hawake.1 htouch rfl
      ⟨?_, ?_, hpins, fun a ha => ?_, htouch.dram rfl, htouch.chans rfl⟩
    · exact congrArg (fun q : Seq => { q with boot := .train }) (hlink.seq rfl)
    · exact (getBit_congr hregs 0x14 0).trans (getBit_setBit_same (outputsLive s) 0x14 true (by decide))
    · exact (getReg_congr hregs a).trans (getReg_setBit_ne (outputsLive s) 0 true ha)
  · intro s c d r hawake hexit hc hd hne hpass
    have heffect := trainingEffect_passed hawake.2 hexit hc hd d.isLt (fun h => hne (Fin.ext h.symm)) hpass
    have htouch := touches_trainedOne s c.val r
    have hregs := regs_trainedOne s c.val r
    refine completes_touched (congrArg (guarded s) heffect) hawake.1 htouch rfl
      ⟨?_, ?_, ?_, fun i => ?_, chan_trainedOne_trained r c.isLt, fun k hk => chan_trainedOne_ne r hk, fun a ha => ?_, htouch.frame⟩
    · rw [getReg_congr hregs, getReg_trainedRegs_other r (fun i _ => by omega), trainedHead, getReg_setReg_ne _ _ (by omega),
        getReg_setReg_same]
      rfl
    · rw [getReg_congr hregs, getReg_trainedRegs_other r (fun i _ => by omega), trainedHead, getReg_setReg_same]
    · rw [getReg_congr hregs, getReg_trainedRegs_other r (fun i _ => by omega), trainedHead, getReg_setReg_ne _ _ (by omega),
        getReg_setReg_ne _ _ (by omega), getReg_setReg_same]
    · rw [getReg_congr hregs, getReg_trainedRegs_timing]
    · have hoff : ∀ o, o ∈ [0, 0x10, 0x14, 0x18, 0x1C, 0x20, 0x24] → a ≠ mcBase c.val + o := ha
      have h0 := hoff 0 (by decide)
      have h10 := hoff 0x10 (by decide)
      have h14 := hoff 0x14 (by decide)
      have h18 := hoff 0x18 (by decide)
      have h1C := hoff 0x1C (by decide)
      rw [getReg_congr hregs, getReg_trainedRegs_other r (fun i hi => by omega),
        getReg_trainedHead_ne r h0 (hoff 0x20 (by decide)) (hoff 0x24 (by decide))]
  · intro s c r hdef hnot hnone
    have hstay : trainingEffect s c r = s := by
      unfold trainingEffect
      split
      · rfl
      · rw [if_neg (ne_true_of_eq_false hnot), hnone]
    exact (congrArg (guarded s) hstay).trans (guarded_same hdef)
  · intro s hdef hporst hbrst hclk hmode
    have heffect := retentionWakeEffect_due hporst hbrst hclk hmode
    have hentered := touches_enterMode s 1
    have hwake := (touches_wakeTwin (enterMode s 1)).after rfl (hentered.mono rfl : Touches { regs := true, twin := true } s _)
    have hpwr : twinPwr (enterMode s 1) = twinPwr s := by
      rw [twinPwr, getBit, enterMode, getReg_setReg_ne _ _ (by decide)]
      rfl
    have hlatch : getReg (enterMode s 1) 0x310000 = getReg s 0x310000 := getReg_setReg_ne s _ (by decide)
    have htwin := hentered.twin rfl
    have hmode1 : curMode (wakeTwin (enterMode s 1)) = 1 := by
      rw [curMode, getFld, getReg_wakeTwin_low _ (by decide)]
      exact curMode_enterMode s 1
    have hon : twinPwr s = true → wakeTwin (enterMode s 1) = twinOn (enterMode s 1) := fun h => if_pos (hpwr.trans h)
    have hoff : twinPwr s = false → s.twin.perstLow = false → wakeTwin (enterMode s 1) = enterMode s 1 := fun h hhigh =>
      (if_neg (by rw [hpwr, h]; exact Bool.false_ne_true)).trans (if_neg (by rw [htwin, hhigh]; exact Bool.false_ne_true))
    have hwindows : s.twin.perstLow = true → ∀ a, 0x310100 ≤ a → a < 0x310300 → getReg (wakeTwin (enterMode s 1)) a = regReset a :=
      fun hlow a hlo hhi => getReg_wakeTwin_window _ ((congrArg Twin.perstLow htwin).trans hlow) hlo hhi
    obtain ⟨-, hpwron, hfence, -, -, -⟩ := twinOn_effect (enterMode s 1)
    have htwinon := twin_twinOn (enterMode s 1)
    obtain ⟨w, hw⟩ : ∃ w, w = wakeTwin (enterMode s 1) := ⟨_, rfl⟩
    rw [← hw] at heffect hwake hmode1 hon hoff hwindows
    have htouch : Touches { regs := true, twin := true, seq := true, pins := true } s (wokenCore w) :=
      (touches_wokenCore w).after rfl (hwake.mono rfl)
    refine completes_touched (congrArg (guarded s) heffect) hdef htouch rfl
      ⟨hmode1, ?_, ?_, htouch.frame, fun h => ⟨?_, ?_, ?_⟩, fun h hhigh => ⟨?_, fun a ha => ?_⟩, hwindows⟩
    · exact congrArg (fun q : Seq => { q with boot := .lock, exit8 := true }) (hwake.seq rfl)
    · exact congrArg (fun p : Pins => { p with coreOn := true, boundsVoid := p.boundsVoid || !p.coreOn }) (hwake.pins rfl)
    · rw [twin_wokenCore, hon h, htwinon, hlatch, htwin]
    · rw [getBit_congr (regs_wokenCore w), hon h]
      exact hpwron
    · rw [getBit_congr (regs_wokenCore w), hon h]
      exact hfence
    · rw [twin_wokenCore, hoff h hhigh, htwin]
    · rw [getReg_congr (regs_wokenCore w), hoff h hhigh]
      exact getReg_setReg_ne s _ ha
  · intro s hdef hnot
    have hstay : retentionWakeEffect s = s := if_neg fun ⟨_, hmode, hclk⟩ => hnot.elim (fun h => h hmode)
      (fun h => ne_true_of_eq_false h hclk)
    exact (congrArg (guarded s) hstay).trans (guarded_same hdef)
  · intro s m u b hdef hmode
    have hcal : calibrationEffect s b m u = s := if_neg fun h => hmode h.2.1
    have htest : selfTestEffect s = s := if_neg fun h => hmode h.2.1
    exact ⟨(congrArg (guarded s) hcal).trans (guarded_same hdef), (congrArg (guarded s) htest).trans (guarded_same hdef)⟩

end Sys2Proof.Proofs
end

section
/-! SUPPORT. The ranks enter self-refresh (R262, R269), and what a Wipe leaves of the registers and the queues (Table 16.6). -/

namespace Sys2Proof.Proofs

open Sys2Proof.Machine Sys2Proof.Safety Sys2Proof.Laws

variable {s : State}

/-- The ranks moved on: registers but those of the channels and counters, and the queues, stand, and of the always-on domain the
neighbour counts alone changed. -/
structure RanksMoved (s t : State) : Prop where
  regs : ∀ a, a < 0x200000 ∨ 0x332000 ≤ a → getReg t a = getReg s a
  queues : ∀ c, (chan t c).rdq = (chan s c).rdq ∧ (chan t c).wrq = (chan s c).wrq
  ledger : ∃ v, t.aon = { s.aon with nref := v }

theorem RanksMoved.refl (s : State) : RanksMoved s s := ⟨fun _ _ => rfl, fun _ => ⟨rfl, rfl⟩, s.aon.nref, rfl⟩

theorem RanksMoved.trans {t u : State} (h : RanksMoved s t) (h' : RanksMoved t u) : RanksMoved s u := by
  obtain ⟨v, hv⟩ := h.ledger
  obtain ⟨w, hw⟩ := h'.ledger
  refine ⟨fun a ha => (h'.regs a ha).trans (h.regs a ha), fun c => ⟨(h'.queues c).1.trans (h.queues c).1, (h'.queues c).2.trans (h.queues c).2⟩,
    w, ?_⟩
  rw [hw, hv]

theorem RanksMoved.foldl {α : Type} {f : State → α → State} (h : ∀ s a, RanksMoved s (f s a)) : ∀ (l : List α) (s : State),
    RanksMoved s (l.foldl f s)
  | [], s => RanksMoved.refl s
  | a :: l, s => (h s a).trans (RanksMoved.foldl h l (f s a))

theorem RanksMoved.forEach {f : State → Nat → State} (h : ∀ s k, RanksMoved s (f s k)) (n : Nat) (s : State) :
    RanksMoved s (Machine.forEach n s f) := RanksMoved.foldl h _ s

theorem ranksMoved_setChan {c : Nat} {x : Chan} (hr : x.rdq = (chan s c).rdq) (hw : x.wrq = (chan s c).wrq) :
    RanksMoved s (setChan s c x) := by
  have htouch := touches_setChan s c x
  refine ⟨fun a _ => getReg_congr (htouch.regs rfl) a, fun d => ?_, s.aon.nref, htouch.aon rfl⟩
  by_cases hc : c < 16
  · obtain rfl | hd := eq_or_ne d c
    · rw [chan_setChan_same _ _ _ hc]
      exact ⟨hr, hw⟩
    · rw [chan_setChan_ne _ _ hd]
      exact ⟨rfl, rfl⟩
  · unfold setChan
    rw [dif_neg hc]
    exact ⟨rfl, rfl⟩

theorem ranksMoved_setBank (s : State) (c r b : Nat) (k : Bank) : RanksMoved s (setBank s c r b k) := by
  unfold setBank
  split
  · exact ranksMoved_setChan rfl rfl
  · exact RanksMoved.refl s

theorem ranksMoved_pmuEvent (s : State) {c : Nat} (hc : c < 16) (e : Nat) : RanksMoved s (pmuEvent s (8 + c) e) := by
  have htouch := touches_pmuEvent s (8 + c) e
  refine ⟨fun a ha => getReg_pmuEvents_ne e 1 (by unfold pmuBase; omega), fun d => ?_, s.aon.nref, htouch.aon rfl⟩
  rw [chan_congr (htouch.chans rfl)]
  exact ⟨rfl, rfl⟩

theorem ranksMoved_pushAct (s : State) {c : Nat} (hc : c < 16) (r t : Nat) : RanksMoved s (pushAct s c r t) := by
  unfold pushAct
  extract_lets x keep
  have hset : RanksMoved s (setChan s c { x with acts := keep ++ [(r, t)] }) := ranksMoved_setChan rfl rfl
  exact hset.trans (ranksMoved_pmuEvent _ hc 3)

theorem ranksMoved_countNeighbour (s : State) {c : Nat} (hc : c < 16) : RanksMoved s (countNeighbour s c) := by
  have hsat : RanksMoved s (satAdd s (mcBase c + 0x50) 0 32 1) :=
    ⟨fun a ha => getReg_setFld_ne _ _ _ _ (by unfold mcBase; omega), fun _ => ⟨rfl, rfl⟩, s.aon.nref, rfl⟩
  refine (hsat.trans (ranksMoved_pmuEvent _ hc 8)).trans ⟨fun _ _ => rfl, fun _ => ⟨rfl, rfl⟩, _, rfl⟩

theorem ranksMoved_closeBank (s : State) (c r b : Nat) : RanksMoved s (closeBank s c r b) := by
  unfold closeBank
  dsimp only
  split
  · exact ranksMoved_setBank _ _ _ _ _
  · exact RanksMoved.refl s

theorem ranksMoved_neighbourAt (s : State) {c : Nat} (hc : c < 16) (r b start : Nat) : RanksMoved s (neighbourAt s c r b start) := by
  unfold neighbourAt
  extract_lets _ _ _ _ u v w _ _ x _ y
  have hv : RanksMoved s v := (ranksMoved_setBank s _ _ _ _).trans (ranksMoved_setBank _ _ _ _ _)
  have hw : RanksMoved s w := hv.trans (ranksMoved_countNeighbour _ hc)
  have hx : RanksMoved s x := .forEach (fun u k => ranksMoved_pushAct u hc _ _) _ s
  split
  · split
    · exact hw.trans (ranksMoved_countNeighbour _ hc)
    · exact hw
  · exact (hx.trans (ranksMoved_setBank _ _ _ _ _)).trans (ranksMoved_countNeighbour _ hc)

theorem ranksMoved_issuePending (s : State) {c : Nat} (hc : c < 16) : RanksMoved s (issuePending s c) := by
  refine .foldl (fun u r => .forEach (fun v b => ?_) 16 u) _ s
  split
  · exact RanksMoved.refl v
  · have hclose := ranksMoved_closeBank v c r b
    extract_lets w x
    have hx : RanksMoved v x := by
      unfold x
      split
      · exact hclose.trans (ranksMoved_closeBank w c r (pairBank b))
      · exact hclose
    exact hx.trans (ranksMoved_neighbourAt x hc r b _)

theorem ranksMoved_sleepChan (s : State) {c : Nat} (hc : c < 16) : RanksMoved s (sleepChan s c) :=
  (ranksMoved_issuePending s hc).trans (ranksMoved_setChan rfl rfl)

theorem ranksMoved_sleepAll (s : State) : RanksMoved s (sleepAll s) := by
  have hupTo : ∀ n, n ≤ 16 → RanksMoved s (forEach n s (fun s c => if slicePop s (c / 2) && !initRuns s c then sleepChan s c else s)) := by
    intro n
    induction n with
    | zero => exact fun _ => RanksMoved.refl s
    | succ n ih =>
      intro hn
      rw [forEach_succ]
      have hprev := ih (by omega)
      split
      · exact hprev.trans (ranksMoved_sleepChan _ hn)
      · exact hprev
  exact hupTo 16 (Nat.le_refl 16)

/-- The mode is reached: but for the mode register the ranks alone moved, and no transition is left. -/
theorem ranksMoved_reachMode (s : State) (m : Nat) : RanksMoved (setTrans (enterMode s m) none) (reachMode s m) := by
  unfold reachMode
  dsimp only
  split
  · exact ranksMoved_sleepAll _
  · exact RanksMoved.refl _

/-- The mode register in a mode that is reached. -/
theorem modeShown_enterMode (s : State) {m : Nat} (hm : m < 16) : curMode (enterMode s m) = m ∧
    getFld (enterMode s m) 0x10 4 4 = curMode s ∧ inTransit (enterMode s m) = false := by
  have hcur : curMode s < 2 ^ 4 := Nat.mod_lt _ (by decide)
  have hfit : m % 16 + 16 * curMode s + 256 * (m % 16) < 2 ^ 32 := by omega
  have hfld : ∀ lo n, getFld (enterMode s m) 0x10 lo n = (m % 16 + 16 * curMode s + 256 * (m % 16)) / 2 ^ lo % 2 ^ n := fun lo n => by
    rw [getFld, enterMode, getReg_setReg_same, bitsOf, BitVec.toNat_ofNat, Nat.mod_eq_of_lt hfit]
  refine ⟨?_, ?_, ?_⟩
  · rw [curMode_enterMode, Nat.mod_eq_of_lt hm]
  · rw [hfld, Nat.mod_eq_of_lt hm, show m + 16 * curMode s + 256 * m = 2 ^ 4 * (curMode s + 16 * m) + m by ring,
      Nat.mul_add_div (Nat.two_pow_pos 4), Nat.div_eq_of_lt hm]
    omega
  · rw [inTransit, getBit, bitOf, enterMode, getReg_setReg_same, BitVec.getLsbD_ofNat, Bool.and_eq_false_imp]
    exact fun _ => Nat.testBit_lt_two_pow (by omega)

theorem modeShown_reachMode (s : State) {m : Nat} (hm : m < 16) : curMode (reachMode s m) = m ∧
    getFld (reachMode s m) 0x10 4 4 = curMode s ∧ inTransit (reachMode s m) = false ∧ (reachMode s m).seq.trans = none := by
  have hreg : getReg (reachMode s m) 0x10 = getReg (enterMode s m) 0x10 := (ranksMoved_reachMode s m).regs 0x10 (.inl (by decide))
  obtain ⟨hmode, hprev, htransit⟩ := modeShown_enterMode s hm
  have htrans : (reachMode s m).seq.trans = none := by
    unfold reachMode
    dsimp only
    split
    · rw [(touches_sleepAll _).seq rfl]
      rfl
    · rfl
  unfold curMode inTransit getFld getBit at *
  rw [hreg]
  exact ⟨hmode, hprev, htransit, htrans⟩

/-- The end of a command leaves the transition and every register but the events. -/
theorem finishCmd_ends (s : State) (st : Nat) (d : List Word) : RegsBut 0x35000C s (finishCmd s st d) ∧
    (finishCmd s st d).seq.run = none ∧ (finishCmd s st d).seq.trans = s.seq.trans := by
  refine ⟨(finishCmd_regs s st d).1, (finishCmd_seq s st d).1, ?_⟩
  unfold finishCmd
  split
  · rfl
  · extract_lets _ u
    split
    · rfl
    · unfold sendReply
      split
      · rfl
      · exact (pushReply_seq u _ _).2.1

/-- The mode register and the sequencer once a command has ended with its mode reached. -/
theorem modeShown_finished (s : State) {m : Nat} (st : Nat) (d : List Word) (hm : m < 16) :
    curMode (finishCmd (reachMode s m) st d) = m ∧ getFld (finishCmd (reachMode s m) st d) 0x10 4 4 = curMode s ∧
      inTransit (finishCmd (reachMode s m) st d) = false ∧ (finishCmd (reachMode s m) st d).seq.run = none ∧
      (finishCmd (reachMode s m) st d).seq.trans = none := by
  obtain ⟨hmode, hprev, htransit, htrans⟩ := modeShown_reachMode s hm
  obtain ⟨hregs, hrun, hkept⟩ := finishCmd_ends (reachMode s m) st d
  have hreg := hregs 0x10 (by decide)
  unfold curMode inTransit getFld getBit at *
  rw [hreg]
  exact ⟨hmode, hprev, htransit, hrun, hkept.trans htrans⟩

-- registers that are not stored

/-- Register `a` has no stored value. -/
def Unstored (a : Nat) (l : Cells Word) : Prop := ∀ e ∈ l, e.1 ≠ a

theorem cellsGet_unstored {a : Nat} : ∀ {l : Cells Word}, Unstored a l → cellsGet regReset l a = regReset a
  | [], _ => rfl
  | e :: l, h => by
    rw [cellsGet, if_neg (h e (List.mem_cons_self ..))]
    exact cellsGet_unstored fun x hx => h x (List.mem_cons_of_mem _ hx)

theorem Unstored.drop {a : Nat} {l : Cells Word} (p : Nat → Bool) (h : Unstored a l) : Unstored a (cellsDrop p l) :=
  fun e he => h e (List.mem_filter.mp he).1

theorem unstored_drop {a : Nat} {p : Nat → Bool} (l : Cells Word) (h : p a = true) : Unstored a (cellsDrop p l) := fun e he hea => by
  have hkeep := (List.mem_filter.mp he).2
  rw [hea, h] at hkeep
  exact Bool.noConfusion hkeep

theorem mem_cellsPlace {k : Nat} {v : Word} {e : Nat × Word} : ∀ {l : Cells Word}, e ∈ cellsPlace k v l → e = (k, v) ∨ e ∈ l
  | [], h => .inl (List.mem_singleton.mp h)
  | x :: l, h => by
    unfold cellsPlace at h
    split at h
    · exact List.mem_cons.mp h
    · obtain h | h := List.mem_cons.mp h
      · exact .inr (h ▸ List.mem_cons_self ..)
      · exact (mem_cellsPlace h).imp_right (List.mem_cons_of_mem _)

theorem Unstored.set {a b : Nat} {l : Cells Word} (v : Word) (h : Unstored a l) (hne : b ≠ a) : Unstored a (cellsSet regReset l b v) := by
  unfold cellsSet
  dsimp only
  split
  · exact h.drop _
  · intro e he
    obtain rfl | he := mem_cellsPlace he
    · exact hne
    · exact h.drop _ e he

theorem Unstored.setReg {a b : Nat} {s : State} (v : Word) (h : Unstored a s.regs) (hne : b ≠ a) : Unstored a (Machine.setReg s b v).regs :=
  h.set v hne

theorem Unstored.resetRegs {a : Nat} {s : State} (lo hi : Nat) (h : Unstored a s.regs) : Unstored a (Machine.resetRegs s lo hi).regs :=
  Unstored.drop (fun a => decide (lo ≤ a) && decide (a < hi)) h

theorem Unstored.clearCountRegs {a : Nat} {l : Cells Word} (h : Unstored a l) : Unstored a (Machine.clearCountRegs l) := fun e he => by
  obtain ⟨c, hc, hce⟩ := List.mem_filterMap.mp he
  dsimp only at hce
  obtain ⟨-, hkept⟩ := Option.ite_none_left_eq_some.mp hce
  cases hkept
  exact h c hc

theorem Unstored.congr {a : Nat} {s t : State} (h : Unstored a s.regs) (hregs : t.regs = s.regs) : Unstored a t.regs := hregs ▸ h

-- the state of a Wipe

/-- A channel after a Wipe. -/
def wipeChan (s : State) (c : Nat) : State :=
  let s := setReg s (mcBase c + 0xA0) (BitVec.ofNat 32 (bitsOf (getReg s (mcBase c + 0xA0)) 0 24))
  let x := chan s c
  let s := if chanActive s c then setFld (setBit s (mcBase c + 0xA0) 24 false) (mcBase c + 0xA0) 0 24 (rowUnits s c) else s
  setChan s c { x with rdq := [], wrq := [], early := [], pending := 0, lost := [], toSeal := [] }

theorem chan_wipeChan_same (s : State) {c : Nat} (hc : c < 16) : (chan (wipeChan s c) c).rdq = [] ∧ (chan (wipeChan s c) c).wrq = [] := by
  unfold wipeChan
  dsimp only
  rw [chan_setChan_same _ _ _ hc]
  exact ⟨rfl, rfl⟩

theorem chan_wipeChan_ne (s : State) {c d : Nat} (h : d ≠ c) : chan (wipeChan s c) d = chan s d := by
  unfold wipeChan
  dsimp only
  rw [chan_setChan_ne _ _ h]
  split
  · exact chan_congr (((touches_setFld _ _ _ _ _).chans rfl).trans (((touches_setBit _ _ _ _).chans rfl).trans
      ((touches_setReg _ _ _).chans rfl))) d
  · exact chan_congr ((touches_setReg _ _ _).chans rfl) d

theorem Unstored.wipeChan {a c : Nat} {s : State} (h : Unstored a s.regs) (hne : mcBase c + 0xA0 ≠ a) :
    Unstored a (Proofs.wipeChan s c).regs := by
  unfold Proofs.wipeChan
  dsimp only
  have hset := Unstored.setReg (BitVec.ofNat 32 (bitsOf (getReg s (mcBase c + 0xA0)) 0 24)) h hne
  split
  · exact Unstored.congr (Unstored.setReg _ (Unstored.setReg _ hset hne) hne) ((touches_setChan _ _ _).regs rfl)
  · exact Unstored.congr hset ((touches_setChan _ _ _).regs rfl)

theorem forEach_wipeChan_queues (s : State) : ∀ n, n ≤ 16 → ∀ c, c < n →
    (chan (forEach n s wipeChan) c).rdq = [] ∧ (chan (forEach n s wipeChan) c).wrq = []
  | 0, _, c, hc => absurd hc (Nat.not_lt_zero c)
  | n + 1, hn, c, hc => by
    rw [forEach_succ]
    obtain rfl | hne := eq_or_ne c n
    · exact chan_wipeChan_same _ hn
    · rw [chan_wipeChan_ne _ hne]
      exact forEach_wipeChan_queues s n (by omega) c (by omega)

end Sys2Proof.Proofs
end

section
/-! PROOF. The end of a SET_MODE, of a Drain and of a Wipe (O59). -/

namespace Sys2Proof.Proofs

open Sys2Proof.Machine Sys2Proof.Safety Sys2Proof.Laws

variable {s : State}

-- the state of a Wipe

/-- The tables, regions and realms of a Wipe. -/
def wipedTables (s : State) : State := resetTables (forEach 64 (resetRegions s) bumpGeneration)

/-- The counts of a Wipe, with the windows and the mirror's registers at reset. -/
def wipedCounts (u : State) : State :=
  resetRegs (resetRegs (resetWindows { u with regs := clearCountRegs u.regs, spine := { u.spine with probe := [] } }) 0x310300 0x310400)
    0x310060 0x310064

/-- The observability of a Wipe. -/
def wipedObs (o : Obs) : Obs :=
  { o with counts := [], samples := [], storage := [], assembly := [], flushDue := none, dumpQ := [], log := [], loss := 0 }

/-- The memory of a Wipe, and what belongs to it. -/
def wipedMemory (x : State) : State :=
  { x with dram := [], slices := x.slices.map wipeSlice, mirror := wipeMirror x.mirror, aon := { x.aon with roots := [], wipePend := false },
           obs := wipedObs x.obs }

theorem wipeState_eq (s : State) : wipeState s = wipedMemory (forEach 16 (wipedCounts (wipedTables s)) wipeChan) := rfl

theorem touches_wipedTables (s : State) : Touches { regs := true, chans := true, seq := true } s (wipedTables s) :=
  (touches_resetTables _).after rfl <| .comp (.forEach (fun _ _ => (touches_bumpGeneration _ _).mono rfl) _ _) <|
    (touches_resetRegions _).mono rfl

theorem touches_wipedCounts (u : State) : Touches { regs := true, spine := true } u (wipedCounts u) :=
  (touches_resetRegs _ _ _).after rfl <| (touches_resetRegs _ _ _).after rfl <| (touches_resetWindows _).after rfl <|
    touches_clearCounts u { u.spine with probe := [] }

theorem touches_wipeChan (s : State) (c : Nat) : Touches { regs := true, chans := true } s (wipeChan s c) := by
  unfold wipeChan
  dsimp only
  exact (touches_setChan _ _ _).after rfl <|
    .ite ((touches_setFld _ _ _ _ _).after rfl <| (touches_setBit _ _ _ _).after rfl <| (touches_setReg _ _ _).mono rfl)
      ((touches_setReg _ _ _).mono rfl)

/-- A Wipe leaves what the sequencer waits for. -/
theorem wipeState_lcTarget (s : State) : (wipeState s).seq.lcTarget = s.seq.lcTarget := by
  have hchans : Touches { regs := true, chans := true } (wipedCounts (wipedTables s)) (forEach 16 (wipedCounts (wipedTables s)) wipeChan) :=
    .forEach (fun u c => touches_wipeChan u c) _ _
  have htables : (wipedTables s).seq.lcTarget = s.seq.lcTarget := by
    have hbump : Touches { regs := true } s (forEach 64 (resetRegions s) bumpGeneration) :=
      .comp (.forEach (fun _ _ => touches_bumpGeneration _ _) _ _) (touches_resetRegions _)
    have hspared : ∀ u, (resetTables u).seq.lcTarget = u.seq.lcTarget := fun u => by
      unfold resetTables
      extract_lets v w
      have hw : Touches { regs := true, chans := true } u w :=
        .comp (.forEach (fun _ _ => (touches_setChan _ _ _).after rfl <| (touches_resetRegs _ _ _).mono rfl) _ _)
          (.forEach (fun _ _ => (touches_resetRegs _ _ _).mono rfl) _ _)
      have hseq := hw.seq rfl
      clear_value w
      show w.seq.lcTarget = u.seq.lcTarget
      rw [hseq]
    rw [wipedTables, hspared, hbump.seq rfl]
  rw [wipeState_eq]
  exact (congrArg Seq.lcTarget ((hchans.seq rfl).trans ((touches_wipedCounts _).seq rfl))).trans htables

theorem unstored_resetTables {a : Nat} {u : State} (h : Unstored a u.regs) : Unstored a (resetTables u).regs := by
  unfold resetTables
  extract_lets v w
  have hv : Unstored a v.regs := by
    refine forEach_keeps (P := fun t : State => Unstored a t.regs) (fun t n ht => ?_) 8 h
    exact Unstored.resetRegs _ _ ht
  have hw : Unstored a w.regs := by
    refine forEach_keeps (P := fun t : State => Unstored a t.regs) (fun t c ht => ?_) 16 hv
    exact Unstored.congr (Unstored.resetRegs _ _ ht) ((touches_setChan _ _ _).regs rfl)
  clear_value w
  exact hw

/-- The region table is at reset. -/
theorem unstored_wipedTables {a : Nat} (hlo : 0x360000 ≤ a) (hhi : a < 0x36040C) : Unstored a (wipedTables s).regs := by
  have hregions : Unstored a (resetRegions s).regs := unstored_drop (p := fun a => decide (0x360000 ≤ a) && decide (a < 0x36040C)) s.regs
    (by rw [decide_eq_true hlo, decide_eq_true hhi]; rfl)
  exact unstored_resetTables (forEach_keeps (P := fun t : State => Unstored a t.regs)
    (fun t r ht => Unstored.setReg _ ht (by omega)) 64 hregions)

theorem unstored_wipedCounts {a : Nat} {u : State} (h : Unstored a u.regs) (hne : 0x31001C ≠ a) : Unstored a (wipedCounts u).regs :=
  Unstored.resetRegs _ _ (Unstored.resetRegs _ _ (Unstored.setReg 0 (Unstored.resetRegs _ _ (Unstored.clearCountRegs h)) hne))

theorem getReg_wipeState {a : Nat} (hlo : 0x360000 ≤ a) (hhi : a < 0x36040C) : getReg (wipeState s) a = regReset a := by
  have hcounts : Unstored a (wipedCounts (wipedTables s)).regs := unstored_wipedCounts (unstored_wipedTables hlo hhi) (by omega)
  have hchans : ∀ n, n ≤ 16 → Unstored a (forEach n (wipedCounts (wipedTables s)) wipeChan).regs := by
    intro n
    induction n with
    | zero => exact fun _ => hcounts
    | succ n ih =>
      intro hn
      rw [forEach_succ]
      exact Unstored.wipeChan (ih (by omega)) (by unfold mcBase; omega)
  rw [wipeState_eq]
  exact cellsGet_unstored (hchans 16 (Nat.le_refl 16))

theorem wipeState_memory (s : State) : (wipeState s).dram = [] ∧ (wipeState s).aon.roots = [] ∧ (wipeState s).aon.wipePend = false ∧
    (∀ c, c < 16 → (chan (wipeState s) c).rdq = [] ∧ (chan (wipeState s) c).wrq = []) ∧
    (∀ n, n < 8 → (slice (wipeState s) n).filter = []) := by
  have hqueues := forEach_wipeChan_queues (wipedCounts (wipedTables s)) 16 (Nat.le_refl 16)
  rw [wipeState_eq]
  generalize forEach 16 (wipedCounts (wipedTables s)) wipeChan = x at hqueues ⊢
  refine ⟨rfl, rfl, rfl, fun c hc => ?_, fun n hn => ?_⟩
  · rw [chan_congr (t := wipedMemory x) (s := x) rfl]
    exact hqueues c hc
  · unfold slice wipedMemory
    dsimp only
    rw [dif_pos hn, Vector.getElem_map]
    rfl

-- the ends

theorem modeTransitionEffect_reaches {r : RunCmd} (hrun : running s = true) (htransit : inTransit s = true) (h7 : curMode s ≠ 7)
    (h11 : curMode s ≠ 11) (hr : s.seq.run = some r) (hop : bitsOf r.hdr 0 8 = 2) (hphase : r.phase = 2) (hsafe : inSafe s = false)
    (hswap : swapPending s = false) : modeTransitionEffect s =
      finishCmd (reachMode s (getFld s 0x10 8 4)) stOk [BitVec.ofNat 32 (getFld s 0x10 8 4)] := by
  have hend : setModeEnd s = finishCmd (reachMode s (getFld s 0x10 8 4)) stOk [BitVec.ofNat 32 (getFld s 0x10 8 4)] := by
    have hleave : leaveSafe s = s := if_neg (ne_true_of_eq_false hsafe)
    unfold setModeEnd
    dsimp only
    rw [hsafe, hswap, Bool.false_and, Bool.and_false, if_neg Bool.false_ne_true, if_neg Bool.false_ne_true, hleave]
  unfold modeTransitionEffect
  dsimp only
  rw [hrun, htransit, bne_iff_ne.mpr h7, bne_iff_ne.mpr h11, if_pos (by decide), hr]
  dsimp only
  rw [hop, hphase, if_neg (by decide), if_pos rfl, if_neg (by decide), hr]
  dsimp only
  rw [hphase, if_pos rfl, hend]

theorem drainCompleteEffect_flushed {u : State} {x : Trans} (hmode : curMode s = 7) (htrans : s.seq.trans = some x)
    (hdone : drained (drainWork s x.target.toNat) x.target.toNat = true) (hu : u = flushAll (drainWork s x.target.toNat)) :
    drainCompleteEffect s =
      if curMode u ≠ 7 ∨ (List.range 8).any (metaDirty u) = true then u else drainEnd u x.target.toNat := by
  unfold drainCompleteEffect
  rw [if_pos hmode, htrans]
  dsimp only
  rw [if_pos hdone, ← hu]

theorem drainCompleteEffect_ends {u : State} {x : Trans} {k : Nat} (hmode : curMode s = 7) (htrans : s.seq.trans = some x)
    (htarget : x.target.toNat = k) (hdone : drained (drainWork s k) k = true) (hu : u = flushAll (drainWork s k))
    (hstill : curMode u = 7) (hclean : (List.range 8).any (metaDirty u) = false) : drainCompleteEffect s = drainEnd u k := by
  subst htarget
  rw [drainCompleteEffect_flushed hmode htrans hdone hu,
    if_neg (by rintro (h | h); exacts [h hstill, ne_true_of_eq_false hclean h])]

/-- M2 after a Wipe, the command ended. -/
theorem wipeCompleteEffect_ends (hmode : curMode s = 11) (hadv : s.pins.lcAdvReq = false) (hnone : s.seq.lcTarget = none) :
    ∃ d, wipeCompleteEffect s = finishCmd (endWipe (wipeState s)) stOk d := by
  have htarget := (wipeState_lcTarget s).trans hnone
  unfold wipeCompleteEffect
  rw [if_pos ⟨hmode, by rw [hadv]; rfl⟩]
  dsimp only
  rw [htarget]
  dsimp only
  split
  · exact ⟨_, rfl⟩
  · exact ⟨_, rfl⟩

/-- The ready flags of a Wipe. -/
def wipeReady (s : State) : State := setBit (setBit s 0x14 1 true) 0x14 2 true

theorem wipeReady_flags (s : State) : getBit (wipeReady s) 0x14 1 = true ∧ getBit (wipeReady s) 0x14 2 = true ∧ RegsBut 0x14 s (wipeReady s) := by
  refine ⟨?_, getBit_setBit_same _ _ _ (by decide), fun a ha => ?_⟩
  · rw [wipeReady, getBit_setBit_ne _ _ _ (by decide) (by decide), getBit_setBit_same _ _ _ (by decide)]
  · rw [wipeReady, getReg_setBit_ne _ _ _ ha, getReg_setBit_ne _ _ _ ha]

theorem getReg_entered (u : State) (m : Nat) {a : Nat} (h : a ≠ 0x10) : getReg (setTrans (enterMode u m) none) a = getReg u a :=
  getReg_setReg_ne u _ h

theorem chan_entered (u : State) (m c : Nat) : chan (setTrans (enterMode u m) none) c = chan u c := rfl

theorem aon_entered (u : State) (m : Nat) : (setTrans (enterMode u m) none).aon = u.aon := rfl

/-- What the end of a Wipe leaves of the state it made. -/
theorem finished_endWipe (s : State) (d : List Word) :
    (∀ a, a < 0x200000 ∨ 0x332000 ≤ a → a ≠ 0x10 → a ≠ 0x35000C → getReg (finishCmd (endWipe s) stOk d) a = getReg (wipeReady s) a) ∧
    (∀ c, (chan (finishCmd (endWipe s) stOk d) c).rdq = (chan s c).rdq ∧ (chan (finishCmd (endWipe s) stOk d) c).wrq = (chan s c).wrq) ∧
    (∃ v, (finishCmd (endWipe s) stOk d).aon = { s.aon with nref := v }) ∧ (finishCmd (endWipe s) stOk d).dram = s.dram ∧
    (finishCmd (endWipe s) stOk d).slices = s.slices := by
  have hmoved := ranksMoved_reachMode (wipeReady s) 2
  have hfinish := touches_finishCmd (endWipe s) stOk d
  have hend := (touches_endWipe s)
  obtain ⟨hregs, -, -⟩ := finishCmd_ends (endWipe s) stOk d
  have hready : Touches { regs := true } s (wipeReady s) := (touches_setBit _ _ _ _).after rfl (touches_setBit _ _ _ _)
  obtain ⟨v, hv⟩ := hmoved.ledger
  refine ⟨fun a ha h10 hevents => ?_, fun c => ?_, ⟨v, ?_⟩, (hfinish.dram rfl).trans (hend.dram rfl),
    (hfinish.slices rfl).trans (hend.slices rfl)⟩
  · exact (hregs a hevents).trans ((hmoved.regs a ha).trans (getReg_entered (wipeReady s) 2 h10))
  · rw [chan_congr (hfinish.chans rfl)]
    have hkept := hmoved.queues c
    rw [chan_entered, chan_congr (hready.chans rfl)] at hkept
    exact hkept
  · rw [aon_entered, hready.aon rfl] at hv
    exact (hfinish.aon rfl).trans hv

/-- Settles O59: each end is the branch of its effect; reaching a mode moves the ranks alone, and what a Wipe has cleared stays
cleared through it. -/
theorem transitionsEnd : Obligations.TransitionsEnd := by
  unfold Obligations.TransitionsEnd
  refine ⟨?_, ?_, ?_, ?_, ?_, ?_, ?_, ?_, ?_⟩
  · intro s r hawake htransit h7 h11 hr hop hphase hsafe hswap
    have heffect := modeTransitionEffect_reaches hawake.2 htransit h7 h11 hr hop hphase hsafe hswap
    have htarget : getFld s 0x10 8 4 < 16 := Nat.mod_lt _ (by decide)
    obtain ⟨hmode, hprev, hstill, hrun, htrans⟩ := modeShown_finished s stOk [BitVec.ofNat 32 (getFld s 0x10 8 4)] htarget
    have htouch := (touches_finishCmd (reachMode s (getFld s 0x10 8 4)) stOk [BitVec.ofNat 32 (getFld s 0x10 8 4)])
    have hreach := touches_reachMode s (getFld s 0x10 8 4)
    exact completes_of_guarded (congrArg (guarded s) heffect) hawake.1 ((htouch.pending rfl).trans (hreach.pending rfl))
      ⟨hmode, hprev, hstill, hrun, htrans, (htouch.dram rfl).trans (hreach.dram rfl), (htouch.ports rfl).trans (hreach.ports rfl),
        (htouch.slices rfl).trans (hreach.slices rfl)⟩
  · intro s hdef hnot
    have hstay : modeTransitionEffect s = s := if_neg (by
      rw [hnot, Bool.and_false, Bool.false_and, Bool.false_and]
      exact Bool.false_ne_true)
    exact (congrArg (guarded s) hstay).trans (guarded_same hdef)
  · intro s u x hdef hmode htrans htarget hdone hu hstill hclean
    have heffect := drainCompleteEffect_ends hmode htrans (congrArg BitVec.toNat htarget) hdone hu hstill hclean
    have hend : drainEnd u 2 = finishCmd (reachMode u 2) stOk [2] := if_pos rfl
    obtain ⟨h2, -, hdone', hrun, hnone⟩ := modeShown_finished u (m := 2) stOk [2] (by decide)
    refine ⟨_, (congrArg (guarded s) (heffect.trans hend)).trans (guarded_defined _ hdef), h2, hdone', hrun, hnone⟩
  · intro s u x hdef hmode htrans htarget hdone hu hstill hclean
    have heffect := drainCompleteEffect_ends hmode htrans (congrArg BitVec.toNat htarget) hdone hu hstill hclean
    exact (congrArg (guarded s) (heffect.trans ((if_neg (by decide)).trans (if_pos rfl)))).trans (guarded_defined _ hdef)
  · intro s u x hdef hmode htrans htarget hdone hu hstill hclean
    have heffect := drainCompleteEffect_ends hmode htrans (congrArg BitVec.toNat htarget) hdone hu hstill hclean
    exact (congrArg (guarded s) (heffect.trans ((if_neg (by decide)).trans (if_neg (by decide))))).trans (guarded_defined _ hdef)
  · intro s u x hdef hmode htrans hdone hu hnot
    exact (congrArg (guarded s) ((drainCompleteEffect_flushed hmode htrans hdone hu).trans (if_pos hnot))).trans (guarded_defined _ hdef)
  · intro s hdef hmode
    have hstay : drainCompleteEffect s = s := if_neg hmode
    exact (congrArg (guarded s) hstay).trans (guarded_same hdef)
  · intro s hdef hmode hadv hnone
    obtain ⟨d, heffect⟩ := wipeCompleteEffect_ends hmode hadv hnone
    obtain ⟨hdram, hroots, hpend, hqueues, hfilter⟩ := wipeState_memory s
    obtain ⟨hregs, hkept, ⟨v, haon⟩, hdram', hslices⟩ := finished_endWipe (wipeState s) d
    obtain ⟨hmem, hfull, hready⟩ := wipeReady_flags (wipeState s)
    obtain ⟨h2, -, -, -, -⟩ := modeShown_finished (wipeReady (wipeState s)) (m := 2) stOk d (by decide)
    have hregions : ∀ a, 0x360000 ≤ a → a < 0x36040C → getReg (wipeState s) a = regReset a := fun a => getReg_wipeState
    obtain ⟨w, hw⟩ : ∃ w, w = wipeState s := ⟨_, rfl⟩
    rw [← hw] at heffect hdram hroots hpend hqueues hfilter hregs hkept haon hdram' hslices hmem hfull hready h2 hregions
    refine ⟨_, (congrArg (guarded s) heffect).trans (guarded_defined _ hdef), h2, hdram'.trans hdram, ?_, ?_, ?_, ?_, ?_, ?_, ?_⟩
    · exact (congrArg Aon.roots haon).trans hroots
    · exact (congrArg Aon.wipePend haon).trans hpend
    · exact (congrArg (bitOf · 1) (hregs 0x14 (.inl (by decide)) (by decide) (by decide))).trans hmem
    · exact (congrArg (bitOf · 2) (hregs 0x14 (.inl (by decide)) (by decide) (by decide))).trans hfull
    · exact fun a hlo hhi => (hregs a (.inr (by omega)) (by omega) (by omega)).trans ((hready a (by omega)).trans (hregions a hlo hhi))
    · exact fun c hc => ⟨(hkept c).1.trans (hqueues c hc).1, (hkept c).2.trans (hqueues c hc).2⟩
    · exact fun n hn => (congrArg Slice.filter (slice_congr hslices n)).trans (hfilter n hn)
  · intro s hdef hmode
    have hstay : wipeCompleteEffect s = s := if_neg fun h => hmode h.1
    exact (congrArg (guarded s) hstay).trans (guarded_same hdef)

end Sys2Proof.Proofs
end

section
/-! SUPPORT. The steps of an Accord move and of slice power, one equation per case (for O60). -/

namespace Sys2Proof.Proofs

open Sys2Proof.Machine Sys2Proof.Safety Sys2Proof.Laws

variable {s : State} {r : RunCmd} {n : SliceId}

-- a command that holds slices

theorem entryMoveEffect_idle (hnone : mover s = none) : entryMoveEffect s = s := by
  unfold entryMoveEffect
  split
  · rfl
  · simp only [hnone]

theorem sliceDrainedEffect_idle (k : Nat) (hnone : mover s = none) : sliceDrainedEffect s k = s := by
  simp only [sliceDrainedEffect, hnone, ite_self]

theorem sliceOffEffect_idle (k : Nat) (hnone : mover s = none) : sliceOffEffect s k = s := by
  simp only [sliceOffEffect, hnone, ite_self]

/-- The wait of phase 1 or 2 changes the timer of the running command alone. -/
theorem mover_waitCmd (hmover : mover s = some r) : ∃ q, mover (waitCmd s) = some q ∧ q.phase = r.phase := by
  cases hleft : s.seq.moveLeft with
  | some q => exact ⟨q, by simp only [mover, waitCmd, mapRun, hleft], by simp only [mover, hleft, Option.some.injEq] at hmover; rw [hmover]⟩
  | none =>
    simp only [mover, hleft, Option.filter_eq_some_iff] at hmover
    obtain ⟨hrun, hop⟩ := hmover
    simp only [mover, waitCmd, mapRun, hleft, hrun, Option.map_some]
    cases htimer : r.timer with
    | some d => exact ⟨r, by simp only [Option.filter_some, hop, if_true], rfl⟩
    | none => exact ⟨{ r with timer := some (s.tick + r.tmo) }, by simp only [Option.filter_some, hop, if_true], rfl⟩

theorem mover_moveTimed (hmover : mover s = some r) : ∃ q, mover (moveTimed s r) = some q ∧ q.phase = r.phase := by
  unfold moveTimed
  split
  · exact ⟨r, hmover, rfl⟩
  · exact mover_waitCmd hmover

theorem moveWait_active (hmover : mover s = some r) (hphase : r.phase = 2)
    (hactive : (closedSlices s r).any (activeHere s) = true) : moveWait s r = moveTimed s r := by
  simp only [moveWait, hphase, hmover, hactive, if_true, show ¬ (2 : Nat) = 1 by decide, if_false]

theorem moveWait_moving (hmover : mover s = some r) (hphase : r.phase = 3) : moveWait s r = s := by
  simp only [moveWait, hphase, hmover, show ¬ (3 : Nat) = 1 by decide, show ¬ (3 : Nat) = 2 by decide, if_false]

theorem entryMoveEffect_active (hrun : running s = true) (hmover : mover s = some r) (hphase : r.phase = 2)
    (hactive : (closedSlices s r).any (activeHere s) = true) : entryMoveEffect s = moveTimed s r := by
  obtain ⟨q, hq, hqphase⟩ := mover_moveTimed hmover
  have hne : ¬ q.phase = 3 := by rw [hqphase, hphase]; decide
  simp only [entryMoveEffect, hrun, hmover, moveWait_active hmover hphase hactive, hq, if_neg hne, Bool.not_true, Bool.false_eq_true, if_false]

/-- Phase 3 of a move (R158): the pair is relocated once every entry fits and nothing is under way. -/
theorem entryMoveEffect_moving (hrun : running s = true) (hmover : mover s = some r) (hphase : r.phase = 3) :
    entryMoveEffect s =
      let w := switchPair (dropWalks s (movePairOf r)) r
      let u := thinCrowds (dropWalks s (movePairOf r)) w (movePairOf r)
      let v := if backOn r then flushCaches u (pairSlice r.arg) else u
      if fitsIn v w (movePairOf r) && pairQuiet v (movePairOf r) && !(backOn r && metaDirty v (pairSlice r.arg))
      then (if isAccordCfg r then accordMoved (relocate v r) r else powerMoved (relocate v r) r) else v := by
  simp only [entryMoveEffect, hrun, hmover, moveWait_moving hmover hphase, if_pos hphase, Bool.not_true, Bool.false_eq_true, if_false]

theorem sliceDrainedEffect_accord (hrun : running s = true) (hmover : mover s = some r) (hacc : isAccordCfg r = false)
    (hphase : r.phase = 4) (harg : r.arg = n.val) (hjoined : pairJoined s (n.val / 2) = true) :
    sliceDrainedEffect s n.val = if sliceEmpty s n.val && !dataComing s n.val then
      (let u := flushCaches s n.val
       if metaDirty u n.val || (mover u).isNone then u else fenceOff u r)
      else s := by
  simp only [sliceDrainedEffect, hrun, hmover, hacc, hphase, harg, hjoined, Bool.not_true, Bool.not_false, Bool.false_eq_true, if_false,
    if_true, and_self]

theorem emptyArray_of_empty {k : Nat} (h : sliceEmpty s k = true) : emptyArray s k = s := by
  simp only [sliceEmpty, Bool.and_eq_true, List.isEmpty_iff] at h
  simp only [emptyArray, endWays, h.1.2, List.foldl_nil]

theorem sliceDrainedEffect_empty (hrun : running s = true) (hmover : mover s = some r) (hacc : isAccordCfg r = false)
    (hphase : r.phase = 4) (harg : r.arg = n.val) (hjoined : pairJoined s (n.val / 2) = false) (hempty : sliceEmpty s n.val = true)
    (hqueues : ownQueuesEmpty s n.val = true) (hclean : metaDirty (flushCaches s n.val) n.val = false)
    (hgoes : (mover (flushCaches s n.val)).isNone = false) : sliceDrainedEffect s n.val = fenceOff (flushCaches s n.val) r := by
  simp only [sliceDrainedEffect, hrun, hmover, hacc, hphase, harg, hjoined, emptyArray_of_empty hempty, hempty, hqueues, hclean, hgoes,
    Bool.not_true, Bool.not_false, Bool.false_eq_true, if_false, if_true, and_self, Bool.or_self, Bool.and_self]

/-- What a slice whose domain goes off keeps: its successor's mark, and its failed tree nodes. -/
def offSlice (x : Slice) : Slice := { freshSlice with away := x.away, leaving := x.leaving, nodeBad := x.nodeBad }

/-- The domain of slice `k` is off, and its counts are gone. -/
def domainOff (s : State) (k : Nat) : State := dropCounts (setBit (setSlice s k (offSlice (slice s k))) 0x300004 k false) k

theorem sliceOffEffect_ends (hrun : running s = true) (hmover : mover s = some r) (hacc : isAccordCfg r = false)
    (hphase : r.phase = 5) (harg : r.arg = n.val) : sliceOffEffect s n.val =
      endMove (if (slice s n.val).away then pinAll (domainOff s n.val)
        else grantLeft (domainOff s n.val) (successorOf (domainOff s n.val) n.val) n.val) [] := by
  simp only [sliceOffEffect, hrun, hmover, hacc, hphase, harg, Bool.not_true, Bool.not_false, Bool.false_eq_true, if_false, if_true,
    and_self]
  rfl

end Sys2Proof.Proofs
end

section
/-! SUPPORT. A slice whose domain goes off: what it held is gone (for O60). -/

namespace Sys2Proof.Proofs

open Sys2Proof.Machine Sys2Proof.Safety Sys2Proof.Laws

variable {s : State} {n : Nat}

-- a counted event of another unit

theorem pmuCount_pmuAdd_ne {k i : Nat} (hk : k ≠ n) (hi : i < 16) : ∀ (fuel : Nat) (s : State) (j m : Nat), j < 8 →
    pmuCount (pmuAdd fuel s k j m) n i = pmuCount s n i
  | 0, _, _, _, _ => rfl
  | fuel + 1, s, j, m, hj => by
    unfold pmuAdd
    extract_lets v u
    have hu : pmuCount u n i = pmuCount s n i := pmuCount_setPmuCount_ne s _ (by omega)
    split
    · exact hu
    · split
      · next h => exact (pmuCount_pmuAdd_ne hk hi fuel u (j + 1) 1 (by omega)).trans hu
      · exact hu

theorem pmuCount_pmuEvents_ne {k i : Nat} (hk : k ≠ n) (hi : i < 16) (s : State) (e m : Nat) :
    pmuCount (pmuEvents s k e m) n i = pmuCount s n i := by
  unfold pmuEvents
  split
  · next hcond =>
    clear hcond
    obtain ⟨l, hl, hlt⟩ : ∃ l, l = List.range 8 ∧ ∀ j ∈ l, j < 8 := ⟨_, rfl, fun j hj => List.mem_range.mp hj⟩
    unfold forEach
    rw [← hl]
    clear hl
    induction l generalizing s with
    | nil => rfl
    | cons j l ih =>
      rw [List.foldl_cons, ih _ (fun x hx => hlt x (List.mem_cons_of_mem j hx))]
      extract_lets c
      split
      · exact pmuCount_pmuAdd_ne hk hi 8 s j m (hlt j List.mem_cons_self)
      · rfl
  · rfl

-- what is granted once a slice is off

/-- What is left of a slice that is off, while refusals of other slices are granted: nothing of it, and the registers below the
observability blocks as they were. -/
structure StaysOff (n : Nat) (s t : State) : Prop where
  entries : (slice t n).entries = (slice s n).entries
  filter : (slice t n).filter = (slice s n).filter
  counts : ∀ i, i < 16 → pmuCount t n i = pmuCount s n i
  regs : ∀ a, a < 0x330000 → getReg t a = getReg s a

theorem StaysOff.refl (n : Nat) (s : State) : StaysOff n s s := ⟨rfl, rfl, fun _ _ => rfl, fun _ _ => rfl⟩

theorem StaysOff.trans {t u : State} (h : StaysOff n s t) (h' : StaysOff n t u) : StaysOff n s u :=
  ⟨h'.entries.trans h.entries, h'.filter.trans h.filter, fun i hi => (h'.counts i hi).trans (h.counts i hi),
    fun a ha => (h'.regs a ha).trans (h.regs a ha)⟩

theorem StaysOff.foldl {α : Type} {f : State → α → State} (h : ∀ s a, StaysOff n s (f s a)) : ∀ (l : List α) (s : State),
    StaysOff n s (l.foldl f s)
  | [], s => .refl n s
  | a :: l, s => (h s a).trans (StaysOff.foldl h l (f s a))

theorem staysOff_pmuEvent {k : Nat} (hk : k ≠ n) (s : State) (e : Nat) : StaysOff n s (pmuEvent s k e) := by
  have hslice := slice_congr ((touches_pmuEvent s k e).slices rfl) n
  exact ⟨by rw [hslice], by rw [hslice], fun i hi => pmuCount_pmuEvents_ne hk hi s e 1,
    fun a ha => getReg_pmuEvents_ne e 1 (by unfold pmuBase; omega)⟩

theorem staysOff_sliceSend (s : State) (k : Nat) (dst : BitVec 5) (dl : Bool) (prio : BitVec 2) (m : Msg) :
    StaysOff n s (sliceSend s k dst dl prio m) := by
  have h := touches_sliceSend s k dst dl prio m
  have hslice := slice_congr (h.slices rfl) n
  exact ⟨by rw [hslice], by rw [hslice], fun i _ => by unfold pmuCount; rw [h.obs rfl], fun a _ => getReg_congr (h.regs rfl) a⟩

theorem staysOff_setSlice {x : Slice} (s : State) (k : Nat) (he : k = n → x.entries = (slice s n).entries)
    (hf : k = n → x.filter = (slice s n).filter) : StaysOff n s (setSlice s k x) := by
  have h := touches_setSlice s k x
  refine ⟨?_, ?_, fun i _ => by unfold pmuCount; rw [h.obs rfl], fun a _ => getReg_congr (h.regs rfl) a⟩
  all_goals
    by_cases hk : k = n
    · subst hk
      by_cases hlt : k < 8
      · simp only [slice_setSlice_same s k x hlt, he rfl, hf rfl]
      · simp only [slice, setSlice, hlt, dif_neg, not_false_iff]
    · rw [slice_setSlice_ne s x (Ne.symm hk)]

theorem staysOff_grantLeft (k j : Nat) (hempty : (slice s n).retry = []) : StaysOff n s (grantLeft s k j) := by
  unfold grantLeft
  extract_lets left l x u
  have hu : StaysOff n s u := staysOff_setSlice s k (fun hk => congrArg (fun m => (slice s m).entries) hk)
    (fun hk => congrArg (fun m => (slice s m).filter) hk)
  by_cases hk : k = n
  · have hl : l.filter left = [] := by rw [show l = [] from (congrArg (fun m => (slice s m).retry) hk).trans hempty, List.filter_nil]
    rw [hl]
    exact hu
  · exact hu.trans (.foldl (fun v r => (staysOff_pmuEvent hk v _).trans (staysOff_sliceSend _ _ _ _ _ _)) _ u)

theorem staysOff_releaseSlices (s : State) : StaysOff n s (releaseSlices s) :=
  .foldl (fun u k => staysOff_setSlice u k (fun hk => by rw [hk]) (fun hk => by rw [hk])) _ s

theorem moveLeft_finishCmd (s : State) (st : Nat) (d : List Word) : (finishCmd s st d).seq.moveLeft = s.seq.moveLeft := by
  unfold finishCmd
  split
  · rfl
  · next r _ =>
    extract_lets _ u
    split
    · rfl
    · unfold sendReply pushReply
      split
      · rfl
      · extract_lets _ m v
        have hmail : ∀ m, (setMail u r.mb m).seq.moveLeft = s.seq.moveLeft := fun m => by cases r.mb <;> rfl
        split
        · split
          · rw [(wakePme_undisturbed _).seq]
            exact hmail _
          · exact hmail _
        · exact hmail _

/-- The end of a move leaves no command behind and no mode changed. -/
theorem endMove_ends (s : State) (d : List Word) : (endMove s d).seq.moveLeft = none ∧ (slice (endMove s d) n).entries = (slice s n).entries ∧
    (slice (endMove s d) n).filter = (slice s n).filter ∧ (∀ i, i < 16 → pmuCount (endMove s d) n i = pmuCount s n i) ∧
    getReg (endMove s d) 0x300004 = getReg s 0x300004 ∧ getReg (endMove s d) 0x10 = getReg s 0x10 := by
  have hrel := staysOff_releaseSlices (n := n) s
  unfold endMove
  obtain ⟨u, hu⟩ : ∃ u, u = releaseSlices s := ⟨_, rfl⟩
  rw [← hu] at hrel
  rw [← hu]
  by_cases hleft : u.seq.moveLeft.isSome
  · simp only [hleft, if_true]
    exact ⟨trivial, hrel.entries, hrel.filter, hrel.counts, hrel.regs _ (by decide), hrel.regs _ (by decide)⟩
  · simp only [hleft, Bool.false_eq_true, if_false]
    have h := touches_finishCmd u stOk d
    have hregs := (finishCmd_regs u stOk d).1
    have hslice := slice_congr (h.slices rfl) n
    refine ⟨?_, by rw [hslice]; exact hrel.entries, by rw [hslice]; exact hrel.filter, fun i hi => ?_,
      (hregs _ (by decide)).trans (hrel.regs _ (by decide)), (hregs _ (by decide)).trans (hrel.regs _ (by decide))⟩
    · exact (moveLeft_finishCmd u stOk d).trans (by simpa using hleft)
    · rw [← hrel.counts i hi]
      unfold pmuCount
      rw [h.obs rfl]

theorem domainOff_empty {n : Nat} (hn : n < 8) : (slice (domainOff s n) n).entries = [] ∧ (slice (domainOff s n) n).filter = [] ∧
    (slice (domainOff s n) n).retry = [] ∧ (∀ i, i < 16 → pmuCount (domainOff s n) n i = 0) ∧ getBit (domainOff s n) 0x300004 n = false ∧
    getReg (domainOff s n) 0x10 = getReg s 0x10 := by
  have hslice : slice (domainOff s n) n = offSlice (slice s n) := slice_setSlice_same s n _ hn
  have hregs : ∀ u : State, ∀ a, getReg (dropCounts u n) a = getReg u a := fun u a => rfl
  refine ⟨by rw [hslice]; rfl, by rw [hslice]; rfl, by rw [hslice]; rfl, fun i hi => ?_, ?_, ?_⟩
  · exact cellsGet_drop_same (p := fun a => a / 16 == n) (beq_iff_eq.mpr (by omega)) _
  · exact getBit_setBit_same (setSlice s n (offSlice (slice s n))) 0x300004 false (by omega)
  · exact ((hregs _ _).trans <| getReg_setBit_ne (b := 0x10) (a := 0x300004) (setSlice s n (offSlice (slice s n))) n false (by decide)) |>.trans
      (getReg_congr ((touches_setSlice s n _).regs rfl) 0x10)

end Sys2Proof.Proofs
end

section
/-! SUPPORT. The engines' operations and the events that they report leave the register of slice power and Accord, SPN_PWR, on any
channel number that a cached line may carry (R234, R243; for O60). -/

namespace Sys2Proof.Proofs

open Sys2Proof.Machine Sys2Proof.Safety Sys2Proof.Laws

/-- `t` has SPN_PWR as in `s`. -/
def SamePower (s t : State) : Prop := getReg t 0x300004 = getReg s 0x300004

variable {s t u : State}

theorem SamePower.refl (s : State) : SamePower s s := rfl

theorem SamePower.comp (h : SamePower t u) (h₀ : SamePower s t) : SamePower s u := Eq.trans h h₀

theorem SamePower.ite {c : Prop} [Decidable c] (h : SamePower s t) (h' : SamePower s u) : SamePower s (if c then t else u) := by
  split
  · exact h
  · exact h'

theorem SamePower.ite_fst {α : Type} {c : Prop} [Decidable c] {p q : State × α} (h : SamePower s p.1) (h' : SamePower s q.1) :
    SamePower s (if c then p else q).1 := by
  split
  · exact h
  · exact h'

theorem SamePower.fst {α : Type} {a : α} (h : SamePower s t) : SamePower s (t, a).1 := h

/-- The state of a pair, once the pair is taken apart. -/
theorem SamePower.of_pair {α : Type} {p : State × α} {a : α} (heq : p = (t, a)) (h : SamePower s p.1) : SamePower s t := by
  rw [heq] at h
  exact h

theorem SamePower.foldl {α : Type} {f : State → α → State} (h : ∀ s a, SamePower s (f s a)) : ∀ (l : List α) (s : State),
    SamePower s (l.foldl f s)
  | [], s => .refl s
  | a :: l, s => (SamePower.foldl h l (f s a)).comp (h s a)

theorem SamePower.forEach {f : State → Nat → State} (h : ∀ s k, SamePower s (f s k)) (n : Nat) (s : State) :
    SamePower s (Machine.forEach n s f) := SamePower.foldl h _ s

theorem SamePower.of_touches {K : Parts} (h : Touches K s t) (hregs : K.regs = false) : SamePower s t := getReg_congr (h.regs hregs) _

theorem SamePower.pairJoined (h : SamePower s t) (p : Nat) : pairJoined t p = pairJoined s p := congrArg (bitOf · (8 + p)) h

-- the places that the engines write

theorem samePower_setReg (s : State) {a : Nat} (v : Word) (h : a ≠ 0x300004) : SamePower s (setReg s a v) := getReg_setReg_ne s v h.symm

theorem samePower_setBit (s : State) {a : Nat} (i : Nat) (b : Bool) (h : a ≠ 0x300004) : SamePower s (setBit s a i b) :=
  samePower_setReg s _ h

theorem samePower_satAdd (s : State) {a : Nat} (lo n k : Nat) (h : a ≠ 0x300004) : SamePower s (satAdd s a lo n k) :=
  samePower_setReg s _ h

theorem fltBase_ne_power (u : Nat) {o : Nat} (ho : o < 0x1000) : fltBase u + o ≠ 0x300004 := by
  unfold fltBase
  split <;> omega

theorem mcBase_ne_power (c : Nat) {o : Nat} (ho : o ≠ 4) (hlt : o < 0x4000) : mcBase c + o ≠ 0x300004 := by
  unfold mcBase
  omega

-- the report of an event

theorem samePower_countEvent (s : State) (u src : Nat) : SamePower s (countEvent s u src) :=
  (samePower_satAdd _ 0 16 1 (fltBase_ne_power u (by decide))).comp (samePower_setBit s src true (fltBase_ne_power u (o := 0) (by decide)))

theorem samePower_enterFault (s : State) (u src : Nat) (inj : Bool) : SamePower s (enterFault s u src inj) := by
  have hne : ∀ o, o < 0x1000 → fltBase u + o ≠ 0x300004 := fun o => fltBase_ne_power u
  unfold enterFault
  extract_lets b first v w
  have hv : SamePower s v := samePower_setBit s src true (hne 4 (by decide))
  have hw : SamePower s w := (samePower_setReg v _ (hne 0x14 (by decide))).comp hv
  exact .ite ((samePower_setReg _ _ (hne 0x1C (by decide))).comp <| (samePower_setReg w _ (hne 0x18 (by decide))).comp hw) hv

theorem samePower_restartQuiet (s : State) : SamePower s (restartQuiet s) := .of_touches (touches_restartQuiet s) rfl

theorem samePower_safeEntry (s : State) (u src kind : Nat) (inj : Bool) : SamePower s (safeEntry s u src kind inj) :=
  (sameEngines_safeEntry s u src kind inj).joined

theorem samePower_countedEvent (s : State) (u src : Nat) (inj : Bool) : SamePower s (countedEvent s u src inj) := by
  unfold countedEvent
  refine .ite (samePower_restartQuiet s) ?_
  extract_lets c d v w
  have hv : SamePower s v := rfl
  have hw : SamePower s w := (samePower_restartQuiet _).comp <| (samePower_enterFault v u src inj).comp hv
  exact .ite (.ite ((samePower_safeEntry w u src 0 inj).comp hw) hw) hv

theorem samePower_eventAt (s : State) (u src : Nat) (inj : Bool) : SamePower s (eventAt s u src inj) := by
  have hcount := samePower_countEvent s u src
  have hnow : ∀ kind, SamePower s (safeEntry (restartQuiet (enterFault (countEvent s u src) u src inj)) u src kind inj) := fun kind =>
    (samePower_safeEntry _ u src kind inj).comp <| (samePower_restartQuiet _).comp <| (samePower_enterFault _ u src inj).comp hcount
  unfold eventAt
  split
  · exact .refl s
  · exact (samePower_countedEvent _ u src inj).comp hcount
  · exact hnow _
  · exact hnow _

theorem samePower_report (s : State) (u src : Nat) : SamePower s (report s u src) := samePower_eventAt s u src false

theorem samePower_injectedEvent (s : State) (u src : Nat) : SamePower s (injectedEvent s u src) := by
  unfold injectedEvent
  split
  · extract_lets would safe v w
    have hv : SamePower s v := samePower_setBit s src true (fltBase_ne_power u (o := 0) (by decide))
    have hw : SamePower s w := .ite ((samePower_setBit v _ _ (by decide)).comp hv) hv
    exact .ite ((samePower_setBit w _ _ (by decide)).comp hw) hw
  · exact samePower_eventAt s u src true

theorem samePower_pmuEvents (s : State) (k e n : Nat) : SamePower s (pmuEvents s k e n) :=
  getReg_pmuEvents_ne e n (by unfold pmuBase; omega)

theorem samePower_pmuEvent (s : State) (k e : Nat) : SamePower s (pmuEvent s k e) := samePower_pmuEvents s k e 1

theorem samePower_blotUse (s : State) (k i : Nat) : SamePower s (blotUse s k i) := (sameEngines_blotUse s k i).joined

theorem samePower_logRecord (s : State) (kind unit src detail w3 : Nat) : SamePower s (logRecord s kind unit src detail w3) :=
  (sameEngines_logRecord s kind unit src detail w3).joined

-- errors of a line

theorem samePower_raiseErr (s : State) {err cap : Nat} (i : Nat) (info : Word) (he : err ≠ 0x300004) (hc : cap ≠ 0x300004) :
    SamePower s (raiseErr s err i cap info) := by
  unfold raiseErr
  extract_lets first v
  have hv : SamePower s v := samePower_setBit s i true he
  exact .ite ((samePower_setReg v info hc).comp hv) hv

theorem samePower_eccDetect (s : State) (c k u slot symbols : Nat) (scrub : Bool) (src : Nat) :
    SamePower s (eccDetect s c k u slot symbols scrub src) := by
  unfold eccDetect
  extract_lets b p first v
  have hv : SamePower s v := samePower_raiseErr s k _ (mcBase_ne_power c (by decide) (by decide)) (mcBase_ne_power c (by decide) (by decide))
  exact .ite ((samePower_setReg v _ (mcBase_ne_power c (o := 0x5C) (by decide) (by decide))).comp hv) hv

theorem samePower_chanEvent (s : State) (c src : Nat) (inj : Bool) : SamePower s (chanEvent s c src inj) :=
  .ite (samePower_injectedEvent s _ src) (samePower_report s _ src)

theorem samePower_eccCorrected (s : State) (c u slot n : Nat) (scrub : Bool) (src : Nat) (inj : Bool) :
    SamePower s (eccCorrected s c u slot n scrub src inj) := by
  unfold eccCorrected
  refine .ite (.refl s) (.ite (samePower_injectedEvent s _ 3) ?_)
  extract_lets v _ w
  have hv : SamePower s v := (samePower_pmuEvent _ _ _).comp <| samePower_satAdd s 0 32 1 (mcBase_ne_power c (by decide) (by decide))
  have hw : SamePower s w := hv
  exact (samePower_chanEvent _ c 3 inj).comp <| (samePower_eccDetect w _ _ _ _ _ _ _).comp hw

theorem samePower_eccUncorrectable (s : State) (c u slot : Nat) (scrub : Bool) (src : Nat) (inj : Bool) :
    SamePower s (eccUncorrectable s c u slot scrub src inj) := by
  unfold eccUncorrectable
  refine .ite (samePower_injectedEvent s _ 4) ?_
  extract_lets v _ w x
  have hv : SamePower s v := (samePower_pmuEvent _ _ _).comp <| samePower_satAdd s 0 16 1 (mcBase_ne_power c (by decide) (by decide))
  have hw : SamePower s w := hv
  have hx : SamePower s x := (samePower_logRecord _ _ _ _ _ _).comp <| (samePower_eccDetect w _ _ _ _ _ _ _).comp hw
  exact (samePower_chanEvent x c 4 inj).comp hx

theorem samePower_checkDecode (s : State) (c u k : Nat) (word : LineData) (scrub : Bool) (src : Nat) :
    SamePower s (checkDecode s c u k word scrub src).1 := by
  unfold checkDecode
  extract_lets lost read real armed seen v
  have hv : SamePower s v := samePower_blotUse s 9 c
  clear_value seen real
  cases seen with
  | some r => exact (samePower_eccCorrected v c u _ _ scrub src armed).comp hv
  | none =>
    dsimp only
    split
    · exact hv
    · exact (samePower_eccUncorrectable v c u _ scrub src armed).comp hv

theorem samePower_unitBursts (s : State) (c : Nat) : SamePower s (unitBursts s c) :=
  (samePower_pmuEvents _ _ _ _).comp (samePower_pmuEvents s _ _ _)

theorem samePower_initEarly (s : State) (c u : Nat) : SamePower s (initEarly s c u) := by
  unfold initEarly
  refine .ite (.refl s) ?_
  extract_lets v
  have hv : SamePower s v := (samePower_unitBursts _ c).comp <| samePower_satAdd s 16 16 1 (mcBase_ne_power c (by decide) (by decide))
  exact (SamePower.of_touches (touches_setChan v c _) rfl).comp hv

theorem samePower_decodeReport (s : State) (c u slot : Nat) (scrub : Bool) (src : Nat) (inj : Bool) (d : Decoded) :
    SamePower s (decodeReport s c u slot scrub src inj d) := by
  cases d with
  | marked => exact samePower_eccCorrected s c u slot _ scrub src inj
  | data => exact samePower_eccCorrected s c u slot _ scrub src inj
  | uncorrectable => exact samePower_eccUncorrectable s c u slot scrub src inj

theorem samePower_dataDecode (s : State) (c m : Nat) (d : LineData) (l : CheckLine) (scrub : Bool) (src : Nat) :
    SamePower s (dataDecode s c m d l scrub src).1 := by
  unfold dataDecode
  extract_lets _ _ _ _ _ _ _ _ u v
  have hu : SamePower s u := .ite (samePower_blotUse s 8 c) (.refl s)
  have hv : SamePower s v := (samePower_decodeReport u _ _ _ _ _ _ _).comp hu
  exact .fst <| .ite ((SamePower.of_touches (touches_loseSlot v _ _ _) rfl).comp hv) hv

theorem samePower_countZero (s : State) (c : Nat) : SamePower s (countZero s c) :=
  (samePower_pmuEvent _ _ _).comp <| samePower_satAdd s 0 16 1 (mcBase_ne_power c (by decide) (by decide))

end Sys2Proof.Proofs
end

section
/-! SUPPORT. The write-back of an engine's caches leaves the register of slice power (R243, R270, R298; for O60). -/

namespace Sys2Proof.Proofs

open Sys2Proof.Machine Sys2Proof.Safety Sys2Proof.Laws

theorem samePower_setSlice (s : State) (n : Nat) (x : Slice) : SamePower s (setSlice s n x) := .of_touches (touches_setSlice s n x) rfl

theorem samePower_setChan (s : State) (c : Nat) (x : Chan) : SamePower s (setChan s c x) := .of_touches (touches_setChan s c x) rfl

theorem samePower_dramSet (s : State) (k : Nat) (d : LineData) : SamePower s (dramSet s k d) := .of_touches (touches_dramSet s k d) rfl

theorem samePower_slotWritten (s : State) (c u slot : Nat) : SamePower s (slotWritten s c u slot) :=
  .of_touches (touches_slotWritten s c u slot) rfl

theorem samePower_loseSlot (s : State) (c u slot : Nat) : SamePower s (loseSlot s c u slot) := .of_touches (touches_loseSlot s c u slot) rfl

theorem SamePower.foldl_pair {α β : Type} {f : State × β → α → State × β} (h : ∀ p a, SamePower p.1 (f p a).1) :
    ∀ (l : List α) (p : State × β), SamePower p.1 (l.foldl f p).1
  | [], p => .refl p.1
  | a :: l, p => (SamePower.foldl_pair h l (f p a)).comp (h p a)

theorem SamePower.foldl_fst {α β : Type} {f : State × β → α → State × β} (h : ∀ p a, SamePower p.1 (f p a).1) (l : List α) (s : State)
    (b : β) : SamePower s (l.foldl f (s, b)).1 := SamePower.foldl_pair h l (s, b)

-- the operations of an engine

theorem samePower_ccWriteBack (s l) : SamePower s (ccWriteBack s l) :=
  .ite ((samePower_dramSet _ _ _).comp <| (samePower_slotWritten _ _ _ _).comp <| samePower_pmuEvent _ _ _) (.refl _)

theorem samePower_ccPut (s l) : SamePower s (ccPut s l) := by
  unfold ccPut
  extract_lets _ _ _ _ _
  split
  · exact samePower_setSlice _ _ _
  · exact (samePower_ccWriteBack _ _).comp <| samePower_setSlice _ _ _

theorem samePower_checkLine (s c u k err scrub src) :
    SamePower s (checkLine s c u k err scrub src).1 := by
  unfold checkLine
  extract_lets v w
  have hv : SamePower s v := samePower_pmuEvent _ _ _
  have hw : SamePower s w := (samePower_pmuEvent _ _ _).comp <| samePower_pmuEvent _ _ _
  split
  · refine .ite_fst (.fst <| (samePower_ccPut _ _).comp hv) ?_
    split
    · next x _ _ heq =>
      have hx : SamePower s x := .of_pair heq ((samePower_checkDecode _ _ _ _ _ _ _).comp hv)
      exact .fst <| (samePower_ccPut _ _).comp hx
    · next y heq =>
      have hy : SamePower s y := .of_pair heq ((samePower_checkDecode _ _ _ _ _ _ _).comp hv)
      extract_lets _
      exact .fst <| (samePower_ccPut _ _).comp <| (samePower_loseSlot _ _ _ _).comp hy
  · split
    · next z _ _ heq =>
      have hz : SamePower s z := .of_pair heq ((samePower_checkDecode _ _ _ _ _ _ _).comp hw)
      exact .fst <| (samePower_ccPut _ _).comp hz
    · next u' heq =>
      have hu' : SamePower s u' := .of_pair heq ((samePower_checkDecode _ _ _ _ _ _ _).comp hw)
      exact .fst <| (samePower_ccPut _ _).comp <| (samePower_loseSlot _ _ _ _).comp hu'

theorem samePower_ccRebuild (s l m) : SamePower s (ccRebuild s l m).1 := by
  unfold ccRebuild
  extract_lets c lines u _ v d
  have hu : SamePower s u :=
    .comp (.foldl (fun _ _ => samePower_slotWritten _ _ _ _) _ _) <| samePower_slotWritten _ _ _ _
  have hv : SamePower s v := (samePower_setChan _ _ _).comp hu
  split
  next w bytes heq =>
  have hw : SamePower s w := by
    refine .of_pair heq ?_
    refine .comp (.foldl_fst (fun q i => ?_) _ _ _) hv
    refine .ite_fst (.refl _) ?_
    split
    · exact .refl _
    · exact samePower_dramSet _ _ _
  exact (samePower_report _ _ _).comp <| (samePower_logRecord _ _ _ _ _ _).comp <| (samePower_ccPut _ _).comp hw

theorem samePower_writeBurst (s c m stored ck src) : SamePower s (writeBurst s c m stored ck src) := by
  unfold writeBurst
  extract_lets _
  split
  · next u _ _ heq =>
    have hu : SamePower s u := .of_pair heq ((samePower_checkLine _ _ _ _ _ _ _).comp <| samePower_initEarly _ _ _)
    split
    · next v _ heq =>
      have hv : SamePower s v := .of_pair heq (.ite_fst ((samePower_ccRebuild _ _ _).comp hu) hu)
      extract_lets w
      have hw : SamePower s w := (samePower_ccPut _ _).comp hv
      exact (samePower_dramSet _ _ _).comp <| (samePower_slotWritten _ _ _ _).comp <| (samePower_pmuEvent _ _ _).comp hw

theorem samePower_metaStore (s l) : SamePower s (metaStore s l) := by
  unfold metaStore
  extract_lets u
  have hu : SamePower s u := by
    unfold u
    split
    · exact .of_touches (touches_parentSet _ _ _ _ _ _) rfl
    · exact .refl _
  exact (samePower_writeBurst _ _ _ _ _ _).comp hu

theorem samePower_ctcPut (s l) : SamePower s (ctcPut s l) := by
  unfold ctcPut
  extract_lets _ _ _
  refine .ite (samePower_setSlice _ _ _) ?_
  split
  · exact samePower_setSlice _ _ _
  · extract_lets u
    have hu : SamePower s u := samePower_setSlice _ _ _
    exact .ite ((samePower_metaStore _ _).comp hu) hu

theorem samePower_metaRead (s c m pos) : SamePower s (metaRead s c m pos).1 := by
  unfold metaRead
  extract_lets _ _ u
  have hu : SamePower s u := samePower_pmuEvent _ _ _
  refine .ite_fst (.fst <| (samePower_countZero _ _).comp hu) ?_
  split
  · next v _ _ heq =>
    have hv : SamePower s v := .of_pair heq ((samePower_checkLine _ _ _ _ _ _ _).comp <| (samePower_pmuEvent _ _ _).comp hu)
    split
    · next w _ _ heq =>
      have hw : SamePower s w := .of_pair heq ((samePower_dataDecode _ _ _ _ _ _ _).comp hv)
      exact hw
    · next x _ _ _ heq =>
      have hx : SamePower s x := .of_pair heq ((samePower_dataDecode _ _ _ _ _ _ _).comp hv)
      exact hx
    · next y heq =>
      have hy : SamePower s y := .of_pair heq ((samePower_dataDecode _ _ _ _ _ _ _).comp hv)
      exact hy

theorem samePower_ctcFetch (s c m) : SamePower s (ctcFetch s c m).1 := by
  unfold ctcFetch
  split
  · exact .fst <| samePower_ctcPut _ _
  · split
    · next u _ heq =>
      have hu : SamePower s u := .of_pair heq (samePower_metaRead _ _ _ _)
      exact .fst <| (samePower_ctcPut _ _).comp hu

theorem samePower_raiseSeal (s k src slice region realm pa) :
    SamePower s (raiseSeal s k src slice region realm pa) := by
  unfold raiseSeal
  extract_lets _ u v w
  have hu : SamePower s u := samePower_setBit s k true (by decide)
  have hv : SamePower s v := (samePower_setReg u _ (by decide)).comp hu
  have hw : SamePower s w := (samePower_setReg v _ (by decide)).comp hv
  exact .ite ((samePower_setReg w _ (by decide)).comp hw) hu

theorem samePower_sealFail (s c m k src region inj) : SamePower s (sealFail s c m k src region inj) := by
  unfold sealFail
  extract_lets _ u v
  have hu : SamePower s u := samePower_raiseSeal _ _ _ _ _ _ _
  have hv : SamePower s v := (samePower_logRecord _ _ _ _ _ _).comp <| (samePower_satAdd u _ 16 1 (by decide)).comp hu
  exact .ite (samePower_injectedEvent _ _ _) (.ite ((samePower_injectedEvent _ _ _).comp hv) ((samePower_report _ _ _).comp hv))

theorem samePower_sealVerdict (s c m k src region diff spoiled) :
    SamePower s (sealVerdict s c m k src region diff spoiled) := by
  unfold sealVerdict
  extract_lets _ _ _ u
  have hu : SamePower s u := samePower_blotUse _ _ _
  exact .ite ((samePower_sealFail _ _ _ _ _ _ _).comp hu) hu

theorem samePower_nodeEnter (s i c l j bad use) : SamePower s (nodeEnter s i c l j bad use).1 := by
  unfold nodeEnter
  extract_lets _ _
  refine .ite_fst (.fst <| samePower_ctcPut _ _) ?_
  split
  · next u _ heq =>
    have hu : SamePower s u := .of_pair heq (samePower_metaRead _ _ _ _)
    extract_lets _ v
    have hv : SamePower s v := (samePower_sealVerdict _ _ _ _ _ _ _ _).comp hu
    exact .ite_fst hv (.fst <| (samePower_ctcPut _ _).comp hv)

theorem samePower_pathDown (s i c v bad use l) : SamePower s (pathDown s i c v bad use l).1 := by
  induction l generalizing s with
  | zero => exact .refl s
  | succ l ih =>
    unfold pathDown
    split
    next u ok heq =>
    have hu : SamePower s u := .of_pair heq (samePower_nodeEnter _ _ _ _ _ _ _)
    exact .ite_fst ((ih u).comp hu) hu

theorem samePower_sealPath (s i c d bad use) : SamePower s (sealPath s i c d bad use).1 := by
  unfold sealPath
  refine .ite_fst (.refl s) (.ite_fst (.refl s) ?_)
  split
  · next u heq => exact .of_pair heq (samePower_pathDown _ _ _ _ _ _ _)
  · next u l heq => exact (SamePower.of_touches (touches_failNode _ _ _ _ _) rfl).comp <| .of_pair heq (samePower_pathDown _ _ _ _ _ _ _)

theorem samePower_versionUse (s i c d) : SamePower s (versionUse s i c d).1 := by
  unfold versionUse
  split
  · exact .fst <| samePower_ctcPut _ _
  · exact .refl _

theorem samePower_sealLine (s c m img src) : SamePower s (sealLine s c m img src).1 := by
  unfold sealLine
  extract_lets _ _ _
  split
  · extract_lets _
    split
    · next u _ heq =>
      have hu : SamePower s u := .of_pair heq (samePower_sealPath _ _ _ _ _ _)
      split
      · next v _ _ heq =>
        have hv : SamePower s v := .of_pair heq ((samePower_versionUse _ _ _ _).comp hu)
        extract_lets _ _ _
        split
        · next w _ heq =>
          have hw : SamePower s w := .of_pair heq ((samePower_ctcFetch _ _ _).comp hv)
          extract_lets x y
          have hx : SamePower s x := .ite hw ((samePower_ctcPut _ _).comp hw)
          have hy : SamePower s y := by
            unfold y
            split
            · exact (samePower_ctcPut _ _).comp hx
            · exact hx
          exact hy
  · exact .refl _

theorem samePower_sealRebuilt (s c) : SamePower s (sealRebuilt s c) := by
  unfold sealRebuilt
  exact (.foldl (fun s _ => by
      extract_lets u _
      have hu : SamePower s u := samePower_sealLine _ _ _ _ _
      exact (samePower_setChan _ _ _).comp hu) _ _)

theorem samePower_sealOwed (s) : SamePower s (sealOwed s) :=
  .forEach (fun _ _ => samePower_sealRebuilt _ _) _ _

theorem samePower_flushMeta (s n sel) : SamePower s (flushMeta s n sel) :=
  .foldl (fun _ _ => .ite (.refl _) ((samePower_setSlice _ _ _).comp <| samePower_metaStore _ _)) _ _

theorem samePower_flushTrees (s n) : SamePower s (flushTrees s n) :=
  .comp (.forEach (fun _ _ => samePower_flushMeta _ _ _) _ _) <| samePower_flushMeta _ _ _

theorem samePower_flushCaches (s n) : SamePower s (flushCaches s n) := by
  unfold flushCaches
  extract_lets u v _
  have hu : SamePower s u := (samePower_flushTrees _ _).comp <| (samePower_sealOwed _).comp <| samePower_flushTrees _ _
  have hv : SamePower s v := .comp (.foldl (fun _ _ => samePower_ccWriteBack _ _) _ _) <| hu
  exact (samePower_setSlice _ _ _).comp hv

end Sys2Proof.Proofs
end

section
/-! SUPPORT. The fence of a slice that has drained: its bits, and its channels out of service (Table 9.7, R399; for O60). -/

namespace Sys2Proof.Proofs

open Sys2Proof.Machine Sys2Proof.Safety Sys2Proof.Laws

variable {s : State}

/-- `t` has register `a` as in `s`. -/
def KeepsReg (a : Nat) (s t : State) : Prop := getReg t a = getReg s a

variable {a : Nat}

theorem KeepsReg.comp {t u : State} (h : KeepsReg a t u) (h₀ : KeepsReg a s t) : KeepsReg a s u := Eq.trans h h₀

theorem KeepsReg.ite_fst {α : Type} {c : Prop} [Decidable c] {p q : State × α} (h : KeepsReg a s p.1) (h' : KeepsReg a s q.1) :
    KeepsReg a s (if c then p else q).1 := by
  split
  · exact h
  · exact h'

theorem KeepsReg.foldl {α : Type} {f : State → α → State} (h : ∀ s x, KeepsReg a s (f s x)) : ∀ (l : List α) (s : State),
    KeepsReg a s (l.foldl f s)
  | [], _ => rfl
  | x :: l, s => (KeepsReg.foldl h l (f s x)).comp (h s x)

theorem KeepsReg.forEach {f : State → Nat → State} (h : ∀ s k, KeepsReg a s (f s k)) (n : Nat) (s : State) :
    KeepsReg a s (Machine.forEach n s f) := KeepsReg.foldl h _ s

theorem KeepsReg.of_touches {K : Parts} {t : State} (h : Touches K s t) (hregs : K.regs = false) : KeepsReg a s t := getReg_congr (h.regs hregs) a

-- channels out of service

section
variable {c : Nat} (hlow : a < 0x330000) (hcount : a ≠ mcBase c + 0x50)
include hlow

theorem pmuEvent_keepsReg (s : State) (k e : Nat) : KeepsReg a s (pmuEvent s k e) := getReg_pmuEvents_ne e 1 (by unfold pmuBase; omega)

theorem pushAct_keepsReg (s : State) (c r t : Nat) : KeepsReg a s (pushAct s c r t) :=
  (pmuEvent_keepsReg hlow _ _ _).comp (.of_touches (touches_setChan s c _) rfl)

include hcount

theorem countNeighbour_keepsReg (s : State) : KeepsReg a s (countNeighbour s c) :=
  (pmuEvent_keepsReg hlow _ _ 8).comp (getReg_setFld_ne s 0 32 _ hcount)

theorem neighbourAt_keepsReg (s : State) (r b start : Nat) : KeepsReg a s (neighbourAt s c r b start) := by
  have hbank : ∀ u b k, KeepsReg a u (setBank u c r b k) := fun u b k => .of_touches (touches_setBank u c r b k) rfl
  have hneighbour : ∀ u, KeepsReg a u (countNeighbour u c) := countNeighbour_keepsReg hlow hcount
  unfold neighbourAt
  extract_lets _ _ _ _ u v w _ _ x _ y
  have hw : KeepsReg a s w := (hneighbour v).comp <| (hbank u _ _).comp (hbank s _ _)
  have hx : KeepsReg a s x := .forEach (fun u k => pushAct_keepsReg hlow u c _ _) _ s
  split
  · split
    · exact (hneighbour w).comp hw
    · exact hw
  · exact (hneighbour y).comp <| (hbank x _ _).comp hx

theorem issuePending_keepsReg (s : State) : KeepsReg a s (issuePending s c) := by
  refine .foldl (fun u r => .forEach (fun v b => ?_) 16 u) _ s
  have hclose : ∀ u b, KeepsReg a u (closeBank u c r b) := fun u b => .of_touches (touches_closeBank u c r b) rfl
  split
  · rfl
  · extract_lets w x
    have hx : KeepsReg a v x := by
      unfold x
      split
      · exact (hclose w _).comp (hclose v b)
      · exact hclose v b
    exact (neighbourAt_keepsReg hlow hcount x r b _).comp hx

theorem sleepChan_keepsReg (s : State) : KeepsReg a s (sleepChan s c) :=
  KeepsReg.comp (.of_touches (touches_setChan _ c _) rfl) (issuePending_keepsReg hlow hcount s)

theorem stopChan_keepsReg (s : State) (hctl : a ≠ mcBase c) (hlevel : a ≠ mcBase c + 0x80) : KeepsReg a s (stopChan s c) :=
  Eq.trans ((getReg_setFld_ne _ 6 3 0 hlevel).trans (getReg_setBit_ne _ 8 false hctl)) (issuePending_keepsReg hlow hcount s)

end

theorem checkReadyFull_keepsReg (s : State) (h : a ≠ 0x14) : KeepsReg a s (checkReadyFull s) := by
  unfold checkReadyFull
  extract_lets l
  split
  · exact getReg_setBit_ne s 2 true h
  · rfl

theorem stopChan_inactive (s : State) (c : Nat) : getBit (stopChan s c) (mcBase c) 8 = false := by
  unfold stopChan getBit
  rw [getReg_setFld_ne _ _ _ _ (by omega)]
  exact getBit_setBit_same _ _ false (by decide)

/-- The channels of slice `n` out of service. -/
def channelsOff (s : State) (n : Nat) : State :=
  checkReadyFull (sleepChan (sleepChan (stopChan (stopChan s (2 * n)) (2 * n + 1)) (2 * n)) (2 * n + 1))

theorem channelsOff_inactive (s : State) {n : Nat} (hn : n < 8) : getBit (channelsOff s n) (mcBase (2 * n)) 8 = false ∧
    getBit (channelsOff s n) (mcBase (2 * n + 1)) 8 = false := by
  have hafter : ∀ u c, c < 16 → KeepsReg (mcBase c) u (checkReadyFull (sleepChan (sleepChan u (2 * n)) (2 * n + 1))) := fun u c hc =>
    (checkReadyFull_keepsReg _ (by unfold mcBase; omega)).comp <| (sleepChan_keepsReg (by unfold mcBase; omega) (by unfold mcBase; omega) _).comp
      (sleepChan_keepsReg (by unfold mcBase; omega) (by unfold mcBase; omega) u)
  have hother : KeepsReg (mcBase (2 * n)) (stopChan s (2 * n)) (stopChan (stopChan s (2 * n)) (2 * n + 1)) :=
    stopChan_keepsReg (by unfold mcBase; omega) (by unfold mcBase; omega) _ (by unfold mcBase; omega) (by unfold mcBase; omega)
  exact ⟨(congrArg (bitOf · 8) ((hafter _ (2 * n) (by omega)).comp hother)).trans (stopChan_inactive s (2 * n)),
    (congrArg (bitOf · 8) (hafter _ (2 * n + 1) (by omega))).trans (stopChan_inactive _ (2 * n + 1))⟩

-- packets that are redirected

/-- A register that neither the redirection of packets nor an event of the spine writes. -/
def FenceReg (a : Nat) : Prop := SparedReg a ∧ ¬ FaultReg a ∧ a ≠ 0x300010 ∧ a ≠ 0x300014 ∧ a ≠ 0x30001C

theorem spineDetect_keepsReg (ha : FenceReg a) (s : State) (k r i : Nat) (p : Packet) (src syn : Nat) :
    KeepsReg a s (spineDetect s k r i p src syn) := by
  obtain ⟨-, -, herr, hcap, -⟩ := ha
  unfold spineDetect raiseErr
  extract_lets first u
  have hu : KeepsReg a s u := getReg_setBit_ne s k true herr
  split
  · exact (getReg_setReg_ne u _ hcap).trans hu
  · exact hu

theorem report_keepsReg (ha : FenceReg a) (s : State) (src : Nat) : KeepsReg a s (report s 24 src) :=
  (report_spares s src (by decide)).regs a ha.1 ha.2.1

theorem redirect_keepsReg (ha : FenceReg a) (s : State) (f : Flight) (n : Nat) : KeepsReg a s (redirect s f n).1 := by
  have hcount : ∀ lo, KeepsReg a s (satAdd s 0x30001C lo 16 1) := fun lo => getReg_setFld_ne s lo 16 _ ha.2.2.2.2
  exact .ite_fst ((report_keepsReg ha _ 9).comp (spineDetect_keepsReg ha s _ _ _ _ _ _))
    (.ite_fst ((report_keepsReg ha _ 11).comp <| (spineDetect_keepsReg ha _ _ _ _ _ _ _).comp (hcount 16)) (hcount 0))

theorem redirectQueued_keepsReg (ha : FenceReg a) (s : State) (n : Nat) : KeepsReg a s (redirectQueued s n) := by
  unfold redirectQueued
  extract_lets r here l _ u
  refine KeepsReg.comp (.foldl (fun v f => ?_) _ u) rfl
  split
  next w o heq =>
  have hw : KeepsReg a v w := by
    have h : KeepsReg a v (if here f then redirect v f n else (v, some f)).1 := .ite_fst (redirect_keepsReg ha v f n) rfl
    rwa [heq] at h
  exact hw

theorem fenceReg_mcBase {c : Nat} (hc : c < 16) : FenceReg (mcBase c) := by
  unfold FenceReg SparedReg QuietReg FaultReg mcBase
  omega

-- the fence

/-- The fence bits of slice `n`, with its packets redirected. -/
def fenceSet (s : State) (n : Nat) : State := redirectQueued (setBit (setBit s 0x300004 (16 + n) true) 0x300008 n true) n

/-- The fence of a slice outside Accord: its channels off, the fence set, and its records and series at the successor. -/
theorem fenceOff_eq {r : RunCmd} {n : Nat} (harg : r.arg = n) (hjoined : pairJoined s (n / 2) = false) : ∃ k q,
    fenceOff s r = movePhase (copySeries (passRecords (fenceSet (channelsOff s n) n) n k) n q (xlatSources
      (passRecords (fenceSet (channelsOff s n) n) n k) n)) 5 := by
  subst harg
  unfold fenceOff
  simp only [hjoined, Bool.false_eq_true, if_false]
  exact ⟨_, _, rfl⟩

theorem fenceSet_bits (s : State) {n : Nat} (hn : n < 8) : getBit (fenceSet s n) 0x300004 (16 + n) = true ∧
    getBit (fenceSet s n) 0x300008 n = true ∧ ∀ c, c < 16 → KeepsReg (mcBase c) s (fenceSet s n) := by
  have hkeeps : ∀ a, FenceReg a → KeepsReg a (setBit (setBit s 0x300004 (16 + n) true) 0x300008 n true) (fenceSet s n) :=
    fun a ha => redirectQueued_keepsReg ha _ n
  refine ⟨(congrArg (bitOf · (16 + n)) (hkeeps 0x300004 (by unfold FenceReg SparedReg QuietReg FaultReg; omega))).trans ?_,
    (congrArg (bitOf · n) (hkeeps 0x300008 (by unfold FenceReg SparedReg QuietReg FaultReg; omega))).trans ?_, fun c hc => ?_⟩
  · exact (congrArg (bitOf · (16 + n)) (getReg_setBit_ne _ n true (by decide))).trans (getBit_setBit_same s 0x300004 true (by omega))
  · exact getBit_setBit_same _ 0x300008 true (by omega)
  · exact KeepsReg.comp (hkeeps _ (fenceReg_mcBase hc)) <| Eq.trans (getReg_setBit_ne _ n true (by unfold mcBase; omega))
      (getReg_setBit_ne s (16 + n) true (by unfold mcBase; omega))

theorem fenceOff_bits {r : RunCmd} {n : Nat} (hn : n < 8) (harg : r.arg = n) (hjoined : pairJoined s (n / 2) = false) :
    getBit (fenceOff s r) 0x300004 (16 + n) = true ∧ getBit (fenceOff s r) 0x300008 n = true ∧
      getBit (fenceOff s r) (mcBase (2 * n)) 8 = false ∧ getBit (fenceOff s r) (mcBase (2 * n + 1)) 8 = false := by
  obtain ⟨k, q, heq⟩ := fenceOff_eq harg hjoined
  obtain ⟨hpower, hfence, hkeeps⟩ := fenceSet_bits (channelsOff s n) hn
  obtain ⟨heven, hodd⟩ := channelsOff_inactive s hn
  obtain ⟨u, hu⟩ : ∃ u, u = fenceSet (channelsOff s n) n := ⟨_, rfl⟩
  rw [heq, ← hu]
  rw [← hu] at hpower hfence hkeeps
  have hrest : ∀ a i, getBit (movePhase (copySeries (passRecords u n k) n q (xlatSources (passRecords u n k) n)) 5) a i = getBit u a i :=
    fun a i => congrArg (bitOf · i) (getReg_congr ((touches_movePhase _ 5).regs rfl |>.trans <|
      (touches_copySeries _ n q _).regs rfl |>.trans <| (touches_passRecords u n k).regs rfl) a)
  simp only [hrest]
  exact ⟨hpower, hfence, (congrArg (bitOf · 8) (hkeeps (2 * n) (by omega))).trans heven,
    (congrArg (bitOf · 8) (hkeeps (2 * n + 1) (by omega))).trans hodd⟩

end Sys2Proof.Proofs
end

section
/-! PROOF. The steps of an Accord move and of slice power (O60). -/

namespace Sys2Proof.Proofs

open Sys2Proof.Machine Sys2Proof.Safety Sys2Proof.Laws

variable {s : State} {r : RunCmd} {n : SliceId}

/-- A slice outside Accord is off: what it held is gone, and the move has ended. -/
theorem sliceOffEffect_gone (hrun : running s = true) (hmover : mover s = some r) (hacc : isAccordCfg r = false)
    (hphase : r.phase = 5) (harg : r.arg = n.val) (hhere : (slice s n.val).away = false) :
    getBit (sliceOffEffect s n.val) 0x300004 n.val = false ∧ (slice (sliceOffEffect s n.val) n.val).entries = [] ∧
      (slice (sliceOffEffect s n.val) n.val).filter = [] ∧ (sliceOffEffect s n.val).seq.moveLeft = none ∧
      curMode (sliceOffEffect s n.val) = curMode s ∧ ∀ i, i < 9 → pmuCount (sliceOffEffect s n.val) n.val i = 0 := by
  have heffect := sliceOffEffect_ends hrun hmover hacc hphase harg
  rw [hhere, if_neg Bool.false_ne_true] at heffect
  obtain ⟨hentries, hfilter, hretry, hcounts, hbit, hmode⟩ := domainOff_empty (s := s) n.isLt
  obtain ⟨u, hu⟩ : ∃ u, u = domainOff s n.val := ⟨_, rfl⟩
  rw [← hu] at heffect hentries hfilter hretry hcounts hbit hmode
  have hgrant := staysOff_grantLeft (n := n.val) (successorOf u n.val) n.val hretry
  obtain ⟨v, hv⟩ : ∃ v, v = grantLeft u (successorOf u n.val) n.val := ⟨_, rfl⟩
  rw [← hv] at heffect hgrant
  obtain ⟨hleft, hends, hendf, hendc, hpower, hreg⟩ := endMove_ends (n := n.val) v []
  rw [heffect]
  exact ⟨(congrArg (bitOf · n.val) (hpower.trans (hgrant.regs _ (by decide)))).trans hbit, (hends.trans hgrant.entries).trans hentries,
    (hendf.trans hgrant.filter).trans hfilter, hleft,
    congrArg (bitsOf · 0 4) ((hreg.trans (hgrant.regs _ (by decide))).trans hmode),
    fun i hi => ((hendc i (by omega)).trans (hgrant.counts i (by omega))).trans (hcounts i (by omega))⟩

theorem fits_and_quiet {a b c : Bool} (h : a = false ∨ b = false ∨ c = true) : (a && b && !c) = false := by
  revert h a b c
  decide

/-- Settles O60: each step is the branch of its effect; the write-back before the fence leaves SPN_PWR, so that a slice outside
Accord is fenced with its channels, and a slice that is off holds nothing that the end of the command brings back. -/
theorem slicesMoveAndPowerDown : Obligations.SlicesMoveAndPowerDown := by
  unfold Obligations.SlicesMoveAndPowerDown
  refine ⟨?_, ?_, ?_, ?_, ?_, ?_, ?_, ?_⟩
  · intro s n hdef hnone
    exact ⟨(congrArg (guarded s) (entryMoveEffect_idle hnone)).trans (guarded_same hdef),
      (congrArg (guarded s) (sliceDrainedEffect_idle n.val hnone)).trans (guarded_same hdef),
      (congrArg (guarded s) (sliceOffEffect_idle n.val hnone)).trans (guarded_same hdef)⟩
  · intro s r hawake hmover hphase hactive
    exact (congrArg (guarded s) (entryMoveEffect_active hawake.2 hmover hphase hactive)).trans (guarded_defined _ hawake.1)
  · intro s u v w r hawake hmover hphase hw hu hv hfits hquiet hclean
    have heffect := entryMoveEffect_moving hawake.2 hmover hphase
    simp only [← hw, ← hu, ← hv, hfits, hquiet, hclean, Bool.not_false, Bool.and_self, if_true] at heffect
    exact (congrArg (guarded s) heffect).trans (guarded_defined _ hawake.1)
  · intro s u v w r hawake hmover hphase hw hu hv hwaits
    have heffect := entryMoveEffect_moving hawake.2 hmover hphase
    simp only [← hw, ← hu, ← hv, fits_and_quiet hwaits, Bool.false_eq_true, if_false] at heffect
    exact (congrArg (guarded s) heffect).trans (guarded_defined _ hawake.1)
  · intro s r n hawake hmover hacc hphase harg hjoined hempty hqueues hclean hgoes
    have heffect := sliceDrainedEffect_empty hawake.2 hmover hacc hphase harg hjoined hempty hqueues hclean hgoes
    have hapart : pairJoined (flushCaches s n.val) (n.val / 2) = false :=
      ((samePower_flushCaches s n.val).pairJoined _).trans hjoined
    have hbits := fenceOff_bits n.isLt harg hapart
    obtain ⟨t, ht⟩ : ∃ t, t = fenceOff (flushCaches s n.val) r := ⟨_, rfl⟩
    rw [← ht] at heffect hbits
    rw [← ht]
    have hexec : exec (.sliceDrained n) s = resume s t := (congrArg (guarded s) heffect).trans (guarded_defined t hawake.1)
    exact ⟨⟨_, hexec, hbits⟩, hexec⟩
  · intro s r n hawake hmover hacc hphase harg hjoined
    refine (congrArg (guarded s) (sliceDrainedEffect_accord hawake.2 hmover hacc hphase harg hjoined)).trans
      ((guarded_defined _ hawake.1).trans ?_)
    split
    · rfl
    · rfl
  · intro s r n hawake hmover hacc hphase harg hhere
    have hgone := sliceOffEffect_gone hawake.2 hmover hacc hphase harg hhere
    obtain ⟨t, ht⟩ : ∃ t, t = sliceOffEffect s n.val := ⟨_, rfl⟩
    rw [← ht] at hgone
    exact ⟨_, (congrArg (guarded s) ht.symm).trans (guarded_defined t hawake.1), hgone⟩
  · intro s r n hawake hmover hacc hphase harg haway
    have heffect := sliceOffEffect_ends hawake.2 hmover hacc hphase harg
    simp only [haway, if_true, domainOff, offSlice] at heffect
    exact (congrArg (guarded s) heffect).trans (guarded_defined _ hawake.1)

end Sys2Proof.Proofs
end
